-- ==== Sys2Proof/Word.lean ====
section
/-! DEFINITION. The word types of the Felritor Z8 (all multi-byte fields are little-endian, R11). -/

namespace Sys2Proof

/-- One byte. -/
abbrev Byte := BitVec 8

/-- One 32-bit register or word of host memory. -/
abbrev Word := BitVec 32

/-- One 64-bit word. -/
abbrev Word64 := BitVec 64

end Sys2Proof
end

