-- ==== Sys2Proof/Machine/Bytes.lean ====
section
/-! DEFINITION. Byte order and bit fields: every multi-byte field of the manual is little-endian and bit 0 is the
least significant bit of its field (R11). Numbers read from bytes are natural numbers; a field is cut out of one by
`bitsOf`, whose arguments are in the manual's order [msb:lsb]. -/

namespace Sys2Proof.Machine

/-- The number that a run of bytes spells, least significant byte first (R11). -/
def leNat : List Byte → Nat
  | [] => 0
  | b :: bs => b.toNat + 256 * leNat bs

/-- The low `len` bytes of a number, least significant byte first (R11). -/
def toLe : Nat → Nat → List Byte
  | 0, _ => []
  | len + 1, n => BitVec.ofNat 8 n :: toLe len (n / 256)

/-- `len` zero bytes. -/
def zeros (len : Nat) : List Byte := List.replicate len 0#8

/-- The bytes `off` to `off + len - 1` of a structure, short where the structure is short. -/
def sliceOf (bs : List Byte) (off len : Nat) : List Byte := (bs.drop off).take len

/-- The little-endian field of `len` bytes at byte `off`. -/
def fieldAt (bs : List Byte) (off len : Nat) : Nat := leNat (sliceOf bs off len)

/-- The byte at `off`, as a number. -/
def byteAt (bs : List Byte) (off : Nat) : Nat := (bs.getD off 0#8).toNat

/-- Bits [hi:lo] of a number. -/
def bitsOf (n hi lo : Nat) : Nat := (n >>> lo) % 2 ^ (hi + 1 - lo)

/-- Bit `i` of a number, as a condition. -/
def bitOf (n i : Nat) : Bool := n.testBit i

/-- A condition as a bit. -/
def b2n (b : Bool) : Nat := if b then 1 else 0

/-- `n` cut to `w` bits. -/
def trunc (w n : Nat) : Nat := n % 2 ^ w

/-- A `w`-bit two's complement number as an integer. -/
def sext (w n : Nat) : Int := if n % 2 ^ w < 2 ^ (w - 1) then (n % 2 ^ w : Nat) else ((n % 2 ^ w : Nat) : Int) - (2 ^ w : Nat)

/-- An integer as a `w`-bit two's complement number. -/
def ofInt (w : Nat) (i : Int) : Nat := (i % ((2 ^ w : Nat) : Int)).toNat

/-- A count of `w` bits that saturates at its largest value. -/
def satTo (w n : Nat) : Nat := min n (2 ^ w - 1)

/-- The first byte offset of `[off, off + len)` whose byte is not 0, if any: where a reserved run is broken (R12). -/
def firstNonzero (bs : List Byte) (off : Nat) : Nat → Option Nat
  | 0 => none
  | len + 1 => if byteAt bs off != 0 then some off else firstNonzero bs (off + 1) len

/-- Every bit of `mask` that is set, as numbers, in ascending order, below `w`. -/
def setBits (w mask : Nat) : List Nat := (List.range w).filter (fun i => mask.testBit i)

/-- The number whose set bits are the listed ones. -/
def maskOf (l : List Nat) : Nat := l.foldl (fun a i => a ||| (1 <<< i)) 0

/-- Replace the element at `i` by `f` of it; a list too short is unchanged. -/
def updAt {α : Type} (l : List α) (i : Nat) (f : α → α) : List α := l.modify i f

/-- Replace `len` bytes at `off` by `new`'s. -/
def overlay (bs : List Byte) (off : Nat) (new : List Byte) : List Byte :=
  bs.take off ++ new ++ bs.drop (off + new.length)

/-- Ceiling division. -/
def cdiv (a b : Nat) : Nat := (a + b - 1) / b

end Sys2Proof.Machine
end

