-- ==== Sys2Proof/Machine/StateMem.lean ====
section
/-! DEFINITION. The state of the memory system, the mesh and the tiles (02_tiles.md, 04_self_timed_fabric.md,
07_memory_and_mesh.md): plain data. Memory is a list of (address, byte) pairs in one canonical form: addresses strictly
rising and no byte equal to 0, which is what an unlisted address reads as (zeroed granules R193, zeroed scratchpads
R49, lost contents R48 and R154). -/

namespace Sys2Proof.Machine

/-- A byte memory by physical (or bus) address, in canonical form. -/
abbrev Cells := List Host.Cell

/-- The canonical form: addresses strictly rising from `lo` on, and no byte that an unlisted address reads as. -/
def cellsFrom (lo : Nat) : Cells → Bool
  | [] => true
  | c :: cs => decide (lo ≤ c.1) && c.2 != 0#8 && cellsFrom (c.1 + 1) cs

/-- The canonical form of a whole memory. -/
def Cells.wf (m : Cells) : Bool := cellsFrom 0 m

/-- The state of a tile (R63). -/
inductive TileSt | free | loading | idle | active | resetting | fenced
deriving DecidableEq, Repr

/-- The code of TILE.STATE.STATE (R69). -/
def TileSt.code : TileSt → Nat
  | .free => 0 | .loading => 1 | .idle => 2 | .active => 3 | .resetting => 4 | .fenced => 5

/-- A power state of a domain (R150). -/
inductive PState | run | hold | rest | dark | deep
deriving DecidableEq, Repr

/-- The code of TILE.STATE.PSTATE and PWR.VD_STAT.PSTATE (R69). -/
def PState.code : PState → Nat
  | .run => 0 | .hold => 1 | .rest => 2 | .dark => 3 | .deep => 4

/-- The power state of a code, if it is one. -/
def PState.ofCode : Nat → Option PState
  | 0 => some .run | 1 => some .hold | 2 => some .rest | 3 => some .dark | 4 => some .deep | _ => none

/-- One tile: its sequencer, registers and counters (R63, R66, R69, R108 to R116). -/
structure Tile where
  /-- TILE.STATE.STATE; 3 b; R63; reset FREE -/
  st : TileSt := .free
  /-- TILE.STATE.ENGINE, none for 0xFF; 8 b; R69; reset 0xFF -/
  engine : Option Nat := none
  /-- TILE.STATE.PARTITION with ASSIGNED; 4 b and 1 b; R69; reset not assigned -/
  part : Option Nat := none
  /-- TILE.UCODE.RELEASE; 24 b; R69; reset 0 -/
  release : Nat := 0
  /-- TILE.UCODE.IMAGE; 8 b; R69; reset 0 -/
  image : Nat := 0
  /-- TILE.ERR.SP_CORR; 16 b saturating; R69; reset 0 -/
  spCorr : Nat := 0
  /-- TILE.ERR.SP_UNCORR; 8 b saturating; R69; reset 0 -/
  spUncorr : Nat := 0
  /-- TILE.ARB.AGE_LIMIT; 6 b; R69; reset 0x20 -/
  ageLimit : Nat := 0x20
  /-- The PACE counter; 64 b; R110; reset 0 -/
  pace : BitVec 64 := 0
  /-- The BEATS counter; 64 b; R110; reset 0 -/
  beats : BitVec 64 := 0
  /-- The WORK counter; 64 b; R110; reset 0 -/
  work : BitVec 64 := 0
  /-- The holding registers: PACE, BEATS and WORK as the last latch pulse copied them; 64 b each; R113; reset 0 -/
  held : BitVec 64 × BitVec 64 × BitVec 64 := (0, 0, 0)
  /-- Module time up to which its counters stand; R111; reset 0 -/
  countedAt : Nat := 0
  /-- BEATS as the work item in progress began; 64 b; R118; reset 0 -/
  itemFrom : BitVec 64 := 0
  /-- PACE, BEATS and WORK latched when the tile joined its partition; 64 b each; R116; reset 0 -/
  base : BitVec 64 × BitVec 64 × BitVec 64 := (0, 0, 0)
  /-- Its domain stayed in RUN, HOLD or REST and it was not reset since the last sample of its partition's page; R115; reset 0 -/
  contPart : Bool := false
  /-- The same since the last sample of the module page; R115; reset 0 -/
  contMod : Bool := false
  /-- It joined its partition since the last sample of the partition's page; R115; reset 0 -/
  joined : Bool := false
  /-- The work item in progress and those queued, as (partition, fetch number); up to 65; R66; reset none -/
  items : List (Nat × Nat) := []
  /-- A fence that waits for the end of the work item, the load or the recovery, by its reason; R509, R514; reset none -/
  fencePending : Option Nat := none
deriving DecidableEq, Repr

/-- One granule of stacked DRAM or of the bulk tier (R189, R195, R210, R211). -/
structure Granule where
  /-- OWNER, the tag of R183; 5 b; R210; reset 0x1F free -/
  owner : Nat := 0x1F
  /-- LOCAL and PORT: the port of a port-local granule; R210; reset interleaved -/
  loc : Option Nat := none
  /-- The slices that back it, as (port or channel, slice); R189; reset none -/
  slices : List (Nat × Nat) := []
  /-- Retired frames, as frame numbers PA / 64 KiB, each with the addresses of its failing words; R204; reset none -/
  retired : List (Nat × List Nat) := []
  /-- The ports or channels on whose loss every frame was retired; R603; reset none -/
  gone : List Nat := []
deriving DecidableEq, Repr

/-- Every frame of the granule was retired under R603. -/
def Granule.allRetired (g : Granule) : Bool := !g.gone.isEmpty

/-- A frame of the granule is retired (R204, R603). -/
def Granule.isRetired (g : Granule) (frame : Nat) : Bool := g.allRetired || g.retired.any (fun x => x.1 == frame)

/-- One DRAM channel of a port, or one bulk channel: its upkeep (R205, R206). -/
structure Chan where
  /-- Scrub position, the next word to read; R205; reset 0 -/
  scrubPos : Nat := 0
  /-- Module time from which the even pace counts, moved on by the time in self-refresh; R205; reset 0 -/
  scrubFrom : Nat := 0
  /-- Words scrubbed since then; R205; reset 0 -/
  scrubDone : Nat := 0
  /-- Start of the 10 ms window of forced scrub slices, and the µs taken in it; R205; reset 0 -/
  scrubWin : Nat × Nat := (0, 0)
  /-- Scrub takes forced slices; R205; reset 0 -/
  scrubForced : Bool := false
  /-- Module time since which a recalibration is due; R206; reset none -/
  recalDue : Option Nat := none
  /-- The recalibration is forced; R206; reset 0 -/
  recalForced : Bool := false
  /-- Forced recalibration slices taken, at most 16; R206; reset 0 -/
  recalSlices : Nat := 0
  /-- Module time of the last recalibration; R206; reset 0 -/
  lastRecal : Nat := 0
  /-- The temperature of the channel's stack at the last recalibration, in 0.1 K; R206; reset 0 -/
  lastTemp : Int := 0
  /-- Module time of the last forced recalibration slice; R206; reset none -/
  lastSlice : Option Nat := none
  /-- It left self-refresh and has not been recalibrated since: it carries no traffic; R207; reset 0 -/
  cold : Bool := false
deriving DecidableEq, Repr

/-- A memory port MPp or a bulk channel BCc (R187, R202 to R210, R603). -/
structure MemPort where
  /-- In service: trained, its rail good, not fenced; R603; reset in service -/
  avail : Bool := true
  /-- The channels on which every word reads as poisoned but those written whole since: all of them once the port came
  back, the lost ones after a reset; R508, R603; reset none -/
  stale : List Nat := []
  /-- The words of those channels written whole since, as ranges of physical addresses (first, end); R508, R603; reset
  none -/
  healed : List (Nat × Nat) := []
  /-- MEM.PORT_ERR.CORR or BULK.CH_ERR.CORR; 16 b saturating; R210; reset 0 -/
  corr : Nat := 0
  /-- MEM.PORT_ERR.UNCORR or BULK.CH_ERR.UNCORR; 8 b saturating; R210; reset 0 -/
  uncorr : Nat := 0
  /-- The lost slices, kept in flash; R204; reset none -/
  lost : List Nat := []
  /-- FORCED_US; 32 b saturating; R210; reset 0 -/
  forcedUs : Nat := 0
  /-- BULK.CH_STAT.REFRESH, the highest MR4 field read; 3 b; R196; reset 0 -/
  mr4 : Nat := 0
  /-- Its DRAM channels: six of HBM3 behind a memory port, one for a bulk channel; R187 -/
  chans : List Chan := []
deriving DecidableEq, Repr

/-- What a mesh transaction does (R177). -/
inductive TxnOp | read | write
deriving DecidableEq, Repr

/-- A mesh transaction on its way (R177, R181, R183), or its response. -/
structure Txn where
  /-- The source tile, none for a hub unit; R183 -/
  src : Option Nat
  /-- The tag; 5 b; R183 -/
  tag : Nat
  /-- The operation; R177 -/
  op : TxnOp
  /-- The 40-bit device physical address; R177 -/
  pa : Nat
  /-- Length in bytes; R177 -/
  len : Nat
  /-- The data of a write, or what the read returned; R177 -/
  data : List Byte
  /-- It takes the alternate dimension order; R181 -/
  alt : Bool := false
  /-- Its number among its source's outstanding transactions; 12 b; R177 -/
  num : Nat := 0
  /-- Module time of its issue; R181 -/
  issued : Nat := 0
  /-- The routers that it passes, from its source's to its destination's; R180 -/
  route : List Nat := []
  /-- It keeps to the confined class; R24, R180 -/
  confined : Bool := false
  /-- The gate port that it passes, 0 to 5; R192 -/
  gate : Option Nat := none
  /-- A response: some word of its data carries the poison mark; R203 -/
  poisoned : Bool := false
  /-- A response: the error response of a refusal; R184 -/
  refused : Bool := false
deriving DecidableEq, Repr

/-- A transaction or response that is under way in the mesh (R180, R181, R185). -/
structure Flight where
  /-- The transaction, or the response to it; R177 -/
  txn : Txn
  /-- The routers that it has yet to pass; empty while it waits for room at its destination; R181, R185 -/
  rest : List Nat
  /-- It is the response; R180 -/
  back : Bool := false
deriving DecidableEq, Repr

/-- A first-in first-out crossing between the fabric and a clocked domain (R124, R125). -/
structure Crossing where
  /-- Towards the clocked side, oldest first; R124; reset empty -/
  inward : List Flight := []
  /-- Towards the fabric, oldest first; R124; reset empty -/
  outward : List Flight := []
deriving DecidableEq, Repr

/-- One cached translation (R200): a page of a partition. -/
structure XlatEntry where
  /-- The tile's cache that holds it, none for the hub's; R200 -/
  src : Option Nat
  /-- First virtual address of the page; R198 -/
  va : Nat
  /-- Its size in bytes, 64 KiB or 2 MiB; R198 -/
  size : Nat
  /-- First physical address; R199 -/
  pa : Nat
  /-- Writes are permitted on every entry of its walk; R199 -/
  w : Bool
deriving DecidableEq, Repr

/-- The MEM registers of a partition page (R209). -/
structure PartMem where
  /-- MEM.PT_ROOT_HI:PT_ROOT_LO, the address of the L0 table; 40 b; R209; reset 0 -/
  root : Nat := 0
  /-- MEM.PT_ROOT_LO.ENABLE; 1 b; R209; reset 0 -/
  enable : Bool := false
  /-- MEM.XLAT_CTRL.BUSY; 1 b; R209; reset 0 -/
  busy : Bool := false
  /-- MEM.FAULT while VALID: (reason, source, write) and MEM.FAULT_VA; R209; reset not valid, fields 0 -/
  faultValid : Bool := false
  /-- MEM.FAULT.REASON; 4 b; R209; reset 0 -/
  faultReason : Nat := 0
  /-- MEM.FAULT.SOURCE; 8 b; R209; reset 0 -/
  faultSource : Nat := 0
  /-- MEM.FAULT.WRITE; 1 b; R209; reset 0 -/
  faultWrite : Bool := false
  /-- MEM.FAULT_VA_HI:FAULT_VA_LO; 48 b; R209; reset 0 -/
  faultVa : Nat := 0
  /-- MEM.ERR.CORR; 16 b saturating; R209; reset 0 -/
  corr : Nat := 0
  /-- MEM.ERR.UNCORR; 8 b saturating; R209; reset 0 -/
  uncorr : Nat := 0
  /-- MEM.ERR.RETIRED; 8 b saturating; R209; reset 0 -/
  retired : Nat := 0
  /-- The translations cached for the partition, newest first; R200; reset none -/
  xlat : List XlatEntry := []
deriving DecidableEq, Repr

/-- The memory system of the module (R186 to R211, R603). -/
structure MemSys where
  /-- Device memory by physical address: stacked DRAM, bulk tier and scratchpad windows; R197; reset nothing listed, all bytes 0 -/
  cells : Cells := []
  /-- Poisoned words, by the physical address of their first byte; R203; reset none -/
  poison : List Nat := []
  /-- Unavailable words whose poison has been reported by MEM_UNCORR; R603; reset none -/
  reported : List Nat := []
  /-- Corrected words of the last 24 h, as (word address, module time); R204; reset none -/
  corrected : List (Nat × Nat) := []
  /-- Granules G0 to G143; R189 -/
  grans : List Granule := List.replicate 144 {}
  /-- Bulk granules B0 to B359; R195 -/
  bulk : List Granule := List.replicate 360 {}
  /-- Memory ports MP0 to MP15; R187 -/
  ports : List MemPort := List.replicate 16 { chans := List.replicate 6 {} }
  /-- Bulk channels BC0 to BC7; R194 -/
  bchans : List MemPort := List.replicate 8 { chans := [{}] }
  /-- MEM.SCRUB_CTRL.INTERVAL_H; 7 b; R210; reset 0x18 -/
  scrubH : Nat := 0x18
  /-- MEM.RECAL_CTRL.PERIOD_S; 12 b; R210; reset 0x12C -/
  recalS : Nat := 0x12C
  /-- The availability map: bit t set while tile t's router is available; 64 b; R181; reset 0, every domain is DARK -/
  avail : BitVec 64 := 0
  /-- Transactions waiting at their source for a route, oldest first; R181; reset none -/
  waiting : List Txn := []
  /-- Transactions and responses under way in the mesh that wait at a router, oldest first; R181, R185; reset none -/
  flights : List Flight := []
  /-- The crossings of memory ports MP0 to MP15 (0 to 15) and of the gate ports of T08, T16, T24, T32, T40 and T48 (16 to
  21); R124, R125; reset empty -/
  cross : List Crossing := List.replicate 22 {}
  /-- Transactions accepted by each memory port's scheduler (0 to 15), each bulk channel's (16 to 23) and each tile's
  scratchpad window (24 to 87), oldest first; R50, R185; reset none -/
  queued : List (List Txn) := List.replicate 88 []
  /-- Module time since which stacked DRAM is in self-refresh; R150, R207; reset none -/
  asleep : Option Nat := none
  /-- Module time since which the bulk tier is in self-refresh; R150, R207; reset none -/
  bulkAsleep : Option Nat := none
  /-- Transactions that were in flight across the boundary of a unit when it was reset, never answered, each with that unit's kind and
  number: their sources wait on; R506, R507; reset none -/
  edge : List (Txn × Nat × Nat) := []
  /-- The responses last returned, with their data, newest first; R180, R184, R203; reset none -/
  answered : List Txn := []
deriving DecidableEq, Repr

/-- An engine of a partition (R62, R285). -/
structure Engine where
  /-- Engine index; 0 to 63; R285 -/
  idx : Nat
  /-- The tiles named by the configuration; 64 b; R285 -/
  tiles : List Nat
  /-- ELASTIC; R285 -/
  elastic : Bool
  /-- IMAGE; 8 b; R285 -/
  image : Nat
  /-- RELEASE; 24 b; R285 -/
  release : Nat
  /-- DEF_TIMEOUT in ms (0 means 10,000); 32 b; R285 -/
  defTimeout : Nat
  /-- The configuration's command, which completes when its last tile is loaded; R285 -/
  loadedBy : Option (Nat × Nat) := none
deriving DecidableEq, Repr

/-- A rate-sample page's control (R114, R115, R127), of a partition or of the module. -/
structure RateCtl where
  /-- The rate page's bus address; 64 b; R127; reset 0 -/
  base : Nat := 0
  /-- ENABLE; 1 b; R127; reset 0 -/
  enable : Bool := false
  /-- PERIOD in units of 10 µs; 17 b; R127; reset 0 -/
  period : Nat := 0
  /-- The SEQ word of the last page written; 32 b; R115; reset 0 -/
  seq : Nat := 0
  /-- The next sample is a first sample; R115; reset 1 -/
  first : Bool := true
  /-- TIME of the previous sample; 64 b; R115; reset 0 -/
  prevTime : Nat := 0
  /-- Module time of the next sample; R114; reset none -/
  next : Option Nat := none
deriving DecidableEq, Repr

/-- The partition-independent part of the fabric's time keeping (R113 to R127). -/
structure Fabric where
  /-- The 64 tiles T00 to T63; R63 -/
  tiles : List Tile := List.replicate 64 {}
  /-- The module rate page's control; R127; reset off -/
  rate : RateCtl := {}
  /-- FAB.CLKSTAT.LOCKED, one bit for each of the 26 clocked domains; 26 b; R127; reset 0 -/
  locked : BitVec 26 := 0
  /-- The engines that load, as (partition, engine index), in the order of their commands: the first loads; R64; reset none -/
  loads : List (Nat × Nat) := []
  /-- FAB.LOCK_LOSS.LOST; 26 b; R127; reset 0 -/
  lockLoss : BitVec 26 := 0
deriving DecidableEq, Repr

end Sys2Proof.Machine
end

