-- ==== Sys2Proof/Machine/StatePower.lean ====
section
/-! DEFINITION. The state of power entry, power management and thermal control (05_power.md, 06_thermal.md): plain
data. Voltages at the connector and the node are in 0.1 V, domain voltages in steps of 2.5 mV, temperatures in 0.1 K,
flow in mL/min, as the registers hold them. -/

namespace Sys2Proof.Machine

/-- The state of the module (00_scope.md, R134, R490). -/
inductive ModSt
  | off | precharge | guardBoot | stewardBoot | train | selftest | ready | degraded | curtain | safe
deriving DecidableEq, Repr

/-- The types of a power-quality record (R137). -/
inductive PqType | sag | swell | interruption | transient
deriving DecidableEq, Repr

/-- The TYPE code of a power-quality record (R138). -/
def PqType.code : PqType → Nat
  | .sag => 1 | .swell => 2 | .interruption => 3 | .transient => 4

/-- A power-quality record (R138). -/
structure PqRec where
  /-- TYPE; 4 b; R138 -/
  kind : PqType
  /-- CURTAIN; 1 b; R138 -/
  curtain : Bool := false
  /-- SWITCH; 1 b; R138 -/
  switch : Bool := false
  /-- SHUTDOWN; 1 b; R138 -/
  shutdown : Bool := false
  /-- EXTREME in 0.1 V; 16 b; R138 -/
  extreme : Nat
  /-- PRIOR in 0.1 V; 16 b; R138 -/
  prior : Nat
  /-- NODE_MIN in 0.1 V; 16 b; R138 -/
  nodeMin : Nat
  /-- START; 64 b; R138 -/
  start : Nat
  /-- DURATION; 64 b; R138 -/
  duration : Nat := 0
deriving DecidableEq, Repr

/-- The powers of one domain as the power controller reports them (R29), in W. -/
structure DomPower where
  /-- In RUN at each voltage code from 0 on -/
  atCode : List Nat
  /-- In HOLD -/
  hold : Nat
  /-- In REST -/
  rest : Nat
deriving DecidableEq, Repr

/-- The power controller's report for a resolution (R28, R29), in W and 0.1 W and 0.1 V. -/
structure PowerReport where
  /-- Hub and memory power -/
  hub : Nat := 0
  /-- The 16 domains -/
  doms : List DomPower := []
  /-- The stacks S0 to S5 (R160, R162) -/
  stackWs : List Nat := []
  /-- The blocks of the sensing points H0 to H3 and P0 to P5 (R160, R162) -/
  points : List Nat := []
  /-- Input power, mean over the last 1 ms, in 0.1 W -/
  inputDw : Nat := 0
  /-- Connector voltage, mean over the last 1 ms, in 0.1 V -/
  busDv : Nat := 0
  /-- Input-node voltage in 0.1 V -/
  nodeDv : Nat := 0
deriving DecidableEq, Repr

/-- A rail of R139: off, on its way, or within 3 % of its set value (R140). -/
inductive RailSt | off | moving | good
deriving DecidableEq, Repr

/-- One voltage domain VDk and its regulator (R143, R150, R156, R163, R164). -/
structure Domain where
  /-- PWR.VD_STAT.PSTATE; 3 b; R156; reset 0b011 DARK -/
  st : PState := .dark
  /-- The power state being entered or woken to; R150; reset DARK -/
  target : PState := .dark
  /-- The regulator's voltage in steps of 2.5 mV, 0 when off (0.620 V is 248); R143; reset 0 -/
  volt : Nat := 0
  /-- The set voltage toward which the regulator steps; R143; reset 0 -/
  setVolt : Nat := 0
  /-- The set voltage code the domain returns to in RUN and HOLD; 7 b; R143; reset 0x48 -/
  code : Nat := 0x48
  /-- The voltage code the steward asks for at level 7; R26; reset 0x48 -/
  wantCode : Nat := 0x48
  /-- The power state the steward asks for at level 7; R26; reset DARK -/
  wantSt : PState := .dark
  /-- PWR.VD_STAT.POWER_W; 12 b; R156; reset 0 -/
  powerW : Nat := 0
  /-- THM.DOMAIN_CAP.CAP_W; 12 b saturating; R176; reset 0 -/
  capW : Nat := 0
  /-- The highest voltage code that fits the predictor cap, none when no code fits; R163; reset 120, no cap -/
  capCode : Option Nat := some 120
  /-- THM.DOMAIN_CAP.BINDING; 1 b; R176; reset 0 -/
  capBind : Bool := false
  /-- A tile's trip holds the domain in HOLD; R164; reset 0 -/
  tripped : Bool := false
  /-- A trip of a hub or power-stage point holds every domain in HOLD; R164; reset 0 -/
  auxTrip : Bool := false
  /-- Its regulator has faulted: it stays in DARK until the next start-up; R141; reset 0 -/
  railFault : Bool := false
  /-- The guard moved it to REST under R149; reset 0 -/
  shedRest : Bool := false
  /-- The level whose clamp stands on the steward's request, 0 for none; R27; reset 0 -/
  clamp : Nat := 0
  /-- Keep-warm runs continuous self-test on the domain's idle tiles; R172; reset 0 -/
  warming : Bool := false
deriving DecidableEq, Repr

/-- Power entry and the module's budgets (R128 to R149, R156). -/
structure Power where
  /-- PWR.INPUT.BUS_DV, the connector voltage in 0.1 V; 16 b; R156; reset 0 -/
  busDv : Nat := 0
  /-- PWR.INPUT.POWER_DW, the input power in 0.1 W; 16 b; R156; reset 0 -/
  powerDw : Nat := 0
  /-- PWR.HOLDUP.NODE_DV, the input node in 0.1 V; 16 b; R156; reset 0 -/
  nodeDv : Nat := 0
  /-- The input switch is closed; R129, R135; reset open -/
  switchOn : Bool := false
  /-- The input switch is open under R135; R135; reset 0 -/
  overvolt : Bool := false
  /-- Module time at which it last opened under R135; R138; reset none -/
  overAt : Option Nat := none
  /-- PRECHG is asserted; R142; reset deasserted -/
  prechg : Bool := false
  /-- The orderly shutdown sequence has begun; R133; reset 0 -/
  shutdown : Bool := false
  /-- The rails AON, IB48, VHUB, VHIO, VPHY, LP_VDD1, LP_VDD2H, LP_VDD2L, LP_VDDQ, HBM_VPP, HBM_VDD, HBM_VDDQ; R139, R140; reset
  off -/
  rails : List RailSt := List.replicate 12 .off
  /-- The power controller's last report; R28, R29; reset no powers, DESIGN CHOICE -/
  report : PowerReport := {}
  /-- The module is in DEEP, or has left it and not reached RUN: BAR0 reads return 0; R154; reset 0 -/
  deepRead : Bool := false
  /-- The open power-quality records, oldest first; R137; reset none -/
  pqOpen : List PqRec := []
  /-- The closed records, oldest first, at most 1,024; R137; reset empty (flash) -/
  pqRing : List PqRec := []
  /-- PWR.PQ_COUNT: sags, swells, interruptions, transients; 8 b each saturating; R156; reset 0 -/
  pqCount : Nat × Nat × Nat × Nat := (0, 0, 0, 0)
  /-- PWR.CAP.CAP_W; 11 b; R156; reset 0x640 -/
  capW : Nat := 0x640
  /-- PWR.SHED.ASSERTED, SHED# is low; 1 b; R156; reset 0 -/
  shed : Bool := false
  /-- The budget written since SHED# was last deasserted; R146; reset none -/
  shedW : Option Nat := none
  /-- PWR.SHED.DEFAULT_W; 11 b; R156; reset 0x320 -/
  shedDefault : Nat := 0x320
  /-- PWR.CURTAIN.BUDGET_W; 11 b; R156; reset 0x4B0 -/
  curtainW : Nat := 0x4B0
  /-- The curtain budget is in force at level 3; R131; reset 0 -/
  curtainOn : Bool := false
  /-- The partitions whose event rings received the last CURTAIN_ENTER; R133; reset none -/
  curtainParts : List Nat := []
  /-- PWR.STATE_CTRL.IDLE_CEIL; 3 b; R156; reset 2 -/
  idleCeil : Nat := 2
  /-- PWR.STATE_CTRL.DEEP_ALLOW; 1 b; R156; reset 0 -/
  deepAllow : Bool := false
  /-- PWR.ROOM.ROOM_W; 11 b; R156; reset 0x640 -/
  roomW : Nat := 0x640
  /-- PWR.ROOM.BINDING; 3 b; R156; reset 0 -/
  binding : Nat := 0
  /-- The 16 domains VD0 to VD15; R143 -/
  doms : List Domain := List.replicate 16 {}
deriving DecidableEq, Repr

/-- The PWR state of one partition (R29, R157). -/
structure PartPwr where
  /-- PWR.FIXED.ENABLE; 1 b; R157; reset 0 -/
  fixed : Bool := false
  /-- PWR.FIXED.VCODE; 7 b; R157; reset 0x48 -/
  vcode : Nat := 0x48
  /-- PWR.PSTAT.PAUSED; 1 b; R157; reset 0 -/
  paused : Bool := false
  /-- PWR.PSTAT.PAUSES; 8 b saturating; R157; reset 0 -/
  pauses : Nat := 0
  /-- Module time since which the pinned voltage fits all limits at levels 1 to 4; R29; reset none -/
  fitSince : Option Nat := none
  /-- Module time of the wake that state selection planned; R152; reset none -/
  wakeAt : Option Nat := none
deriving DecidableEq, Repr

/-- A hot spot with two sensors: a tile junction or a stack top (R159 to R165, R173). Temperatures in 0.1 K. -/
structure HotSpot where
  /-- The last readings of S0 and S1; R159; reset 0 -/
  r0 : Int := 0
  /-- The last reading of S1; R159; reset 0 -/
  r1 : Int := 0
  /-- S0 is failed; R160; reset 0 -/
  fail0 : Bool := false
  /-- S1 is failed; R160; reset 0 -/
  fail1 : Bool := false
  /-- S0 is suspect; R161; reset 0 -/
  susp0 : Bool := false
  /-- S1 is suspect; R161; reset 0 -/
  susp1 : Bool := false
  /-- The samples of S0 of the last 10 s as (module time, reading in 0.01 K, power in W), newest first; R160; reset none -/
  hist0 : List (Nat × Int × Nat) := []
  /-- The same of S1; R160; reset none -/
  hist1 : List (Nat × Int × Nat) := []
  /-- Module time since which the sensors agree within 3 K; R161; reset none -/
  agreeSince : Option Nat := none
  /-- T_CTL, the control value; 16 b signed; R161, R176; reset 0 -/
  ctl : Int := 0
  /-- The model's estimate; R162; reset 0 -/
  est : Int := 0
  /-- Module time since which the sensors differ by more than 6 K; R161; reset none -/
  diffSince : Option Nat := none
  /-- The health event of both sensors far from the model has gone out for this difference; R161; reset 0 -/
  farNoted : Bool := false
  /-- The high mark of the cycle count, set by the first control value after OFF; R173; reset none -/
  high : Option Int := none
  /-- THM.TILE_CYC.TOTAL, kept in flash; 16 b saturating; R173; reset 0 -/
  cycTotal : Nat := 0
  /-- Cycles of the last 24 hours, newest hour first; THM.TILE_CYC.LAST_24H is their sum; R173; reset 0 -/
  cycHours : List Nat := List.replicate 24 0
  /-- The thermal-cycle budget is reached; R174; reset 0 -/
  overBudget : Bool := false
  /-- Module time since which a stack's control value is above 95 °C; R164; reset none -/
  hotSince : Option Nat := none
  /-- THM.STACK_T.REFRESH_2X (stacks only); R165; reset 0 -/
  refresh2x : Bool := false
  /-- Module time since which a stack's control value is at or below 83 °C; R165; reset none -/
  coolSince : Option Nat := none
  /-- A tile's control value has reached 105 °C and not yet fallen below 100 °C; R164; reset 0 -/
  tripped : Bool := false
deriving DecidableEq, Repr

/-- A single-sensor point of the hub or the power stage (R159, R161). -/
structure AuxSpot where
  /-- T_CTL; 16 b signed; R176; reset 0 -/
  ctl : Int := 0
  /-- FAILED; R160; reset 0 -/
  failed : Bool := false
  /-- The samples of the last 10 s as (module time, reading in 0.01 K, power in W), newest first; R160; reset none -/
  hist : List (Nat × Int × Nat) := []
  /-- The model's estimate; R162; reset 0 -/
  est : Int := 0
  /-- Its value has passed its limit and not yet fallen 5 K below; R164; reset 0 -/
  tripped : Bool := false
deriving DecidableEq, Repr

/-- Thermal control (R158 to R176). -/
structure Thermal where
  /-- The tile junctions T00 to T63; R159 -/
  tiles : List HotSpot := List.replicate 64 {}
  /-- The stacks S0 to S5; R159 -/
  stackSpots : List HotSpot := List.replicate 6 {}
  /-- H0 to H3 and P0 to P5; R159 -/
  aux : List AuxSpot := List.replicate 10 {}
  /-- THM.COOL_TEMP.INLET; 16 b signed; R176; reset 0 -/
  inlet : Int := 0
  /-- An inlet sample has been taken since OFF, so that INLET_LOW and INLET_HIGH can show; R176; reset 0 -/
  inletSeen : Bool := false
  /-- The inlet sensor is failed; R160; reset 0 -/
  inletFailed : Bool := false
  /-- The outlet sensor is failed; R160; reset 0 -/
  outletFailed : Bool := false
  /-- THM.COOL_TEMP.OUTLET; 16 b signed; R176; reset 0 -/
  outlet : Int := 0
  /-- The outlet samples of the last 200 ms as (module time, value), newest first; R169; reset none -/
  outlets : List (Nat × Int) := []
  /-- THM.FLOW.FLOW_ML; 16 b; R176; reset 0 -/
  flow : Nat := 0
  /-- THM.FLOW.SOURCE; 1 b; R176; reset 0 -/
  flowSrc : Bool := false
  /-- The flow meter has failed or is out of range (THM.STATUS.METER_FAULT); R167; reset 0 -/
  meterFault : Bool := false
  /-- The flow meter has failed: it returns to use only after a module reset; R160; reset 0 -/
  meterFailed : Bool := false
  /-- Module time since which the flow in use is below 1.92 L/min; R168; reset none -/
  lowSince : Option Nat := none
  /-- Module time since which level 2 does not bind; R168; reset none -/
  freeSince : Option Nat := none
  /-- Module time since which the conditions of R171 hold; R171; reset none -/
  calmSince : Option Nat := none
  /-- Module time of the last flow sample at or above 1.92 L/min; R169; reset none -/
  flowOkAt : Option Nat := none
  /-- THM.ALLOW.ALLOW_W; 12 b saturating; R176; reset 0 -/
  allowW : Nat := 0
  /-- The predictor has run since OFF, so its caps and the allowance are known; R162; reset 0 -/
  predicted : Bool := false
  /-- THM.STATUS.FLOW_WARN; 1 b; R176; reset 0 -/
  flowWarn : Bool := false
  /-- FLOW_LIMIT has been sent and FLOW_LIMIT_EXIT not yet; R168; reset 0 -/
  flowLimit : Bool := false
  /-- THM.STATUS.KEEPWARM_YIELD; 1 b; R176; reset 0 -/
  keepYield : Bool := false
  /-- THM.STATUS.EMERGENCY: the module is in SAFE under R168 or R169; 1 b; R176; reset 0 -/
  emergency : Bool := false
  /-- The THERMAL_EMERGENCY cause, 1 to 3; R175; reset 0 -/
  cause : Nat := 0
  /-- Module time of the last THERMAL_CLEAR; R171; reset none -/
  clearAt : Option Nat := none
  /-- A second sudden stop holds the module in SAFE until REARM; R171; reset 0 -/
  rearmHold : Bool := false
  /-- THM.COOLANT.GLYCOL; 5 b; R176; reset 0x1E -/
  glycol : Nat := 0x1E
  /-- THM.KEEPWARM.ENABLE; 1 b; R176; reset 1 -/
  keepWarm : Bool := true
  /-- THM.KEEPWARM.FLOOR_C; 6 b; R176; reset 0x28 -/
  floorC : Nat := 0x28
  /-- Keep-warm is suspended (a steward restart or a sudden stop); R169, R452; reset 0 -/
  keepSuspended : Bool := false
  /-- THM.CYCLE.BUDGET; 10 b; R176; reset 0x0C8 -/
  cycBudget : Nat := 0x0C8
  /-- The hour of module time that the newest bucket of the cycle counts stands for; R173; reset 0 -/
  cycHour : Nat := 0
  /-- THM.EVENTS.TRIPPED; 1 b; R176; reset 0 -/
  evTripped : Bool := false
  /-- THM.EVENTS.SUDDEN; 1 b; R176; reset 0 -/
  evSudden : Bool := false
  /-- THM.EVENTS.SUSPECTED; 1 b; R176; reset 0 -/
  evSuspected : Bool := false
  /-- THM.EVENTS.WARNED; 1 b; R176; reset 0 -/
  evWarned : Bool := false
  /-- The largest error of each update of the last 1 s as (module time, node, error in 0.1 K), newest first; R162, R176; reset none -/
  errs : List (Nat × Nat × Nat) := []
deriving DecidableEq, Repr

end Sys2Proof.Machine
end

