-- ==== Sys2Proof/Syntax.lean ====
section
/-! DEFINITION. The commands of the module: every row of the opcode table is one constructor of `Instr`. A command carries
what its sender or the environment brings with it: the value of a register write, the measured quantity of an event, the
frame or message that arrived, the data a read of host memory returned. The opcode table gives its rows no bits, so the
operands are the model's choice (notes/assumptions/1.md). -/

namespace Sys2Proof

open Sys2Proof.Machine

/-- A descriptor that was fetched: the partition, its fetch number there, and whether the command only starts it (its
work items are handed out and it stays in progress) or also runs it to its completion record. -/
structure DescRef where
  /-- The partition that fetched it; 0 to 15 -/
  part : Nat
  /-- Its fetch number within the partition (R227) -/
  num : Nat
  /-- Start it only (R254): its work is under way afterwards, and a later command runs it to its end -/
  startOnly : Bool := false
deriving DecidableEq, Repr

/-- What a read that the module issued to host memory returned (R215). -/
inductive HostRead where
  /-- The bytes read -/
  | data (bytes : List Byte)
  /-- The sealed units read, in order, each with its 32-byte seal (R460) -/
  | sealed (units : List (List Byte × List Byte))
  /-- Unsupported Request or Completer Abort -/
  | refused
  /-- A poisoned completion -/
  | poisoned
  /-- A completion timeout -/
  | timedOut
deriving DecidableEq, Repr

/-- What a failed read was reading (R215). -/
inductive ReadOf where
  /-- The doorbell page -/
  | doorbell
  /-- A descriptor of an SQ -/
  | descriptor (q : Nat)
  /-- Input data of a command, by fetch number -/
  | input (num : Nat)
deriving DecidableEq, Repr

/-- A ring of a partition. -/
inductive RingId where
  /-- Submission ring q -/
  | sq (q : Nat)
  /-- Completion ring c -/
  | cq (c : Nat)
  /-- The event ring -/
  | evt
deriving DecidableEq, Repr

/-- A rail that faults (R141): a core domain regulator, or another rail of R139 by its place in the table. -/
inductive Rail where
  /-- The regulator of VDk -/
  | vd (k : Nat)
  /-- Another rail -/
  | other (n : Nat)
deriving DecidableEq, Repr

/-- What the power-quality monitor measured (R137, R138); voltages in 0.1 V, times in ns. -/
structure PqMeasure where
  /-- The condition's type -/
  kind : PqType
  /-- Lowest or highest connector voltage so far -/
  extreme : Nat
  /-- Mean of the connector over 10 ms before -/
  prior : Nat
  /-- Lowest input-node voltage so far -/
  nodeMin : Nat
  /-- How long the condition has lasted (open), or was last present after its start (close) -/
  lasted : Nat
  /-- How long it has been absent (close) -/
  absent : Nat
deriving DecidableEq, Repr

/-- Why a domain wakes (R150). -/
inductive WakeCause where
  /-- A nudge, or a doorbell read that finds new work, of a partition -/
  | work
  /-- A scheduled wake under R152 -/
  | scheduled
  /-- A packet on a stream channel of its partition -/
  | packet
  /-- A demand from the guard under R26 -/
  | guard
deriving DecidableEq, Repr

/-- One sample of a sensor (R159). Temperatures in 0.01 K (°C), flow in mL/min; none: the sensor did not answer. -/
inductive Sample where
  /-- Sensor n (0 or 1) of tile junction t -/
  | tile (t n : Nat) (v : Option Int)
  /-- Sensor n of stack k -/
  | stack (k n : Nat) (v : Option Int)
  /-- Sensing point i, H0 to H3 and P0 to P5 -/
  | aux (i : Nat) (v : Option Int)
  /-- Coolant inlet -/
  | inlet (v : Option Int)
  /-- Coolant outlet -/
  | outlet (v : Option Int)
  /-- Flow meter -/
  | flow (v : Option Nat)
deriving DecidableEq, Repr

/-- The mesh transactions of a transfer that a mover or hub unit asks for (R57, R177): one, or one for each place of up to three
dimensions. -/
structure TxnReq where
  /-- The source tile, none for a hub unit -/
  src : Option Nat
  /-- The tag it carries (R183) -/
  tag : Nat
  /-- Read or write -/
  op : TxnOp
  /-- The address is virtual and is translated under the tag's partition (R200) -/
  virt : Bool
  /-- The address -/
  addr : Nat
  /-- Bytes of each transaction: 1 to 32 flits of 128 bytes -/
  len : Nat
  /-- Data of a write, that of one transaction after that of the other -/
  data : List Byte
  /-- The dimensions of the transfer as (count, byte stride), the innermost first; at most three -/
  dims : List (Nat × Nat) := []
deriving DecidableEq, Repr

/-- What another rank of a collective sends round the ring (R382, R383). -/
structure RankMsg where
  /-- Its rank -/
  rank : Nat
  /-- Its roll call, in the order of R382 -/
  roll : List Nat
  /-- The bytes of its send tensor's elements, in logical order (R383) -/
  data : List Byte
deriving DecidableEq, Repr

/-- An SPDM 1.2 request (R455). -/
inductive SpdmMsg where
  | getVersion | getCapabilities | negotiateAlgorithms | getDigests
  /-- Certificate slot -/
  | getCertificate (slot : Nat)
  | challenge
  /-- Measurement index -/
  | getMeasurements (index : Nat)
  | keyExchange
  /-- FINISH; the verification data is right -/
  | finish (ok : Bool)
  | keyUpdate | heartbeat | endSession
  /-- A secured message that fails its check -/
  | badSecured
  /-- Any other request code -/
  | other (code : Nat)
deriving DecidableEq, Repr

/-- What mailbox request 2 asks for (R451). -/
inductive MailAct where
  | fence | unfence | reset
deriving DecidableEq, Repr

/-- Why a link port retrains (R376). -/
inductive RetrainWhy where
  /-- Eight replays without ACK advance -/
  | replays
  /-- FEC lock lost on a used lane for 1 ms -/
  | fecLock
  /-- Uncorrectable codewords above 1 in 10^4 over 10 ms -/
  | codewords
deriving DecidableEq, Repr

/-- What the oldest wait of a unit is on (R500, R501). -/
inductive WaitOn where
  /-- Its own stages -/
  | own
  /-- A crossing of clocked domain n -/
  | crossing (n : Nat)
  /-- An unavailable router -/
  | router
  /-- A collective partner's data on link port n -/
  | partner (n : Nat)
deriving DecidableEq, Repr

/-- What the guard finds when a watchdog expires (R500 to R502, R507). -/
structure HangReport where
  /-- The unit whose watchdog expired -/
  kind : Nat
  /-- Its number -/
  unit : Nat
  /-- The chain of units that hold the oldest handshakes, from the unit on, each with whether its own watchdog saw progress
  (R501) -/
  waits : List (Nat × Nat × Bool)
  /-- What the oldest wait of the last of them is on -/
  last : WaitOn
  /-- The reset unit that its oldest wait was on, before the end of that reset's recovery (R507) -/
  parent : Option (Nat × Nat)
deriving DecidableEq, Repr

/-- What the dump engine read (R504, R505): for each tile dumped, sequencer state, router state and windows. -/
structure DumpRead where
  /-- For each tile dumped, in ascending order: (tile, sequencer state, router state, UNREADABLE mask) -/
  tiles : List (Nat × List Byte × List Byte × Nat)
  /-- The state block of a hub unit, none when unreadable -/
  block : Option (List Byte)
deriving DecidableEq, Repr

/-- How a recovery ends (R499, R508, R513). -/
structure RecoveryReport where
  /-- The test of an unfence passed -/
  pass : Bool
  /-- Channels whose contents were lost because they did not enter self-refresh (R508) -/
  lost : List Nat
deriving DecidableEq, Repr

/-- A register of PCIe configuration space, by name (R9, R212, R218, R219, R222). -/
inductive CfgReg
  | id | revClass | subsystem | bar0 | bar2 | devCap | devCtl | devCap2 | devCtl2 | linkCap | linkCtl | linkStatus | l1ss | aerCtl
  | ptmCtl | msix | msixTable | msixPba | sriovVfs | numVfs | vfOffset | vfDevice | vfBar0 | vfBar2 | rebar | vfRebar | dsn
deriving DecidableEq, Repr

/-- A configuration request (R488). -/
inductive CfgReq where
  /-- A read -/
  | read (r : CfgReg)
  /-- A write -/
  | write (r : CfgReg) (v : Nat)
deriving DecidableEq, Repr

/-- The commands of the module: one constructor for each row of the opcode table, in its order, with the row's
operands. The docstring names the row and the rule that states its meaning. -/
inductive Instr where
  /-- CURTAIN_ENTER (R131) -/
  | curtainEnter (dv us : Nat)
  /-- CURTAIN_EXIT (R133) -/
  | curtainExit (dv ms : Nat)
  /-- ORDERLY_SHUTDOWN (R133) -/
  | orderlyShutdown (dv ms nodeDv : Nat)
  /-- SHUTDOWN_COMPLETE (R133) -/
  | shutdownComplete
  /-- PRECHARGE_START (R134) -/
  | prechargeStart (dv ms : Nat)
  /-- PRECHG_DEASSERT (R142) -/
  | prechgDeassert (us : Nat)
  /-- INPUT_SWITCH_OPEN (R135) -/
  | inputSwitchOpen (dv nodeDv ms : Nat)
  /-- INPUT_SWITCH_CLOSE (R135) -/
  | inputSwitchClose (dv ms nodeDv : Nat)
  /-- PQ_RECORD_OPEN (R137) -/
  | pqRecordOpen (m : PqMeasure)
  /-- PQ_RECORD_CLOSE (R137) -/
  | pqRecordClose (m : PqMeasure)
  /-- RAIL_FAULT (R141) -/
  | railFault (r : Rail) (us : Nat)
  /-- SHED_ASSERT (R147) -/
  | shedAssert
  /-- SHED_DEASSERT (R146) -/
  | shedDeassert
  /-- PRECEDENCE_RESOLUTION (R28) -/
  | precedenceResolution (r : PowerReport)
  /-- FIXED_RATE_RESUME (R29) -/
  | fixedRateResume (p : Nat)
  /-- STATE_SELECTION (R152) -/
  | stateSelection (p : Nat) (cadence : Option Nat)
  /-- DOMAIN_WAKE (R150) -/
  | domainWake (k : Nat) (why : WakeCause)
  /-- DOMAIN_STATE_REACHED (R150) -/
  | domainStateReached (k : Nat)
  /-- VOLTAGE_STEP (R143) -/
  | voltageStep (k : Nat)
  /-- SENSOR_SAMPLE (R159) -/
  | sensorSample (x : Sample)
  /-- SENSOR_SUSPECT (R161) -/
  | sensorSuspect (spot : Nat)
  /-- SENSOR_RESTORE (R161) -/
  | sensorRestore (spot sensor : Nat)
  /-- STACK_OVERTEMP_SHUTDOWN (R164) -/
  | stackOvertempShutdown (k : Nat)
  /-- REFRESH_RESTORE (R165) -/
  | refreshRestore (k : Nat)
  /-- PREDICTOR_UPDATE (R162) -/
  | predictorUpdate
  /-- FLOW_WARN (R168) -/
  | flowWarn
  /-- FLOW_LIMIT_EXIT (R168) -/
  | flowLimitExit
  /-- THERMAL_CLEAR (R171) -/
  | thermalClear
  /-- THERMAL_REARM (R171) -/
  | thermalRearm
  /-- RATE_SAMPLE (R113) -/
  | rateSample (page : Option Nat)
  /-- FAB_RATE_CTRL_WRITE (R114) -/
  | fabRateCtrlWrite (page : Option Nat) (v : Word)
  /-- CLOCK_LOCK_LOSS (R510) -/
  | clockLockLoss (n : Nat)
  /-- WORK_ITEM_COMPLETE (R63) -/
  | workItemComplete (t : Nat)
  /-- ENGINE_LOAD_COMPLETE (R63) -/
  | engineLoadComplete (p e : Nat) (digestOk : Bool)
  /-- MESH_TRANSACTION_ISSUE (R181) -/
  | meshTransactionIssue (r : TxnReq)
  /-- AVAILABILITY_MAP_UPDATE (R181) -/
  | availabilityMapUpdate
  /-- MEMORY_PORT_ACCESS (R186) -/
  | memoryPortAccess (port idx : Nat) (flips : List Nat)
  /-- XLAT_INVALIDATE (R201) -/
  | xlatInvalidate (p : Nat)
  /-- PT_ROOT_WRITE (R604) -/
  | ptRootWrite (p : Nat) (v : Word)
  /-- SCRUB_STEP (R205) -/
  | scrubStep (port ch : Nat) (flips : List Nat)
  /-- SCRUB_FORCED_SLICE (R205) -/
  | scrubForcedSlice (port ch us : Nat)
  /-- RECAL_DUE (R206) -/
  | recalDue (port ch : Nat) (moved : Int)
  /-- RECAL_FORCED_SLICE (R206) -/
  | recalForcedSlice (port ch : Nat)
  /-- BULK_MR4_READ (R196) -/
  | bulkMr4Read (c code : Nat) (above : Bool)
  /-- BAR0_ACCESS_IGNORED (R220) -/
  | bar0AccessIgnored (fn off len : Nat)
  /-- REGISTER_WRITE (R13) -/
  | registerWrite (fn off : Nat) (v : Word)
  /-- BAR2_WRITE (R222) -/
  | bar2Write (p off : Nat) (data : List Byte)
  /-- BAR2_READ (R222) -/
  | bar2Read (p off len : Nat)
  /-- RING_ENABLE (R225) -/
  | ringEnable (p : Nat) (r : RingId) (v : Word)
  /-- RING_PAUSE (R244) -/
  | ringPause (p q : Nat)
  /-- RING_UNPAUSE (R244) -/
  | ringUnpause (p q : Nat)
  /-- RING_DISABLE (R244) -/
  | ringDisable (p : Nat) (r : RingId)
  /-- RING_DRAIN_DONE (R244) -/
  | ringDrainDone (p q : Nat)
  /-- NUDGE (R232) -/
  | nudge (p : Nat)
  /-- POLL_EXPIRY (R232) -/
  | pollExpiry (p : Nat)
  /-- DOORBELL_READ_RETURN (R230) -/
  | doorbellReadReturn (p : Nat) (r : HostRead)
  /-- DOZE_SEQUENCE (R233) -/
  | dozeSequence (p : Nat)
  /-- DESCRIPTOR_FETCH (R226) -/
  | descriptorFetch (p : Nat) (r : HostRead)
  /-- EVENT_RECORD_WRITE (R239) -/
  | eventRecordWrite (p : Nat)
  /-- MSIX_SEND (R243) -/
  | msixSend (p : Nat) (r : RingId)
  /-- HOST_READ_FAILURE (R215) -/
  | hostReadFailure (p : Nat) (what : ReadOf) (r : HostRead)
  /-- HOST_LINK_DOWN (R216) -/
  | hostLinkDown
  /-- LINK_CHANGE (R216) -/
  | linkChange (speed width : Nat) (flit : Bool)
  /-- PERST_ASSERT (R488) -/
  | perstAssert
  /-- PTM_DIALOG (R217) -/
  | ptmDialog (offset : Int)
  /-- FUNCTION_LEVEL_RESET (R443) -/
  | functionLevelReset (p : Nat)
  /-- NOP (R259) -/
  | nop (d : DescRef)
  /-- BARRIER (R259) -/
  | barrier (d : DescRef)
  /-- FENCE (R259) -/
  | fence (d : DescRef)
  /-- EVENT_SIGNAL (R261) -/
  | eventSignal (d : DescRef)
  /-- EVENT_WAIT (R261) -/
  | eventWait (d : DescRef)
  /-- EVENT_WAIT_DEADLINE (R261) -/
  | eventWaitDeadline (d : DescRef)
  /-- TIMER_WAIT (R262) -/
  | timerWait (d : DescRef)
  /-- TIMER_WAIT_EXPIRY (R262) -/
  | timerWaitExpiry (d : DescRef)
  /-- DESCRIPTOR_TIMEOUT (R253) -/
  | descriptorTimeout (d : DescRef)
  /-- ACT_RUN (R264) -/
  | actRun (d : DescRef)
  /-- ACT_STOP (R266) -/
  | actStop (d : DescRef)
  /-- MATMUL (R271) -/
  | matmul (d : DescRef)
  /-- CONV (R272) -/
  | conv (d : DescRef)
  /-- ELTWISE (R273) -/
  | eltwise (d : DescRef)
  /-- REDUCE (R274) -/
  | reduce (d : DescRef)
  /-- NORM (R275) -/
  | norm (d : DescRef)
  /-- SOFTMAX (R276) -/
  | softmax (d : DescRef)
  /-- CONVERT (R100) -/
  | convert (d : DescRef)
  /-- GATHER (R277) -/
  | gather (d : DescRef)
  /-- SCATTER (R277) -/
  | scatter (d : DescRef)
  /-- COPY (R278) -/
  | copy (d : DescRef) (h : HostRead)
  /-- FILL (R278) -/
  | fill (d : DescRef)
  /-- DIGEST (R279) -/
  | digest (d : DescRef)
  /-- BAD_OPCODE (R258) -/
  | badOpcode (d : DescRef)
  /-- ATTEND (R326) -/
  | attend (d : DescRef)
  /-- KV_APPEND (R311) -/
  | kvAppend (d : DescRef)
  /-- KV_LOOKUP (R304) -/
  | kvLookup (d : DescRef)
  /-- KV_PARK (R315) -/
  | kvPark (d : DescRef)
  /-- KV_RESUME (R318) -/
  | kvResume (d : DescRef)
  /-- KV_FREE_SEQ (R309) -/
  | kvFreeSeq (d : DescRef)
  /-- KV_FREE_ALL (R309) -/
  | kvFreeAll (d : DescRef)
  /-- KV_FREE_FORMAT (R295) -/
  | kvFreeFormat (d : DescRef)
  /-- KV_FREE_DETACH (R309) -/
  | kvFreeDetach (d : DescRef)
  /-- KV_FREE_REHASH (R309) -/
  | kvFreeRehash (d : DescRef)
  /-- KV_COPY (R314) -/
  | kvCopy (d : DescRef)
  /-- KV_EXPIRY (R317) -/
  | kvExpiry (p space seq : Nat)
  /-- STEP (R347) -/
  | step (d : DescRef)
  /-- SAMPLE (R364) -/
  | sample (d : DescRef)
  /-- VERIFY (R365) -/
  | verify (d : DescRef)
  /-- CANCEL (R367) -/
  | cancel (d : DescRef)
  /-- ALL_REDUCE (R383) -/
  | allReduce (d : DescRef) (peers : List RankMsg)
  /-- REDUCE_SCATTER (R383) -/
  | reduceScatter (d : DescRef) (peers : List RankMsg)
  /-- ALL_GATHER (R383) -/
  | allGather (d : DescRef) (peers : List RankMsg)
  /-- ALL_TO_ALL (R383) -/
  | allToAll (d : DescRef) (peers : List RankMsg)
  /-- BROADCAST (R383) -/
  | broadcast (d : DescRef) (peers : List RankMsg)
  /-- GROUP_SET (R380) -/
  | groupSet (d : DescRef)
  /-- COLL_ABORT (R387) -/
  | collAbort (port gid seq : Nat)
  /-- STREAM_OPEN (R398) -/
  | streamOpen (d : DescRef)
  /-- STREAM_CLOSE (R399) -/
  | streamClose (d : DescRef)
  /-- DECODE (R423) -/
  | decode (d : DescRef)
  /-- DECODE_TIME_REACHED (R423) -/
  | decodeTimeReached (d : DescRef)
  /-- ENCODE (R429) -/
  | encode (d : DescRef)
  /-- SCALE (R433) -/
  | scale (d : DescRef)
  /-- RESULT_FRAME (R405) -/
  | resultFrame (d : DescRef)
  /-- CHECKPOINT (R283) -/
  | checkpoint (d : DescRef)
  /-- RESTORE (R283) -/
  | restore (d : DescRef) (h : HostRead)
  /-- STEP_COMMIT (R284) -/
  | stepCommit (d : DescRef)
  /-- STEP_COMMIT_END_JOB (R284) -/
  | stepCommitEndJob (d : DescRef)
  /-- PART_CONFIG (R440) -/
  | partConfig (d : DescRef)
  /-- PART_STATE_ADMIT (R457) -/
  | partStateAdmit (d : DescRef)
  /-- PART_STATE_RUN (R441) -/
  | partStateRun (d : DescRef)
  /-- PART_STATE_QUIESCE (R441) -/
  | partStateQuiesce (d : DescRef)
  /-- QUIESCE_DONE (R441) -/
  | quiesceDone (p : Nat)
  /-- PART_STATE_RESET (R442) -/
  | partStateReset (d : DescRef)
  /-- PART_STATE_UNCONFIGURE (R441) -/
  | partStateUnconfigure (d : DescRef)
  /-- MEM_GRANT (R189) -/
  | memGrant (d : DescRef)
  /-- MEM_RELEASE (R193) -/
  | memRelease (d : DescRef)
  /-- ENGINE_CONFIG (R63) -/
  | engineConfig (d : DescRef)
  /-- ENGINE_RELEASE (R63) -/
  | engineRelease (d : DescRef)
  /-- TILE_FENCE (R514) -/
  | tileFence (d : DescRef)
  /-- TILE_UNFENCE (R513) -/
  | tileUnfence (d : DescRef) (failed : Nat)
  /-- KEY_OP_ROTATE (R465) -/
  | keyOpRotate (d : DescRef)
  /-- KEY_OP_RETIRE (R467) -/
  | keyOpRetire (d : DescRef)
  /-- KEY_OP_CLEAR_RETIRED (R467) -/
  | keyOpClearRetired (d : DescRef)
  /-- KEY_OP_BIND_LOAD (R469) -/
  | keyOpBindLoad (d : DescRef)
  /-- KEY_OP_WEIGHT_LOAD (R470) -/
  | keyOpWeightLoad (d : DescRef) (chunks : List (List Byte))
  /-- KEY_OP_CONTENT_DROP (R469) -/
  | keyOpContentDrop (d : DescRef)
  /-- FRAME_CONVERT (R466) -/
  | frameConvert (p : Nat)
  /-- FW_STAGE (R493) -/
  | fwStage (d : DescRef) (r : HostRead)
  /-- FW_ACTIVATE (R494) -/
  | fwActivate (d : DescRef)
  /-- ADMISSION_LOST (R462) -/
  | admissionLost (p : Nat)
  /-- SPDM_REQUEST (R455) -/
  | spdmRequest (fn : Nat) (m : SpdmMsg)
  /-- SPDM_HEARTBEAT_MISS (R455) -/
  | spdmHeartbeatMiss (fn : Nat)
  /-- LOCK_INTERFACE (R458) -/
  | lockInterface (p : Nat)
  /-- GET_DEVICE_INTERFACE_REPORT (R458) -/
  | getDeviceInterfaceReport (p : Nat)
  /-- START_INTERFACE (R458) -/
  | startInterface (p : Nat)
  /-- STOP_INTERFACE (R458) -/
  | stopInterface (p : Nat)
  /-- IDE_KM (R458) -/
  | ideKm (fn : Nat)
  /-- IDE_TLP_FAILURE (R458) -/
  | ideTlpFailure (fn : Nat)
  /-- MAILBOX_SET_POWER (R451) -/
  | mailboxSetPower (seq k : Nat) (code : Option Nat) (st : Option PState)
  /-- MAILBOX_FENCE_RESET (R451) -/
  | mailboxFenceReset (seq : Nat) (act : MailAct) (kind unit failed : Nat)
  /-- MAILBOX_CHANNEL_FILTER (R451) -/
  | mailboxChannelFilter (seq p chan : Nat) (filter : List Byte)
  /-- MAILBOX_READ_SENSORS (R451) -/
  | mailboxReadSensors (seq off : Nat)
  /-- MAILBOX_WRITE_RECORD (R451) -/
  | mailboxWriteRecord (seq : Nat) (power : Bool) (r : List Byte)
  /-- MAILBOX_DEBUG_READ (R451) -/
  | mailboxDebugRead (seq kind unit : Nat) (window : Bool)
  /-- STEWARD_HEARTBEAT_LOSS (R452) -/
  | stewardHeartbeatLoss
  /-- STEWARD_RESTART_DONE (R452) -/
  | stewardRestartDone
  /-- SEAL_WRITE (R453) -/
  | sealWrite
  /-- LINK_PORT_ENABLE (R376) -/
  | linkPortEnable (n : Nat) (v : Word)
  /-- LINK_PORT_DISABLE (R376) -/
  | linkPortDisable (n : Nat) (v : Word)
  /-- LINK_TRAINING_COMPLETE (R374) -/
  | linkTrainingComplete (n lanes : Nat) (slow : Bool)
  /-- LINK_TRAINING_TIMEOUT (R376) -/
  | linkTrainingTimeout (n : Nat)
  /-- LINK_RETRAIN (R376) -/
  | linkRetrain (n : Nat) (why : RetrainWhy)
  /-- RETRAIN_TIMEOUT (R376) -/
  | retrainTimeout (n : Nat)
  /-- DATA_FRAME (R372) -/
  | dataFrame (n : Nat) (f : List Byte)
  /-- NAK_FRAME (R372) -/
  | nakFrame (n : Nat) (f : List Byte)
  /-- HELLO_FRAME (R377) -/
  | helloFrame (n : Nat) (f : List Byte)
  /-- IDLE_FRAME (R371) -/
  | idleFrame (n : Nat) (f : List Byte)
  /-- REPLAY_TIMER (R372) -/
  | replayTimer (n : Nat)
  /-- CREDIT_RETURN (R373) -/
  | creditReturn (n : Nat)
  /-- LINK_PAIR_WRITE (R389) -/
  | linkPairWrite (v : Word)
  /-- FIELD_FRAME_RECEIVE (R396) -/
  | fieldFrameReceive (n : Nat) (f : List Byte)
  /-- FIELD_LINK (R409) -/
  | fieldLink (n : Nat) (up : Bool) (fec : Nat)
  /-- PROTOCOL_ENGINE_SLICE (R400) -/
  | protocolEngineSlice
  /-- UNIT_DEADLINE (R402) -/
  | unitDeadline (c : Nat)
  /-- PTP_HOLDOVER (R395) -/
  | ptpHoldover
  /-- PTP_CTRL_WRITE (R395) -/
  | ptpCtrlWrite (v : Word)
  /-- PTM_CTRL_WRITE (R217) -/
  | ptmCtrlWrite (v : Word)
  /-- RTCP_REPORT (R401) -/
  | rtcpReport (c : Nat)
  /-- STREAM_STALL (R403) -/
  | streamStall (c : Nat)
  /-- CODEC_CORE_DISPATCH (R420) -/
  | codecCoreDispatch (core : Nat)
  /-- CODEC_PREEMPT (R420) -/
  | codecPreempt
  /-- PICTURE_DONE (R421) -/
  | pictureDone (core : Nat)
  /-- READ_IDX_POLL (R421) -/
  | readIdxPoll (c : Nat)
  /-- POOL_WAIT (R421) -/
  | poolWait (c : Nat)
  /-- ENCODE_UNIT_DONE (R429) -/
  | encodeUnitDone (core : Nat)
  /-- CAROUSEL_WRITE (R420) -/
  | carouselWrite (v : Word)
  /-- SETDASA (R477) -/
  | setdasa (static dyn eniUs : Nat)
  /-- RSTDAA (R478) -/
  | rstdaa
  /-- SETNEWDA (R475) -/
  | setnewda (a dyn : Nat)
  /-- ENEC_DISEC (R475) -/
  | enecDisec (enable : Bool) (events : Byte)
  /-- GETPID (R476) -/
  | getpid (a : Nat)
  /-- GETBCR (R476) -/
  | getbcr (a : Nat)
  /-- GETDCR (R476) -/
  | getdcr (a : Nat)
  /-- GETSTATUS (R475) -/
  | getstatus (a : Nat)
  /-- GETMWL (R475) -/
  | getmwl (a : Nat)
  /-- GETMRL (R475) -/
  | getmrl (a : Nat)
  /-- SETMWL (R475) -/
  | setmwl (a len : Nat)
  /-- SETMRL (R475) -/
  | setmrl (a len : Nat)
  /-- CHAIN_MESSAGE_ERROR (R482) -/
  | chainMessageError (a : Nat) (m : List Byte)
  /-- CHAIN_PRIVATE_READ (R482) -/
  | chainPrivateRead (a : Nat)
  /-- STATUS (R484) -/
  | status (a : Nat)
  /-- IDENT (R483) -/
  | ident (a : Nat)
  /-- SHED_BUDGET (R485) -/
  | shedBudget (a w : Nat)
  /-- SERVICE (R486) -/
  | service (a v : Nat)
  /-- SPARE_POOL (R486) -/
  | sparePool (a v : Nat)
  /-- MODULE_RESET (R491) -/
  | moduleReset (a v : Nat)
  /-- CLEAR_ALERT (R483) -/
  | clearAlert (a v : Nat)
  /-- MONITOR_IN (R483) -/
  | monitorIn (a : Nat) (data : List Byte)
  /-- MONITOR_OUT (R483) -/
  | monitorOut (a : Nat)
  /-- SVC_RESET (R491) -/
  | svcReset (us : Nat)
  /-- GUARD_WATCHDOG (R495) -/
  | guardWatchdog
  /-- GUARD_BOOT (R495) -/
  | guardBoot (dv nodeDv : Nat)
  /-- GUARD_IMAGE_RUNNING (R490) -/
  | guardImageRunning
  /-- FIRST_STEWARD_HEARTBEAT (R490) -/
  | firstStewardHeartbeat
  /-- STEWARD_BOOT_FALLBACK (R495) -/
  | stewardBootFallback
  /-- CHANNEL_TRAINING_DONE (R490) -/
  | channelTrainingDone (ports bulk : Nat)
  /-- SELFTEST_PASS_DONE (R489) -/
  | selftestPassDone (tiles slices : List Nat)
  /-- PROGRESS_WATCHDOG_EXPIRY (R500) -/
  | progressWatchdogExpiry (h : HangReport)
  /-- DUMP_COMPLETE (R504) -/
  | dumpComplete (kind unit : Nat) (r : DumpRead)
  /-- HLT_RESET_WRITE (R503) -/
  | hltResetWrite (v : Word)
  /-- RECOVERY_COMPLETE (R499) -/
  | recoveryComplete (kind unit : Nat) (r : RecoveryReport)
  /-- RECOVERY_OVERDUE (R509) -/
  | recoveryOverdue (kind unit : Nat)
  /-- STRIKER_ROUND_START (R516) -/
  | strikerRoundStart (t : Nat)
  /-- STRIKER_ROUND_DONE (R515) -/
  | strikerRoundDone (t failed : Nat)
  /-- STRIKER_OVERDUE (R516) -/
  | strikerOverdue (t : Nat)
  /-- MEMORY_TEST_SLICE (R516) -/
  | memoryTestSlice (port slice : Nat) (pass : Bool)
  /-- SCORE_RECOMPUTE (R518) -/
  | scoreRecompute
  /-- EXPEL_CLEAR (R568) -/
  | expelClear
  /-- FLASH_WEAR_LEVEL (R520) -/
  | flashWearLevel (ms : Nat)
  /-- TELEMETRY_SWEEP (R520) -/
  | telemetrySweep (us : Nat)
  /-- CYCLE_START (R528) -/
  | cycleStart (p slot : Nat)
  /-- LANE_COMPLETE (R530) -/
  | laneComplete (p slot : Nat)
  /-- CYCLE_DEADLINE (R529) -/
  | cycleDeadline (p slot : Nat)
  /-- PAIR_CFG_WRITE (R538) -/
  | pairCfgWrite (v : Word)
  /-- CLAIM_START (R537) -/
  | claimStart
  /-- CLAIM_CHECK (R537) -/
  | claimCheck
  /-- PARTNER_LINE_ASSERT (R538) -/
  | partnerLineAssert
  /-- STATE_LOADED (R541) -/
  | stateLoaded (slot : Nat) (a b : HostRead) (img : HostRead)
  /-- STATE_COPY_RECEIVE (R544) -/
  | stateCopyReceive (m : List Byte) (start fin : Bool)
  /-- PAIR_REARM (R538) -/
  | pairRearm
  /-- PAIR_HANDOVER (R538) -/
  | pairHandover
  /-- UART_BYTE_RECEIVE (R573) -/
  | uartByteReceive (b : Byte)
  /-- UART_BREAK (R571) -/
  | uartBreak (ms : Nat)
  /-- BAUD_IDLE_REVERT (R571) -/
  | baudIdleRevert
  /-- ENGINEER_IDLE_LAPSE (R579) -/
  | engineerIdleLapse (relay : Bool)
  /-- CHALLENGE_LAPSE (R578) -/
  | challengeLapse
  /-- AUTH_LOCKOUT_END (R579) -/
  | authLockoutEnd
  /-- MONITOR_OUTPUT_STALL (R574) -/
  | monitorOutputStall (relay : Bool)
  /-- MONITOR_HELP (R575) -/
  | monitorHelp (relay : Bool)
  /-- MONITOR_WHOAMI (R575) -/
  | monitorWhoami (relay : Bool)
  /-- MONITOR_STATE (R575) -/
  | monitorState (relay : Bool)
  /-- MONITOR_TIME (R575) -/
  | monitorTime (relay : Bool)
  /-- MONITOR_POWER (R575) -/
  | monitorPower (relay : Bool)
  /-- MONITOR_SENSORS (R575) -/
  | monitorSensors (relay : Bool)
  /-- MONITOR_HEALTH (R575) -/
  | monitorHealth (relay : Bool)
  /-- MONITOR_TILES (R575) -/
  | monitorTiles (relay : Bool)
  /-- MONITOR_PARTS (R575) -/
  | monitorParts (relay : Bool)
  /-- MONITOR_LINKS (R575) -/
  | monitorLinks (relay : Bool)
  /-- MONITOR_FW (R575) -/
  | monitorFw (relay : Bool)
  /-- MONITOR_LOG (R575) -/
  | monitorLog (relay : Bool)
  /-- MONITOR_AUTH_CHALLENGE (R578) -/
  | monitorAuthChallenge (relay : Bool)
  /-- MONITOR_AUTH_RESPONSE (R578) -/
  | monitorAuthResponse (relay : Bool)
  /-- MONITOR_LOGOUT (R575) -/
  | monitorLogout (relay : Bool)
  /-- MONITOR_BAUD (R571) -/
  | monitorBaud (relay : Bool)
  /-- MONITOR_FENCE (R576) -/
  | monitorFence (relay : Bool)
  /-- MONITOR_UNFENCE (R576) -/
  | monitorUnfence (relay : Bool) (failed : Nat)
  /-- MONITOR_RESET (R576) -/
  | monitorReset (relay : Bool)
  /-- MONITOR_DUMP (R576) -/
  | monitorDump (relay : Bool)
  /-- MONITOR_PSTATE (R576) -/
  | monitorPstate (relay : Bool)
  /-- MONITOR_VSET (R576) -/
  | monitorVset (relay : Bool)
  /-- MONITOR_REG_READ (R577) -/
  | monitorRegRead (relay : Bool)
  /-- MONITOR_REG_WRITE (R577) -/
  | monitorRegWrite (relay : Bool)
  /-- MONITOR_UNKNOWN_COMMAND (R574) -/
  | monitorUnknownCommand (relay : Bool)
  /-- GUARD_OWN_WATCHDOG (R491) -/
  | guardOwnWatchdog (canSend : Bool)
  /-- PERST_RELEASE (R488) -/
  | perstRelease
  /-- HOST_LINK_UP (R216) -/
  | hostLinkUp (speed width : Nat) (flit : Bool)
  /-- SVC_RESET_RELEASE (R491) -/
  | svcResetRelease
  /-- CONFIGURATION_REQUEST (R488) -/
  | configurationRequest (fn : Nat) (r : CfgReq)
deriving DecidableEq, Repr

end Sys2Proof
end

