-- ==== Sys2Proof/Machine/Crc.lean ====
section
/-! DEFINITION. Cyclic redundancy checks in the usual parameter model (R407), and CRC-8 of the chain (R482). -/

namespace Sys2Proof.Machine

/-- A CRC's parameters (R407). -/
structure CrcParams where
  /-- w -/
  width : Nat
  /-- POLY -/
  poly : Nat
  /-- INIT -/
  init : Nat
  /-- REFIN -/
  refIn : Bool
  /-- REFOUT -/
  refOut : Bool
  /-- XOROUT -/
  xorOut : Nat
deriving DecidableEq, Repr

/-- The low `w` bits of `n` in reverse order. -/
def reflect (w n : Nat) : Nat := (List.range w).foldl (fun a i => 2 * a + b2n (n.testBit i)) 0

/-- One bit of the division. -/
def crcBit (p : CrcParams) (r : Nat) : Nat :=
  if r.testBit (p.width - 1) then ((2 * r) % 2 ^ p.width) ^^^ p.poly else (2 * r) % 2 ^ p.width

/-- `n` bits of the division. -/
def crcSteps (p : CrcParams) : Nat → Nat → Nat
  | 0, r => r
  | n + 1, r => crcSteps p n (crcBit p r)

/-- Take in one byte. -/
def crcByte (p : CrcParams) (r : Nat) (b : Byte) : Nat :=
  crcSteps p 8 (r ^^^ ((if p.refIn then reflect 8 b.toNat else b.toNat) * 2 ^ (p.width - 8)))

/-- The check value of a run of bytes. -/
def crcOf (p : CrcParams) (bs : List Byte) : Nat :=
  let r := bs.foldl (crcByte p) p.init
  (if p.refOut then reflect p.width r else r) ^^^ p.xorOut

/-- CRC-32 of IEEE 802.3 (R407). -/
def crc32 : CrcParams := ⟨32, 0x04C11DB7, 0xFFFFFFFF, true, true, 0xFFFFFFFF⟩
/-- CRC-32C (R407). -/
def crc32c : CrcParams := ⟨32, 0x1EDC6F41, 0xFFFFFFFF, true, true, 0xFFFFFFFF⟩
/-- CRC-16/CCITT (R407). -/
def crc16 : CrcParams := ⟨16, 0x1021, 0xFFFF, false, false, 0⟩
/-- CRC-64/ECMA (R407). -/
def crc64 : CrcParams := ⟨64, 0x42F0E1EBA9EA3693, 0, false, false, 0⟩
/-- The CRC-8 of chain messages: polynomial 0x07 (R482). -/
def crc8 : CrcParams := ⟨8, 0x07, 0, false, false, 0⟩

/-- The bytes of a check value of width w, little-endian. -/
def CrcParams.bytes (p : CrcParams) (bs : List Byte) : List Byte := toLe (cdiv p.width 8) (crcOf p bs)

end Sys2Proof.Machine
end

