-- ==== Sys2Proof/Config.lean ====
section
/-! DEFINITION. What one shipped module fixes, and the free values: constants without a body, so that no proof can see
which value they have. Where the manual leaves a result open and the command goes on, the model takes the value of one of
these at a counter of the state or at the operands (notes/assumptions/5.md). -/

namespace Sys2Proof

/-- A sequence header, as far as the manual names it (R412, R414, R421). -/
structure SeqHead where
  /-- Coded width -/
  width : Nat
  /-- Coded height -/
  height : Nat
  /-- Bit depth -/
  depth : Nat
  /-- The profile, by its place in the codec's row of R412 -/
  profile : Nat
  /-- The level × 10 -/
  level : Nat
  /-- 4:2:0 or monochrome, and no tool that R412 does not support -/
  plain : Bool
  /-- Buffers that its DPB size or reference slots need -/
  need : Nat
deriving DecidableEq, Repr, Inhabited

/-- What a codec core reads in one picture of a unit (R421 to R427). -/
structure PicParse where
  /-- A picture is there: the unit is not EMPTY and a header of it was parsed -/
  here : Bool
  /-- The sequence header in force -/
  seq : SeqHead
  /-- The picture brings a sequence header -/
  first : Bool
  /-- It is a random access point -/
  rap : Bool
  /-- It is kept for reference -/
  ref : Bool
  /-- It is shown (awaits the output process) -/
  shown : Bool
  /-- ORDER -/
  order : Int
  /-- Visible width, height, left column, top row -/
  visible : Nat × Nat × Nat × Nat
  /-- The references that it names, each with its order where the stream gives it -/
  names : List (Option Int)
  /-- The 16 × 16 luma blocks to conceal, by number -/
  lost : List Nat
  /-- Errors detected -/
  errors : Nat
  /-- The orders of the references that the stream unmarks -/
  unref : List Int
  /-- The orders of the pictures that the output process outputs, in turn -/
  output : List Int
  /-- Independent parts of the picture (R417) -/
  parts : Nat
  /-- The unit has no further picture -/
  last : Bool
deriving DecidableEq, Repr, Inhabited

namespace Config

/-- The free bytes that the manual leaves open ("undefined"), one for each value of the state's counter. -/
opaque freeByte : Nat → BitVec 8

/-- What an undefined byte of an output holds, by the value of the state's counter and the byte it held before: the old
byte, the new one or any other. -/
opaque spoiled : Nat → BitVec 8 → BitVec 8

/-- What a byte read in a race with an unordered write holds (R35), by the value of the state's counter, the byte's physical
address and what is stored there. -/
opaque raced : Nat → Nat → BitVec 8 → BitVec 8

/-- The free numbers that timing leaves open (BEATS, R34) and the power and temperature figures of the thermal model. -/
opaque freeNat : Nat → Nat

/-- The value in 0.1 K that the predictor expects 5 ms ahead of a hot spot or sensing point, by the value of the state's counter, the
domain, the power in W held in it, and the point (R163). Its coefficients are set at production test. -/
opaque predicted : Nat → Nat → Nat → Nat → Int

/-- The temperature in °C that the steward predicts for the coolest tile of a domain at the end of a state's residency, by the value
of the state's counter, the domain and the code of the state (R172). -/
opaque warmth : Nat → Nat → Nat → Int

/-- The hub's random source: keys and nonces. -/
opaque random : Nat → BitVec 256

/-- The key stream of AES-256-GCM under a key, by SEQ and byte index (R460). -/
opaque keyStream : BitVec 256 → Nat → Nat → BitVec 8

/-- The tag of AES-256-GCM under a key, by SEQ, over the additional data and the unit's ciphertext (R460). -/
opaque gcmTag : BitVec 256 → Nat → List (BitVec 8) → List (BitVec 8) → BitVec 128

/-- The bits of a special function's result that keeps the bound of R53: function code and FP32 input. -/
opaque sfu : Nat → BitVec 32 → BitVec 32

/-- What an embedding lookup gives for a token id past the vocabulary: token id and column. -/
opaque embedding : Nat → Nat → BitVec 32

/-- The least WORK_BYTES that the release manifest gives, by MODEL_ID and TOKEN_BUDGET (R337). -/
opaque leastWork : Nat → Nat → BitVec 32

/-- The fused module serial number (R10). -/
opaque serial : BitVec 64

/-- The fused rated voltage in steps of 2.5 mV above 0.620 V, at most 0x68 (R3, R10). -/
opaque vrated : Fin 0x69

/-- The fused MAC address of field port n (R410). -/
opaque mac : Nat → BitVec 48

/-- The SHA-384 digest of the guard ROM (R456), byte by byte. -/
opaque romDigest : Nat → BitVec 8

/-- The fused unique device secret (R454). -/
opaque deviceSecret : BitVec 384

/-- The private key of Staund's manufacturing authority (R454), which no module holds. -/
opaque authority : BitVec 384

/-- The compound identifier over a secret and what it covers (R454, TCG DICE). -/
opaque compound : BitVec 384 → List (BitVec 8) → BitVec 384

/-- The private key that an identifier gives under a label: 0 DeviceID, 1 binding, 2 Alias (R454). -/
opaque privateKey : Nat → BitVec 384 → BitVec 384

/-- The public key of a private key on P-384. -/
opaque publicKey : BitVec 384 → List (BitVec 8)

/-- The certificate that a private key signs for a public key. -/
opaque certificate : BitVec 384 → List (BitVec 8) → List (BitVec 8)

/-- An ECDSA P-384 signature with SHA-384: private key, what is signed. -/
opaque signature : BitVec 384 → List (BitVec 8) → List (BitVec 8)

/-- A signature over some bytes verifies against the Staund key whose digest is fused (R454, R493). -/
opaque signedByStaund : List (BitVec 8) → List (BitVec 8) → Bool

/-- A signature over some bytes verifies against the service authority's public key (R578). -/
opaque serviceSigned : List (BitVec 8) → List (BitVec 8) → Bool

/-- What the manifest of a microcode image lists: image number, opcodes, role (0 other, 1 prefill, 2 decode, 3 draft, 4 blended); its
layout is not in the manual (R61, R292, R334). -/
opaque manifest : List (BitVec 8) → List (Nat × List Nat × Nat)

/-- SHA-384. -/
opaque sha384 : List (BitVec 8) → BitVec 384

/-- ECDH on P-384: private key and the other side's public key (R469). -/
opaque ecdh : BitVec 384 → List (BitVec 8) → BitVec 384

/-- The first 32 bytes of HKDF-SHA-384: input key material, salt, info (R469). -/
opaque hkdf : BitVec 384 → List (BitVec 8) → List (BitVec 8) → BitVec 256

/-- AES-256 key unwrap (RFC 3394), none when its integrity check fails (R469). -/
opaque keyUnwrap : BitVec 256 → List (BitVec 8) → Option (BitVec 256)

/-- The key stream of AES-256-GCM under a key and a 12-byte nonce, by byte index (R470). -/
opaque gcmStream : BitVec 256 → List (BitVec 8) → Nat → BitVec 8

/-- The tag of AES-256-GCM under a key and a 12-byte nonce, over the additional data and the ciphertext (R470). -/
opaque gcmSum : BitVec 256 → List (BitVec 8) → List (BitVec 8) → List (BitVec 8) → List (BitVec 8)

/-- What the side debug path reads of a reset unit where no command brings it, by its place in HLT.UNIT (R451, R576). -/
opaque debugState : Nat → List (BitVec 8)

/-! The bitstream standards are outside the manual, which fixes of a codec core that its results are a function of what it was given
(R33). Below, `units` and `frames` are all the units, with their flags, or frames that the context was given since it was created. -/

/-- What a decoder reads in picture `k` of the last unit: context block, units. -/
opaque parse : List (BitVec 8) → List (List (BitVec 8)) → Nat → PicParse

/-- A byte of that picture as decoded, rows of luma and then of chroma without pitch padding: context block, units, k, the bytes of the
reference pictures, and the byte's place. -/
opaque pictureByte : List (BitVec 8) → List (List (BitVec 8)) → Nat → List (List (BitVec 8)) → Nat → BitVec 8

/-- Which of the frames that an encoder holds it codes next: context block, frames coded. -/
opaque encPick : List (BitVec 8) → List (List (BitVec 8)) → Nat

/-- Whether a picture that is no key picture is a B picture: context block, frames. -/
opaque encB : List (BitVec 8) → List (List (BitVec 8)) → Bool

/-- A picture's header bits, its closing bits with them: context block, frames. -/
opaque encHeader : List (BitVec 8) → List (List (BitVec 8)) → Nat

/-- The size of block k coded normally and how far its bound lies above it, in bits: context block, frames, k, its QP. -/
opaque encBlock : List (BitVec 8) → List (List (BitVec 8)) → Nat → Int → Nat × Nat

/-- The QP that rate control gives block k before the clamp: context block, frames, k. -/
opaque encQp : List (BitVec 8) → List (List (BitVec 8)) → Nat → Int

/-- A byte of an access unit: context block, frames, the motion vectors found, the QPs, the number of blocks coded normally, and the
byte's place. -/
opaque encByte : List (BitVec 8) → List (List (BitVec 8)) → List (List (Int × Int)) → List Int → Nat → Nat → BitVec 8

/-- The cost of a candidate in a stage of motion search: context block, frames, reference, block, stage, the vector in the units of
1/8 of a luma sample (R430). -/
opaque motionCost : List (BitVec 8) → List (List (BitVec 8)) → Nat → Nat → Nat → Int × Int → Nat

end Config

end Sys2Proof
end

