-- ==== Sys2Proof/Machine/Fp.lean ====
section
/-! DEFINITION. Number formats and arithmetic (03_arithmetic.md): the value of every encoding exactly, exact sums and
products, and the roundings to a format. -/

namespace Sys2Proof.Machine

/-- A value: not a number, an infinity, or (-1)^neg × m × 2^e with a signed zero. -/
inductive Num where
  | nan
  | inf (neg : Bool)
  | fin (neg : Bool) (m : Nat) (e : Int)
deriving DecidableEq, Repr

/-- How a floating-point format spends its topmost exponent (R71). -/
inductive FpTop | ieee | e4m3 | none
deriving DecidableEq, Repr

/-- A floating-point format (R71). -/
structure FpFmt where
  /-- Exponent bits -/
  ebits : Nat
  /-- Mantissa bits -/
  mbits : Nat
  /-- Bias -/
  bias : Nat
  /-- Special encodings -/
  top : FpTop
deriving DecidableEq, Repr

def fmtE4M3 : FpFmt := ⟨4, 3, 7, .e4m3⟩
def fmtE5M2 : FpFmt := ⟨5, 2, 15, .ieee⟩
def fmtE3M2 : FpFmt := ⟨3, 2, 3, .none⟩
def fmtE2M3 : FpFmt := ⟨2, 3, 1, .none⟩
def fmtE2M1 : FpFmt := ⟨2, 1, 1, .none⟩
def fmtBF16 : FpFmt := ⟨8, 7, 127, .ieee⟩
def fmtFP16 : FpFmt := ⟨5, 10, 15, .ieee⟩
def fmtFP32 : FpFmt := ⟨8, 23, 127, .ieee⟩

/-- Width of a format. -/
def FpFmt.width (f : FpFmt) : Nat := 1 + f.ebits + f.mbits

/-- The largest finite magnitude's encoding (R71). -/
def FpFmt.maxMag (f : FpFmt) : Nat :=
  match f.top with
  | .ieee => (2 ^ f.ebits - 1) * 2 ^ f.mbits - 1
  | .e4m3 => 0x7E
  | .none => 2 ^ (f.ebits + f.mbits) - 1

/-- The value of an encoding (R71). -/
def FpFmt.decode (f : FpFmt) (bits : Nat) : Num :=
  let neg := bitOf bits (f.ebits + f.mbits)
  let mag := bits % 2 ^ (f.ebits + f.mbits)
  let ex := mag / 2 ^ f.mbits
  let mant := mag % 2 ^ f.mbits
  if mag > f.maxMag then
    (if f.top = .ieee ∧ mant = 0 then .inf neg else .nan)
  else if ex = 0 then .fin neg mant (1 - (f.bias : Int) - f.mbits)
  else .fin neg (mant + 2 ^ f.mbits) ((ex : Int) - f.bias - f.mbits)

/-- The canonical NaN of a format (R96). -/
def FpFmt.nan (f : FpFmt) : Nat :=
  match f.top with
  | .e4m3 => 0x7F
  | _ => (2 ^ f.ebits - 1) * 2 ^ f.mbits + 2 ^ (f.mbits - 1)

/-- The infinity of a format, which only IEEE-like formats have (R71). -/
def FpFmt.inf (f : FpFmt) : Nat := (2 ^ f.ebits - 1) * 2 ^ f.mbits

/-- How a value is rounded: to nearest even (R90), or stochastically with a 32-bit random word (R91). -/
inductive Rounding where
  | rne
  | sr (r : Nat)
deriving DecidableEq, Repr

/-- The floor of the base-2 logarithm of a positive number. -/
def log2 (n : Nat) : Nat := Nat.log2 n

/-- `m × 2^e` as a number of units `2^q`: the integer part, the remainder and what the remainder counts out of. -/
def inUnits (m : Nat) (e q : Int) : Nat × Nat × Nat :=
  if e ≥ q then (m * 2 ^ (e - q).toNat, 0, 1)
  else let d := 2 ^ (q - e).toNat; (m / d, m % d, d)

/-- The remainder `rem` of `den` rounds the magnitude `k` up. -/
def roundsUp (mode : Rounding) (k rem den : Nat) : Bool :=
  match mode with
  | .rne => decide (2 * rem > den) || (decide (2 * rem = den) && k % 2 == 1)
  | .sr r => decide (rem * 2 ^ 32 / den + r ≥ 2 ^ 32) && decide (rem * 2 ^ 32 / den > 0)

/-- The exponent of the unit in the last place of a format at the magnitude `m × 2^e` (`m` positive). -/
def FpFmt.ulp (f : FpFmt) (m : Nat) (e : Int) : Int :=
  max ((log2 m : Int) + e) (1 - (f.bias : Int)) - f.mbits

/-- A finite magnitude rounded to a format: its encoding without the sign, and whether it overflows (R90, R91, R93). -/
def FpFmt.roundMag (f : FpFmt) (mode : Rounding) (m : Nat) (e : Int) : Nat × Bool :=
  if m = 0 then (0, false) else
  let q := f.ulp m e
  let u := inUnits m e q
  let base := (q - (1 - (f.bias : Int) - f.mbits)).toNat * 2 ^ f.mbits
  let lo := base + u.1
  let up := roundsUp mode u.1 u.2.1 u.2.2
  let tie := match mode with | .rne => decide (2 * u.2.1 ≥ u.2.2) | .sr _ => up
  let above := decide (lo > f.maxMag) || (decide (lo = f.maxMag) && tie && decide (u.2.1 ≠ 0))
  (lo + b2n up, above)

/-- The sign bit of a format. -/
def FpFmt.sign (f : FpFmt) (neg : Bool) : Nat := if neg then 2 ^ (f.ebits + f.mbits) else 0

/-- A value as an encoding of a format, and whether OUT_RANGE is set (R93, R96, R97). Formats without infinity or NaN are
written by `mxBlock` only; here they saturate. -/
def FpFmt.encode (f : FpFmt) (mode : Rounding) (sat : Bool) (x : Num) : Nat × Bool :=
  let big := if sat || f.top == .none then f.maxMag else if f.top == .e4m3 then f.nan else f.inf
  let withSign := fun (neg : Bool) (b : Nat) => if b = f.nan ∧ f.top ≠ .none then b else b + f.sign neg
  match x with
  | .nan => (f.nan, false)
  | .inf neg => (withSign neg big, false)
  | .fin neg m e =>
    let r := f.roundMag mode m e
    if r.2 then (withSign neg big, true) else (r.1 + f.sign neg, false)

/-! ### Exact arithmetic -/

/-- The magnitude and sign of a finite value as a number of units `2^q`; exact when `q ≤ e`. -/
def signedAt (neg : Bool) (m : Nat) (e q : Int) : Int :=
  let k : Int := m * 2 ^ (e - q).toNat
  if neg then -k else k

/-- The exact sum, with IEEE 754-2019's sign of zero under round-to-nearest-even (R97). -/
def Num.add : Num → Num → Num
  | .nan, _ => .nan
  | _, .nan => .nan
  | .inf a, .inf b => if a = b then .inf a else .nan
  | .inf a, .fin _ _ _ => .inf a
  | .fin _ _ _, .inf b => .inf b
  | .fin n1 m1 e1, .fin n2 m2 e2 =>
    if m1 = 0 ∧ m2 = 0 then .fin (n1 && n2) 0 0
    else
      let q := min e1 e2
      let i := signedAt n1 m1 e1 q + signedAt n2 m2 e2 q
      if i = 0 then .fin false 0 0 else .fin (decide (i < 0)) i.natAbs q

/-- The exact product. -/
def Num.mul : Num → Num → Num
  | .nan, _ => .nan
  | _, .nan => .nan
  | .inf a, .inf b => .inf (a != b)
  | .inf a, .fin b m _ => if m = 0 then .nan else .inf (a != b)
  | .fin a m _, .inf b => if m = 0 then .nan else .inf (a != b)
  | .fin n1 m1 e1, .fin n2 m2 e2 => .fin (n1 != n2) (m1 * m2) (e1 + e2)

/-- The negation. -/
def Num.neg : Num → Num
  | .nan => .nan
  | .inf a => .inf (!a)
  | .fin n m e => .fin (!n) m e

/-- It is NaN or infinite. -/
def Num.special : Num → Bool
  | .nan | .inf _ => true
  | .fin _ _ _ => false

/-- It is NaN. -/
def Num.isNan : Num → Bool
  | .nan => true
  | _ => false

/-- It is zero. -/
def Num.isZero : Num → Bool
  | .fin _ 0 _ => true
  | _ => false

/-- The value of an integer. -/
def Num.ofInt (i : Int) : Num := .fin (decide (i < 0)) i.natAbs 0

/-- `m1 × 2^e1 < m2 × 2^e2`. -/
def magLt (m1 : Nat) (e1 : Int) (m2 : Nat) (e2 : Int) : Bool :=
  let q := min e1 e2
  decide (m1 * 2 ^ (e1 - q).toNat < m2 * 2 ^ (e2 - q).toNat)

/-- The order of IEEE 754-2019's maximum and minimum on values that are not NaN: -0 is below +0 (R99). -/
def Num.below : Num → Num → Bool
  | .nan, _ => false
  | _, .nan => false
  | .inf true, .inf false => true
  | .inf _, .inf _ => false
  | .inf a, .fin _ _ _ => a
  | .fin _ _ _, .inf b => !b
  | .fin n1 m1 e1, .fin n2 m2 e2 =>
    if m1 = 0 ∧ m2 = 0 then n1 && !n2
    else if n1 && !n2 then true
    else if !n1 && n2 then false
    else if n1 then magLt m2 e2 m1 e1
    else magLt m1 e1 m2 e2

/-- A value rounded to an integer (R90, R91, R94): none for NaN and the infinities. -/
def Num.toInt? (mode : Rounding) : Num → Option Int
  | .fin neg m e =>
    let u := inUnits m e 0
    let k := u.1 + b2n (roundsUp mode u.1 u.2.1 u.2.2)
    some (if neg then -(k : Int) else k)
  | _ => none

/-- Clamp to a range; true when it changed. -/
def clampInt (lo hi i : Int) : Int × Bool :=
  if i < lo then (lo, true) else if i > hi then (hi, true) else (i, false)

/-- Conversion to an integer format of range `lo` to `hi`, with a zero point: z + round(u × s) saturated (R89
step 3, R94), and OUT_RANGE. -/
def Num.toIntFmt (mode : Rounding) (lo hi zero : Int) (x : Num) : Int × Bool :=
  match x with
  | .nan => (zero, true)
  | .inf neg => (if neg then lo else hi, true)
  | .fin _ _ _ =>
    match x.toInt? mode with
    | some i =>
      clampInt lo hi (i + zero)
    | none => (zero, true)

/-! ### FP32 -/

/-- An FP32 encoding. -/
abbrev F32 := BitVec 32

/-- The value of an FP32 encoding. -/
def F32.num (x : F32) : Num := fmtFP32.decode x.toNat

/-- A value rounded to FP32 by RNE. -/
def Num.f32 (x : Num) : F32 := BitVec.ofNat 32 (fmtFP32.encode .rne false x).1

def f32Zero : F32 := 0#32
def f32One : F32 := 0x3F800000#32
def f32NegInf : F32 := 0xFF800000#32
def f32PosInf : F32 := 0x7F800000#32
def f32Nan : F32 := 0x7FC00000#32
/-- log2(e) rounded to FP32 (R276). -/
def f32L2E : F32 := 0x3FB8AA3B#32
/-- ln(2) rounded to FP32 (R276). -/
def f32LN2 : F32 := 0x3F317218#32

def fAdd (a b : F32) : F32 := (a.num.add b.num).f32
def fSub (a b : F32) : F32 := (a.num.add b.num.neg).f32
def fMul (a b : F32) : F32 := (a.num.mul b.num).f32
/-- One rounding of a × b + c. -/
def fFma (a b c : F32) : F32 := ((a.num.mul b.num).add c.num).f32
def fNeg (a : F32) : F32 := a.num.neg.f32
def F32.isNan (a : F32) : Bool := a.num.isNan
def F32.finite (a : F32) : Bool := !a.num.special

/-- A rational number rounded once to FP32: the remainder is kept as a sticky bit far below the last place. -/
def ratF32 (neg : Bool) (n d : Nat) : F32 :=
  let k := 2 ^ 160
  Num.f32 (.fin neg (2 * (n * k / d) + b2n (n * k % d != 0)) (-161))

/-- The quotient of two positive finite numbers, rounded once to FP32; NaN for anything else but a zero dividend. -/
def fQuot (a b : F32) : F32 :=
  match a.num, b.num with
  | .fin na m e, .fin _ n f =>
    if n = 0 then f32Nan
    else Num.f32 (.fin na (2 * (m * 2 ^ 160 / n) + b2n (m * 2 ^ 160 % n != 0)) (e - f - 161))
  | _, _ => f32Nan

/-- maximum of IEEE 754-2019 (R99). -/
def fMax (a b : F32) : F32 :=
  if a.isNan || b.isNan then f32Nan else if a.num.below b.num then b else a

/-- minimum of IEEE 754-2019 (R99). -/
def fMin (a b : F32) : F32 :=
  if a.isNan || b.isNan then f32Nan else if b.num.below a.num then b else a

/-- `a > b` as values. -/
def fGt (a b : F32) : Bool :=
  match a.num, b.num with
  | .fin _ 0 _, .fin _ 0 _ => false
  | x, y => y.below x

/-- `a ≥ b` as values. -/
def fGe (a b : F32) : Bool := !a.isNan && !b.isNan && !fGt b a

/-- A natural number as FP32, one rounding. -/
def F32.ofNat' (n : Nat) : F32 := (Num.ofInt n).f32

/-- An integer as FP32, one rounding. -/
def F32.ofInt' (i : Int) : F32 := (Num.ofInt i).f32

/-! ### The special-function unit (R53, R54) -/

/-- A subnormal reads, and is returned, as zero of the same sign (R54). -/
def F32.flush (x : F32) : F32 :=
  if bitsOf x.toNat 30 23 = 0 then BitVec.ofNat 32 (bitsOf x.toNat 31 31 * 2 ^ 31) else x

/-- The correctly rounded reciprocal of a finite value that is not zero: the quotient with its remainder as one more
bit. -/
def recipNum (neg : Bool) (m : Nat) (e : Int) : Num :=
  let k := 2 ^ (log2 m + 64)
  .fin neg (2 * (k / m) + b2n (k % m ≠ 0)) (-(log2 m + 64 : Nat) - e - 1)

/-- reciprocal(x) (R53, R54). -/
def sfuRecip (x : F32) : F32 :=
  match x.flush.num with
  | .nan => f32Nan
  | .inf neg => if neg then 0x80000000#32 else f32Zero
  | .fin neg m e => if m = 0 then (if neg then f32NegInf else f32PosInf) else (recipNum neg m e).f32.flush

/-! The values that R53 bounds results against, in fixed point with 128 fraction bits, far below the last place of FP32. -/

/-- 1 in fixed point. -/
def fixOne : Nat := 2 ^ 128

/-- A finite magnitude in fixed point. -/
def fixOf (m : Nat) (e : Int) : Nat := (inUnits m e (-128)).1

/-- The product of two fixed-point numbers. -/
def fixMul (a b : Nat) : Nat := a * b / fixOne

/-- The quotient of two fixed-point numbers. -/
def fixDiv (a b : Nat) : Nat := a * fixOne / b

/-- r + r³/3 + r⁵/5 + …, the terms from `p` = r^k on. -/
def fixAtanh (sq : Nat) : (fuel k p : Nat) → Nat
  | 0, _, _ => 0
  | n + 1, k, p => p / k + fixAtanh sq n (k + 2) (fixMul p sq)

/-- The natural logarithm of a fixed-point number of [1, 2). -/
def fixLn (x : Nat) : Nat := let r := fixDiv (x - fixOne) (x + fixOne); 2 * fixAtanh (fixMul r r) 45 1 r

/-- ln 2. -/
def fixLn2 : Nat := fixLn (2 * fixOne)

/-- 1 + y + y²/2! + …, the terms from `p` = y^k / k! on. -/
def fixExp (y : Nat) : (fuel k p : Nat) → Nat
  | 0, _, p => p
  | n + 1, k, p => p + fixExp y n (k + 1) (fixMul p y / (k + 1))

/-- 2^a for a fixed-point exponent: a mantissa of [1, 2) and the power of two beside it. -/
def fixExp2 (a : Int) : Nat × Int := (fixExp (fixMul (a % fixOne).toNat fixLn2) 40 0 fixOne, a / fixOne)

/-- e^(-y) in the same form. -/
def fixExpNeg (y : Nat) : Nat × Int := fixExp2 (-(fixDiv y fixLn2 : Int))

/-- e^(-y) in fixed point. -/
def fixDecay (y : Nat) : Nat := let x := fixExpNeg y; x.1 / 2 ^ (-x.2).toNat

/-- The square root of a number below 2^(2 `bits`), rounded down: `r` holds the bits found. -/
def natRoot (n : Nat) : (bits r : Nat) → Nat
  | 0, r => r
  | b + 1, r => let c := r + 2 ^ b; natRoot n b (if c * c ≤ n then c else r)

/-- x - x³/3 + x⁵/(5 2!) - …, the terms from `p` = x^(2k+1) / k! on. -/
def fixErf (sq : Nat) : (fuel k p : Nat) → Int
  | 0, _, _ => 0
  | n + 1, k, p => (p / (2 * k + 1) : Nat) - fixErf sq n (k + 1) (fixMul p sq / (k + 1))

/-- 2 / √π in fixed point. -/
def fixTwoRootPi : Nat := 0x120dd750429b6d11ae3a914fed7fd8688

/-- erf of a fixed-point number below 4. -/
def fixErfOf (x : Nat) : Nat := fixMul (fixErf (fixMul x x) 100 0 x).toNat fixTwoRootPi

/-- The magnitude is below 2^-60: there tanh(x) = x and erf(x) = 2x / √π far below the last place. -/
def tiny (m : Nat) (e : Int) : Bool := magLt m e 1 (-60)

/-- The value of a function code of R53 at a finite input that is not zero. -/
def sfuValue (f : Nat) (neg : Bool) (m : Nat) (e : Int) : Num :=
  let x := fixOf m e
  match f with
  | 0 => let y := fixExp2 (if neg then -(x : Int) else x); .fin false y.1 (y.2 - 128)
  | 1 =>
    let l := log2 m
    let frac := fixDiv (fixLn (fixOf m (-(l : Int)))) fixLn2
    let v : Int := ((l : Int) + e) * fixOne + frac
    .fin (decide (v < 0)) v.natAbs (-128)
  | 2 =>
    let odd := e % 2
    .fin false (natRoot (2 ^ 320 / (m * 2 ^ odd.toNat)) 160 0) (-160 - (e - odd) / 2)
  | 4 => if tiny m e then .fin neg m e else let d := fixDecay (2 * x); .fin neg (fixDiv (fixOne - d) (fixOne + d)) (-128)
  | 5 => if tiny m e then .fin neg (m * fixTwoRootPi) (e - 128) else .fin neg (fixErfOf x) (-128)
  | 6 =>
    if neg then let y := fixExpNeg x; .fin false (fixDiv y.1 (fixOne + fixDecay x)) (y.2 - 128)
    else .fin false (fixDiv fixOne (fixOne + fixDecay x)) (-128)
  | _ =>
    if tiny m e then .fin neg m (e - 1)
    else
      let y := fixErfOf (fixMul x (natRoot (2 ^ 255) 128 0))
      .fin neg (m * (if neg then fixOne - y else fixOne + y)) (e - 129)

/-- An FP32 result lies within `n` ULP of a value. -/
def withinUlp (n : Nat) (ref : Num) (v : F32) : Bool :=
  match ref, v.num.add ref.neg with
  | .fin _ m e, .fin _ d q => !magLt n (fmtFP32.ulp m e) d q
  | _, _ => false

/-- The result of function `f` at `x` inside its bound of `n` ULP: any that keeps the bound, the same at every use of the same input
(R33, R53; notes/assumptions/15.md). -/
def sfuFree (f n : Nat) (neg : Bool) (m : Nat) (e : Int) (x : F32) : F32 :=
  let ref := sfuValue f neg m e
  F32.flush (if withinUlp n ref (Config.sfu f x) then Config.sfu f x else ref.f32)

/-- exp2(x). -/
def sfuExp2 (x : F32) : F32 :=
  let x := x.flush
  match x.num with
  | .nan => f32Nan
  | .inf neg => if neg then f32Zero else f32PosInf
  | .fin neg m e =>
    if m = 0 then f32One
    else if !neg && !magLt m e 128 0 then f32PosInf
    else if neg && magLt 126 0 m e then f32Zero
    else sfuFree 0 1 neg m e x

/-- log2(x). -/
def sfuLog2 (x : F32) : F32 :=
  let x := x.flush
  match x.num with
  | .nan => f32Nan
  | .inf neg => if neg then f32Nan else f32PosInf
  | .fin neg m e =>
    if m = 0 then f32NegInf else if neg then f32Nan
    else if m = 2 ^ log2 m then F32.ofInt' ((log2 m : Int) + e)
    else sfuFree 1 1 neg m e x

/-- rsqrt(x). -/
def sfuRsqrt (x : F32) : F32 :=
  let x := x.flush
  match x.num with
  | .nan => f32Nan
  | .inf neg => if neg then f32Nan else f32Zero
  | .fin neg m e =>
    if m = 0 then (if neg then f32NegInf else f32PosInf) else if neg then f32Nan else sfuFree 2 1 neg m e x

/-- A function that is ±1 from a bound on, odd, and inside its bound below it (tanh, erf). -/
def sfuOdd (f : Nat) (bm : Nat) (be : Int) (x : F32) : F32 :=
  let x := x.flush
  let one := fun (neg : Bool) => if neg then 0xBF800000#32 else f32One
  match x.num with
  | .nan => f32Nan
  | .inf neg => one neg
  | .fin neg m e => if m = 0 then x else if !magLt m e bm be then one neg else sfuFree f 2 neg m e x

/-- tanh(x): ±1 from |x| ≥ 9.1 on; 9.1 in FP32 is 0x4111_999A. -/
def sfuTanh (x : F32) : F32 := sfuOdd 4 0x91999A (-20) x

/-- erf(x): ±1 from |x| ≥ 3.92 on; 3.92 in FP32 is 0x407A_E148. -/
def sfuErf (x : F32) : F32 := sfuOdd 5 0xFAE148 (-22) x

/-- sigmoid(x): 1 from 88.8 on, +0 up to -103.3. -/
def sfuSigmoid (x : F32) : F32 :=
  let x := x.flush
  match x.num with
  | .nan => f32Nan
  | .inf neg => if neg then f32Zero else f32One
  | .fin neg m e =>
    if !neg && !magLt m e 0xB1999A (-17) then f32One
    else if neg && !magLt m e 0xCE999A (-17) then f32Zero
    else sfuFree 6 2 neg m e x

/-- SiLU(x) = x × sigmoid(x): sigmoid as above, then one multiply (R53). -/
def sfuSilu (x : F32) : F32 := F32.flush (fMul x.flush (sfuSigmoid x))

/-- GELU(x) = 0.5 × x × (1 + erf(x / √2)): where erf is ±1 exactly, from |x| / √2 = 3.92 on, x itself or -0. -/
def sfuGelu (x : F32) : F32 :=
  let x := x.flush
  match x.num with
  | .nan => f32Nan
  | .inf neg => if neg then f32Nan else f32PosInf
  | .fin neg m e =>
    if m = 0 then x
    else if !magLt (m * m) (2 * e) (2 * 0xFAE148 * 0xFAE148) (-44) then (if neg then 0x80000000#32 else x)
    else sfuFree 8 4 neg m e x

/-! ### Philox and SipHash -/

/-- One round of Philox4x32 on a counter, with its key (R92). -/
def philoxRound (k0 k1 c0 c1 c2 c3 : Nat) : Nat × Nat × Nat × Nat :=
  let p0 := 0xD2511F53 * c0
  let p1 := 0xCD9E8D57 * c2
  ((p1 / 2 ^ 32) ^^^ c1 ^^^ k0, p1 % 2 ^ 32, (p0 / 2 ^ 32) ^^^ c3 ^^^ k1, p0 % 2 ^ 32)

/-- Rounds of Philox4x32 with the key increments of R92. -/
def philoxRounds : Nat → Nat → Nat → Nat × Nat × Nat × Nat → Nat × Nat × Nat × Nat
  | 0, _, _, c => c
  | n + 1, k0, k1, c =>
    philoxRounds n ((k0 + 0x9E3779B9) % 2 ^ 32) ((k1 + 0xBB67AE85) % 2 ^ 32)
      (philoxRound k0 k1 c.1 c.2.1 c.2.2.1 c.2.2.2)

/-- Output word `w` of Philox4x32-10 for a seed and a counter (R92). -/
def philox (seed c0 c1 c2 c3 w : Nat) : Nat :=
  let r := philoxRounds 10 (seed % 2 ^ 32) (seed / 2 ^ 32 % 2 ^ 32) (c0, c1, c2, c3)
  match w with
  | 0 => r.1
  | 1 => r.2.1
  | 2 => r.2.2.1
  | _ => r.2.2.2

/-- The rounding of element `i` of output region `j` under the command's mode (R90 to R92). -/
def roundingOf (sr : Bool) (seed j i : Nat) : Rounding :=
  if sr then .sr (philox seed (i / 4 % 2 ^ 32) (i / 4 / 2 ^ 32 % 2 ^ 32) j 0 (i % 4)) else .rne

/-- One SipRound on the state (v0, v1, v2, v3). -/
def sipRound (v : Word64 × Word64 × Word64 × Word64) : Word64 × Word64 × Word64 × Word64 :=
  let v0 := v.1 + v.2.1
  let v1 := v.2.1.rotateLeft 13 ^^^ v0
  let v0 := v0.rotateLeft 32
  let v2 := v.2.2.1 + v.2.2.2
  let v3 := v.2.2.2.rotateLeft 16 ^^^ v2
  let v0 := v0 + v3
  let v3 := v3.rotateLeft 21 ^^^ v0
  let v2 := v2 + v1
  let v1 := v1.rotateLeft 17 ^^^ v2
  let v2 := v2.rotateLeft 32
  (v0, v1, v2, v3)

/-- `n` SipRounds. -/
def sipRounds : Nat → Word64 × Word64 × Word64 × Word64 → Word64 × Word64 × Word64 × Word64
  | 0, v => v
  | n + 1, v => sipRounds n (sipRound v)

/-- Take in one 8-byte word with two rounds. -/
def sipWord (v : Word64 × Word64 × Word64 × Word64) (m : Word64) : Word64 × Word64 × Word64 × Word64 :=
  let r := sipRounds 2 (v.1, v.2.1, v.2.2.1, v.2.2.2 ^^^ m)
  (r.1 ^^^ m, r.2.1, r.2.2.1, r.2.2.2)

/-- Take in the whole words of a message, `n` of them. -/
def sipWords : Nat → List Byte → Word64 × Word64 × Word64 × Word64 → Word64 × Word64 × Word64 × Word64
  | 0, _, v => v
  | n + 1, bs, v => sipWords n (bs.drop 8) (sipWord v (BitVec.ofNat 64 (leNat (bs.take 8))))

/-- SipHash-2-4 with a 128-bit result, 16 bytes (R59, R302). -/
def siphash (key : BitVec 128) (bs : List Byte) : List Byte :=
  let k0 : Word64 := BitVec.ofNat 64 key.toNat
  let k1 : Word64 := BitVec.ofNat 64 (key.toNat / 2 ^ 64)
  let v := (k0 ^^^ 0x736f6d6570736575#64, k1 ^^^ 0x646f72616e646f6d#64 ^^^ 0xee#64,
            k0 ^^^ 0x6c7967656e657261#64, k1 ^^^ 0x7465646279746573#64)
  let n := bs.length / 8
  let v := sipWords n bs v
  let last := BitVec.ofNat 64 (leNat (bs.drop (8 * n)) + bs.length % 256 * 2 ^ 56)
  let v := sipWord v last
  let a := sipRounds 4 (v.1, v.2.1, v.2.2.1 ^^^ 0xee#64, v.2.2.2)
  let o1 := a.1 ^^^ a.2.1 ^^^ a.2.2.1 ^^^ a.2.2.2
  let b := sipRounds 4 (a.1, a.2.1 ^^^ 0xdd#64, a.2.2.1, a.2.2.2)
  let o2 := b.1 ^^^ b.2.1 ^^^ b.2.2.1 ^^^ b.2.2.2
  toLe 8 o1.toNat ++ toLe 8 o2.toNat

/-- The digest of one output region (R59): 64 KiB segments, then the digest over their indices and digests. -/
def regionDigest (bs : List Byte) : List Byte :=
  let n := Nat.max 1 (cdiv bs.length 65536)
  siphash 0 ((List.range n).flatMap (fun i => toLe 8 i ++ siphash 0 (sliceOf bs (i * 65536) 65536)))

/-- The digest of a command's output regions (R59). -/
def digestOf (regions : List (List Byte)) : List Byte :=
  match regions with
  | [] => regionDigest []
  | [r] => regionDigest r
  | rs => siphash 0 (rs.flatMap regionDigest)

end Sys2Proof.Machine
end

