-- ==== Sys2Proof/Machine/StateHost.lean ====
section
/-! DEFINITION. The state of the host port, the rings and the command set (08_host_interface.md, 09_command_set.md):
plain data, one structure for each thing the manual names. Every docstring gives the width, the rule and the value
after reset. -/

namespace Sys2Proof.Machine

/-- The state of a ring (R244). -/
inductive RingSt | disabled | enabled | paused | error
deriving DecidableEq, Repr

/-- The code of a ring state in RING.SQ_STAT, CQ_STAT and EVT_STAT (R246). -/
def RingSt.code : RingSt → Nat
  | .disabled => 0 | .enabled => 1 | .paused => 2 | .error => 3

/-- One submission ring (R224, R247). -/
structure Sq where
  /-- RING.SQ_BASE_HI:SQ_BASE_LO, the ring's bus address; 64 b; R247; reset 0 -/
  base : Nat := 0
  /-- RING.SQ_CFG.ENABLE; 1 b; R247; reset 0 -/
  enable : Bool := false
  /-- RING.SQ_CFG.PAUSE; 1 b; R247; reset 0 -/
  pause : Bool := false
  /-- RING.SQ_CFG.SIZE_LOG2; 5 b; R247; reset 6 -/
  sizeLog2 : Nat := 6
  /-- RING.SQ_CFG.CQ, the bound completion ring; 4 b; R247; reset 0 -/
  cq : Nat := 0
  /-- RING.SQ_CFG.CLASS, the fetch class; 2 b; R247; reset 1 -/
  cls : Nat := 1
  /-- RING.SQ_CFG.WEIGHT, descriptors per turn; 4 b; R247; reset 1 -/
  weight : Nat := 1
  /-- RING.SQ_STAT.STATE; 3 b; R244; reset DISABLED -/
  st : RingSt := .disabled
  /-- RING.SQ_STAT.DRAINING; 1 b; R244; reset 0 -/
  draining : Bool := false
  /-- RING.SQ_STAT.ERR_CODE; 8 b; R244; reset 0 -/
  errCode : Nat := 0
  /-- RING.SQ_HEAD, the next slot to fetch; 16 b; R247; reset 0 -/
  head : Nat := 0
  /-- SQ_TAIL as the last doorbell read gave it; 32 b; R230; reset 0 -/
  tail : Nat := 0
  /-- The descriptor fetched last from this ring since its valid enable (R256); reset none -/
  lastNum : Option Nat := none
  /-- The STATUS of that descriptor once it is complete; R256; reset none -/
  lastStatus : Option Nat := none
  /-- The SEQ of the last sealed descriptor of the ring; R460; reset none -/
  lastSeal : Option Nat := none
deriving DecidableEq, Repr

/-- One completion ring (R224, R236, R247). -/
structure Cq where
  /-- RING.CQ_BASE_HI:CQ_BASE_LO; 64 b; R247; reset 0 -/
  base : Nat := 0
  /-- RING.CQ_CFG.ENABLE; 1 b; R247; reset 0 -/
  enable : Bool := false
  /-- RING.CQ_CFG.SPLIT; 1 b; R236; reset 0 -/
  split : Bool := false
  /-- RING.CQ_CFG.SIZE_LOG2; 5 b; R247; reset 6 -/
  sizeLog2 : Nat := 6
  /-- RING.CQ_CFG.MOD_US; 8 b; R243; reset 0 -/
  modUs : Nat := 0
  /-- RING.CQ_CFG.VECTOR; 7 b; R243; reset 0 -/
  vector : Nat := 0
  /-- RING.CQ_STAT.STATE; 3 b; R244; reset DISABLED -/
  st : RingSt := .disabled
  /-- RING.CQ_STAT.ERR_CODE; 8 b; R244; reset 0 -/
  errCode : Nat := 0
  /-- RING.CQ_TAIL.SLOT, the next slot to write; 16 b; R247; reset 0 -/
  slot : Nat := 0
  /-- RING.CQ_TAIL.PHASE; 1 b; R236; reset 1 -/
  phase : Bool := true
  /-- The CQ_HEAD the module last accepted; 32 b; R230; reset 0 -/
  accepted : Nat := 0
  /-- Slots reserved by fetched descriptors; R226; reset 0 -/
  reserved : Nat := 0
  /-- An interrupt of the ring is due; 1 b; R243; reset 0 -/
  due : Bool := false
  /-- A message of the ring is held by the vector's pending bit; R243; reset 0 -/
  pended : Bool := false
  /-- Module time of the ring's last MSI-X message; R243; reset none -/
  lastMsg : Option Nat := none
deriving DecidableEq, Repr

/-- One event record (R240) that waits to be written. -/
structure Event where
  /-- CODE; 8 b; R240 -/
  code : Nat
  /-- SUBJECT; 4 b; R240 -/
  subject : Nat
  /-- TIME; 64 b; R240 -/
  time : Nat
  /-- DATA, up to 16 bytes; R242 -/
  data : List Byte
deriving DecidableEq, Repr

/-- The event ring of a partition (R239, R246). -/
structure EvtRing where
  /-- RING.EVT_BASE_HI:EVT_BASE_LO; 64 b; R246; reset 0 -/
  base : Nat := 0
  /-- RING.EVT_CFG.ENABLE; 1 b; R246; reset 0 -/
  enable : Bool := false
  /-- RING.EVT_CFG.SPLIT; 1 b; R246; reset 0 -/
  split : Bool := false
  /-- RING.EVT_CFG.IRQ; 1 b; R246; reset 1 -/
  irq : Bool := true
  /-- RING.EVT_CFG.SIZE_LOG2; 4 b; R246; reset 6 -/
  sizeLog2 : Nat := 6
  /-- RING.EVT_CFG.MOD_US; 8 b; R246; reset 0 -/
  modUs : Nat := 0
  /-- RING.EVT_CFG.VECTOR; 7 b; R246; reset 0 -/
  vector : Nat := 0
  /-- RING.EVT_STAT.STATE; 3 b; R246; reset DISABLED -/
  st : RingSt := .disabled
  /-- RING.EVT_STAT.ERR_CODE; 8 b; R246; reset 0 -/
  errCode : Nat := 0
  /-- RING.EVT_STAT.LOST; 16 b saturating; R239; reset 0 -/
  lost : Nat := 0
  /-- Events were discarded after the last record written (the LOST bit of the next record); R239; reset 0 -/
  lostFlag : Bool := false
  /-- The next slot to write; R239; reset 0 -/
  slot : Nat := 0
  /-- The phase of the next record; R239; reset 1 -/
  phase : Bool := true
  /-- The EVT_HEAD the module last accepted; R230; reset 0 -/
  accepted : Nat := 0
  /-- SEQ of the last record written; 32 b; R240; reset 0 -/
  seq : Nat := 0
  /-- Events raised and not yet written, oldest first: those that free slots take and at most 32 more; R239; reset empty -/
  queue : List Event := []
  /-- An interrupt of the ring is due; R243; reset 0 -/
  due : Bool := false
  /-- A message of the ring is held by the vector's pending bit; R243; reset 0 -/
  pended : Bool := false
  /-- Module time of the ring's last MSI-X message; R243; reset none -/
  lastMsg : Option Nat := none
deriving DecidableEq, Repr

/-- One MSI-X table entry (R243; the PCIe base specification's layout). -/
structure Msix where
  /-- Message address; 64 b; R243; reset 0 -/
  addr : Nat := 0
  /-- Message data; 32 b; R243; reset 0 -/
  data : Nat := 0
  /-- Vector control: masked; 1 b; R243; reset 1 -/
  masked : Bool := true
  /-- Pending bit; 1 b; R243; reset 0 -/
  pend : Bool := false
deriving DecidableEq, Repr

/-- Where a partition stands in the doze sequence (R233): entering from its first step until its doorbell read has returned. -/
inductive Doze | awake | entering | dozing
deriving DecidableEq, Repr

/-- A descriptor that was fetched and is not complete (R226, R254, R255), from a ring or from an act. -/
structure Desc where
  /-- Fetch number within the partition: the order of fetching; R227 -/
  num : Nat
  /-- The 64 bytes read at fetch; R227 -/
  bytes : List Byte
  /-- The submission ring it was fetched from; R226 -/
  sq : Nat
  /-- Its slot in that ring; R235 -/
  slot : Nat
  /-- The completion ring in which its slot is reserved; R226 -/
  cq : Nat
  /-- For an act's descriptor: the act slot, the lane and its index in the act; R263 -/
  act : Option (Nat × Nat × Nat) := none
  /-- The descriptor before it (R256), if it has one -/
  pred : Option Nat := none
  /-- The STATUS of that one once it is complete; R256 -/
  predStatus : Option Nat := none
  /-- Module time at which it started; R253 -/
  startedAt : Option Nat := none
  /-- Tile-beats counted for it so far; R118 -/
  beats : Nat := 0
  /-- The physical ranges that unordered descriptors wrote while it was under way; R35 -/
  raced : List (Nat × Nat) := []
  /-- The host link went down while it was under way: what it writes to host memory is discarded; R216 -/
  lost : Bool := false
deriving DecidableEq, Repr

/-- A completion record that is due and waits for the doorbell read of a doze sequence (R233). -/
structure LateRec where
  /-- The descriptor; R235 -/
  desc : Desc
  /-- STATUS, CFLAGS; R235 -/
  status : Nat × Nat
  /-- RESULT and BEATS; R235 -/
  result : Nat × Nat
deriving DecidableEq, Repr

/-- The state of an act slot (R266). -/
inductive ActSt | free | running | scheduled | stopping
deriving DecidableEq, Repr

/-- The partition's share of the host port, its rings and its doorbell page (R230 to R246). -/
structure PartHost where
  /-- RING.DB_BASE_HI:DB_BASE_LO, the doorbell page's bus address; 64 b; R246; reset 0 -/
  dbBase : Nat := 0
  /-- RING.DB_BASE_LO.VALID; 1 b; R246; reset 0 -/
  dbValid : Bool := false
  /-- RING.POLL.DOZE_US; 16 b; R246; reset 0x32 -/
  dozeUs : Nat := 0x32
  /-- RING.POLL.POLL_US; 10 b; R246; reset 0x64 -/
  pollUs : Nat := 0x64
  /-- RING.STATUS.DB_FAULT; 1 b; R246; reset 0 -/
  dbFault : Bool := false
  /-- HOST.APERTURE_HI:APERTURE_LO base, VA[47:30]; 48 b; R246; reset 0 -/
  apBase : Nat := 0
  /-- HOST.APERTURE_LO.ENABLE; 1 b; R246; reset 0 -/
  apEnable : Bool := false
  /-- HOST.FUNC_ERR.RD_ERR; 16 b saturating; R246; reset 0 -/
  rdErr : Nat := 0
  /-- HOST.FUNC_ERR.BAD_ACCESS; 16 b saturating; R246; reset 0 -/
  badAccess : Nat := 0
  /-- The MSI-X table, 128 entries, with the pending bits; R243; reset every entry masked -/
  msix : List Msix := List.replicate 128 {}
  /-- The doze sequence; PRESENCE.DOZING is 1 outside awake; R233; reset awake -/
  doze : Doze := .awake
  /-- PRESENCE.WAKES; 8 b; R231; reset 0 -/
  wakes : Nat := 0
  /-- Module time since which the partition has been doze-eligible; R233; reset none -/
  eligibleSince : Option Nat := none
  /-- Module time of the last doorbell read; R232; reset 0 -/
  lastDb : Nat := 0
  /-- A doorbell read is outstanding; R232; reset 0 -/
  dbOut : Bool := false
  /-- A trigger came while a read was outstanding: one more read follows; R232; reset 0 -/
  dbAgain : Bool := false
  /-- A doorbell read has returned since the last valid enable; R226; reset 0 -/
  dbSeen : Bool := false
  /-- The 64 submission rings; R224 -/
  sqs : List Sq := List.replicate 64 {}
  /-- The 16 completion rings; R224 -/
  cqs : List Cq := List.replicate 16 {}
  /-- The event ring; R239 -/
  evt : EvtRing := {}
  /-- The next fetch number; R227; reset 0 -/
  nextNum : Nat := 0
  /-- For each fetch class the ring served last and the descriptors left of its turn; R228; reset ring 63, none left, so that ring 0 comes
  first -/
  turns : List (Nat × Nat) := List.replicate 4 (63, 0)
  /-- The completion rings of the batches that are being written, with the records so far; R238; reset none, no batch under way -/
  batch : Option (List (Nat × Nat)) := none
  /-- Completion records that fell due while the doze sequence's doorbell read was outstanding, oldest first; R233; reset none -/
  late : List LateRec := []
  /-- A nudge came while the doze sequence's doorbell read was outstanding; R233; reset 0 -/
  wakePend : Bool := false
  /-- Module time of the hint event, if one is set; R252; reset none -/
  hint : Option Nat := none
deriving DecidableEq, Repr

/-- The writable fields of one function's configuration space (R212, R219, R222; the base specification's registers). -/
structure CfgFn where
  /-- BAR0's base; 64 b; R9; reset 0 -/
  bar0 : Nat := 0
  /-- BAR2's base; 64 b; R9; reset 0 -/
  bar2 : Nat := 0
  /-- Maximum payload size, 128 B shifted by the code; 3 b; R212; reset 0 (the base specification's) -/
  mps : Nat := 0
  /-- Maximum read request size, 128 B shifted by the code; 3 b; R212; reset 2 (the base specification's) -/
  mrrs : Nat := 2
  /-- Completion timeout value; 4 b; R212; reset 0, 50 ms -/
  cto : Nat := 0
  /-- LTR enable; R212; reset 0 -/
  ltr : Bool := false
  /-- ASPM L1 enable; R212; reset 0 -/
  aspm : Bool := false
  /-- L1 substate enables, L1.2 and L1.1; 4 b; R212; reset 0 -/
  l1ss : Nat := 0
  /-- AER's ECRC generation and checking enables; R212; reset 0 -/
  ecrc : Bool × Bool := (false, false)
  /-- PTM enable; R212; reset 0 -/
  ptm : Bool := false
  /-- MSI-X Enable; R243; reset 0 (the base specification's) -/
  msixOn : Bool := false
  /-- MSI-X Function Mask; R243; reset 0 -/
  msixMask : Bool := false
deriving DecidableEq, Repr

/-- The answer to a configuration request (R488). -/
inductive CfgAns
  | retry | done | value (v : Nat)
deriving DecidableEq, Repr

/-- The module's side of the PCIe port (R212 to R220, R248). -/
structure HostPort where
  /-- HOST.LINK.UP; 1 b; R248; reset 0 -/
  up : Bool := false
  /-- HOST.LINK.WIDTH; 4 b; R248; reset 0 -/
  width : Nat := 0
  /-- HOST.LINK.SPEED; 4 b; R248; reset 0 -/
  speed : Nat := 0
  /-- HOST.LINK.FLIT; 1 b; R248; reset 0 -/
  flit : Bool := false
  /-- PERST# is asserted; 1 b; R488; reset 0 -/
  perst : Bool := false
  /-- HOST.PTM_CTRL.ENABLE; 1 b; R248; reset 0 -/
  ptmEnable : Bool := false
  /-- HOST.PTM_CTRL.PERIOD_MS; 7 b; R248; reset 0x0A -/
  ptmPeriod : Nat := 0x0A
  /-- The last offsets of PTM dialogs in ns, newest first, at most eight; R217; reset empty -/
  ptmOffsets : List Int := []
  /-- Module time of the last dialog; R217; reset none -/
  ptmAt : Option Nat := none
  /-- Offset that is still being slewed out of module time, in ns; R217; reset 0 -/
  slew : Int := 0
  /-- Nanoseconds since the last one that the slew added or held back; R217; reset 0 -/
  slewRun : Nat := 0
  /-- Module time just after its last forward step; R217, R525; reset none -/
  stepAt : Option Nat := none
  /-- HOST.ERR.RD_ERR; 16 b saturating; R248; reset 0 -/
  rdErr : Nat := 0
  /-- HOST.ERR.BAD_ACCESS; 16 b saturating; R248; reset 0 -/
  badAccess : Nat := 0
  /-- NumVFs of the SR-IOV capability; 16 b; R218; reset 0 -/
  numVfs : Nat := 0
  /-- log2 of BAR2's size per function, 30 to 36; R222; reset 36 -/
  bar2Log2 : List Nat := List.replicate 16 36
  /-- The data a BAR2 read returned last: bytes, and whether the poisoned attribute was set; R222; reset none -/
  bar2Read : Option (List Byte × Bool) := none
  /-- The base that the host wrote for the virtual functions' BAR0 and BAR2 in the SR-IOV capability; R9; reset 0 -/
  vfBars : Nat × Nat := (0, 0)
  /-- The configuration space of each function; R212 -/
  cfg : List CfgFn := List.replicate 16 {}
  /-- The answer to the last configuration request; R488; reset none -/
  cfgAnswer : Option CfgAns := none
deriving DecidableEq, Repr

end Sys2Proof.Machine
end

