-- ==== Sys2Proof/Machine/StateChain.lean ====
section
/-! DEFINITION. The state of the management chain, start-up and the firmware banks (16_chain_and_startup.md), of the
guard, the steward, partitions' trust and keys (15_partitions_and_security.md), and of health and recovery
(17_health_and_recovery.md, 19_cabinet_recovery.md): plain data. -/

namespace Sys2Proof.Machine

/-- One image of a microcode release, as the release's manifest lists it (R61, R292). -/
structure Image where
  /-- Image number within the release; 8 b; R61 -/
  num : Nat
  /-- The opcodes the manifest lists for it; R292 -/
  opcodes : List Nat
  /-- The role the manifest gives it: 0 other, 1 prefill, 2 decode, 3 draft, 4 blended; R61, R334 -/
  role : Nat
deriving DecidableEq, Repr

/-- A flash slot of one target in one bank (R492, R493). -/
structure FwSlot where
  /-- The slot is valid; R492; reset 1 (flash) -/
  valid : Bool := true
  /-- VERSION of its package; for microcode the release number; R493; reset 1 (flash) -/
  version : Nat := 1
  /-- SVN of its package; R493; reset 0 (flash) -/
  svn : Nat := 0
  /-- IMAGE_DIGEST of its package; R493; reset empty (flash) -/
  digest : List Byte := []
  /-- The manifest's images, for a microcode package; R61; reset none (flash) -/
  images : List Image := []
  /-- It was staged since the target's last activation; R494; reset 0 -/
  staged : Bool := false
  /-- It was the active package before the target's last activation; R494; reset 0 -/
  previous : Bool := false
deriving DecidableEq, Repr

/-- One firmware target: its two slots and what start-up knows of it (R492 to R496). -/
structure FwTarget where
  /-- The slot of bank A; R492 -/
  a : FwSlot := {}
  /-- The slot of bank B; R492 -/
  b : FwSlot := { valid := false, version := 0 }
  /-- The active bank is B; R492; reset bank A (flash) -/
  activeB : Bool := false
  /-- The fused counter; 0 to 64; R496; reset 0 (fuses) -/
  fuse : Nat := 0
  /-- READY or DEGRADED was reached with the active package; R496; reset 0 -/
  reached : Bool := false
deriving DecidableEq, Repr

/-- The S-scope values that the guard writes back at step 8 after a module reset (R583). -/
structure Kept where
  /-- LNK.PAIR.ENABLE; R583 -/
  pairEn : Bool
  /-- LNK.PAIR.PORT; R583 -/
  pairPort : Nat
  /-- PAIR.CFG.ENABLE; R583 -/
  enable : Bool
  /-- PAIR.CFG.WARM; R583 -/
  warm : Bool
  /-- PAIR.CFG.PART; R583 -/
  part : Nat
  /-- MON.CFG.ENGINEER_EN; R583 -/
  engineer : Bool
deriving DecidableEq, Repr

/-- The management chain, start-up and the module state (R475 to R498). -/
structure Boot where
  /-- CHN.STATE.STATE, the module state; 4 b; R498; reset 0x2 GUARD_BOOT -/
  st : ModSt := .guardBoot
  /-- CHN.STATE.SAFE_CAUSE; 4 b; R498; reset 0 -/
  safeCause : Nat := 0
  /-- CHN.ADDR.VALID and DYN_ADDR; 1 b and 7 b; R498; reset none -/
  dynAddr : Option Nat := none
  /-- ENI as the module last saw it at a SETDASA; R477; reset 0 -/
  eni : Bool := false
  /-- ENO is asserted; R478; reset 0 -/
  eno : Bool := false
  /-- The maximum write length; 64 to 256 bytes; R475; reset 256 -/
  mwl : Nat := 256
  /-- The maximum read length; 64 to 256 bytes; R475; reset 256 -/
  mrl : Nat := 256
  /-- What the bus transaction before returned: its bytes, or none for a NACK or no answer; R475, R482; reset none -/
  busReply : Option (List Byte) := none
  /-- The pending response as (CMD, data); R482; reset none -/
  pendResp : Option (Nat × List Byte) := none
  /-- CHN.ALERT.CAUSES; 5 b; R480, R498; reset 0x01 -/
  causes : BitVec 5 := 1
  /-- CHN.MSG_ERR.CHECK_ERR; 16 b saturating; R498; reset 0 -/
  checkErr : Nat := 0
  /-- CHN.MSG_ERR.BAD_CMD; 16 b saturating; R498; reset 0 -/
  badCmd : Nat := 0
  /-- CHN.SERVICE.OUT_OF_SERVICE; 1 b; R498; reset 0 -/
  outOfService : Bool := false
  /-- CHN.SERVICE.SPARE_EMPTY; 1 b; R498; reset 0 -/
  spareEmpty : Bool := false
  /-- CHN.BOOT.ATTEMPTS; 4 b; R498; reset 0 (flash) -/
  attempts : Nat := 0
  /-- CHN.BOOT.GUARD_FALLBACK; 1 b; R498; reset 0 -/
  guardFallback : Bool := false
  /-- CHN.BOOT.STEWARD_FALLBACK; 1 b; R498; reset 0 -/
  stewardFallback : Bool := false
  /-- Module time of bus power, from which BOOT_MS counts; R484; reset 0 -/
  busPowerAt : Nat := 0
  /-- CHN.BOOT_TIME.READY_MS in 10 ms units; 16 b; R498; reset 0 -/
  readyMs : Nat := 0
  /-- Targets 0 guard, 1 steward, 2 microcode; R492 -/
  fw : List FwTarget := List.replicate 3 {}
  /-- Module time at which the ROM started a guard image; R495; reset none -/
  guardAt : Option Nat := none
  /-- The ports (bits 15 to 0) and bulk channels (bits 23 to 16) that trained at step 6; R487; reset 0 -/
  trained : Nat := 0
  /-- The unique device secret is locked; R454; reset 0 -/
  secretLocked : Bool := false
  /-- The binding private key that the running guard image holds, 0 while none runs; 384 b; R454; reset 0 -/
  bindKey : BitVec 384 := 0
  /-- The Alias private key of this boot, 0 while no guard image runs; 384 b; R454; reset 0 -/
  aliasKey : BitVec 384 := 0
  /-- The Alias certificate that the DeviceID key signed at this boot; R454; reset none -/
  aliasCert : List Byte := []
  /-- The guard image runs; R490; reset 0 -/
  guardUp : Bool := false
  /-- Start-up step 4 has ended: configuration requests are served; R488; reset 0 -/
  served : Bool := false
  /-- Start-up step 8 has ended; R488; reset 0 -/
  stepEight : Bool := false
  /-- SVC_RESET# is low; R491; reset 0 -/
  svcLow : Bool := false
  /-- Events that are delivered once the host port is up: BOOT_FALLBACK, UNIT_UNFENCED; R495, R512; reset none -/
  held : List Event := []
  /-- What the guard writes back at step 8; R583; reset none -/
  kept : Option Kept := none
  /-- Module time at which an announced module reset takes effect; R472, R491; reset none -/
  resetAt : Option Nat := none
deriving DecidableEq, Repr

/-- The state of a partition (R441). -/
inductive PartSt | unconfigured | configured | admitted | running | quiescing | faulted
deriving DecidableEq, Repr

/-- The code of PART.STATE.STATE (R473). -/
def PartSt.code : PartSt → Nat
  | .unconfigured => 0 | .configured => 1 | .admitted => 2 | .running => 3 | .quiescing => 4 | .faulted => 5

/-- An engine entry of a partition specification (R439). -/
structure EngSpec where
  /-- ENGINE; R439 -/
  idx : Nat
  /-- ELASTIC; R439 -/
  elastic : Bool
  /-- IMAGE; R439 -/
  image : Nat
  /-- RELEASE; R439 -/
  release : Nat
  /-- TILES, in ascending order; R439 -/
  tiles : List Nat
  /-- DEF_TIMEOUT; R439 -/
  defTimeout : Nat
deriving DecidableEq, Repr

/-- The state of a TDISP interface (SEC.ADMIT.TDI, R474). -/
inductive Tdi | none | unlocked | locked | run | error
deriving DecidableEq, Repr

/-- The code of SEC.ADMIT.TDI (R474). -/
def Tdi.code : Tdi → Nat
  | .none => 0 | .unlocked => 1 | .locked => 2 | .run => 3 | .error => 4

/-- One entry of the load log that measurement 16 + p covers (R456, R470). -/
structure LoadEntry where
  /-- BIND_LOAD or WEIGHT_LOAD, by SUBOP; R471 -/
  subop : Nat
  /-- KEY_ID; R469 -/
  keyId : List Byte
  /-- DEST_PA; R470 -/
  destPa : Nat := 0
  /-- LEN; R470 -/
  len : Nat := 0
  /-- Chunk count; R470 -/
  chunks : Nat := 0
deriving DecidableEq, Repr

/-- A partition's place in the trusted domain and its keys (R441 to R474). -/
structure PartSec where
  /-- PART.STATE.STATE; 3 b; R473; reset UNCONFIGURED -/
  st : PartSt := .unconfigured
  /-- PART.STATE.VD_MASK; 16 b; R473; reset 0 -/
  vdMask : BitVec 16 := 0
  /-- The specification's bytes, which the partition measurement covers; R456; reset none -/
  spec : List Byte := []
  /-- PART.STATE.SEC_MODE; 2 b; R473; reset 0 -/
  secMode : Nat := 0
  /-- PART.STATE.SEALED_MESH; 1 b; R473; reset 0 -/
  meshSeal : Bool := false
  /-- PART.RES.CODEC_WEIGHT; 8 b; R473; reset 0 -/
  codecWeight : Nat := 0
  /-- PART.RES.CODEC_CORES; 8 b; R473; reset 0 -/
  codecCores : BitVec 8 := 0
  /-- CRC_UNITS of the specification; 16 b; R439; reset 0 -/
  crcUnits : BitVec 16 := 0
  /-- PART.RES.HOST_MOVERS; 8 b; R473; reset 0 -/
  hostMovers : BitVec 8 := 0
  /-- PART.RES.LINK_PORTS; 8 b; R473; reset 0 -/
  linkPorts : BitVec 8 := 0
  /-- CHANNELS of the specification; 64 b; R439; reset 0 -/
  channels : BitVec 64 := 0
  /-- MEM_SLOTS of the specification; 64 b; R439; reset 0 -/
  memSlots : BitVec 64 := 0
  /-- The engine entries of the specification; R439; reset none -/
  engSpecs : List EngSpec := []
  /-- A partition reset is under way; R442, R584; reset 0 -/
  resetting : Bool := false
  /-- PART.STATE.FROZEN; 1 b; R461; reset 0 -/
  frozen : Bool := false
  /-- The key for prefix hashing; 128 b; R302; reset 0 -/
  partKey : BitVec 128 := 0
  /-- The current memory key; 256 b; R464; reset none -/
  curKey : Option (BitVec 256) := Option.none
  /-- The previous memory key; 256 b; R464; reset none -/
  prevKey : Option (BitVec 256) := Option.none
  /-- The epoch; 32 b; R464; reset 0 -/
  epoch : BitVec 32 := 0
  /-- Frames still of the previous epoch, as ranges (first frame, count), ascending; R464; reset none -/
  oldFrames : List (Nat × Nat) := []
  /-- Retired frames of a destroyed epoch, as ranges; R467; reset none -/
  retiredFrames : List (Nat × Nat) := []
  /-- The eight content-key slots as (KEY_ID, key); R469; reset empty -/
  content : List (Option (List Byte × BitVec 256)) := List.replicate 8 Option.none
  /-- The log of BIND_LOAD and WEIGHT_LOAD that the measurement covers; R456; reset none -/
  loads : List LoadEntry := []
  /-- SEC.ADMIT.TDI; 3 b; R474; reset 0 -/
  tdi : Tdi := .none
  /-- SEC.ADMIT.SESSION: an SPDM session in the application phase; 1 b; R474; reset 0 -/
  session : Bool := false
  /-- A session is being set up: KEY_EXCHANGE done, FINISH not yet; R455; reset 0 -/
  handshake : Bool := false
  /-- Module time of the last heartbeat of the session; R455; reset 0 -/
  heartbeatAt : Nat := 0
  /-- Measurement 16 + p as last returned in the session; R457; reset none -/
  lastMeas : Option (List Byte) := Option.none
  /-- The next module-to-host SEQ of the session; R460; reset 1 -/
  sealSeq : Nat := 1
  /-- GEN: which key of the session seals; R459; reset 0 -/
  sealGen : Bool := false
  /-- The session's key for module-to-host units; 256 b; R459; reset 0 -/
  sealKey : BitVec 256 := 0
  /-- The session's key for host-to-module units; 256 b; R459; reset 0 -/
  openKey : BitVec 256 := 0
  /-- The key for host-to-module units before the last KEY_UPDATE; 256 b; R459; reset 0 -/
  openOld : BitVec 256 := 0
  /-- The host-to-module SEQs that this session has used; R460; reset none -/
  seenSeqs : List Nat := []
  /-- The IDE stream's keys are programmed; R458; reset 0 -/
  ideKeys : Bool := false
  /-- The answer the DOE mailbox gave last; R455; reset none -/
  doeReply : List Byte := []
deriving DecidableEq, Repr

/-- A mailbox request slot that the guard has answered (R451). -/
structure MailReply where
  /-- OP; R451 -/
  op : Nat
  /-- STATUS written by the guard: 0 served, 1 refused; R451 -/
  status : Nat
  /-- SEQ; R451 -/
  seq : Nat
deriving DecidableEq, Repr

/-- The guard's and steward's module-wide registers (R451 to R453, R474). -/
structure Sec where
  /-- SEC.SEAL.SEALED; 1 b; R474; reset 0 -/
  sealed : Bool := false
  /-- SEC.SEAL.AUTO; 1 b; R474; reset 0 -/
  auto : Bool := false
  /-- SEC.ROTATE.RATE_PCT; 4 b; R474; reset 2 -/
  ratePct : Nat := 2
  /-- SEC.MBOX.REFUSED; 16 b saturating; R474; reset 0 -/
  refused : Nat := 0
  /-- SEC.MBOX.REQUESTS; 16 b saturating; R474; reset 0 -/
  requests : Nat := 0
  /-- SEC.STEWARD.RUNNING; 1 b; R474; reset 0 -/
  steward : Bool := false
  /-- SEC.STEWARD.RESTARTS; 16 b saturating; R474; reset 0 -/
  restarts : Nat := 0
  /-- Module time of the last steward heartbeat; R452; reset 0 -/
  heartbeatAt : Nat := 0
  /-- The mailbox's request slots as answered, newest first, at most 16; R451; reset none -/
  mail : List MailReply := []
  /-- The bytes the last mailbox read gave the steward; R451; reset none -/
  mailData : List Nat := []
  /-- The channel filters the steward has programmed, as (channel, filter bytes); R451; reset none -/
  filters : List (Nat × List Byte) := []
deriving DecidableEq, Repr

/-- A reset unit by kind code and number (R499). -/
abbrev UnitId := Nat × Nat

/-- Where the recovery of a reset unit stands (R503). -/
inductive Recov | idle | dumping | recovering
deriving DecidableEq, Repr

/-- The health state of one reset unit (R499 to R518). -/
structure Unit where
  /-- HLT.UNIT.FENCED, kept in flash; 1 b; R523; reset 0 (flash) -/
  fenced : Bool := false
  /-- The step of the reset timeline; HLT.UNIT.RESETTING outside idle; R503; reset idle -/
  recov : Recov := .idle
  /-- Module time at which the reset was asserted; R503; reset 0 -/
  resetAt : Nat := 0
  /-- Module time at which its progress watchdog counts from; R500; reset 0 -/
  seenAt : Nat := 0
  /-- The source of the reset under way, 1 to 5; R522; reset 0 -/
  source : Nat := 0
  /-- DATA of its HANG event, for the dump's header; R505; reset none -/
  hang : List Byte := []
  /-- Module time of step 1 of R503; R505; reset 0 -/
  declaredAt : Nat := 0
  /-- The reset is a cascade; R506; reset 0 -/
  cascade : Bool := false
  /-- The reset is an unfence and test; R513; reset 0 -/
  testing : Bool := false
  /-- Module times of the resets counted under R512; R512; reset none -/
  resets : List Nat := []
  /-- Module times of failed rounds or slices; R518; reset none -/
  fails : List Nat := []
  /-- Failed rounds in a row; R512; reset 0 -/
  failRow : Nat := 0
  /-- Module time of the last passed round; R517; reset 0 -/
  passedAt : Nat := 0
  /-- Module time since which the tile is untested; STRIKER_OVERDUE stands; R516; reset 0 -/
  overdue : Bool := false
  /-- A fence of a unit other than a tile that waits for the end of its recovery, by its reason; R509; reset none -/
  fenceWait : Option Nat := none
  /-- A striker round is owed: after a failed round, or after an act's failure; R517, R532; reset 0 -/
  queued : Bool := false
  /-- A striker round is under way; R515; reset 0 -/
  striking : Bool := false
  /-- Module time of the last memory test slice; R516; reset none -/
  testedAt : Option Nat := none
  /-- The guard's save buffer for the test area; R516; reset none -/
  saved : Option (List Byte) := none
  /-- Corrected and uncorrectable errors of the last 24 h as (module time, corrected, uncorrectable); R518; reset none -/
  errs : List (Nat × Nat × Nat) := []
  /-- HLT.UNIT.SCORE; 10 b; R523; reset 0x3E8 -/
  score : Nat := 0x3E8
deriving DecidableEq, Repr

/-- A health record (R521). -/
structure HealthRec where
  /-- KIND, 1 to 14; R521 -/
  kind : Nat
  /-- UNIT_KIND; R521 -/
  unitKind : Nat
  /-- UNIT; R521 -/
  unit : Nat
  /-- PART; R521 -/
  part : Nat
  /-- DETAIL; R521 -/
  detail : Nat
  /-- TIME; R521 -/
  time : Nat
deriving DecidableEq, Repr

/-- Health, resets and expulsion of the module (R499 to R524, R566 to R569). -/
structure Health where
  /-- HLT.HANG_CTRL.WINDOW_MS; 14 b; R523; reset 0xC8 -/
  windowMs : Nat := 0xC8
  /-- HLT.FENCE_CTRL.WINDOW_H; 8 b; R523; reset 0x18 -/
  fenceH : Nat := 0x18
  /-- HLT.FENCE_CTRL.RESETS; 4 b; R523; reset 3 -/
  fenceN : Nat := 3
  /-- HLT.STRIKER.ENABLE; 1 b; R523; reset 1 -/
  striker : Bool := true
  /-- HLT.STRIKER.PERIOD_H; 8 b; R523; reset 0x18 -/
  strikerH : Nat := 0x18
  /-- HLT.ALERT.THRESH; 10 b; R523; reset 0x258 -/
  thresh : Nat := 0x258
  /-- HLT.SCORE_MIN: kind, unit, score; R523; reset (0, 0, 0x3E8) -/
  scoreMin : Nat × Nat × Nat := (0, 0, 0x3E8)
  /-- HLT.COUNTS.HANGS; 16 b saturating; R523; reset 0 -/
  hangs : Nat := 0
  /-- HLT.COUNTS.RESETS; 16 b saturating; R523; reset 0 -/
  resets : Nat := 0
  /-- HLT.CASCADES.DUMPS; 16 b saturating; R523; reset 0 -/
  dumps : Nat := 0
  /-- HLT.CASCADES.CASCADES; 16 b saturating; R523; reset 0 -/
  cascades : Nat := 0
  /-- HLT.PF_DUMP_HI:PF_DUMP_LO address; 48 b; R523; reset 0 -/
  pfDump : Nat := 0
  /-- HLT.PF_DUMP_LO.ENABLE; 1 b; R523; reset 0 -/
  pfDumpEn : Bool := false
  /-- HLT.PF_DUMP_HI.SLOTS_LOG2; 4 b; R523; reset 0 -/
  pfSlots : Nat := 0
  /-- The slot the next module dump record takes; R505; reset 0 -/
  pfNext : Nat := 0
  /-- Module time in forced telemetry slices since OFF, in µs; HLT.ROUST.TELEM_MS shows ms; R523; reset 0 -/
  telemUs : Nat := 0
  /-- HLT.ROUST.FLASH_MS; 16 b saturating; R523; reset 0 -/
  flashMs : Nat := 0
  /-- Sectors moved by wear levelling; R520; reset 0 -/
  wear : Nat := 0
  /-- Module time of the last sector that wear levelling moved; R520; reset 0 -/
  wearAt : Nat := 0
  /-- Module time of the last telemetry sweep; R520; reset 0 -/
  telemAt : Nat := 0
  /-- HLT.EXPEL.EXPELLED; 1 b; R569; reset 0 -/
  expelled : Bool := false
  /-- HLT.EXPEL.CAUSE; 3 b; R569; reset 0 -/
  expelCause : Nat := 0
  /-- HLT.EXPEL.THRESH; 10 b; R569; reset 0x190 -/
  expelThresh : Nat := 0x190
  /-- The 106 reset units in the order of HLT.UNIT: tiles, CC, LP, FP, MP, BC; R523 -/
  units : List Unit := List.replicate 106 {}
  /-- The health log, oldest first, at most 16,384 records (flash); R521; reset empty -/
  log : List HealthRec := []
deriving DecidableEq, Repr

/-- The health registers of a partition page, and its journal of resets (R511, R524). -/
structure PartHlt where
  /-- HLT.DUMP_HI:DUMP_LO address; 48 b; R524; reset 0 -/
  dump : Nat := 0
  /-- HLT.DUMP_LO.ENABLE; 1 b; R524; reset 0 -/
  dumpEn : Bool := false
  /-- HLT.DUMP_HI.SLOTS_LOG2; 4 b; R524; reset 0 -/
  slots : Nat := 0
  /-- HLT.DUMP_CTRL.COUNT; 5 b; R524; reset 16 -/
  count : Nat := 16
  /-- HLT.DUMP_CTRL.STRIDE; 10 b; R524; reset 1 -/
  stride : Nat := 1
  /-- HLT.DUMP_CTRL.START; 10 b; R524; reset 0 -/
  start : Nat := 0
  /-- HLT.DUMP_STAT.WRITTEN; 16 b saturating; R524; reset 0 -/
  written : Nat := 0
  /-- HLT.DUMP_STAT.NEXT; 6 b; R524; reset 0 -/
  next : Nat := 0
  /-- HLT.DEGRADED: the degraded engines; 64 b; R524; reset 0 -/
  degraded : BitVec 64 := 0
  /-- HLT.SCORE.SCORE; 10 b; R524; reset 0x3E8 -/
  score : Nat := 0x3E8
  /-- Module times of resets of its tiles, no cascade, with no descriptor OK in between; R511; reset none -/
  faultResets : List Nat := []
deriving DecidableEq, Repr

end Sys2Proof.Machine
end

