-- ==== Sys2Proof/Machine/StateStream.lean ====
section
/-! DEFINITION. The state of the module links and collective groups (12_module_links.md), of the field ports, stream
channels and CRC units (13_streams_and_crc.md), and of acts and module pairs (18_cyclic_and_redundancy.md): plain
data. -/

namespace Sys2Proof.Machine

/-- The state of a link port (R376). -/
inductive LinkSt | off | training | up | retraining | failed
deriving DecidableEq, Repr

/-- The code of LNK.PORT_STAT.STATE (R391). -/
def LinkSt.code : LinkSt → Nat
  | .off => 0 | .training => 1 | .up => 2 | .retraining => 3 | .failed => 4

/-- One DATA frame of a link: SEQ, VC, START, END and the payload (R371). -/
structure DataFrame where
  /-- SEQ; 16 b; R371 -/
  seq : Nat
  /-- VC; 2 b; R371 -/
  vc : Nat
  /-- START; R371 -/
  start : Bool
  /-- END; R371 -/
  fin : Bool
  /-- The valid payload bytes, 1 to 512; R371 -/
  payload : List Byte
deriving DecidableEq, Repr

/-- One link port LPn (R369 to R377, R389, R391). -/
structure LinkPort where
  /-- LNK.PORT_CFG.ENABLE; 1 b; R391; reset 1 -/
  enable : Bool := true
  /-- LNK.PORT_CFG.RATE_106; 1 b; R391; reset 0 -/
  rate106 : Bool := false
  /-- LNK.PORT_CFG.WIDTH_MIN; 2 b; R391; reset 0 -/
  widthMin : Nat := 0
  /-- LNK.PORT_CFG.OWNER, 0x1F for none; 5 b; R391; reset 0x1F -/
  owner : Nat := 0x1F
  /-- LNK.PORT_STAT.STATE; 3 b; R376; reset OFF -/
  st : LinkSt := .off
  /-- LNK.PORT_STAT.LANES_OK; 4 b; R391; reset 0 -/
  lanesOk : Nat := 0
  /-- LNK.PORT_STAT.RATE_106; 1 b; R391; reset 0 -/
  slow : Bool := false
  /-- LNK.PORT_STAT.WIDTH; 2 b; R391; reset 0 -/
  width : Nat := 0
  /-- LNK.PEER_HI:PEER_LO; 64 b; R391; reset 0 -/
  peer : Nat := 0
  /-- LNK.PEER_INFO.RELEASE; 24 b; R391; reset 0 -/
  peerRelease : Nat := 0
  /-- LNK.PEER_INFO.PORT; 3 b; R391; reset 0 -/
  peerPort : Nat := 0
  /-- The partner's HELLO carried PAIR; R389; reset 0 -/
  peerPair : Bool := false
  /-- The partner's chain address; R377; reset 0 -/
  peerChain : Nat := 0
  /-- A partner was seen since OFF; R373; reset 0 -/
  peerSeen : Bool := false
  /-- A HELLO has arrived in the training or retrain under way; R374; reset 0 -/
  helloOk : Bool := false
  /-- LNK.ERR.CRC_ERR; 16 b saturating; R391; reset 0 -/
  crcErr : Nat := 0
  /-- LNK.ERR.REPLAYS; 16 b saturating; R391; reset 0 -/
  replays : Nat := 0
  /-- Module times of its replays of the last 24 h, newest first; R518; reset none -/
  replayAt : List Nat := []
  /-- Codewords corrected since OFF; LNK.FEC.CORR shows units of 2^16; R391; reset 0 -/
  fecCorr : Nat := 0
  /-- LNK.FEC.UNCORR; 16 b saturating; R391; reset 0 -/
  fecUncorr : Nat := 0
  /-- LNK.RETRAIN.FAILS; 16 b saturating; R391; reset 0 -/
  fails : Nat := 0
  /-- LNK.RETRAIN.RETRAINS; 16 b saturating; R391; reset 0 -/
  retrains : Nat := 0
  /-- SEQ of the next DATA frame to number; 16 b; R372; reset 0 -/
  txNext : Nat := 0
  /-- The replay buffer: frames not yet acknowledged, oldest first, at most 1,024; R372; reset empty -/
  kept : List DataFrame := []
  /-- Replays in a row without an ACK advance; R372; reset 0 -/
  stuck : Nat := 0
  /-- The 528-byte frames given to the lanes, oldest first (first sends, replays and control frames); R371; reset none -/
  outgoing : List (List Byte) := []
  /-- DATA frames that wait for a credit, for room in the replay buffer or for the port, oldest first; R373; reset none -/
  txWait : List DataFrame := []
  /-- The width that the partner's HELLO offers, coded as LNK.PORT_STAT.WIDTH; 2 b; R377; reset 0 -/
  offerWidth : Nat := 0
  /-- The partner offers 53.125 GBd only; R377; reset 0 -/
  offerSlow : Bool := false
  /-- Module time at which the port entered its state; R376; reset 0 -/
  since : Nat := 0
  /-- Module time of the last ACK advance, replay or first unacknowledged send; R372; reset 0 -/
  ackAt : Nat := 0
  /-- SEQ of the next DATA frame expected; 16 b; R372; reset 0 -/
  rxNext : Nat := 0
  /-- The NAK that stands unanswered, as the module time of its sending; R372; reset none -/
  nakAt : Option Nat := none
  /-- Accepted frames whose consumer has not taken them, oldest first; R373; reset empty -/
  rxHeld : List DataFrame := []
  /-- Credits held for VC0, VC1 and VC2; R373; reset 0 -/
  credits : Nat × Nat × Nat := (0, 0, 0)
  /-- Credits to return on VC0, VC1 and VC2; R373; reset 0 -/
  owed : Nat × Nat × Nat := (0, 0, 0)
deriving DecidableEq, Repr

/-- The module's link ports (R389, R391). -/
structure Links where
  /-- LP0 to LP7; R369 -/
  ports : List LinkPort := List.replicate 8 {}
  /-- LNK.PAIR.ENABLE; 1 b; R391; reset 0 -/
  pairEn : Bool := false
  /-- LNK.PAIR.PORT; 3 b; R391; reset 0 -/
  pairPort : Nat := 0
deriving DecidableEq, Repr

/-- A collective group of a partition (R380, R381). -/
structure Group where
  /-- NRANK; R380 -/
  n : Nat
  /-- RANK; R380 -/
  rank : Nat
  /-- PORT_UP, none for 0xFF; R380 -/
  up : Option Nat
  /-- PORT_DOWN; R380 -/
  down : Option Nat
  /-- GROUP_ID; R380 -/
  gid : Nat
  /-- SERIAL_UP; R380 -/
  serialUp : Nat
  /-- SERIAL_DOWN; R380 -/
  serialDown : Nat
  /-- SEQ of the last collective the group ran; R381 -/
  lastSeq : Option Nat := none
  /-- The collective that takes part in the ring, by fetch number; R381 -/
  cur : Option Nat := none
deriving DecidableEq, Repr

/-- One field port FPn (R392 to R394, R410). -/
structure FieldPort where
  /-- FLD.PORT_CFG.ENABLE; 1 b; R410; reset 1 -/
  enable : Bool := true
  /-- FLD.PORT_CFG.AN; 1 b; R410; reset 1 -/
  an : Bool := true
  /-- FLD.PORT_CFG.FEC; 2 b; R410; reset 2 -/
  fec : Nat := 2
  /-- FLD.PORT_CFG.PING; 1 b; R410; reset 0 -/
  ping : Bool := false
  /-- FLD.PORT_CFG.MAX_FRAME; 14 b; R410; reset 0x2400 -/
  maxFrame : Nat := 0x2400
  /-- FLD.PORT_STAT.UP; 1 b; R410; reset 0 -/
  up : Bool := false
  /-- FLD.PORT_STAT.FEC; 2 b; R410; reset 0 -/
  fecUse : Nat := 0
  /-- FLD.RX_DROP.BUF_FULL; 16 b saturating; R410; reset 0 -/
  bufFull : Nat := 0
  /-- FLD.RX_DROP.OTHER; 8 b saturating; R410; reset 0 -/
  other : Nat := 0
  /-- Module times of its bad frames of the last 24 h, newest first; R518; reset none -/
  badAt : List Nat := []
  /-- FLD.RX_DROP.TX_DOWN; 8 b saturating; R410; reset 0 -/
  txDown : Nat := 0
  /-- The 2 MiB ingress buffer: (arrival time, frame), oldest first; R394; reset empty -/
  ingress : List (Nat × List Byte) := []
  /-- The send queue, oldest first; R405; reset empty -/
  txq : List (List Byte) := []
deriving DecidableEq, Repr

/-- One RTP packet or sensor frame that waits in a jitter buffer (R402). -/
structure Pkt where
  /-- The extended sequence number; R401 -/
  seq : Nat
  /-- RTP timestamp, or FRAME_NO; R401 -/
  stamp : Nat
  /-- It is the unit's marker; R402 -/
  marker : Bool
  /-- Arrival time; R396 -/
  arrival : Nat
  /-- The payload; R401 -/
  data : List Byte
  /-- SSRC or SOURCE; R403 -/
  origin : Nat
  /-- The sensor frame failed its check; R406 -/
  bad : Bool := false
  /-- It starts a new sequence; R401 -/
  discont : Bool := false
deriving DecidableEq, Repr

/-- The reception statistics of RFC 3550, for Receiver Reports (R401). -/
structure Rtcp where
  /-- SSRC of the last packet; 32 b; R401; reset 0 -/
  ssrc : Nat := 0
  /-- The first extended sequence number; R401; reset 0 -/
  base : Nat := 0
  /-- Packets received; R401; reset 0 -/
  received : Nat := 0
  /-- Expected and received packets at the last report; R401; reset 0 -/
  prior : Nat × Nat := (0, 0)
  /-- The relative transit time of the last packet in 90 kHz units; R401; reset none -/
  transit : Option Int := none
  /-- Sixteen times the interarrival jitter in 90 kHz units; R401; reset 0 -/
  jitter : Nat := 0
  /-- The SSRC by which the module names itself; R401; reset none drawn -/
  self : Option Nat := none
deriving DecidableEq, Repr

/-- One stream channel (R397 to R406). -/
structure Channel where
  /-- The channel is OPEN; R399; reset CLOSED -/
  isOpen : Bool := false
  /-- The partition that opened it; R397; reset 0 -/
  part : Nat := 0
  /-- KIND: 0 RTP receive, 1 sensor receive, 2 send, 3 bitstream in device memory; R281; reset 0 -/
  kind : Nat := 0
  /-- The 128-byte channel block read at STREAM_OPEN; R397; reset none -/
  block : List Byte := []
  /-- Its CRC context as (unit, context); R408; reset none -/
  crc : Option (Nat × Nat) := none
  /-- The jitter buffer, in sequence order; R402; reset empty -/
  jitter : List Pkt := []
  /-- The highest sequence number seen, extended; R401; reset none -/
  highSeq : Option Nat := none
  /-- The sequence number after the last packet released; R402; reset none -/
  nextSeq : Option Nat := none
  /-- WRITE_IDX; 32 b; R403; reset 0 -/
  writeIdx : Nat := 0
  /-- Where the next payload may start in the payload buffer; R403; reset 0 -/
  bufPos : Nat := 0
  /-- PACKETS; 32 b saturating; R403; reset 0 -/
  packets : Nat := 0
  /-- MISSING; 32 b saturating; R403; reset 0 -/
  missing : Nat := 0
  /-- LATE; 32 b saturating; R403; reset 0 -/
  late : Nat := 0
  /-- UNSUPPORTED; 32 b saturating; R403; reset 0 -/
  unsupported : Nat := 0
  /-- OVERRUN; 32 b saturating; R403; reset 0 -/
  overrun : Nat := 0
  /-- BAD_CHECK; 32 b saturating; R403; reset 0 -/
  badCheck : Nat := 0
  /-- SR_RTP, SR_NTP and SR_ARRIVAL; R403; reset 0 -/
  sr : Nat × Nat × Nat := (0, 0, 0)
  /-- LAST_ARRIVAL; 64 b; R403; reset 0 -/
  lastArrival : Nat := 0
  /-- SEQ of the status block; 32 b; R403; reset 0 -/
  statSeq : Nat := 0
  /-- The next unit carries LOST (an OVERRUN or a dropped bad frame); R403; reset 0 -/
  nextLost : Bool := false
  /-- STREAM_STALL has been sent since the last accepted packet; R403; reset 0 -/
  stalled : Bool := false
  /-- Module time of the last STREAM_OVERRUN; R409; reset none -/
  overrunAt : Option Nat := none
  /-- Module time of the last CHECK_FAIL; R409; reset none -/
  checkAt : Option Nat := none
  /-- Send: the next RTP sequence number or FRAME_NO; R397; reset 0 -/
  sendSeq : Nat := 0
  /-- Send: packets and payload bytes sent, for Sender Reports; R401; reset 0 -/
  sent : Nat × Nat := (0, 0)
  /-- Packets that wait for a slice, oldest first, as (arrival, frame); R400; reset empty -/
  waiting : List (Nat × List Byte) := []
  /-- Module time since which packets wait; R400; reset 0 -/
  waitSince : Nat := 0
  /-- Module time of STREAM_OPEN, from which a stall counts before the first packet; R403; reset 0 -/
  openedAt : Nat := 0
  /-- Module time of the last RTCP report; R401; reset 0 -/
  reportAt : Nat := 0
  /-- What a Receiver Report needs of the packets received; R401; reset none received -/
  rtcp : Rtcp := {}
deriving DecidableEq, Repr

/-- A binding of a CRC context (R406, R408). -/
structure CrcCtx where
  /-- The partition's tag; R408 -/
  part : Nat
  /-- The bound channel, or 64 and above for CHECKPOINT, RESTORE and the publisher; R406 -/
  user : Nat
deriving DecidableEq, Repr

/-- One CRC unit CUu (R406 to R411). -/
structure CrcUnit where
  /-- The eight contexts; CRC.STAT shows which are bound; R411; reset none bound -/
  ctxs : List (Option CrcCtx) := List.replicate 8 none
  /-- Check values compared since OFF; CRC.ERR.CHECKED shows units of 2^16; R411; reset 0 -/
  checked : Nat := 0
  /-- CRC.ERR.MISMATCH; 16 b saturating; R411; reset 0 -/
  mismatch : Nat := 0
deriving DecidableEq, Repr

/-- The ordinary clock of IEEE 1588 (R395). Times in ns. -/
structure PtpClock where
  /-- The time transmitter followed: its data set in the order of the best master clock algorithm, whose last entry is its
  port identity; R395; reset none -/
  master : Option (List Nat) := none
  /-- Its announce interval in ns; R395; reset 0 -/
  interval : Nat := 0
  /-- A two-step Sync that waits for its Follow_Up: sequenceId, arrival, correction; R395; reset none -/
  sync : Option (Nat × Int × Int) := none
  /-- The last Sync's departure (corrected) and arrival; R395; reset none -/
  t12 : Option (Int × Int) := none
  /-- sequenceId of the last delay request, and when it left; R395; reset none -/
  req : Option (Nat × Int) := none
  /-- A two-step Pdelay_Resp that waits for its follow-up: receipt of the request, arrival, correction; R395; reset none -/
  resp : Option (Int × Int × Int) := none
  /-- The mean path delay; R395; reset not measured -/
  delay : Option Int := none
deriving DecidableEq, Repr

/-- The field ports, the PTP clock, the stream channels and the CRC units (R392 to R411). -/
structure Field where
  /-- FP0 and FP1; R392 -/
  ports : List FieldPort := List.replicate 2 {}
  /-- FLD.PTP_CTRL.ENABLE; 1 b; R410; reset 0 -/
  ptpEnable : Bool := false
  /-- FLD.PTP_CTRL.HOLDOVER; 1 b; R410; reset 0 -/
  holdover : Bool := false
  /-- FLD.PTP_CTRL.TRANSPORT; 2 b; R410; reset 1 -/
  transport : Nat := 1
  /-- FLD.PTP_CTRL.PORT; 1 b; R410; reset 0 -/
  ptpPort : Nat := 0
  /-- FLD.PTP_CTRL.DELAY; 1 b; R410; reset 0 -/
  delay : Bool := false
  /-- FLD.PTP_CTRL.DOMAIN; 8 b; R410; reset 0 -/
  domain : Nat := 0
  /-- The last offsets in ns, newest first, at most eight; R395; reset empty -/
  offsets : List Int := []
  /-- Module time of the last Announce, and the clockIdentity followed; R395; reset 0 -/
  announceAt : Nat := 0
  /-- clockIdentity of the time transmitter followed; 64 b; R409; reset 0 -/
  clockId : Nat := 0
  /-- The protocol state of the clock; R395 -/
  ptp : PtpClock := {}
  /-- The 64 stream channels; R397 -/
  chans : List Channel := List.replicate 64 {}
  /-- CU0 to CU15; R406 -/
  crcs : List CrcUnit := List.replicate 16 {}
deriving DecidableEq, Repr

/-- The outcome of an act's descriptor: index, STATUS, CFLAGS, BEATS (R265, R530). -/
structure ActOut where
  /-- The lane; R530 -/
  lane : Nat
  /-- Index in the act; R265 -/
  idx : Nat
  /-- STATUS; R265 -/
  status : Nat
  /-- CFLAGS; R265 -/
  cflags : Nat
  /-- BEATS; R265 -/
  beats : Nat
deriving DecidableEq, Repr

/-- A region entry of a cyclic section (R526). -/
structure Region where
  /-- KIND: 1 input region, 2 input channel, 3 output, 4 state; R526 -/
  kind : Nat
  /-- CHANNEL; R526 -/
  chan : Nat
  /-- LEN; R526 -/
  len : Nat
  /-- SRC_VA; R526 -/
  src : Nat
  /-- VA0; R526 -/
  va0 : Nat
  /-- VA1; R526 -/
  va1 : Nat
deriving DecidableEq, Repr

/-- What a cyclic act keeps from its section and between cycles (R525 to R534, R540, R544). -/
structure Cyclic where
  /-- TWIN; R526 -/
  twin : Bool
  /-- PAIRED; R526 -/
  paired : Bool
  /-- CHANNEL of result frames, none for 0xFF; R526 -/
  chan : Option Nat
  /-- LANE1_VA; R526 -/
  lane1 : Nat
  /-- PERIOD_US; R264 -/
  periodUs : Nat
  /-- PUBLISH_US; R526 -/
  publishUs : Nat
  /-- SAVE_N; R526 -/
  saveN : Nat
  /-- OUT_ADDR; R526 -/
  outAddr : Nat
  /-- OUT_LEN; R526 -/
  outLen : Nat
  /-- SHARED_ADDR; R526 -/
  sharedAddr : Nat
  /-- SHARED_LEN; R526 -/
  sharedLen : Nat
  /-- The region entries; R526 -/
  regions : List Region
  /-- The index of the first cycle; R525 -/
  first : Nat
  /-- Cycles left, none for unlimited; R525 -/
  left : Option Nat
  /-- The next cycle to start; R525 -/
  next : Nat
  /-- The cycle whose lanes run; R528 -/
  running : Option Nat := none
  /-- The cycle that awaits its publication by its deadline; R529 -/
  owed : Option Nat := none
  /-- The cycle under way is late: its outputs will be discarded; R529 -/
  late : Bool := false
  /-- The cycle under way is being retried; R531 -/
  retried : Bool := false
  /-- MISS; R531 -/
  miss : Bool := false
  /-- Consecutive matched cycles; R531 -/
  matched : Nat := 0
  /-- The last outcome, coded as R529; 0 none; ACT.SLOT.LAST -/
  last : Nat := 0
  /-- ACT.SLOT.MISMATCHES; 8 b saturating; R548 -/
  mismatches : Nat := 0
  /-- ACT.SLOT.LATE; 8 b saturating; R548 -/
  lates : Nat := 0
  /-- ACT.FRESH; 32 b saturating; R548 -/
  fresh : Nat := 0
  /-- The cycle last published; ACT.CYC; R548 -/
  pubCycle : Nat := 0
  /-- SEQ of the two image slots; R533 -/
  seqs : Nat × Nat := (0, 0)
  /-- The newest whole image: SOURCE_CYCLE, DIGEST, STATE_FROM and payload; R533 -/
  image : Option (Nat × List Byte × Nat × List Byte) := none
  /-- The cycle whose state the next computation begins from, none when unknown; R533 -/
  stateFrom : Option Nat := none
  /-- The next publication is the first after a claim; R533 -/
  takeover : Bool := false
  /-- The cycles after a claim and before the first cycle run are HELD_TAKEOVER; R529 -/
  holding : Bool := false
  /-- The state is still to be loaded after a claim; R541 -/
  loading : Bool := false
  /-- The last whole warm copy: its cycle; R544 -/
  warm : Option Nat := none
  /-- A warm copy under way: cycle, LEN, digest and the bytes received; R544 -/
  copying : Option (Nat × Nat × List Byte × List Byte) := none
  /-- Module time of the last CYCLE_LATE and CYCLE_MISMATCH; R547 -/
  evAt : Option Nat × Option Nat := (none, none)
  /-- The channel unit taken at the last snapshot of each KIND 2 entry (writeIdx); R528 -/
  lastUnit : List Nat := []
deriving DecidableEq, Repr

/-- An act slot (R263 to R266). -/
structure ActSlot where
  /-- ACT.SLOT.STATE; 2 b; R266; reset FREE -/
  st : ActSt := .free
  /-- The ACT_RUN descriptor's fetch number, while it is incomplete or the act runs; R265; reset 0 -/
  runNum : Nat := 0
  /-- ACT_VA; R264; reset 0 -/
  va : Nat := 0
  /-- COUNT; R263; reset 0 -/
  count : Nat := 0
  /-- The outcomes of the run's descriptors so far; R265; reset none -/
  outs : List ActOut := []
  /-- The ranges of virtual addresses that the run's complete descriptors wrote; R265; reset none -/
  wrote : List (Nat × Nat) := []
  /-- The ranges of bus addresses that they wrote in host memory; R265; reset none -/
  wroteHost : List (Nat × Nat) := []
  /-- ACT_STOPs that wait, by fetch number; R266; reset none -/
  stops : List Nat := []
  /-- The stop came with NOW = 1, or ACT_RUN's TIMEOUT passed; R265, R266; reset 0 -/
  now : Bool := false
  /-- ACT_RUN's TIMEOUT passed; R265; reset 0 -/
  timedOut : Bool := false
  /-- Cycles run; R266; reset 0 -/
  cycles : Nat := 0
  /-- What a cyclic act holds; R526; reset none -/
  cyc : Option Cyclic := none
deriving DecidableEq, Repr

/-- The role of a pair member (R538). -/
inductive Role | off | standby | claiming | active | failed
deriving DecidableEq, Repr

/-- The code of PAIR.STAT.ROLE (R549). -/
def Role.code : Role → Nat
  | .off => 0 | .standby => 1 | .claiming => 2 | .active => 3 | .failed => 4

/-- The module pair (R535 to R549). -/
structure Pair where
  /-- PAIR.CFG.ENABLE; 1 b; R549; reset 0 -/
  enable : Bool := false
  /-- PAIR.CFG.WARM; 1 b; R549; reset 0 -/
  warm : Bool := false
  /-- PAIR.CFG.PART; 4 b; R549; reset 0 -/
  part : Nat := 0
  /-- PAIR.STAT.ROLE; 3 b; R538; reset OFF -/
  role : Role := .off
  /-- PAIR.STAT.OWN: the own line is asserted; 1 b; R536; reset 0 -/
  own : Bool := false
  /-- PAIR.STAT.PARTNER: the partner line reads asserted; 1 b; R536; reset 0 -/
  partner : Bool := false
  /-- PAIR.STAT.FAIL_CAUSE; 8 b; R549; reset 0 -/
  failCause : Nat := 0
  /-- PAIR.COUNT.TAKEOVERS; 16 b saturating; R549; reset 0 -/
  takeovers : Nat := 0
  /-- PAIR.COUNT.COLLISIONS; 16 b saturating; R549; reset 0 -/
  collisions : Nat := 0
  /-- State copies abandoned because the next one began; R544; reset 0 -/
  copiesLost : Nat := 0
  /-- Module time at which the own line was asserted for a claim; R537; reset 0 -/
  claimAt : Nat := 0
  /-- No claim before this module time (backoff, handover); R537, R538; reset 0 -/
  notBefore : Nat := 0
  /-- The partner line has been seen asserted since OFF, so a claim is a takeover; R547; reset 0 -/
  partnerSeen : Bool := false
deriving DecidableEq, Repr

end Sys2Proof.Machine
end

