-- ==== Sys2Proof/Machine/StateVideo.lean ====
section
/-! DEFINITION. The state of the codec cores and stream contexts (14_video.md) and of the Grenko monitor
(20_grenko_monitor.md): plain data. -/

namespace Sys2Proof.Machine

/-- One frame buffer of a decoder context and what is known of the picture in it (R421, R422). -/
structure FrameBuf where
  /-- REF; R421; reset 0 -/
  ref : Bool := false
  /-- WAIT; R421; reset 0 -/
  wait : Bool := false
  /-- QUEUED: INDEX of its record while it lies between READ_IDX and WRITE_IDX; R421; reset none -/
  queued : Option Nat := none
  /-- A picture is being decoded into it; R421; reset 0 -/
  busy : Bool := false
  /-- The bytes of the picture's record (R422) from byte 4 on, as decoded; reset none -/
  info : List Byte := []
deriving DecidableEq, Repr

/-- A frame that an ENCODE has listed and that is not coded yet (R429). -/
structure EncFrame where
  /-- The descriptor that listed it, by fetch number; R429 -/
  num : Nat
  /-- VA; R429 -/
  va : Nat
  /-- PITCH; R429 -/
  pitch : Nat
  /-- CHROMA_OFF; R429 -/
  chroma : Nat
  /-- PTS; R429 -/
  pts : Nat
  /-- FORCE_KEY; R429 -/
  key : Bool
  /-- Its samples once the encoder has copied it into its pool; R429; reset none -/
  data : Option (List Byte) := none
deriving DecidableEq, Repr

/-- A media command in progress on a context (R423, R429). -/
structure MediaCmd where
  /-- Its fetch number; R418 -/
  num : Nat
  /-- Records or units written so far; R423 -/
  written : Nat := 0
  /-- COUNT; R423 -/
  count : Nat
  /-- FLUSH; R423 -/
  flush : Bool
  /-- The WRITE_IDX of the channel read at its start, for FLUSH; R423 -/
  upTo : Nat := 0
  /-- SKIP_NONREF; R423 -/
  skip : Bool := false
  /-- CFLAGS gathered so far; R423 -/
  cflags : Nat := 0
  /-- The output regions gathered so far, for the digest; R423 -/
  regions : List (List Byte) := []
deriving DecidableEq, Repr

/-- A stream context (R418 to R429). -/
structure VidCtx where
  /-- ROLE: 1 decoder, 2 encoder; R418 -/
  enc : Bool
  /-- CTX_VA; R423 -/
  va : Nat
  /-- The context block as read at its creation; R419, R428 -/
  block : List Byte
  /-- The frame buffers of a decoder; R421 -/
  bufs : List FrameBuf := []
  /-- Channel units consumed: the READ_IDX the decoder has written; R423 -/
  readIdx : Nat := 0
  /-- WRITE_IDX of the picture ring; R422 -/
  writeIdx : Nat := 0
  /-- DECODED; 32 b saturating; R422 -/
  decoded : Nat := 0
  /-- CONCEALED; 32 b saturating; R422 -/
  concealed : Nat := 0
  /-- TAINTED; 32 b saturating; R422 -/
  tainted : Nat := 0
  /-- SKIPPED; 32 b saturating; R422 -/
  skipped : Nat := 0
  /-- ERRORS; 32 b saturating; R422 -/
  errors : Nat := 0
  /-- UNSUPPORTED; 32 b saturating; R422 -/
  unsupported : Nat := 0
  /-- SEQ of the picture status block; R422 -/
  statSeq : Nat := 0
  /-- Decoding waits for a random access point; R424 -/
  needRap : Bool := true
  /-- The next picture carries DISCONT; R422 -/
  discont : Bool := true
  /-- The sequence being consumed is unsupported and has been reported; R414 -/
  badSeq : Bool := false
  /-- Module time since which it waits for a free buffer; R421 -/
  waitSince : Option Nat := none
  /-- POOL_WAIT has been sent for this wait; R421 -/
  waitSent : Bool := false
  /-- Module time of the last DECODE_ERROR; R425 -/
  errAt : Option Nat := none
  /-- Frames listed and not yet coded, oldest first; R429 -/
  frames : List EncFrame := []
  /-- PTS of the last frame listed; R429 -/
  lastPts : Option Nat := none
  /-- The next picture is a key picture (after a flush); R429 -/
  nextKey : Bool := true
  /-- Coded units that wait for ring space, oldest first, as (PTS, payload); R429 -/
  stuck : List (Nat × List Byte) := []
  /-- Buffers that the output process has output and whose records are not written yet, in output order; R422 -/
  outq : List Nat := []
  /-- The units consumed, or the frames coded, since the context was created, oldest first: what a core's results depend on; R33 -/
  seen : List (List Byte) := []
  /-- Pictures of the unit at READ_IDX that are done; R423 -/
  picIn : Nat := 0
  /-- A picture of that unit was decoded, or was no reference; R423, R424 -/
  usedUnit : Bool := false
  /-- ORDER of the picture decoded last; R427 -/
  lastOrder : Option Int := none
  /-- The last sequence header's width, height, bit depth and profile; R424 -/
  seqOld : Option (Nat × Nat × Nat × Nat) := none
  /-- Parts of the picture in progress that cores have taken, and that are done; R417 -/
  parts : Nat × Nat := (0, 0)
  /-- Pictures coded since the last key picture; R428 -/
  sinceKey : Nat := 0
  /-- The buffer model's fullness after the last removal, in 1/90 of a bit; R431 -/
  full : Nat := 0
  /-- Its last removal time, in 90 kHz units from the PTS clock; R431 -/
  removed : Option Nat := none
  /-- PTS of the listed frames whose removal is to come, in list order; R431 -/
  ptsq : List Nat := []
  /-- Commands on the context in the order in which they started; the first is in progress; R418 -/
  cmds : List MediaCmd := []
deriving DecidableEq, Repr

/-- A work item of a codec core (R420). -/
structure CodecItem where
  /-- Partition; R437 -/
  part : Nat
  /-- Channel; R437 -/
  chan : Nat
  /-- CLASS; R437 -/
  cls : Nat
  /-- It encodes; R437 -/
  enc : Bool
  /-- Module time at which the core took it; R420 -/
  since : Nat
deriving DecidableEq, Repr

/-- One codec core CCc (R416, R437). -/
structure CodecCore where
  /-- The item it holds; CDC.CORE_STAT; R437; reset none -/
  item : Option CodecItem := none
  /-- CDC.CORE_PICS; 32 b saturating; R437; reset 0 -/
  pics : Nat := 0
  /-- CDC.CORE_ERR.PREEMPTS; 16 b saturating; R437; reset 0 -/
  preempts : Nat := 0
  /-- CDC.CORE_ERR.ERRORS; 16 b saturating; R437; reset 0 -/
  errors : Nat := 0
deriving DecidableEq, Repr

/-- The video unit (R412 to R437). -/
structure Video where
  /-- CC0 to CC7; R416 -/
  cores : List CodecCore := List.replicate 8 {}
  /-- The stream contexts, one place for each channel; R418 -/
  ctxs : List (Option VidCtx) := List.replicate 64 none
  /-- Items preempted and saved; R420; reset none -/
  saved : List CodecItem := []
  /-- Core time used as (partition, module time at its end, ns); R420; reset none -/
  use : List (Nat × Nat × Nat) := []
  /-- CDC.CAROUSEL.PREEMPT; 1 b; R437; reset 1 -/
  preempt : Bool := true
  /-- CDC.CAROUSEL.WINDOW_MS; 10 b; R437; reset 0x064 -/
  windowMs : Nat := 0x064
  /-- Output pixels of the scaler since OFF; CDC.SCALER shows units of 2^20; R437; reset 0 -/
  pixels : Nat := 0
deriving DecidableEq, Repr

/-- One session of the Grenko monitor (R570 to R580). -/
structure Session where
  /-- Engineer level; R578; reset observer -/
  engineer : Bool := false
  /-- The input line so far; at most 256 bytes; R573; reset empty -/
  line : List Byte := []
  /-- The line is longer than 256 bytes; R573; reset 0 -/
  tooLong : Bool := false
  /-- The last byte was the CR that ended a line; R573; reset 0 -/
  afterCr : Bool := false
  /-- The output buffer, at most 16 KiB; R574; reset empty -/
  out : List Byte := []
  /-- Output of the command under way that waits for room in the buffer; R574; reset none -/
  waiting : List Byte := []
  /-- Module time since which it waits; R574; reset none -/
  waitSince : Option Nat := none
  /-- Module time of the last input line; R579; reset 0 -/
  lastLine : Nat := 0
  /-- The unit whose recovery the command under way waits for; R575; reset none -/
  await : Option (Nat × Nat) := none
  /-- Lines complete and not yet run, oldest first; R574; reset none -/
  lines : List (List Byte) := []
deriving DecidableEq, Repr

/-- The Grenko monitor (R570 to R581). -/
structure Monitor where
  /-- The service session; R570 -/
  service : Session := {}
  /-- The relay session; R570 -/
  relay : Session := {}
  /-- The baud rate of the service UART; R571; reset 115,200 -/
  baud : Nat := 115200
  /-- A rate that the `baud` command set, and how many bytes go out before it takes effect; R571; reset none -/
  nextBaud : Option (Nat × Nat) := none
  /-- Module time up to which the service session's output has been sent; R574; reset 0 -/
  sentTo : Nat := 0
  /-- Module time of the last byte received on the service UART; R571; reset 0 -/
  lastByte : Nat := 0
  /-- The open challenge as (relay session, nonce, count, module time of issue); R578; reset none -/
  challenge : Option (Bool × BitVec 128 × Nat × Nat) := none
  /-- The challenge count, kept in flash; R578; reset 0 (flash) -/
  count : Nat := 0
  /-- Module times of failed responses; R579; reset none -/
  fails : List Nat := []
  /-- The auth lockout ends at this module time; R579; reset none -/
  lockUntil : Option Nat := none
  /-- MON.CFG.SERVICE_EN; 1 b; R581; reset 1 -/
  serviceEn : Bool := true
  /-- MON.CFG.RELAY_EN; 1 b; R581; reset 1 -/
  relayEn : Bool := true
  /-- MON.CFG.ENGINEER_EN; 1 b; R581; reset 1 -/
  engineerEn : Bool := true
  /-- MON.STAT.AUTH_FAIL; 8 b saturating; R581; reset 0 -/
  authFail : Nat := 0
  /-- MON.STAT.ACTIONS; 8 b saturating; R581; reset 0 -/
  actions : Nat := 0
  /-- MON.LAST while VALID: from the relay session, and OFFSET; R581; reset not valid -/
  last : Option (Bool × Nat) := none
deriving DecidableEq, Repr

end Sys2Proof.Machine
end

