-- ==== Sys2Proof/Machine/State.lean ====
section
/-! DEFINITION. The whole state of the Felritor Z8 as plain data, the state right after reset, and the reasons a step
can stop. -/

namespace Sys2Proof.Machine

/-- A fault of the machine. No rule of the manual stops the module for good: every error it describes leaves a state it
also describes (a STATUS, an event, a module state), so no meaning raises a fault. Safe. -/
inductive Fault
deriving DecidableEq, Repr

/-- A refusal: the model gives a command no meaning. -/
inductive Refusal where
  /-- The command has no meaning in this model; raised by the dispatch, by the row's mnemonic. Safe: the machine stops
  where the hardware goes on. -/
  | notModelled (mnemonic : String)
deriving DecidableEq, Repr

/-- What a command completes with. -/
structure Done where
  /-- STATUS before the flags are looked at (R287) -/
  status : Nat := 0
  /-- RESULT -/
  result : Nat := 0
  /-- The flags its execution set (R289) -/
  cflags : Nat := 0
deriving DecidableEq, Repr

/-- A KV command, ATTEND or STEP whose commit is made and that is not complete (R305, R312). -/
structure Resolved where
  /-- Its fetch number; R305 -/
  num : Nat
  /-- SPACE; R305 -/
  space : Nat
  /-- For each sequence that an ATTEND resolved: the sequence, its LEN and its page list; R305 -/
  seqs : List (Nat × Nat × List Nat)
  /-- The pages it pins, once each; R305 -/
  pinned : List Nat := []
  /-- The token slots it writes, as (page, token of the page); R312 -/
  slots : List (Nat × Nat) := []
  /-- What it completes with, as its commit left it -/
  out : Done := {}
deriving DecidableEq, Repr

/-- A STEP that has started and is not complete (R344, R349, R367). -/
structure Running where
  /-- Its fetch number; R344 -/
  num : Nat
  /-- STATE_VA of its plan; R345 -/
  stateVa : Nat
  /-- Its plan sequences; R342 -/
  seqs : List Nat
  /-- MODEL_VA and DRAFT_VA of its plan; R344 -/
  models : List Nat
  /-- The layer sequences it works on, as (SPACE, sequence); R305, R347 -/
  layers : List (Nat × Nat) := []
deriving DecidableEq, Repr

/-- One partition Pp. -/
structure Part where
  /-- Trust, keys and the partition state; R441 to R474 -/
  sec : PartSec := {}
  /-- Rings, doorbell page, event ring; R224 to R247 -/
  host : PartHost := {}
  /-- Page tables and memory errors; R209 -/
  mem : PartMem := {}
  /-- Fixed rate and pause; R157 -/
  pwr : PartPwr := {}
  /-- The rate-sample page; R127 -/
  rate : RateCtl := {}
  /-- Dumps, degraded engines, score; R524 -/
  hlt : PartHlt := {}
  /-- Descriptors fetched and not complete, in fetch order; R226; reset none -/
  fetched : List Desc := []
  /-- The event counters 0 to 255; 64 b each; R260; reset 0 -/
  counters : List (BitVec 64) := List.replicate 256 0
  /-- The act slots 0 to 63; R263 -/
  acts : List ActSlot := List.replicate 64 {}
  /-- ACT.SEL.SLOT; 6 b; R548; reset 0 -/
  actSel : Nat := 0
  /-- The configured engines, by ascending index; R285; reset none -/
  engines : List Engine := []
  /-- The collective groups 0 to 15; R380; reset none set -/
  groups : List (Option Group) := List.replicate 16 none
  /-- The step journal as (JOB, last STEP, STEP_DIGEST), at most 256; R552; reset none -/
  journal : List (Nat × Nat × List Byte) := []
  /-- The attached KV spaces as (SPACE, HEADER_VA), at most 16; R293; reset none -/
  kv : List (Nat × Nat) := []
  /-- ATTENDs in cache mode that have committed and are not complete; R305; reset none -/
  resolved : List Resolved := []
  /-- STEPs that have started and are not complete; R345; reset none -/
  running : List Running := []
  /-- The token ring of each serving state that a STEP has run, as (the state's address, RING_ADDR, RING_LOG2); R358, R367;
  reset none -/
  rings : List (Nat × Nat × Nat) := []
deriving DecidableEq, Repr

/-- The state of the module and of the queue of the commands that wait for it. -/
structure State where
  /-- Module time in ns since the time base started; 64 b; R119; reset 0 -/
  now : Nat := 0
  /-- The model's own: how many free values have been taken (notes/assumptions/5.md); reset 0, DESIGN CHOICE -/
  fresh : Nat := 0
  /-- The model's own: while a command is carried out, the physical ranges (first byte, length) whose reads race an unordered
  write; empty between commands (R35, notes/assumptions/52.md); reset none, DESIGN CHOICE -/
  racing : List (Nat × Nat) := []
  /-- The management chain, start-up, the firmware banks; R475 to R498 -/
  boot : Boot := {}
  /-- Power entry, budgets and the domains; R128 to R157 -/
  power : Power := {}
  /-- Sensors and thermal control; R158 to R176 -/
  thermal : Thermal := {}
  /-- Tiles, the module rate page, the clocked domains; R36 to R69, R103 to R127 -/
  fabric : Fabric := {}
  /-- Device memory, the mesh and the ports; R177 to R211 -/
  mem : MemSys := {}
  /-- The PCIe port; R212 to R223 -/
  host : HostPort := {}
  /-- The guard and the steward; R451 to R453 -/
  sec : Sec := {}
  /-- Reset units, scores, the health log; R499 to R523 -/
  health : Health := {}
  /-- The module links; R369 to R391 -/
  links : Links := {}
  /-- Field ports, PTP, stream channels, CRC units; R392 to R411 -/
  field : Field := {}
  /-- Codec cores and stream contexts; R412 to R437 -/
  video : Video := {}
  /-- The Grenko monitor; R570 to R581 -/
  mon : Monitor := {}
  /-- The module pair; R535 to R549 -/
  pair : Pair := {}
  /-- The partitions P0 to P15; R438 -/
  parts : List Part := List.replicate 16 {}
  /-- The bytes the module has written to host memory, by bus address; R213; reset nothing written -/
  hostMem : Cells := []
  /-- The commands that wait, first in, first out; reset empty -/
  pending : List Instr := []
deriving DecidableEq, Repr

/-- The module as the register index gives it when it leaves OFF (R583): in GUARD_BOOT, which CHN.STATE's reset value
names (R498), hence behind a closed input switch with PRECHG asserted and the always-on rail group good (R134, R140);
every register at its reset value. -/
def State.reset : State :=
  { power := { switchOn := true, prechg := true, rails := .good :: List.replicate 11 .off } }

end Sys2Proof.Machine
end

