-- ==== Sys2Proof/Machine/Access.lean ====
section
/-! DEFINITION. Named access to the parts of the state, and the taking of free values. -/

namespace Sys2Proof.Machine

/-! ### Access -/

/-- Partition Pp. -/
def State.part (s : State) (p : Nat) : Part := s.parts.getD p {}

/-- Change partition Pp. -/
def State.onPart (s : State) (p : Nat) (f : Part → Part) : State := { s with parts := updAt s.parts p f }

/-- Change the rings of Pp. -/
def State.onHost (s : State) (p : Nat) (f : PartHost → PartHost) : State :=
  s.onPart p (fun q => { q with host := f q.host })

/-- Change the trust state of Pp. -/
def State.onSec (s : State) (p : Nat) (f : PartSec → PartSec) : State :=
  s.onPart p (fun q => { q with sec := f q.sec })

/-- Change the event ring of Pp. -/
def State.onEvt (s : State) (p : Nat) (f : EvtRing → EvtRing) : State :=
  s.onHost p (fun h => { h with evt := f h.evt })

/-- Change SQ q of Pp. -/
def State.onSq (s : State) (p q : Nat) (f : Sq → Sq) : State :=
  s.onHost p (fun h => { h with sqs := updAt h.sqs q f })

/-- Change CQ c of Pp. -/
def State.onCq (s : State) (p c : Nat) (f : Cq → Cq) : State :=
  s.onHost p (fun h => { h with cqs := updAt h.cqs c f })

/-- SQ q of Pp. -/
def State.sq (s : State) (p q : Nat) : Sq := (s.part p).host.sqs.getD q {}

/-- CQ c of Pp. -/
def State.cq (s : State) (p c : Nat) : Cq := (s.part p).host.cqs.getD c {}

/-- Act slot n of Pp. -/
def State.act (s : State) (p n : Nat) : ActSlot := (s.part p).acts.getD n {}

/-- Change act slot n of Pp. -/
def State.onAct (s : State) (p n : Nat) (f : ActSlot → ActSlot) : State :=
  s.onPart p (fun q => { q with acts := updAt q.acts n f })

/-- Tile t. -/
def State.tile (s : State) (t : Nat) : Tile := s.fabric.tiles.getD t {}

/-- Change tile t. -/
def State.onTile (s : State) (t : Nat) (f : Tile → Tile) : State :=
  { s with fabric := { s.fabric with tiles := updAt s.fabric.tiles t f } }

/-- Domain VDk. -/
def State.dom (s : State) (k : Nat) : Domain := s.power.doms.getD k {}

/-- Change domain VDk. -/
def State.onDom (s : State) (k : Nat) (f : Domain → Domain) : State :=
  { s with power := { s.power with doms := updAt s.power.doms k f } }

/-- Stream channel c. -/
def State.chan (s : State) (c : Nat) : Channel := s.field.chans.getD c {}

/-- Change stream channel c. -/
def State.onChan (s : State) (c : Nat) (f : Channel → Channel) : State :=
  { s with field := { s.field with chans := updAt s.field.chans c f } }

/-- Link port LPn. -/
def State.lp (s : State) (n : Nat) : LinkPort := s.links.ports.getD n {}

/-- Change link port LPn. -/
def State.onLp (s : State) (n : Nat) (f : LinkPort → LinkPort) : State :=
  { s with links := { s.links with ports := updAt s.links.ports n f } }

/-- Index of a reset unit in HLT.UNIT: tiles, codec cores, link ports, field ports, memory ports, bulk channels (R523). -/
def unitIndex (kind unit : Nat) : Nat :=
  match kind with
  | 0 => unit | 1 => 64 + unit | 2 => 72 + unit | 3 => 80 + unit | 4 => 82 + unit | _ => 98 + unit

/-- Reset unit by kind and number. -/
def State.unit (s : State) (kind unit : Nat) : Unit := s.health.units.getD (unitIndex kind unit) {}

/-- Change a reset unit. -/
def State.onUnit (s : State) (kind unit : Nat) (f : Unit → Unit) : State :=
  { s with health := { s.health with units := updAt s.health.units (unitIndex kind unit) f } }

/-- The progress watchdog of a unit starts again from zero: the unit made progress, or an excuse of it ended (R500). -/
def State.progress (s : State) (kind unit : Nat) : State := s.onUnit kind unit (fun u => { u with seenAt := s.now })

/-- The domain of tile t: 2 × 2 blocks in row-major order (R15, R21). -/
def domOfTile (t : Nat) : Nat := (t / 8 / 2) * 4 + t % 8 / 2

/-- The tiles of domain VDk, ascending. -/
def tilesOfDom (k : Nat) : List Nat := (List.range 64).filter (fun t => domOfTile t == k)

/-- The domains of Pp, ascending. -/
def State.domsOf (s : State) (p : Nat) : List Nat := setBits 16 (s.part p).sec.vdMask.toNat

/-- The tiles of Pp, ascending. -/
def State.tilesOf (s : State) (p : Nat) : List Nat := (List.range 64).filter (fun t => (s.tile t).part == some p)

/-- Every partition in one of the states ADMITTED and RUNNING. -/
def State.livePartitions (s : State) : List Nat :=
  (List.range 16).filter (fun p => (s.part p).sec.st == .admitted || (s.part p).sec.st == .running)

/-- Apply an operation to each of a list in turn. -/
def State.forEach {α : Type} (s : State) (l : List α) (f : State → α → State) : State := l.foldl f s

/-- Free the contexts of a binding. -/
def State.crcUnbind (s : State) (x : CrcCtx) : State :=
  { s with field := { s.field with crcs := s.field.crcs.map (fun c =>
      { c with ctxs := c.ctxs.map (fun o => if o == some x then none else o) }) } }

/-! ### Free values (notes/assumptions/5.md) -/

/-- The next free number. -/
def State.freeNat (s : State) : Nat := Config.freeNat s.fresh

/-- The next value of the random source. -/
def State.random (s : State) : BitVec 256 := Config.random s.fresh

/-- A free value has been taken. -/
def State.tick (s : State) : State := { s with fresh := s.fresh + 1 }

end Sys2Proof.Machine
end

