-- ==== Sys2Proof/Machine/Mem.lean ====
section
/-! DEFINITION. Device memory: bytes in canonical form, placement on ports and channels (R189 to R197), rights (R184),
and poison (R203, R603). -/

namespace Sys2Proof.Machine

/-! ### Bytes -/

/-- The byte at an address; an unlisted address reads 0. -/
def Cells.get : Cells → Nat → Byte
  | [], _ => 0#8
  | c :: cs, a => if c.1 = a then c.2 else if a < c.1 then 0#8 else Cells.get cs a

/-- Write one byte, keeping the canonical form: a zero byte is not listed. -/
def Cells.set : Cells → Nat → Byte → Cells
  | [], a, b => if b = 0#8 then [] else [(a, b)]
  | c :: cs, a, b =>
    if a < c.1 then (if b = 0#8 then c :: cs else (a, b) :: c :: cs)
    else if a = c.1 then (if b = 0#8 then cs else (a, b) :: cs)
    else c :: Cells.set cs a b

/-- The `len` bytes from an address on. -/
def Cells.read (m : Cells) (a len : Nat) : List Byte := (List.range len).map (fun i => m.get (a + i))

/-- Write a run of bytes. -/
def Cells.write (m : Cells) (a : Nat) : List Byte → Cells
  | [] => m
  | b :: bs => Cells.write (m.set a b) (a + 1) bs

/-- Zero every byte of `[lo, hi)`. -/
def Cells.clear (m : Cells) (lo hi : Nat) : Cells := m.filter (fun c => decide (c.1 < lo) || decide (hi ≤ c.1))

/-! ### Placement -/

/-- Size of a granule (R189). -/
def granSize : Nat := 0x40000000

/-- First address of the bulk tier (R197). -/
def bulkBase : Nat := 0x4000000000

/-- First scratchpad window (R50, R197). -/
def winBase : Nat := 0xF000000000

/-- Where a device physical address lies (R197). -/
inductive Place where
  /-- Stacked DRAM: granule and offset -/
  | stacked (g o : Nat)
  /-- The bulk tier: granule and offset -/
  | bulk (g o : Nat)
  /-- The scratchpad window of a tile, at an offset of its 4 MiB -/
  | window (t o : Nat)
  /-- Nothing, or the part of a window that the router refuses (R50) -/
  | none
deriving DecidableEq, Repr

/-- The address map of R197. -/
def placeOf (pa : Nat) : Place :=
  if pa < 144 * granSize then .stacked (pa / granSize) (pa % granSize)
  else if bulkBase ≤ pa ∧ pa < bulkBase + 360 * granSize then
    .bulk ((pa - bulkBase) / granSize) ((pa - bulkBase) % granSize)
  else if winBase ≤ pa ∧ pa < winBase + 64 * 0x1000000 then
    let o := (pa - winBase) % 0x1000000
    if o < 0x400000 then .window ((pa - winBase) / 0x1000000) o else .none
  else .none

/-- Bytes of the word that one poison mark covers: 32 in stacked DRAM, 64 in the bulk tier (R203), 8 in a
scratchpad (R47). -/
def wordSize (pa : Nat) : Nat :=
  match placeOf pa with
  | .stacked _ _ => 32
  | .bulk _ _ => 64
  | .window _ _ | .none => 8

/-- The first byte of the word that holds an address. -/
def wordOf (pa : Nat) : Nat := pa / wordSize pa * wordSize pa

/-- The memory port of a 4 KiB block of an interleaved granule (R190). -/
def stackedPort (pa : Nat) : Nat :=
  (bitsOf pa 15 12) ^^^ (bitsOf pa 19 16) ^^^ (bitsOf pa 23 20) ^^^ (bitsOf pa 27 24) ^^^ (bitsOf pa 29 28) ^^^
    (bitsOf (pa / granSize) 3 0)

/-- The bulk channel of a 4 KiB block (R195). -/
def bulkChannel (pa : Nat) : Nat :=
  (bitsOf pa 14 12) ^^^ (bitsOf pa 17 15) ^^^ (bitsOf pa 20 18) ^^^ (bitsOf pa 23 21) ^^^ (bitsOf pa 26 24) ^^^
    (bitsOf pa 29 27) ^^^ (bitsOf ((pa - bulkBase) / granSize) 2 0)

/-- The port that holds an address: 0 to 15 for MP0 to MP15, 16 to 23 for BC0 to BC7 (R190, R191, R195). -/
def MemSys.portOf (m : MemSys) (pa : Nat) : Option Nat :=
  match placeOf pa with
  | .stacked g _ => some (match (m.grans.getD g {}).loc with | some p => p | none => stackedPort pa)
  | .bulk _ _ => some (16 + bulkChannel pa)
  | .window _ _ | .none => none

/-- Memory port or bulk channel by that number. -/
def MemSys.port (m : MemSys) (i : Nat) : MemPort :=
  if i < 16 then m.ports.getD i {} else m.bchans.getD (i - 16) {}

/-- Change a memory port or bulk channel. -/
def MemSys.onPort (m : MemSys) (i : Nat) (f : MemPort → MemPort) : MemSys :=
  if i < 16 then { m with ports := updAt m.ports i f } else { m with bchans := updAt m.bchans (i - 16) f }

/-- The port that holds an address is in service (R603); a scratchpad always is. -/
def MemSys.reachable (m : MemSys) (pa : Nat) : Bool :=
  match m.portOf pa with
  | some i => (m.port i).avail
  | none => true

/-- The slice offset of an address (R190, R191, R195). -/
def MemSys.sliceOff (m : MemSys) (pa : Nat) : Nat :=
  match placeOf pa with
  | .stacked g o =>
    (match (m.grans.getD g {}).loc with
     | some _ => o % 0x4000000
     | none => bitsOf pa 29 16 * 0x1000 + bitsOf pa 11 0)
  | .bulk _ _ => bitsOf pa 29 15 * 0x1000 + bitsOf pa 11 0
  | .window _ _ | .none => 0

/-- The slice, by number on its port, that holds an address (R189 to R191, R195). -/
def MemSys.sliceAt (m : MemSys) (pa : Nat) : Nat :=
  match placeOf pa with
  | .stacked g o =>
    (match (m.grans.getD g {}).loc with
     | some _ => ((m.grans.getD g {}).slices.getD (o / 0x4000000) (0, 0)).2
     | none => (((m.grans.getD g {}).slices.find? (fun x => some x.1 == m.portOf pa)).getD (0, 0)).2)
  | .bulk g _ => (((m.bulk.getD g {}).slices.find? (fun x => some (16 + x.1) == m.portOf pa)).getD (0, 0)).2
  | .window _ _ | .none => 0

/-- The channel of its port that holds an address: one of six of a memory port (R188); a bulk channel is one. -/
def MemSys.chanOf (m : MemSys) (pa : Nat) : Nat :=
  match placeOf pa with
  | .stacked _ _ => (m.sliceAt pa * 0x4000000 + m.sliceOff pa) / 512 % 6
  | _ => 0

/-- The stack and the channel of it that are port channel c of memory port i: 48 channels in order, behind MP0 to MP7 those of S0
to S2 and behind MP8 to MP15 those of S3 to S5 (R20, R187). -/
def stackChan (i c : Nat) : Nat × Nat := (i / 8 * 3 + (i % 8 * 6 + c) / 16, (i % 8 * 6 + c) % 16)

/-- The raw offset on a bulk channel of a data offset: in each run of 16 blocks of 64 bytes the last holds check bytes (R194). -/
def rawOffset (d : Nat) : Nat := d / 960 * 1024 + d % 960

/-- The raw offset of the first of the four check bytes of the data block at a data offset of a bulk channel (R194). -/
def checkOffset (d : Nat) : Nat := d / 960 * 1024 + 960 + 4 * (d % 960 / 64)

/-- The data offset on its bulk channel of an address (R194, R195). -/
def MemSys.dataOff (m : MemSys) (pa : Nat) : Nat := m.sliceAt pa * 0x8000000 + m.sliceOff pa

/-! ### Poison -/

/-- The word that holds an address reads as poisoned (R203, R603). -/
def MemSys.poisoned (m : MemSys) (pa : Nat) : Bool :=
  let w := wordOf pa
  m.poison.contains w ||
    (match m.portOf pa with
     | some i => !(m.port i).avail || (!(m.port i).stale.isEmpty && (m.port i).stale.contains (m.chanOf w) &&
         !(m.port i).healed.any (fun r => r.1 ≤ w && w < r.2))
     | none => false)

/-- The words that a range of bytes touches. -/
def wordsOf (pa len : Nat) : List Nat :=
  if len = 0 then [] else
    let ws := wordSize pa
    (List.range ((pa + len - 1) / ws - pa / ws + 1)).map (fun i => (pa / ws + i) * ws)

/-- Some word that a range of bytes touches is poisoned. -/
def MemSys.anyPoison (m : MemSys) (pa len : Nat) : Bool := (wordsOf pa len).any m.poisoned

/-- A word is covered whole by a write (R203). That such a write also ends the poison of a scratchpad word is the model's choice:
R47 does not say what does (DESIGN CHOICE, notes/assumptions/53.md). -/
def covers (pa len w : Nat) : Bool := pa ≤ w && w + wordSize w ≤ pa + len

/-- Words written whole no longer read as poisoned on a port that came back (R508, R603). -/
def MemPort.heal (q : MemPort) (whole : List Nat) : MemPort :=
  if q.stale.isEmpty then q else { q with healed := q.healed ++ whole.map (fun w => (w, w + wordSize w)) }

/-- Write bytes at a physical address. Bytes on an unavailable port are discarded and its poison stays (R603); a write
that covers a whole word clears its poison mark (R203). -/
def MemSys.store (m : MemSys) (pa : Nat) (bs : List Byte) : MemSys :=
  let len := bs.length
  let cells := bs.zipIdx.foldl (fun c b => if m.reachable (pa + b.2) then c.set (pa + b.2) b.1 else c) m.cells
  let clears := fun w => covers pa len w && m.reachable w
  let whole := (wordsOf pa len).filter clears
  { m with
    cells := cells
    poison := m.poison.filter (fun w => !clears w)
    ports := m.ports.map (fun q => q.heal whole)
    bchans := m.bchans.map (fun q => q.heal whole) }

/-- Mark the word that holds an address poisoned. -/
def MemSys.poisonWord (m : MemSys) (pa : Nat) : MemSys :=
  if m.poison.contains (wordOf pa) then m else { m with poison := wordOf pa :: m.poison }

/-- Zero the bytes of a range and clear its poison marks (R49, R193). -/
def MemSys.zero (m : MemSys) (lo hi : Nat) : MemSys :=
  let heal := fun (q : MemPort) => if q.avail && !q.stale.isEmpty then { q with healed := (lo, hi) :: q.healed } else q
  { m with cells := m.cells.clear lo hi, poison := m.poison.filter (fun w => w < lo || hi ≤ w)
           ports := m.ports.map heal, bchans := m.bchans.map heal }

/-! ### Rights -/

/-- The guard's tag (R183). -/
def tagGuard : Nat := 0x10

/-- The steward's tag (R183). -/
def tagSteward : Nat := 0x11

/-- The transaction is admitted under its tag's rights (R184, R197, R50). -/
def State.admits (s : State) (tag pa : Nat) : Bool :=
  match placeOf pa with
  | .stacked g _ => tag == tagGuard || (s.mem.grans.getD g {}).owner == tag
  | .bulk g _ => tag == tagGuard || (s.mem.bulk.getD g {}).owner == tag
  | .window t _ => tag == tagGuard || (tag < 16 && (s.fabric.tiles.getD t {}).part == some tag)
  | .none => false

/-- The owner's tag of the granule that holds an address, 0x1F when it has none. -/
def State.ownerOf (s : State) (pa : Nat) : Nat :=
  match placeOf pa with
  | .stacked g _ => (s.mem.grans.getD g {}).owner
  | .bulk g _ => (s.mem.bulk.getD g {}).owner
  | .window t _ => ((s.fabric.tiles.getD t {}).part).getD 0x1F
  | .none => 0x1F

end Sys2Proof.Machine
end

