-- ==== Sys2Proof/Machine/Route.lean ====
section
/-! DEFINITION. The ways over the mesh (R180 to R182, R192, R446), the gate ports and the crossings into the clocked domains
(R123 to R126), and whether an access can go on now (R25, R48, R181). -/

namespace Sys2Proof.Machine

/-! ### Clocked domains and gate ports (R123, R192) -/

/-- Clocked domain n of R123 is locked. -/
def State.clockUp (s : State) (n : Nat) : Bool := s.fabric.locked.getLsbD n

/-- The clocked domain of a reset unit, if it has one of its own or of its kind (R123). -/
def clockOf (kind unit : Nat) : Option Nat :=
  match kind with
  | 0 => [8, 16, 24, 32, 40, 48].findIdx? (· == unit) |>.map (11 + ·)
  | 1 => some 20
  | 2 => some (1 + unit)
  | 3 => some (9 + unit)
  | 4 => some 17
  | _ => some 18

/-- The clock of a reset unit's domain is locked: without it the unit stands still (R126). -/
def State.clocked (s : State) (kind unit : Nat) : Bool :=
  match clockOf kind unit with
  | some n => s.clockUp n
  | none => true

/-- The number in R123 of the clocked domain of gate port g. -/
def gateClock (g : Nat) : Nat := 11 + g

/-- The clocked domain HBM (R123). -/
def hbmClock : Nat := 17

/-- The clocked domain BULK (R123). -/
def bulkClock : Nat := 18

/-- The domain's routers and ports work: it is in neither DARK nor DEEP (R67, R124). -/
def State.lit (s : State) (k : Nat) : Bool := (s.dom k).st != .dark && (s.dom k).st != .deep

/-- The number of a gate tile's gate port. -/
def gateOf (t : Nat) : Nat := t / 8 - 1

/-- The crossing of gate port g passes entries: its clock is locked, and the fabric side is in neither DARK nor DEEP (R124,
R126). -/
def State.gatePasses (s : State) (g : Nat) : Bool := s.clockUp (gateClock g) && s.lit (domOfTile (8 * (g + 1)))

/-! ### Routes (R180 to R182, R192, R446) -/

/-- The numbers from the smaller of two to the larger. -/
def span (i j : Nat) : List Nat := (List.range (Nat.max i j + 1 - Nat.min i j)).map (fun k => Nat.min i j + k)

/-- The routers of the XY order from tile a to tile b: along the row first (R180). -/
def routeXY (a b : Nat) : List Nat :=
  (span (a % 8) (b % 8)).map (fun c => a / 8 * 8 + c) ++ (span (a / 8) (b / 8)).map (fun r => r * 8 + b % 8)

/-- The routers of the YX order from tile a to tile b: along the column first (R180). -/
def routeYX (a b : Nat) : List Nat :=
  (span (a / 8) (b / 8)).map (fun r => r * 8 + a % 8) ++ (span (a % 8) (b % 8)).map (fun c => b / 8 * 8 + c)

/-- The rim tile of MPi (R20). -/
def rimTile (i : Nat) : Nat := if i < 8 then i else 48 + i

/-- The gate port of a row is in service: its domain's regulator has not faulted and its tile is not fenced (R192). -/
def State.gateOk (s : State) (row : Nat) : Bool := !(s.dom (domOfTile (8 * row))).railFault && (s.tile (8 * row)).st != .fenced

/-- Distance of two rows. -/
def rowsApart (a b : Nat) : Nat := Nat.max a b - Nat.min a b

/-- The rows whose gate ports traffic of a tag may use: those inside the rectangle of a sealed partition, all six otherwise
(R446). -/
def State.gateRows (s : State) (tag : Nat) : List Nat :=
  [1, 2, 3, 4, 5, 6].filter (fun r => !(tag < 16 && (s.part tag).sec.meshSeal) || (s.part tag).sec.vdMask.getLsbD (domOfTile (8 * r)))

/-- The gate tile that serves a row for a tag: its own, or that of the nearest row in service that the tag may use, the lower
row on a tie (R192, R446; notes/assumptions/51.md). -/
def State.gateFor (s : State) (tag row : Nat) : Option Nat :=
  (((s.gateRows tag).filter s.gateOk).foldl (fun (a : Option Nat) r =>
    match a with
    | none => some r
    | some b => if rowsApart r row < rowsApart b row then some r else some b) none).map (8 * ·)

/-- The gate row of a tile's row (R192). -/
def gateRow (row : Nat) : Nat := Nat.min 6 (Nat.max 1 row)

/-- The gate tile of hub traffic of a tag to MPi: the lowest-numbered inside the rectangle of a sealed partition, that of row
i mod 6 + 1 otherwise; one out of service is skipped (R192, R446). -/
def State.hubGate (s : State) (tag i : Nat) : Option Nat :=
  if tag < 16 && (s.part tag).sec.meshSeal then
    match (s.gateRows tag).head? with
    | some r => s.gateFor tag r
    | none => none
  else s.gateFor tag (i % 6 + 1)

/-- A tile lies in the rectangle of a sealed partition other than the tag's (R446). -/
def State.sealedFor (s : State) (tag t : Nat) : Bool :=
  match (s.tile t).part with
  | some q => q != tag && (s.part q).sec.meshSeal && tag < 16
  | none => false

/-- The way of a transaction over the mesh. -/
inductive Way where
  /-- No port admits it: a range marked None (R197) -/
  | refused
  /-- It stays inside the hub die (R192) -/
  | hub
  /-- From one tile to another, with YX as its primary order, in the confined class -/
  | mesh (src dst : Nat) (yx confined : Bool)
  /-- No gate port is in service -/
  | none
deriving DecidableEq, Repr

/-- Two tiles lie in one partition. -/
def State.sameRect (s : State) (a b : Nat) : Bool := (s.tile a).part.isSome && (s.tile a).part == (s.tile b).part

/-- The way of a transaction (R180, R192). -/
def State.wayOf (s : State) (t : Txn) : Way :=
  let fromGate := fun (g : Option Nat) (dst : Nat) => match g with | some a => Way.mesh a dst false false | none => Way.none
  match placeOf t.pa with
  | .none => .refused
  | .window u _ =>
    (match t.src with
     | some a => .mesh a u false (s.sameRect a u)
     | none => fromGate (s.gateFor t.tag (gateRow (u / 8))) u)
  | .stacked _ _ =>
    let i := (s.mem.portOf t.pa).getD 0
    (match t.src with
     | some a => .mesh a (rimTile i) false false
     | none => fromGate (s.hubGate t.tag i) (rimTile i))
  | .bulk _ _ =>
    (match t.src with
     | some a => (match s.gateFor t.tag (gateRow (a / 8)) with | some b => .mesh a b true false | none => .none)
     | none => .hub)

/-- The queue that a transaction joins: its port's, its bulk channel's, or that of a scratchpad window. -/
def State.queueOf (s : State) (pa : Nat) : Nat :=
  match placeOf pa with
  | .window u _ => 24 + u
  | _ => (s.mem.portOf pa).getD 0

/-- What becomes of a transaction at its source. -/
inductive Goes where
  /-- No order it may take is available (R181) -/
  | waits
  /-- It is refused under R184 -/
  | refused
  /-- It is carried to a queue along a route, by its alternate order when `alt` -/
  | reaches (queue : Nat) (alt : Bool) (route : List Nat)
deriving DecidableEq, Repr

/-- The routers of an order are all available in the map (R181). -/
def State.routeUp (s : State) (l : List Nat) : Bool := l.all (fun t => s.mem.avail.getLsbD t)

/-- An order avoids the rectangles sealed against the tag (R446). -/
def State.avoids (s : State) (tag : Nat) (l : List Nat) : Bool := !l.any (s.sealedFor tag)

/-- R181, with the orders that R446 forbids. -/
def State.goes (s : State) (t : Txn) : Goes :=
  match s.wayOf t with
  | .refused => .refused
  | .hub => .reaches (s.queueOf t.pa) false []
  | .none => .waits
  | .mesh a b yx confined =>
    let first := if yx then routeYX a b else routeXY a b
    let other := if yx then routeXY a b else routeYX a b
    let okFirst := confined || s.avoids t.tag first
    let okOther := confined || s.avoids t.tag other
    if !okFirst && !okOther then .refused
    else if okFirst && s.routeUp first then .reaches (s.queueOf t.pa) false first
    else if okOther && s.routeUp other then .reaches (s.queueOf t.pa) true other
    else .waits

/-! ### The memory schedule (R445) -/

/-- The slots that some partition reserves. -/
def State.reservedSlots (s : State) : BitVec 64 :=
  s.parts.foldl (fun a q => if q.sec.st == .unconfigured then a else a ||| q.sec.memSlots) 0

/-- A DRAM command of a tag may issue now: in a slot of its own partition where that has reserved some, in an unreserved one otherwise;
none in the last 60 ns of a slot (R445). -/
def State.slotOpen (s : State) (tag : Nat) : Bool :=
  let k := s.now % 32000 / 500
  let own := if tag < 16 then (s.parts.getD tag {}).sec.memSlots else 0
  s.now % 500 < 440 && (if own = 0 then !s.reservedSlots.getLsbD k else own.getLsbD k)

/-! ### Whether an access can go on (R25, R48, R181) -/

/-- The router of tile t is available (R67, R181). -/
def State.routerUp (s : State) (t : Nat) : Bool := s.lit (domOfTile t) && (s.tile t).st != .resetting

/-- The window of tile t answers: its domain is in RUN or HOLD (R48). -/
def State.windowUp (s : State) (t : Nat) : Bool :=
  (s.dom (domOfTile t)).st == .run || (s.dom (domOfTile t)).st == .hold

/-- The memory behind an address answers: a window while its domain is in RUN or HOLD (R48), stacked DRAM and the bulk tier
outside self-refresh (R150, R170). -/
def State.answers (s : State) (pa : Nat) : Bool :=
  match placeOf pa with
  | .window t _ => s.windowUp t
  | .stacked _ _ => s.mem.asleep.isNone
  | .bulk _ _ => s.mem.bulkAsleep.isNone
  | .none => true

/-- The gate port that a transaction passes: on its way from a hub unit into the mesh, or from a tile to the bulk tier (R25,
R192). -/
def State.gateOn (s : State) (t : Txn) : Option Nat :=
  match s.wayOf t, t.src, placeOf t.pa with
  | .mesh a _ _ _, none, _ => some (gateOf a)
  | .mesh _ b _ _, some _, .bulk _ _ => some (gateOf b)
  | _, _, _ => none

/-- The 4 KiB blocks that a range touches, each by its first address. -/
def blocksOf (a n : Nat) : List Nat := (List.range (cdiv (a % 0x1000 + n) 0x1000)).map (fun i => a / 0x1000 * 0x1000 + i * 0x1000)

/-- An access of Pp to a range from a tile's mover, or from a hub unit (none), meets a way over the mesh, the gate port that it needs
and memory that answers for each of its blocks; otherwise it waits (R25, R48, R126, R181). -/
def State.pathUp (s : State) (p : Nat) (src : Option Nat) (a n : Nat) : Bool :=
  (blocksOf a n).all (fun pa =>
    let t : Txn := { src := src, tag := p, op := .read, pa := pa, len := 128, data := [] }
    s.answers pa && (s.gateOn t).all s.gatePasses && s.goes t != .waits)

end Sys2Proof.Machine
end

