-- ==== Sys2Proof/Machine/Virtual.lean ====
section
/-! DEFINITION. Virtual addresses: the page-table walk and the translation caches (R198 to R201, R604), and what a command
reads and writes through them. -/

namespace Sys2Proof.Machine

/-! ### Translation -/

/-- Why a command could not go on. -/
inductive Fail where
  /-- It completes with this STATUS and RESULT -/
  | status (st res : Nat)
  /-- A translation fault (R200): reason, source tile (0xFF a hub unit), virtual address, write, record slot -/
  | xlat (reason src va : Nat) (write : Bool) (slot : Nat)
  /-- A refusal under R184: physical address, source, record slot -/
  | rights (pa src slot : Nat)
  /-- Poisoned words were read (R203): their physical addresses -/
  | poison (pas : List Nat)
  /-- A frame of a retired key epoch was read (R467) -/
  | retired (pa : Nat)
  /-- It waits: a way over the mesh, a gate port or the memory behind the address is not there now (R25, R48, R170, R181) -/
  | waits
deriving DecidableEq, Repr

/-- What a walk finds. -/
inductive Walk where
  /-- The page: its first virtual address, size and first physical address, and whether writes are permitted -/
  | page (va size pa : Nat) (w : Bool)
  /-- A translation fault of R200 -/
  | fault (reason : Nat)
  /-- A walk read returned poison -/
  | poison (pa : Nat)
deriving DecidableEq, Repr

/-- The entry breaks R199 at its level: a reserved bit, LEAF wrong, or an address misaligned. -/
def pteBad (level pte : Nat) : Bool :=
  let leaf := bitOf pte 1
  let addr := bitsOf pte 39 8 * 256
  bitsOf pte 7 3 != 0 || bitsOf pte 63 40 != 0 ||
  (if level < 2 then leaf || addr % 0x1000 != 0
   else if level = 2 then (leaf && addr % 0x200000 != 0)
   else !leaf || addr % 0x10000 != 0)

/-- The index of a virtual address at a level (R198). -/
def vaIndex (level va : Nat) : Nat :=
  match level with
  | 0 => bitsOf va 47 39 | 1 => bitsOf va 38 30 | 2 => bitsOf va 29 21 | _ => bitsOf va 20 16

/-- One level of the walk and those below it; `fuel` counts the levels left. -/
def State.walkFrom (s : State) (p va : Nat) (write wOk : Bool) (table level : Nat) : Nat → Walk
  | 0 => .fault 4
  | fuel + 1 =>
    let at_ := table + 8 * vaIndex level va
    if !s.admits p at_ then .fault 3
    else if s.mem.anyPoison at_ 8 then .poison at_
    else
      let pte := leNat (s.mem.cells.read at_ 8)
      let addr := bitsOf pte 39 8 * 256
      let w := wOk && bitOf pte 2
      if !bitOf pte 0 then .fault 1
      else if pteBad level pte then .fault 4
      else if write && !w then .fault 2
      else if bitOf pte 1 then
        if !s.admits p addr then .fault 3
        else if level = 2 then .page (va / 0x200000 * 0x200000) 0x200000 addr w
        else .page (va / 0x10000 * 0x10000) 0x10000 addr w
      else s.walkFrom p va write w addr (level + 1) fuel

/-- The page-table walk of R198 to R200 for partition `p`. -/
def State.walk (s : State) (p va : Nat) (write : Bool) : Walk :=
  s.walkFrom p va write true (s.parts.getD p {}).mem.root 0 4

/-- Translate one address for partition `p`, source tile `src` (none: a hub unit): through the cached translations of
that source first (R200, R201), the identity for hub units while translation is off (R604), otherwise by a walk. -/
def State.translate (s : State) (p : Nat) (src : Option Nat) (va : Nat) (write : Bool) : Walk :=
  let m := (s.parts.getD p {}).mem
  if !m.enable then
    if src.isSome then .fault 5
    else if va ≥ 2 ^ 40 then .fault 3
    else .page (va / 0x10000 * 0x10000) 0x10000 (va / 0x10000 * 0x10000) true
  else if va ≥ 2 ^ 48 then .fault 3
  else match m.xlat.find? (fun e => e.src == src && e.va ≤ va && va < e.va + e.size) with
    | some e => if write && !e.w then .fault 2 else .page e.va e.size e.pa e.w
    | none => s.walk p va write

/-- The number of a source in MEM.FAULT and MEM_DENIED: the tile, or 0xFF for a hub unit (R209, R242). -/
def srcCode : Option Nat → Nat
  | some t => t
  | none => 0xFF

/-- The physical pieces of a range of virtual addresses, one for each 64 KiB page it touches, or the first failure. -/
def State.pieces (s : State) (p : Nat) (src : Option Nat) (slot : Nat) (write : Bool) :
    (fuel va len : Nat) → Except Fail (List (Nat × Nat))
  | 0, _, _ => .ok []
  | fuel + 1, va, len =>
    if len = 0 then .ok [] else
    let n := min len (0x10000 - va % 0x10000)
    match s.translate p src va write with
    | .fault r => .error (.xlat r (srcCode src) va write slot)
    | .poison pa => .error (.poison [pa])
    | .page v _ pa _ =>
      let a := pa + (va - v)
      if !s.admits p a then .error (.rights a (srcCode src) slot)
      else match s.pieces p src slot write fuel (va + n) (len - n) with
        | .ok rest => .ok ((a, n) :: rest)
        | .error e => .error e

/-- The physical pieces of `len` bytes at `va`. -/
def State.resolve (s : State) (p : Nat) (src : Option Nat) (slot va len : Nat) (write : Bool) :
    Except Fail (List (Nat × Nat)) :=
  s.pieces p src slot write (len / 0x10000 + 2) va len

/-- The key of the frame that holds an address is gone: the frame is retired (R467), or the partition lost its admission
and its keys with it (R462). -/
def State.retiredEpoch (s : State) (p pa : Nat) : Bool :=
  let sec := (s.parts.getD p {}).sec
  pa < winBase && ((sec.st == .faulted && sec.curKey.isNone) ||
    sec.retiredFrames.any (fun r => r.1 ≤ pa / 0x10000 && pa / 0x10000 < r.1 + r.2))

/-- The bytes of a physical range as a command reads them: those that race an unordered write are free (R35;
notes/assumptions/52.md). -/
def State.readRaced (s : State) (pa len : Nat) : List Byte :=
  let bs := s.mem.cells.read pa len
  if s.racing.any (fun r => r.1 < pa + len && pa < r.1 + r.2) then
    bs.zipIdx.map (fun b => if s.racing.any (fun r => r.1 ≤ pa + b.2 && pa + b.2 < r.1 + r.2)
      then Config.raced s.fresh (pa + b.2) b.1 else b.1)
  else bs

/-- The bytes of some physical pieces, or why they cannot be read. -/
def State.readPieces (s : State) (p : Nat) (ps : List (Nat × Nat)) : Except Fail (List Byte) :=
  match ps.find? (fun c => s.retiredEpoch p c.1) with
  | some c => .error (.retired c.1)
  | none =>
    match (ps.flatMap (fun c => wordsOf c.1 c.2)).filter s.mem.poisoned with
    | w :: ws => .error (.poison (w :: ws))
    | [] => .ok (ps.flatMap (fun c => s.readRaced c.1 c.2))

/-- Read `len` bytes at `va` for partition `p`; the read waits where it cannot go on now. -/
def State.readVa (s : State) (p : Nat) (src : Option Nat) (slot va len : Nat) : Except Fail (List Byte) :=
  match s.resolve p src slot va len false with
  | .error e => .error e
  | .ok ps => if ps.all (fun c => s.pathUp p src c.1 c.2) then s.readPieces p ps else .error .waits

/-- Write consecutive bytes to physical pieces. -/
def MemSys.storePieces (m : MemSys) : List (Nat × Nat) → List Byte → MemSys
  | [], _ => m
  | c :: cs, bs => (m.store c.1 (bs.take c.2)).storePieces cs (bs.drop c.2)

/-- Write bytes to some physical pieces, whole or not at all. -/
def State.writePieces (s : State) (p : Nat) (ps : List (Nat × Nat)) (bs : List Byte) : Except Fail State :=
  match ps.find? (fun c => s.retiredEpoch p c.1) with
  | some c => .error (.retired c.1)
  | none => .ok { s with mem := s.mem.storePieces ps bs }

/-- Write bytes at `va` for partition `p`, whole or not at all; the write waits where it cannot go on now. -/
def State.writeVa (s : State) (p : Nat) (src : Option Nat) (slot va : Nat) (bs : List Byte) : Except Fail State :=
  match s.resolve p src slot va bs.length true with
  | .error e => .error e
  | .ok ps => if ps.all (fun c => s.pathUp p src c.1 c.2) then s.writePieces p ps bs else .error .waits

/-- Write bytes at `va` where that is permitted; a write that faults changes nothing, and one that waits is made. -/
def State.tryWriteVa (s : State) (p va : Nat) (bs : List Byte) : State :=
  match s.resolve p none 0 va bs.length true with
  | .error _ => s
  | .ok ps => match s.writePieces p ps bs with
    | .ok t => t
    | .error _ => s

/-- Read bytes at `va`, zeros where that faults. -/
def State.peekVa (s : State) (p va len : Nat) : List Byte :=
  match s.resolve p none 0 va len false with
  | .error _ => zeros len
  | .ok ps => match s.readPieces p ps with
    | .ok bs => bs
    | .error _ => zeros len

/-- `len` bytes at `va` hold undefined values from now on: any of them may have changed to anything
(notes/assumptions/5.md). Nothing happens where the range cannot be written. -/
def State.spoil (s : State) (p : Nat) (src : Option Nat) (va len : Nat) : State :=
  match s.resolve p src 0 va len true with
  | .error _ => s
  | .ok ps =>
    if ps.any (fun c => s.retiredEpoch p c.1) then s
    else
      let old := ps.flatMap (fun c => s.mem.cells.read c.1 c.2)
      let new := old.zipIdx.map (fun b => Config.spoiled (s.fresh + b.2) b.1)
      { s with mem := s.mem.storePieces ps new, fresh := s.fresh + len }

/-- Bytes that a transfer was moving to `va` when it ended: each that can be written has been moved or has not, which is open
(R57; notes/assumptions/76.md). -/
def State.moveSome (s : State) (p : Nat) (src : Option Nat) (va : Nat) : List Byte → State
  | [] => s
  | b :: bs =>
    match s.resolve p src 0 va 1 true with
    | .error _ => s.moveSome p src (va + 1) bs
    | .ok ps =>
      let t := if Config.freeNat s.fresh % 2 = 1 && !ps.any (fun c => s.retiredEpoch p c.1) then
          { s with mem := s.mem.storePieces ps [b] } else s
      ({ t with fresh := t.fresh + 1 }).moveSome p src (va + 1) bs

/-- A transfer from `sv` to `va` ended before its `n` bytes were moved: the same of those that can be read. -/
def State.copySome (s : State) (p : Nat) (src : Option Nat) (sv va : Nat) : Nat → State
  | 0 => s
  | n + 1 =>
    match s.readVa p src 0 sv 1 with
    | .error _ => s.copySome p src (sv + 1) (va + 1) n
    | .ok bs => (s.moveSome p src va bs).copySome p src (sv + 1) (va + 1) n

/-- The physical pieces of some ranges of virtual addresses of Pp, where they can be read, or written. -/
def State.physOf (s : State) (p : Nat) (write : Bool) (l : List (Nat × Nat)) : List (Nat × Nat) :=
  l.flatMap (fun r => match s.resolve p none 0 r.1 r.2 write with
    | .ok ps => ps
    | .error _ => [])

/-- Results that depend on poisoned data carry its mark (R47, R203): which of the whole words of a range do is open, as their
bytes are (notes/assumptions/5.md). -/
def State.taint (s : State) (p va len : Nat) : State :=
  let ws := (s.physOf p true [(va, len)]).flatMap (fun c => (wordsOf c.1 c.2).filter (covers c.1 c.2))
  let hit := (ws.zipIdx.filter (fun w => Config.freeNat (s.fresh + w.2) % 2 == 1)).map Prod.fst
  { s with mem := hit.foldl (fun m w => m.poisonWord w) s.mem, fresh := s.fresh + ws.length }

end Sys2Proof.Machine
end

