-- ==== Sys2Proof/Machine/Flags.lean ====
section
/-! DEFINITION. STATUS codes (R287), completion flags (R289) and the outcome of a command. -/

namespace Sys2Proof.Machine

def stOk : Nat := 0x00
def stOkFlagged : Nat := 0x01
def stBadOpcode : Nat := 0x10
def stBadDescriptor : Nat := 0x11
def stIllegalState : Nat := 0x12
def stAccessDenied : Nat := 0x13
def stChainAborted : Nat := 0x14
def stEngineReset : Nat := 0x20
def stEngineFenced : Nat := 0x21
def stPartitionReset : Nat := 0x22
def stCancelled : Nat := 0x30
def stCancelTooLate : Nat := 0x31
def stExpired : Nat := 0x32
def stMemUncorrectable : Nat := 0x40
def stCrcMismatch : Nat := 0x41
def stDigestMismatch : Nat := 0x42
def stTimeout : Nat := 0x50
def stBusy : Nat := 0x51
def stKeyEpochRetired : Nat := 0x60
def stNotAdmitted : Nat := 0x61

/-- The codes that R287 names. -/
def allStatus : List Nat :=
  [stOk, stOkFlagged, stBadOpcode, stBadDescriptor, stIllegalState, stAccessDenied, stChainAborted, stEngineReset,
   stEngineFenced, stPartitionReset, stCancelled, stCancelTooLate, stExpired, stMemUncorrectable, stCrcMismatch,
   stDigestMismatch, stTimeout, stBusy, stKeyEpochRetired, stNotAdmitted]

/-- OK or OK_FLAGGED. -/
def statusGood (st : Nat) : Bool := st == stOk || st == stOkFlagged

def cfWindowLow : Nat := 0x01
def cfWindowHigh : Nat := 0x02
def cfOutRange : Nat := 0x04
def cfSpecialIn : Nat := 0x08
def cfEmptyRows : Nat := 0x10
def cfConcealed : Nat := 0x20
def cfBudgetShort : Nat := 0x40
def cfSeqEnd : Nat := 0x80

/-- A flag where a condition holds. -/
def flagIf (c : Bool) (f : Nat) : Nat := if c then f else 0

/-- STATUS and CFLAGS as the record carries them: any flag makes an OK command OK_FLAGGED, and a command that ends
otherwise carries none (R289, R101). -/
def Done.final (d : Done) : Nat × Nat :=
  if statusGood d.status then (if d.cflags = 0 then (stOk, 0) else (stOkFlagged, d.cflags % 256))
  else (d.status, 0)

/-- The slot number that stands for DIGEST_VA in a failure. -/
def slotDva : Nat := 16

/-- RESULT of an ACCESS_DENIED: the reason, the record slot or list entry, and whether DIGEST_VA was meant (R288). -/
def deniedResult (reason slot : Nat) : Nat := reason + slot % 16 * 256 + b2n (slot == slotDva) * 4096

/-- The outcome of a failure; what waits has none yet (`State.failDesc` leaves it as it is). -/
def Fail.done : Fail → Done
  | .status st res => { status := st, result := res }
  | .xlat r _ _ _ slot => { status := stAccessDenied, result := deniedResult r slot }
  | .rights _ _ slot => { status := stAccessDenied, result := deniedResult 0xF slot }
  | .poison _ => { status := stMemUncorrectable }
  | .retired _ => { status := stKeyEpochRetired }
  | .waits => {}

/-- BAD_DESCRIPTOR at a byte of the descriptor (R288). -/
def badAt (off : Nat) : Fail := .status stBadDescriptor off

/-- BAD_DESCRIPTOR at a byte of a parameter block, list or act header (R288). -/
def badInBlock (off : Nat) : Fail := .status stBadDescriptor (2 ^ 31 + off % 2 ^ 16)

/-- BAD_DESCRIPTOR for a fault in the data of a record slot (R288). -/
def badData (slot off : Nat) : Fail := .status stBadDescriptor (0xF000 + slot % 16 * 256 + off % 32)

/-- The first offending byte of those listed with whether they offend. -/
def firstBad (l : List (Bool × Nat)) : Option Nat :=
  l.foldl (fun a x => if x.1 then (match a with | some o => some (Nat.min o x.2) | none => some x.2) else a) none

end Sys2Proof.Machine
end

