-- ==== Sys2Proof/Machine/Operands.lean ====
section
/-! DEFINITION. The operands of descriptors: the header (R249 to R251), the opcode map (R258), the fields of every opcode
with the bytes it reserves (R259 to R286, R309 to R321, R341, R366), and tensor records (R267 to R270). -/

namespace Sys2Proof.Machine

/-! ### The header -/

namespace Desc

/-- OPCODE -/
def op (d : Desc) : Nat := byteAt d.bytes 0
/-- The header's flag bits -/
def flags (d : Desc) : Nat := byteAt d.bytes 1
/-- BARRIER; BARRIER and FENCE always act as if their flag were set (R259) -/
def barrier (d : Desc) : Bool := bitOf d.flags 0 || d.op == 0x01 || d.op == 0x02
/-- IRQ -/
def irq (d : Desc) : Bool := bitOf d.flags 1
/-- DIGEST -/
def digest (d : Desc) : Bool := bitOf d.flags 2
/-- FENCE_IN -/
def fenceIn (d : Desc) : Bool := bitOf d.flags 3
/-- FENCE_OUT -/
def fenceOut (d : Desc) : Bool := bitOf d.flags 4
/-- CHAIN -/
def chain (d : Desc) : Bool := bitOf d.flags 5
/-- ENGINE -/
def engine (d : Desc) : Nat := byteAt d.bytes 2
/-- PRIO -/
def prio (d : Desc) : Nat := byteAt d.bytes 3
/-- TAG -/
def tag (d : Desc) : Nat := fieldAt d.bytes 4 4
/-- HINT_NEXT -/
def hintNext (d : Desc) : Nat := fieldAt d.bytes 8 4
/-- TIMEOUT -/
def timeout (d : Desc) : Nat := fieldAt d.bytes 12 4
/-- A little-endian field of the opcode-specific part -/
def fld (d : Desc) (off len : Nat) : Nat := fieldAt d.bytes off len
/-- DIGEST_VA -/
def digestVa (d : Desc) : Nat := fieldAt d.bytes 40 6

end Desc

/-! ### The opcode map -/

/-- Where an opcode runs (R250). -/
inductive RunsOn | hub | engine | either
deriving DecidableEq, Repr

/-- Whether an opcode may stand in an act (R258). -/
inductive InActs | no | yes | onceOnly
deriving DecidableEq, Repr

/-- One row of the opcode map (R258). -/
structure OpInfo where
  /-- Runs on -/
  on : RunsOn
  /-- The DIGEST flag is accepted -/
  digest : Bool := false
  /-- Acts -/
  acts : InActs := .no
deriving DecidableEq, Repr

/-- The opcode map (R258). -/
def opInfo (op : Nat) : Option OpInfo :=
  if op ≤ 0x03 then some { on := .hub, acts := .yes }
  else if op ≤ 0x05 then some { on := .hub, acts := .onceOnly }
  else if op ≤ 0x07 then some { on := .hub }
  else if 0x10 ≤ op ∧ op ≤ 0x18 then some { on := .engine, digest := true, acts := .yes }
  else if op = 0x19 ∨ op = 0x1A then some { on := .either, digest := true, acts := .yes }
  else if op = 0x1B then some { on := .engine, digest := true, acts := .yes }
  else if op = 0x40 then some { on := .engine, digest := true, acts := .yes }
  else if 0x41 ≤ op ∧ op ≤ 0x46 then some { on := .engine, acts := .yes }
  else if 0x50 ≤ op ∧ op ≤ 0x52 then some { on := .engine, digest := true, acts := .yes }
  else if op = 0x53 then some { on := .hub }
  else if 0x60 ≤ op ∧ op ≤ 0x64 then some { on := .engine, digest := true, acts := .yes }
  else if op = 0x6F then some { on := .hub }
  else if op = 0x70 ∨ op = 0x71 then some { on := .hub }
  else if 0x72 ≤ op ∧ op ≤ 0x74 then some { on := .hub, digest := true, acts := .yes }
  else if op = 0x75 then some { on := .hub, acts := .yes }
  else if 0x80 ≤ op ∧ op ≤ 0x82 then some { on := .hub }
  else if 0x90 ≤ op ∧ op ≤ 0x99 then some { on := .hub }
  else none

/-- An administrative opcode (R229). -/
def isAdmin (op : Nat) : Bool := 0x90 ≤ op && op ≤ 0x9F

/-- The descriptor runs on an engine. -/
def Desc.engineRun (d : Desc) : Bool := d.engine < 64

/-! ### Fields and reserved bytes

Each list below pairs a condition with the byte that offends when it holds; the lowest byte decides RESULT (R288). -/

/-- A list of checks. -/
def chk (l : List (Bool × Nat)) : List (Bool × Nat) := l

/-- The bytes `off` to `off + len - 1` are reserved (R12). -/
def resv (bs : List Byte) (off len : Nat) : List (Bool × Nat) :=
  match firstNonzero bs off len with
  | some o => chk [(true, o)]
  | none => []

/-- The address of `len` bytes at `off` is not a multiple of `k`. -/
def misaligned (bs : List Byte) (off len k : Nat) : List (Bool × Nat) := chk [(fieldAt bs off len % k != 0, off)]

/-- The header's own checks (R249 to R251, R258): `inAct` for an act's descriptor. -/
def headerBad (inAct : Bool) (info : OpInfo) (bs : List Byte) : List (Bool × Nat) :=
  let eng := byteAt bs 2
  let hub := eng == 0xFF
  let prio := byteAt bs 3
  let digestOk := info.digest && !(info.on == .either && hub)
  chk [(bitsOf (byteAt bs 1) 7 6 != 0, 1), (bitOf (byteAt bs 1) 2 && !digestOk, 1),
   (match info.on with
    | .hub => !hub
    | .engine => !(eng < 64)
    | .either => !(hub || eng < 64), 2),
   (if inAct then prio > 7 else (prio == 0 || prio > 7), 3)]

/-- DIGEST_VA where the digest is written (R268). -/
def digestBad (bs : List Byte) : List (Bool × Nat) :=
  if bitOf (byteAt bs 1) 2 || byteAt bs 0 == 0x1B then
    chk [(fieldAt bs 40 6 == 0 || fieldAt bs 40 6 % 16 != 0, 40)]
  else []

/-- The layout of R267 without its opcode arguments; `exactOrOrdered` allows ANCHOR, ANCHOR_TABLE and KC. -/
def tensorBad (bs : List Byte) (exactOrOrdered compare : Bool) : List (Bool × Nat) :=
  let mode := byteAt bs 23
  misaligned bs 16 6 32 ++
  chk [(byteAt bs 22 == 0 || byteAt bs 22 > 16, 22), (bitsOf mode 7 5 != 0, 23), (bitOf mode 4 && !compare, 23),
   (bitOf mode 3 && !exactOrOrdered, 23), (fieldAt bs 24 2 != 0 && !exactOrOrdered, 24),
   (exactOrOrdered && (sext 16 (fieldAt bs 24 2) < -640 || sext 16 (fieldAt bs 24 2) > 640), 24),
   (if exactOrOrdered then fieldAt bs 28 4 % 64 != 0 else fieldAt bs 28 4 != 0, 28)] ++
  resv bs 26 2 ++ resv bs 46 2 ++ digestBad bs

/-- The fields of KV_FREE (R309). -/
def kvFreeBad (bs : List Byte) : List (Bool × Nat) :=
  let scope := byteAt bs 16
  chk [(scope > 4, 16), (byteAt bs 17 > 15, 17)] ++ resv bs 18 2 ++
  (if scope = 0 then [] else resv bs 20 4) ++
  (if scope = 2 then misaligned bs 24 6 0x1000 else resv bs 24 6) ++ resv bs 30 34

/-- The fields of ATTEND (R321); W is the query width where the descriptor fixes it. -/
def attendBad (bs : List Byte) : List (Bool × Nat) :=
  let b23 := byteAt bs 23
  let cache := bitOf b23 0
  let absorbed := bitOf b23 1
  let append := bitOf b23 2
  let index := bitOf b23 4
  let mask := bitsOf (byteAt bs 25) 1 0
  let window := bitOf (byteAt bs 25) 2
  let hq := byteAt bs 26
  let hkv := byteAt bs 27
  let dk := fieldAt bs 28 2
  let dv := fieldAt bs 30 2
  let wl := fieldAt bs 36 4
  let pos := byteAt bs 60
  let drd := byteAt bs 62
  misaligned bs 16 6 32 ++
  chk [(byteAt bs 22 == 0 || byteAt bs 22 > 14, 22), (bitsOf b23 7 5 != 0, 23),
   (!cache && (absorbed || append || index), 23), (index && !append, 23),
   (bitsOf (byteAt bs 24) 7 4 != 0, 24), (!cache && byteAt bs 24 != 0, 24),
   (mask == 3, 25), (bitsOf (byteAt bs 25) 7 4 != 0, 25), (hq == 0 || hq > 128, 26),
   (hkv == 0 || hq % hkv != 0 || (absorbed && hkv != 1), 27),
   (if absorbed then dk != 0 else (dk % 16 != 0 || dk > 256), 28),
   (if absorbed then dv != 0 else (dv % 16 != 0 || dv < 16 || dv > 256), 30),
   (if window then (wl == 0 || wl > 1048576) else wl != 0, 36),
   (mask != 2 && fieldAt bs 48 4 != 0, 48),
   (fieldAt bs 52 2 == 0 || fieldAt bs 52 2 > 1024, 52), (fieldAt bs 54 2 == 0 || fieldAt bs 54 2 > 8192, 54),
   ((cache || pos != 2) && fieldAt bs 56 4 != 0, 56), (if cache then pos != 0 else pos > 2, 60),
   (if cache then byteAt bs 61 != 0 else byteAt bs 61 > 1, 61),
   (if cache then drd != 0 else (drd != 0 && drd != 64 && drd != 128) || (pos == 1 && drd == 0) || dk + drd > 256 ||
      dk + drd == 0, 62)] ++
  resv bs 46 2 ++ resv bs 63 1 ++ digestBad bs

/-- The layout of R280. -/
def collBad (op : Nat) (bs : List Byte) : List (Bool × Nat) :=
  misaligned bs 16 6 32 ++
  chk [(byteAt bs 22 != 2 && byteAt bs 22 != 3, 22), (bitsOf (byteAt bs 23) 7 2 != 0, 23),
   (byteAt bs 24 > 15, 24),
   (if op ≤ 0x61 then byteAt bs 25 > 2 else byteAt bs 25 != 0, 25), (op != 0x64 && byteAt bs 26 != 0, 26)] ++
  resv bs 27 1 ++ resv bs 46 18 ++ digestBad bs

/-- The layout of R281. -/
def mediaBad (op : Nat) (bs : List Byte) : List (Bool × Nat) :=
  let usesCount := op == 0x72 || op == 0x73
  let usesTime := op == 0x72 || op == 0x75
  chk [(byteAt bs 16 > 63, 16), (if op = 0x70 then byteAt bs 17 > 3 else byteAt bs 17 != 0, 17),
   (!usesCount && fieldAt bs 28 4 != 0, 28), (!usesTime && fieldAt bs 32 8 != 0, 32)] ++
  resv bs 18 2 ++
  (if op = 0x70 then misaligned bs 20 6 64 else if op = 0x71 then resv bs 20 6
   else if op = 0x74 then misaligned bs 20 6 64 else if op = 0x75 then misaligned bs 20 6 16
   else misaligned bs 20 6 32) ++
  resv bs 26 2 ++ resv bs 46 18 ++ digestBad bs

/-- The layout of R282. -/
def imageBad (bs : List Byte) : List (Bool × Nat) :=
  misaligned bs 16 6 16 ++
  chk [(fieldAt bs 22 2 == 0 || fieldAt bs 22 2 > 4096, 22), (byteAt bs 24 > 15 && byteAt bs 24 != 0xFF, 24),
   (byteAt bs 25 > 1, 25)] ++ resv bs 26 2 ++ misaligned bs 40 8 0x1000 ++ resv bs 56 8

/-- OWNER, FIRST and COUNT of MEM_GRANT and MEM_RELEASE (R285). -/
def granuleBad (bs : List Byte) : List (Bool × Nat) :=
  let first := fieldAt bs 20 2
  let count := fieldAt bs 22 2
  chk [(byteAt bs 16 > 15 && byteAt bs 16 != 0x11, 16),
   (!(first < 144 || (0x8000 ≤ first && first < 0x8000 + 360)), 20),
   (count == 0 || count > 64 || (first < 144 && first + count > 144) || (first ≥ 0x8000 && first + count > 0x8000 + 360),
    22)] ++ resv bs 24 40

/-- The bytes of a firmware slot, by target (R492). -/
def fwSlotSize (target : Nat) : Nat := if target = 0 then 0x100000 else if target = 1 then 0x1000000 else 0x6700000

/-- The opcode-specific fields of a descriptor (check 3 of R257). OPARGS bytes to which the opcode's rule gives no field are taken as
reserved: bytes 49 to 51 and 56 to 63 of NORM, 48 to 51 and 56 to 63 of SOFTMAX, and 48 to 63 of DIGEST without COMPARE (DESIGN CHOICE,
notes/assumptions/77.md). -/
def opFieldsBad (bs : List Byte) : List (Bool × Nat) :=
  match byteAt bs 0 with
  | 0x00 => resv bs 16 48
  | 0x01 => resv bs 24 40
  | 0x02 => chk [(bitsOf (byteAt bs 16) 7 1 != 0, 16)] ++ resv bs 17 47
  | 0x03 => chk [(byteAt bs 17 > 2, 17)] ++ resv bs 18 6 ++ resv bs 32 32
  | 0x04 => chk [(byteAt bs 17 > 1, 17)] ++ resv bs 18 6 ++ resv bs 40 24
  | 0x05 => chk [(byteAt bs 16 > 1, 16)] ++ resv bs 17 7 ++ resv bs 32 32
  | 0x06 =>
    let cyclic := byteAt bs 17 == 1
    let period := fieldAt bs 32 4
    chk [(byteAt bs 16 > 63, 16), (byteAt bs 17 > 1, 17),
     (if cyclic then fieldAt bs 24 8 % (period * 1000) != 0 else fieldAt bs 24 8 != 0, 24),
     (if cyclic then (period < 250 || period > 10000000) else period != 0, 32), (!cyclic && fieldAt bs 36 4 != 0, 36)] ++
    misaligned bs 18 6 64 ++ resv bs 40 24
  | 0x07 => chk [(byteAt bs 16 > 63, 16), (byteAt bs 17 > 1, 17)] ++ resv bs 18 46
  | 0x10 => tensorBad bs true false ++ resv bs 52 12
  | 0x11 =>
    let z := fun (v : Nat) => v == 0
    tensorBad bs true false ++
    chk [(z (fieldAt bs 48 2), 48), (z (fieldAt bs 50 2), 50), (z (byteAt bs 52) || byteAt bs 52 > 15, 52),
     (z (byteAt bs 53) || byteAt bs 53 > 15, 53), (z (bitsOf (byteAt bs 54) 3 0) || z (bitsOf (byteAt bs 54) 7 4), 54),
     (z (bitsOf (byteAt bs 55) 3 0) || z (bitsOf (byteAt bs 55) 7 4), 55), (z (fieldAt bs 60 2), 60)] ++ resv bs 62 2
  | 0x12 =>
    let op := byteAt bs 48
    tensorBad bs false false ++
    chk [(!(op ≤ 0x07 || (0x10 ≤ op && op ≤ 0x18) || op == 0x20 || op == 0x21), 48)] ++ resv bs 49 3 ++ resv bs 60 4
  | 0x13 => tensorBad bs false false ++ chk [(byteAt bs 48 > 5, 48), (byteAt bs 49 > 1, 49)] ++ resv bs 50 14
  | 0x14 => tensorBad bs false false ++ chk [(byteAt bs 48 > 1, 48)] ++ resv bs 49 3 ++ resv bs 56 8
  | 0x15 => tensorBad bs false false ++ resv bs 48 4 ++ resv bs 56 8
  | 0x16 => tensorBad bs false false ++ resv bs 48 16
  | 0x17 => tensorBad bs false false ++ resv bs 48 16
  | 0x18 => tensorBad bs false false ++ chk [(byteAt bs 48 > 1, 48)] ++ resv bs 49 15
  | 0x19 =>
    let b := byteAt bs 48
    let host := bitOf b 0 || bitOf b 1
    tensorBad bs false false ++
    chk [(bitsOf b 7 2 != 0 || (bitOf b 0 && bitOf b 1), 48), (host && byteAt bs 2 != 0xFF, 2)] ++ resv bs 49 7
  | 0x1A => tensorBad bs false false ++ resv bs 56 8
  | 0x1B => tensorBad bs false true ++ (if bitOf (byteAt bs 23) 4 then [] else resv bs 48 16)
  | 0x40 => attendBad bs
  | 0x41 => misaligned bs 16 6 32 ++ chk [(byteAt bs 22 != 4, 22), (bitsOf (byteAt bs 23) 7 2 != 0, 23), (byteAt bs 24 > 15, 24),
      (fieldAt bs 26 2 == 0 || fieldAt bs 26 2 > 1024, 26)] ++ resv bs 25 1 ++ resv bs 28 4 ++ resv bs 40 24
  | 0x42 => chk [(byteAt bs 16 > 15, 16), (byteAt bs 17 > 7, 17), (fieldAt bs 40 4 > 1048576, 40)] ++ resv bs 18 2 ++
      misaligned bs 32 6 4 ++ resv bs 38 2 ++ resv bs 48 16
  | 0x43 => chk [(byteAt bs 16 > 15, 16), (fieldAt bs 24 4 == 0 || fieldAt bs 24 4 > 604800, 24)] ++ resv bs 17 3 ++ resv bs 28 36
  | 0x44 => chk [(byteAt bs 16 > 15, 16), (byteAt bs 17 > 7, 17)] ++ resv bs 18 2 ++ resv bs 24 40
  | 0x45 => kvFreeBad bs
  | 0x46 => chk [(byteAt bs 16 > 15, 16), (byteAt bs 17 > 7 && byteAt bs 17 != 0xFF, 17)] ++ resv bs 18 2 ++ resv bs 32 32
  | 0x50 => misaligned bs 16 6 64 ++ resv bs 22 18 ++ resv bs 46 18 ++ digestBad bs
  | 0x51 | 0x52 =>
    let seed := if fieldAt bs 32 8 != 0 then chk [(true, 32)] else []
    tensorBad bs false false ++ chk [(bitsOf (byteAt bs 23) 4 0 != 0, 23)] ++ seed ++ resv bs 48 16
  | 0x53 => resv bs 22 2 ++ resv bs 28 36
  | 0x60 => collBad 0x60 bs
  | 0x61 => collBad 0x61 bs
  | 0x62 => collBad 0x62 bs
  | 0x63 => collBad 0x63 bs
  | 0x64 => collBad 0x64 bs
  | 0x6F => chk [(byteAt bs 16 > 15, 16)] ++ resv bs 17 3 ++ resv bs 26 38
  | 0x70 => mediaBad 0x70 bs
  | 0x71 => mediaBad 0x71 bs
  | 0x72 => mediaBad 0x72 bs
  | 0x73 => mediaBad 0x73 bs
  | 0x74 => mediaBad 0x74 bs
  | 0x75 => mediaBad 0x75 bs
  | 0x80 => imageBad bs
  | 0x81 => imageBad bs
  | 0x82 =>
    let ends := bitOf (byteAt bs 16) 0
    chk [(byteAt bs 16 > 1, 16), (ends && fieldAt bs 32 8 != 0, 32), (ends && fieldAt bs 40 16 != 0, 40)] ++ resv bs 17 11 ++
    resv bs 56 8
  | 0x90 => chk [(byteAt bs 16 > 15, 16)] ++ resv bs 17 1 ++ misaligned bs 20 6 64 ++ resv bs 26 38
  | 0x91 => chk [(byteAt bs 16 > 15, 16), (byteAt bs 17 == 0 || byteAt bs 17 > 5, 17)] ++ resv bs 18 46
  | 0x92 => chk [(byteAt bs 17 > 1 || (byteAt bs 17 == 1 && fieldAt bs 20 2 ≥ 0x8000), 17),
      (byteAt bs 17 == 1 && byteAt bs 18 > 15, 18)] ++ resv bs 19 1 ++ granuleBad bs
  | 0x93 => resv bs 17 3 ++ granuleBad bs
  | 0x94 => chk [(byteAt bs 16 > 15, 16), (byteAt bs 17 > 63, 17), (byteAt bs 18 > 1, 18), (fieldAt bs 24 8 == 0, 24)] ++
      resv bs 23 1 ++ resv bs 36 28
  | 0x95 => chk [(byteAt bs 16 > 15, 16), (byteAt bs 17 > 63, 17)] ++ resv bs 18 46
  | 0x96 => chk [(byteAt bs 16 > 63, 16), (byteAt bs 17 > 1, 17)] ++ resv bs 18 46
  | 0x97 => chk [(byteAt bs 16 > 15, 16), (byteAt bs 17 == 0 || byteAt bs 17 > 6, 17)] ++ resv bs 18 2 ++ resv bs 26 38
  | 0x98 => chk [(byteAt bs 16 > 2, 16), (fieldAt bs 32 4 < 512 || fieldAt bs 32 4 > fwSlotSize (byteAt bs 16), 32)] ++
      resv bs 17 7 ++ resv bs 36 28
  | 0x99 => chk [(byteAt bs 16 > 2, 16), (byteAt bs 17 > 1, 17)] ++ resv bs 18 46
  | _ => []

/-- Checks 2 and 3 of R257 on a descriptor's bytes. -/
def staticFail (inAct : Bool) (bs : List Byte) : Option Fail :=
  match opInfo (byteAt bs 0) with
  | none => some (.status stBadOpcode 0)
  | some info => (firstBad (headerBad inAct info bs ++ opFieldsBad bs)).map badAt

/-! ### Tensor records -/

/-- A tensor record (R269). -/
structure TRec where
  /-- VA -/
  va : Nat
  /-- FORMAT -/
  fmt : Nat
  /-- TRANS -/
  trans : Bool
  /-- SPARSE -/
  sparse : Bool
  /-- ROWS -/
  rows : Nat
  /-- COLS -/
  cols : Nat
  /-- ROW_PITCH -/
  pitch : Nat
  /-- BATCH -/
  batch : Nat
  /-- BATCH_PITCH -/
  bpitch : Nat
deriving DecidableEq, Repr

/-- The record in 32 bytes. -/
def TRec.ofBytes (bs : List Byte) : TRec :=
  { va := fieldAt bs 0 6, fmt := byteAt bs 6, trans := bitOf (byteAt bs 7) 2, sparse := bitOf (byteAt bs 7) 3,
    rows := fieldAt bs 8 4, cols := fieldAt bs 12 4, pitch := fieldAt bs 16 4, batch := fieldAt bs 20 4,
    bpitch := fieldAt bs 24 4 }

/-- Element bits of a format code (R70, R72, R73, R85, R270); 0 for no format. -/
def elemBits (fmt : Nat) : Nat :=
  match fmt with
  | 0x01 | 0x02 | 0x04 | 0x05 | 0x06 | 0x07 | 0x0B | 0x11 | 0x14 => 8
  | 0x03 | 0x0A | 0x12 => 4
  | 0x08 | 0x09 => 6
  | 0x0C | 0x0D | 0x15 => 16
  | 0x0E | 0x0F | 0x13 => 32
  | 0x10 => 192
  | _ => 0

/-- An MX format (R74). -/
def isMx (fmt : Nat) : Bool := 0x06 ≤ fmt && fmt ≤ 0x0B

/-- The value of an element of a format, before any scale (R71, R72). -/
def elemNum (fmt bits : Nat) : Num :=
  match fmt with
  | 0x01 => .ofInt (sext 8 bits)
  | 0x02 => .ofInt bits
  | 0x03 => .ofInt (sext 4 bits)
  | 0x04 | 0x06 => fmtE4M3.decode bits
  | 0x05 | 0x07 => fmtE5M2.decode bits
  | 0x08 => fmtE3M2.decode bits
  | 0x09 => fmtE2M3.decode bits
  | 0x0A => fmtE2M1.decode bits
  | 0x0B => .fin (decide (sext 8 bits < 0)) (sext 8 bits).natAbs (-6)
  | 0x0C => fmtBF16.decode bits
  | 0x0D => fmtFP16.decode bits
  | 0x0E => fmtFP32.decode bits
  | 0x0F => .ofInt (sext 32 bits)
  | 0x15 => .ofInt (sext 16 bits)
  | _ => .ofInt bits

/-- The value of an E8M0 scale byte (R72). -/
def scaleNum (x : Nat) : Num := if x = 0xFF then .nan else .fin false 1 ((x : Int) - 127)

namespace TRec

/-- Stored rows (R269). -/
def storedRows (r : TRec) : Nat :=
  match r.trans, r.sparse with
  | false, false => r.rows | true, _ => r.cols | false, true => r.rows / 2

/-- Elements of a stored row (R269). -/
def rowElems (r : TRec) : Nat :=
  match r.trans, r.sparse with
  | false, _ => r.cols | true, false => r.rows | true, true => r.rows / 2

/-- Bytes of a packed stored row (R73, R269). -/
def packed (r : TRec) : Nat := r.rowElems * elemBits r.fmt / 8

/-- The row pitch in use (R269). -/
def pitchInUse (r : TRec) : Nat := if r.pitch = 0 then r.packed else r.pitch

/-- The address of a stored row. -/
def rowVa (r : TRec) (b i : Nat) : Nat := r.va + b * (r.bpitch * 64) + i * r.pitchInUse

/-- Stored rows over all batches, in stored order, as (batch, row). -/
def rowList (r : TRec) : List (Nat × Nat) :=
  (List.range r.batch).flatMap (fun b => (List.range r.storedRows).map (fun i => (b, i)))

end TRec

/-- The checks of R269 and R270 on a present record, as offsets from its start. -/
def recBad (bs : List Byte) : List (Bool × Nat) :=
  let r := TRec.ofBytes bs
  let w := elemBits r.fmt
  let whole := r.rowElems * w % 8 == 0 && (w != 6 || r.rowElems % 4 == 0)
  misaligned bs 0 6 16 ++
  chk [(w == 0, 6), (bitsOf (byteAt bs 7) 1 0 == 3 || bitsOf (byteAt bs 7) 7 4 != 0, 7),
   (r.rows == 0 || r.rows > 2 ^ 24 || (r.sparse && r.rows % 4 != 0) || (r.trans && !whole), 8),
   (r.cols == 0 || r.cols > 2 ^ 24 || (!r.trans && !whole), 12),
   (r.pitch % 16 != 0 || (r.pitch != 0 && r.pitch < r.packed), 16), (r.batch == 0 || r.batch > 65536, 20),
   (r.batch > 1 && r.bpitch * 64 < r.storedRows * r.pitchInUse, 24)] ++ resv bs 28 4

/-- What a slot of a parameter block must hold. -/
structure SlotRule where
  /-- Present (some true), absent (some false), or either -/
  must : Option Bool
  /-- Format codes of the role -/
  fmts : List Nat := []
  /-- ROWS, where the role fixes it -/
  rows : Option Nat := none
  /-- COLS, where the role fixes it -/
  cols : Option Nat := none
  /-- The values BATCH may have, where the role fixes them -/
  batch : Option (List Nat) := none
  /-- SPARSE is allowed -/
  sparse : Bool := false

/-- The record of slot `i` of a parameter block; slots past NREC are absent. -/
def slotBytes (block : List Byte) (i : Nat) : List Byte := sliceOf block (32 * i) 32

/-- Slot `i` is present. -/
def slotHere (block : List Byte) (i : Nat) : Bool := byteAt (slotBytes block i) 6 != 0

/-- The record of slot `i`. -/
def slotRec (block : List Byte) (i : Nat) : TRec := TRec.ofBytes (slotBytes block i)

/-- The offending bytes of slot `i` under its rule, as offsets in the block. -/
def slotBad (block : List Byte) (i : Nat) (q : SlotRule) : List (Bool × Nat) :=
  let bs := slotBytes block i
  let r := TRec.ofBytes bs
  let here := slotHere block i
  let ne := fun (o : Option Nat) (v : Nat) => match o with | some x => x != v | none => false
  let offs :=
    if here then
      recBad bs ++ chk [(q.must == some false || !q.fmts.contains r.fmt, 6), (r.sparse && !q.sparse, 7), (ne q.rows r.rows, 8),
        (ne q.cols r.cols, 12), (match q.batch with | some l => !l.contains r.batch | none => false, 20)]
    else chk [(q.must == some true, 6)] ++ resv bs 0 32
  offs.map (fun x => (x.1, 32 * i + x.2))

/-- Check a parameter block against its slots' rules; slots without a rule must be absent. -/
def blockBad (block : List Byte) (rules : List SlotRule) : List (Bool × Nat) :=
  (List.range (Nat.max rules.length (block.length / 32))).flatMap (fun i =>
    slotBad block i (rules.getD i { must := some false }))

/-- A present slot with given formats. -/
def need (fmts : List Nat) : SlotRule := { must := some true, fmts := fmts }

/-- A slot that is present exactly when a condition holds. -/
def needIf (c : Bool) (fmts : List Nat) : SlotRule := { must := some c, fmts := fmts }

/-- An optional slot. -/
def may (fmts : List Nat) : SlotRule := { must := none, fmts := fmts }

/-- A slot that must be absent. -/
def absent : SlotRule := { must := some false }

namespace SlotRule

/-- With ROWS and COLS fixed. -/
def shape (q : SlotRule) (rows cols : Nat) : SlotRule := { q with rows := some rows, cols := some cols }

/-- With the values of BATCH. -/
def batches (q : SlotRule) (l : List Nat) : SlotRule := { q with batch := some l }

end SlotRule

/-! ### Tensors -/

/-- A tensor read whole: its record and its packed stored rows, batch by batch. -/
structure Tensor where
  /-- The record -/
  shape : TRec
  /-- The packed stored rows in stored order -/
  rows : List (List Byte)
deriving DecidableEq, Repr

/-- The `i`th element of width `w` bits of a packed stored row (R73). -/
def rowElem (row : List Byte) (w i : Nat) : Nat :=
  (fieldAt row (i * w / 8) (w / 8 + 2) >>> (i * w % 8)) % 2 ^ w

/-- Elements of width `w` bits packed into bytes (R73). -/
def packElems (w : Nat) (es : List Nat) : List Byte :=
  toLe (es.length * w / 8) (es.zipIdx.foldl (fun a x => a + x.1 % 2 ^ w * 2 ^ (x.2 * w)) 0)

namespace Tensor

/-- The stored element at stored row `i` of batch `b`. -/
def stored (t : Tensor) (b i j : Nat) : Nat :=
  rowElem (t.rows.getD (b * t.shape.storedRows + i) []) (elemBits t.shape.fmt) j

/-- The encoding of element (r, c) of batch `b` of a dense tensor. -/
def elem (t : Tensor) (b r c : Nat) : Nat := if t.shape.trans then t.stored b c r else t.stored b r c

/-- The stored value `k` (along the compressed inner dimension) of column `c` of a sparse tensor (R76). -/
def kept (t : Tensor) (b k c : Nat) : Nat := if t.shape.trans then t.stored b c k else t.stored b k c

/-- The value of element (r, c) of batch `b`, before any scale. -/
def num (t : Tensor) (b r c : Nat) : Num := elemNum t.shape.fmt (t.elem b r c)

/-- The element widened to FP32; only for formats that FP32 holds, else one rounding (R100). -/
def f32 (t : Tensor) (b r c : Nat) : F32 := (t.num b r c).f32

/-- The bytes of the tensor as a digest region (R279). -/
def bytes (t : Tensor) : List Byte := t.rows.flatMap id

end Tensor

/-- The rows of a tensor given element by element: `f b r c` is the encoding at (r, c) of batch `b`. -/
def TRec.build (r : TRec) (f : Nat → Nat → Nat → Nat) : Tensor :=
  { shape := r,
    rows := r.rowList.map (fun x => packElems (elemBits r.fmt) ((List.range r.rowElems).map (fun j =>
      if r.trans then f x.1 j x.2 else f x.1 x.2 j))) }

/-- Read each of a list of ranges in order. -/
def State.readAll (s : State) (p : Nat) (src : Option Nat) (slot len : Nat) : List Nat → Except Fail (List (List Byte))
  | [] => .ok []
  | va :: vas => do
    let x ← s.readVa p src slot va len
    let xs ← s.readAll p src slot len vas
    .ok (x :: xs)

/-- Read a tensor whole. -/
def State.readTensor (s : State) (p : Nat) (src : Option Nat) (slot : Nat) (r : TRec) : Except Fail Tensor := do
  let rows ← s.readAll p src slot r.packed (r.rowList.map (fun x => r.rowVa x.1 x.2))
  .ok { shape := r, rows := rows }

/-- Write packed stored rows at their addresses. -/
def State.writeRows (s : State) (p : Nat) (src : Option Nat) (slot : Nat) : List (Nat × List Byte) → Except Fail State
  | [] => .ok s
  | x :: xs => do
    let t ← s.writeVa p src slot x.1 x.2
    t.writeRows p src slot xs

/-- Write a tensor whole. -/
def State.writeTensor (s : State) (p : Nat) (src : Option Nat) (slot : Nat) (t : Tensor) : Except Fail State :=
  s.writeRows p src slot ((t.shape.rowList.map (fun x => t.shape.rowVa x.1 x.2)).zip t.rows)

/-- Every stored row of a record as a range of virtual addresses. -/
def TRec.ranges (r : TRec) : List (Nat × Nat) := r.rowList.map (fun x => (r.rowVa x.1 x.2, r.packed))

end Sys2Proof.Machine
end

