-- ==== Sys2Proof/Machine/Outputs.lean ====
section
/-! DEFINITION. The bytes of device memory that a command writes, which hold undefined values when it ends early or
fails (R253, R287). -/

namespace Sys2Proof.Machine

/-- The output record slots of an opcode, in the order of its output fields (R271 to R280, R319). -/
def outSlots (op : Nat) : List Nat :=
  match op with
  | 0x10 | 0x11 => [2, 11]
  | 0x12 => [3]
  | 0x13 => [1, 2]
  | 0x14 => [3, 5]
  | 0x15 => [1, 2]
  | 0x16 => [1, 2]
  | 0x17 | 0x18 => [2]
  | 0x19 => [1]
  | 0x1A => [0]
  | 0x40 => [1, 2, 9]
  | 0x51 => [3]
  | 0x52 => [5]
  | 0x60 | 0x61 | 0x62 | 0x63 | 0x64 => [1, 2]
  | _ => []

/-- The opcode has the parameter block of R267. -/
def hasBlock (op : Nat) : Bool := (outSlots op).isEmpty == false || op == 0x1B

/-- The parameter block of a descriptor that has one, zeros where it cannot be read. -/
def State.blockOf (s : State) (p : Nat) (d : Desc) : List Byte :=
  if hasBlock d.op then s.peekVa p (d.fld 16 6) (32 * d.fld 22 1) else []

/-! ### Blocks that name where SCALE and RESTORE write (R283, R433) -/

/-- A scale block (R433). -/
structure ScaleBlock where
  /-- The bytes -/
  b : List Byte

namespace ScaleBlock

/-- A field -/
def fld (k : ScaleBlock) (off len : Nat) : Nat := fieldAt k.b off len
/-- CHANNELS as a count -/
def chans (k : ScaleBlock) : Nat := if k.fld 18 1 = 2 then 1 else 3
/-- The output tensor -/
def tensor (k : ScaleBlock) : TRec :=
  let planar := bitOf (k.fld 19 1) 0
  { va := k.fld 44 6, fmt := k.fld 50 1, trans := false, sparse := false,
    rows := if planar then k.chans * k.fld 14 2 else k.fld 14 2, cols := if planar then k.fld 12 2 else k.fld 12 2 * k.chans,
    pitch := k.fld 52 4, batch := 1, bpitch := 0 }

end ScaleBlock

/-- A region of a checkpoint: its list entry, VA and length in bytes. -/
structure CkRegion where
  /-- The 16 bytes of the entry -/
  entry : List Byte
deriving DecidableEq, Repr

namespace CkRegion

/-- VA -/
def va (r : CkRegion) : Nat := fieldAt r.entry 0 6
/-- LEN × 4 KiB -/
def len (r : CkRegion) : Nat := fieldAt r.entry 8 4 * 0x1000

end CkRegion

/-- The regions of a list. -/
def ckRegions (l : List Byte) (n : Nat) : List CkRegion := (List.range n).map (fun i => ⟨sliceOf l (16 * i) 16⟩)

/-- The ranges of virtual addresses that a descriptor's execution writes, but for its digest: a command that fails writes none
(R60). -/
def State.outRanges (s : State) (p : Nat) (d : Desc) : List (Nat × Nat) :=
  let block := s.blockOf p d
  let tensors := (outSlots d.op).filter (slotHere block)
  let inHost := d.op == 0x19 && bitOf (d.fld 48 1) 1
  (if inHost then [] else tensors.flatMap (fun i => (slotRec block i).ranges)) ++
    (if d.op == 0x50 then
       let plan := s.peekVa p (d.fld 16 6) 64
       [(fieldAt plan 46 6, 64 * fieldAt plan 4 2)]
     else if d.op == 0x74 then (ScaleBlock.mk (s.peekVa p (d.fld 16 6) 64)).tensor.ranges
     else if d.op == 0x81 then
       (ckRegions (s.peekVa p (d.fld 16 6) (16 * d.fld 22 2)) (d.fld 22 2)).map (fun r => (r.va, r.len))
     else [])

/-- The ranges that a descriptor's execution writes, its digest's with them (R35). -/
def State.writeRanges (s : State) (p : Nat) (d : Desc) : List (Nat × Nat) :=
  s.outRanges p d ++ (if d.digest || d.op == 0x1B then [(d.digestVa, 16)] else [])

/-- The ranges of its own inputs that a tensor command must not write; ELTWISE may write over the record of slot 0 (R35, R273,
R278). -/
def State.inRanges (s : State) (p : Nat) (d : Desc) : List (Nat × Nat) :=
  if (outSlots d.op).isEmpty || (d.op == 0x19 && d.fld 48 1 % 4 != 0) then [] else
    let block := s.blockOf p d
    ((List.range (d.fld 22 1)).filter (fun i => !(outSlots d.op).contains i && slotHere block i &&
      !(d.op == 0x12 && i == 0 && slotBytes block 0 == slotBytes block 3))).flatMap (fun i => (slotRec block i).ranges)

/-- The ranges of bus addresses that a descriptor's execution writes in host memory (R278, R283). -/
def State.hostRanges (s : State) (p : Nat) (d : Desc) : List (Nat × Nat) :=
  if d.op == 0x19 && bitOf (d.fld 48 1) 1 then
    let r := slotRec (s.blockOf p d) 1
    r.ranges.map (fun x => (d.fld 56 8 + (x.1 - r.va), x.2))
  else if d.op == 0x80 then [(d.fld 40 8, d.fld 48 8)] else []

end Sys2Proof.Machine
end

