-- ==== Sys2Proof/Machine/LinkTx.lean ====
section
/-! DEFINITION. The frames of the module links and the sending side of a link port (R371 to R373, R377). -/

namespace Sys2Proof.Machine

/-- A link frame (R371). -/
structure Frame where
  /-- TYPE: 1 DATA, 2 NAK, 3 HELLO, 4 IDLE -/
  typ : Nat
  /-- VC -/
  vc : Nat := 0
  /-- START -/
  start : Bool := false
  /-- END -/
  fin : Bool := false
  /-- SEQ -/
  seq : Nat := 0
  /-- ACK -/
  ack : Nat
  /-- CVC -/
  cvc : Nat
  /-- CCOUNT -/
  ccount : Nat
  /-- The LEN valid bytes of the payload -/
  payload : List Byte := []
deriving DecidableEq, Repr

/-- The 528 bytes of a frame (R371). -/
def Frame.bytes (f : Frame) : List Byte :=
  let head := toLe 1 (f.typ + 16 * (f.vc % 4) + 64 * b2n f.start + 128 * b2n f.fin) ++ zeros 1 ++ toLe 2 f.seq ++ toLe 2 f.ack ++
    toLe 1 (f.cvc % 4) ++ toLe 1 f.ccount ++ toLe 2 f.payload.length ++ zeros 2 ++
    (f.payload ++ zeros (512 - f.payload.length)).take 512
  head ++ crc32.bytes head

/-- LEN is one that the frame's TYPE allows (R371). -/
def lenOk (typ len : Nat) : Bool :=
  match typ with
  | 1 => 1 ≤ len && len ≤ 512
  | 3 => len == 64
  | _ => len == 0

/-- The frame that 528 received bytes spell; none when R371 discards them. -/
def Frame.ofBytes (b : List Byte) : Option Frame :=
  let typ := bitsOf (byteAt b 0) 3 0
  let len := fieldAt b 8 2
  let data := typ == 1
  let good := b.length == 528 && crc32.bytes (b.take 524) == b.drop 524 && (1 ≤ typ && typ ≤ 4) &&
    (if data then bitsOf (byteAt b 0) 5 4 != 3 else bitsOf (byteAt b 0) 7 4 == 0) && byteAt b 1 == 0 &&
    (typ ≤ 2 || fieldAt b 2 2 == 0) && bitsOf (byteAt b 6) 7 2 == 0 && bitsOf (byteAt b 6) 1 0 != 3 && fieldAt b 10 2 == 0 &&
    lenOk typ len
  if good then
    some { typ := typ, vc := bitsOf (byteAt b 0) 5 4, start := bitOf (byteAt b 0) 6, fin := bitOf (byteAt b 0) 7,
           seq := fieldAt b 2 2, ack := fieldAt b 4 2, cvc := bitsOf (byteAt b 6) 1 0, ccount := byteAt b 7,
           payload := sliceOf b 12 len }
  else none

/-- One of the three credit counts. -/
def credit (c : Nat × Nat × Nat) (vc : Nat) : Nat :=
  match vc with | 0 => c.1 | 1 => c.2.1 | _ => c.2.2

/-- Change one of the three credit counts. -/
def onCredit (c : Nat × Nat × Nat) (vc : Nat) (f : Nat → Nat) : Nat × Nat × Nat :=
  match vc with | 0 => (f c.1, c.2.1, c.2.2) | 1 => (c.1, f c.2.1, c.2.2) | _ => (c.1, c.2.1, f c.2.2)

namespace LinkPort

/-- The channel whose credits the next frame returns: the lowest with credits owed (R371). -/
def owedVc (p : LinkPort) : Nat := if p.owed.1 > 0 then 0 else if p.owed.2.1 > 0 then 1 else if p.owed.2.2 > 0 then 2 else 0

/-- Give a frame to the lanes, with the ACK and credits that every frame carries (R371, R372). -/
def emit (p : LinkPort) (f : Frame) : LinkPort :=
  let vc := p.owedVc
  let n := Nat.min (credit p.owed vc) 255
  { p with outgoing := p.outgoing ++ [{ f with ack := p.rxNext, cvc := vc, ccount := n }.bytes],
           owed := onCredit p.owed vc (fun x => x - n) }

/-- A control frame of a TYPE. -/
def control (p : LinkPort) (typ seq : Nat) (payload : List Byte) : LinkPort :=
  p.emit { typ := typ, seq := seq, ack := 0, cvc := 0, ccount := 0, payload := payload }

/-- Give a numbered DATA frame to the lanes. -/
def emitData (p : LinkPort) (d : DataFrame) : LinkPort :=
  p.emit { typ := 1, vc := d.vc, start := d.start, fin := d.fin, seq := d.seq, ack := 0, cvc := 0, ccount := 0,
           payload := d.payload }

/-- Send one waiting DATA frame at module time `now`: it is numbered, kept, and takes a credit (R372, R373). -/
def sendOne (p : LinkPort) (now : Nat) (d : DataFrame) : LinkPort :=
  let d := { d with seq := p.txNext }
  let q := p.emitData d
  { q with txNext := (p.txNext + 1) % 65536, kept := p.kept ++ [d], credits := onCredit p.credits d.vc (fun x => x - 1),
           ackAt := if p.kept.isEmpty then now else p.ackAt }

/-- A waiting frame may be sent: the port is UP, a credit of its channel is held, and the replay buffer has room. -/
def maySend (p : LinkPort) (vc : Nat) : Bool := p.st == .up && credit p.credits vc > 0 && p.kept.length < 1024

/-- Send every waiting DATA frame that may be sent, keeping the order within each channel. -/
def pump (p : LinkPort) (now : Nat) : LinkPort :=
  p.txWait.foldl (fun (q : LinkPort) d =>
    if q.maySend d.vc && !q.txWait.any (fun e => e.vc == d.vc) then q.sendOne now d
    else { q with txWait := q.txWait ++ [d] }) { p with txWait := [] }

/-- A message as DATA frames of at most 512 bytes (R371). -/
def framesOf (vc : Nat) (msg : List Byte) : List DataFrame :=
  let n := Nat.max 1 (cdiv msg.length 512)
  (List.range n).map (fun i =>
    { seq := 0, vc := vc, start := i == 0, fin := i + 1 == n, payload := sliceOf msg (512 * i) 512 })

/-- Queue a message on a channel and send what may be sent. -/
def send (p : LinkPort) (now vc : Nat) (msg : List Byte) : LinkPort :=
  { p with txWait := p.txWait ++ framesOf vc msg }.pump now

/-- Send the kept frames from a SEQ on again (R372). -/
def replay (p : LinkPort) (now seq : Nat) : LinkPort :=
  let from_ := (seq + 65536 - (match p.kept with | d :: _ => d.seq | [] => seq)) % 65536
  let q := (p.kept.drop from_).foldl emitData p
  { q with replays := satTo 16 (p.replays + 1), replayAt := now :: p.replayAt, stuck := p.stuck + 1, ackAt := now }

end LinkPort

/-- The active microcode release (R61, R494). -/
def State.activeRelease (s : State) : Nat :=
  let t := s.boot.fw.getD 2 {}
  (if t.activeB then t.b else t.a).version % 2 ^ 24

/-- The HELLO payload of link port n (R377). -/
def State.helloPayload (s : State) (n : Nat) : List Byte :=
  let p := s.lp n
  let w := match p.width with | 0 => 2 | k => k - 1
  toLe 8 Config.serial.toNat ++ toLe 1 n ++
    toLe 1 (w + 4 * b2n p.rate106 + 8 * b2n (s.links.pairEn && s.links.pairPort == n)) ++ toLe 2 p.rxNext ++
    toLe 3 s.activeRelease ++ toLe 1 (s.boot.dynAddr.getD 0) ++ toLe 8 s.now ++ zeros 40

/-- Send a HELLO on link port n. -/
def State.sendHello (s : State) (n : Nat) : State := s.onLp n (fun p => p.control 3 0 (s.helloPayload n))

/-- Send a message on a channel of link port n, while the port is not OFF or FAILED. -/
def State.linkSend (s : State) (n vc : Nat) (msg : List Byte) : State :=
  s.onLp n (fun p => if p.st == .up || p.st == .retraining then p.send s.now vc msg else p)

/-! ### Aborts of collectives (R387) -/

/-- The link message COLL_ABORT: GROUP_ID, then SEQ. -/
def abortMsg (gid seq : Nat) : List Byte := toLe 8 gid ++ toLe 4 seq

/-- The link ports of a group. -/
def Group.ports (g : Group) : List Nat := ((g.up.toList) ++ g.down.toList).eraseDups

/-- An opcode of a collective (R258). -/
def isColl (op : Nat) : Bool := 0x60 ≤ op && op ≤ 0x64

/-- Group g of Pp. -/
def State.group? (s : State) (p g : Nat) : Option Group := (s.part p).groups.getD g none

/-- A collective of a group that completes with any STATUS but OK and OK_FLAGGED sends COLL_ABORT to both neighbours on
VC2 (R387). -/
def State.sendAbort (s : State) (p : Nat) (d : Desc) : State :=
  match s.group? p (d.fld 24 1) with
  | some g => g.ports.foldl (fun t n => t.linkSend n 2 (abortMsg g.gid (d.fld 28 4))) s
  | none => s

end Sys2Proof.Machine
end

