-- ==== Sys2Proof/Machine/Score.lean ====
section
/-! DEFINITION. The tiles of an engine, the health scores of units and engines (R518), and the condition of self-expulsion
(R566, R567, R569). -/

namespace Sys2Proof.Machine

/-- A tile still serves the engine that its configuration named it for: no fence has taken it, and none waits (R62, R63,
R514). -/
def State.serves (s : State) (e : Engine) (t : Nat) : Bool :=
  (s.tile t).st != .fenced && (s.tile t).engine == some e.idx && (s.tile t).fencePending.isNone

/-- The tiles of an engine that serve it, ascending; the first leads (R62). -/
def State.liveTiles (s : State) (e : Engine) : List Nat := e.tiles.filter (s.serves e)

/-- 24 h of module time. -/
def dayNs : Nat := 86400000000000

/-- How many of some module times lie within a window before now. -/
def within (now window : Nat) (l : List Nat) : Nat := (l.filter (fun t => t + window > now)).length

/-- Kind and number of the unit with an index in HLT.UNIT (R523). -/
def unitAt (i : Nat) : Nat × Nat :=
  if i < 64 then (0, i) else if i < 72 then (1, i - 64) else if i < 80 then (2, i - 72) else if i < 82 then (3, i - 80)
  else if i < 98 then (4, i - 82) else (5, i - 98)

/-- Corrected and uncorrectable errors of a unit over the last 24 h (R518). -/
def State.unitErrs (s : State) (kind unit : Nat) : Nat × Nat :=
  match kind with
  | 2 => (within s.now dayNs (s.lp unit).replayAt / 64, 0)
  | 3 => (within s.now dayNs (s.field.ports.getD unit {}).badAt / 64, 0)
  | _ => ((s.unit kind unit).errs.filter (fun x => x.1 + dayNs > s.now)).foldl
      (fun (a : Nat × Nat) x => (a.1 + x.2.1, a.2 + x.2.2)) (0, 0)

/-- The thermal cycles of tile t over the last 24 h (THM.TILE_CYC.LAST_24H, R173). -/
def State.cycles24 (s : State) (t : Nat) : Nat := (s.thermal.tiles.getD t {}).cycHours.foldl (fun a n => a + n) 0

/-- What a tile loses for its thermal cycles and for want of a striker round (R518). -/
def State.tileLoss (s : State) (t : Nat) : Nat :=
  (if 2 * s.cycles24 t ≥ s.thermal.cycBudget then 100 else 0) + (if s.cycles24 t ≥ s.thermal.cycBudget then 100 else 0) +
    (if (s.unit 0 t).overdue then 50 else 0)

/-- The score of a reset unit (R518). -/
def State.unitScore (s : State) (kind unit : Nat) : Nat :=
  let u := s.unit kind unit
  let e := s.unitErrs kind unit
  if u.fenced then 0
  else 1000 - (150 * within s.now dayNs u.resets + 100 * within s.now dayNs u.fails + Nat.min 200 (5 * e.1) +
    Nat.min 300 (50 * e.2) + (if kind = 0 then s.tileLoss unit else 0))

/-- An engine of Pp is degraded (R513, HLT.DEGRADED). -/
def State.degraded (s : State) (p : Nat) (e : Engine) : Bool := (s.part p).hlt.degraded.getLsbD e.idx

/-- The tiles of an engine that a fence has taken. -/
def State.lostTiles (s : State) (e : Engine) : Nat := (e.tiles.filter (fun t => (s.tile t).engine != some e.idx)).length

/-- The score of an engine (R518). -/
def State.engineScore (s : State) (p : Nat) (e : Engine) : Nat :=
  let own := e.tiles.filter (fun t => (s.tile t).engine == some e.idx && (s.tile t).st != .fenced)
  if own.isEmpty then 0
  else
    let low := own.foldl (fun a t => Nat.min a (s.unit 0 t).score) 1000 - 100 * s.lostTiles e
    if s.degraded p e then Nat.min low 300 else low

/-- The lower of two scored units, the first on a tie: (kind, unit, score). -/
def lower (a b : Nat × Nat × Nat) : Nat × Nat × Nat := if b.2.2 < a.2.2 then b else a

/-- The lowest score over engines, tiles in no engine and hub units, as HLT.SCORE_MIN holds it: kind 7 for an engine, then
its lead tile (R518, R523). -/
def State.lowest (s : State) : Nat × Nat × Nat :=
  let engines := (List.range 16).flatMap (fun p => (s.part p).engines.map (fun e =>
    (7, (s.liveTiles e).headD 0, s.engineScore p e)))
  let tiles := ((List.range 64).filter (fun t => (s.tile t).engine.isNone)).map (fun t => (0, t, (s.unit 0 t).score))
  let hubs := ((List.range 42).map (fun i => unitAt (64 + i))).map (fun u => (u.1, u.2, (s.unit u.1 u.2).score))
  match engines ++ tiles ++ hubs with
  | [] => s.health.scoreMin
  | x :: xs => xs.foldl lower x

/-- Recompute every score (R518). -/
def State.rescore (s : State) : State :=
  let s := { s with health := { s.health with units := s.health.units.zipIdx.map (fun (u : Unit × Nat) =>
    { u.1 with score := s.unitScore (unitAt u.2).1 (unitAt u.2).2 }) } }
  let s := { s with health := { s.health with scoreMin := s.lowest } }
  { s with parts := s.parts.zipIdx.map (fun (x : Part × Nat) => { x.1 with hlt := { x.1.hlt with
      score := x.1.engines.foldl (fun a e => Nat.min a (s.engineScore x.2 e)) 1000 } }) }

/-- A memory port or bulk channel is unavailable (R603). -/
def State.portGone (s : State) : Bool := s.mem.ports.any (fun p => !p.avail) || s.mem.bchans.any (fun p => !p.avail)

/-- The first condition of R566 that holds, in the order of HLT.EXPEL.CAUSE (R569). -/
def State.expelWhy (s : State) : Option Nat :=
  if s.parts.any (fun p => p.hlt.degraded != 0) then some 2
  else if s.portGone then some 3
  else if s.parts.any (fun p => p.sec.st == .faulted) then some 4
  else if s.boot.st = .safe then some 5
  else if !s.boot.spareEmpty && s.health.scoreMin.2.2 < s.health.expelThresh then some 1
  else none

end Sys2Proof.Machine
end

