-- ==== Sys2Proof/Machine/Ops.lean ====
section
/-! DEFINITION. The shared operations: host-memory writes, events and the health log, ring errors, completion records,
and the start and the checks of a descriptor. -/

namespace Sys2Proof.Machine

/-! ### Host memory (R213 to R216, R459, R460) -/

/-- A posted write to host memory; discarded while the link is down (R216). -/
def State.hostWrite (s : State) (addr : Nat) (bs : List Byte) : State :=
  if s.host.up then { s with hostMem := s.hostMem.write addr bs } else s

/-- Function p exists, so that Pp has a tenant interface: the physical function, or a virtual function up to NumVFs (R218). -/
def State.hasFn (s : State) (p : Nat) : Bool := p == 0 || (decide (p < 16) && decide (p ≤ s.host.numVfs))

/-- A posted write for Pp, with the requester ID of its function (R218). -/
def State.hostWriteAs (s : State) (p addr : Nat) (bs : List Byte) : State := if s.hasFn p then s.hostWrite addr bs else s

/-- What a read of host memory gives: every read fails as an Unsupported Request while the link is down (R216). -/
def State.hostGives (s : State) (h : HostRead) : HostRead := if s.host.up then h else .refused

/-- The read of host memory failed (R215). -/
def readFails : HostRead → Bool
  | .data _ | .sealed _ => false
  | .refused | .poisoned | .timedOut => true

/-- A failed read of host memory for Pp is counted (R215). -/
def State.countRdErr (s : State) (p : Nat) : State :=
  { s.onHost p (fun x => { x with rdErr := satTo 16 (x.rdErr + 1) }) with
    host := { s.host with rdErr := satTo 16 (s.host.rdErr + 1) } }

/-- The partition's host structures are sealed: SEC_MODE 2 while it is frozen (R459, R460). -/
def State.isSealed (s : State) (p : Nat) : Bool := (s.part p).sec.secMode == 2 && (s.part p).sec.frozen

/-- The additional data of a seal (R460). -/
def sealAad (kind num unit : Nat) (clear : List Byte) : List Byte := toLe 1 kind ++ toLe 1 num ++ toLe 4 unit ++ clear

/-- Write one unit of a structure to host memory: as it is, or sealed with its seal before it (R460). `kind` is the
structure's row in R460, `num` its ring, channel or region number, `clear` the byte left in clear. -/
def State.putUnit (s : State) (p kind num unit : Nat) (clear : Option Nat) (addr sealAt : Nat) (bs : List Byte) : State :=
  if s.isSealed p then
    let sec := (s.part p).sec
    let key := sec.sealKey
    let seq := sec.sealSeq
    let cipher := bs.zipIdx.map (fun b => if clear == some b.2 then b.1 else b.1 ^^^ Config.keyStream key seq b.2)
    let aad := sealAad kind num unit (match clear with | some i => [bs.getD i 0#8] | none => [])
    let tag := Config.gcmTag key seq aad cipher
    let sl := toLe 8 seq ++ toLe 16 tag.toNat ++ toLe 1 (b2n sec.sealGen) ++ zeros 7
    ((s.hostWriteAs p sealAt sl).hostWriteAs p addr cipher).onSec p (fun x => { x with sealSeq := x.sealSeq + 1 })
  else s.hostWriteAs p addr bs

/-- A sealed unit as the crypto engine opens it with the session's key for the request direction, the one that GEN names (R459, R460):
the plaintext, whether its tag verifies, and its SEQ. -/
def State.unseal (s : State) (p kind num unit : Nat) (u : List Byte × List Byte) : List Byte × Bool × Nat :=
  let sec := (s.part p).sec
  let seq := fieldAt u.2 0 8
  let key := if bitOf (byteAt u.2 24) 0 == sec.sealGen then sec.openKey else sec.openOld
  (u.1.zipIdx.map (fun b => b.1 ^^^ Config.keyStream key seq b.2),
    toLe 16 (Config.gcmTag key seq (sealAad kind num unit []) u.1).toNat == sliceOf u.2 8 16, seq)

/-- A length rounded up to 4 KiB. -/
def pageUp (n : Nat) : Nat := cdiv n 0x1000 * 0x1000

/-- Write a region of results to host memory in units of 4 KiB (R460, row 5). -/
def State.putRegion (s : State) (p num addr : Nat) (bs : List Byte) : State :=
  if s.isSealed p then
    (List.range (cdiv bs.length 0x1000)).foldl (fun t i =>
      t.putUnit p 5 num i none (addr + i * 0x1000) (addr + pageUp bs.length + 32 * i) (sliceOf bs (i * 0x1000) 0x1000)) s
  else s.hostWrite addr bs

/-! ### Events (R239 to R242) -/

/-- Slots of a ring of 2^n that are free: N - 1 less the records not yet consumed. -/
def ringFree (n slot accepted : Nat) : Nat := 2 ^ n - 1 - (slot + 2 ^ n - accepted) % 2 ^ n

/-- Take an event into the ring's queue, or discard and count it (R239). -/
def EvtRing.add (e : EvtRing) (x : Event) : EvtRing :=
  if e.st = .enabled ∧ e.queue.length < ringFree e.sizeLog2 e.slot e.accepted + 32 then { e with queue := e.queue ++ [x] }
  else { e with lost := satTo 16 (e.lost + 1), lostFlag := true }

/-- Raise an event on Pp's ring. -/
def State.raiseAt (s : State) (p code subject time : Nat) (data : List Byte) : State :=
  s.onEvt p (fun e => e.add { code := code, subject := subject, time := time, data := data })

/-- Raise an event on Pp's own ring. -/
def State.raise (s : State) (p code : Nat) (data : List Byte) : State := s.raiseAt p code p s.now data

/-- Raise an event about Pp on the physical function's ring. -/
def State.raisePf (s : State) (p code : Nat) (data : List Byte) : State := s.raiseAt 0 code p s.now data

/-- Raise an event on Pp's ring and on the physical function's, once where they are one. -/
def State.raiseBoth (s : State) (p code : Nat) (data : List Byte) : State :=
  if p = 0 then s.raise 0 code data else (s.raise p code data).raisePf p code data

/-- Raise an event on the physical function's ring and on those of the partitions in ADMITTED or RUNNING. -/
def State.raiseLive (s : State) (code : Nat) (data : List Byte) : State :=
  (0 :: s.livePartitions.filter (· ≠ 0)).foldl (fun t p => t.raise p code data) s

/-- An event about memory at `pa`: to the owner and to the physical function (R208). -/
def State.raiseMem (s : State) (code pa : Nat) : State :=
  if s.ownerOf pa < 16 then s.raiseBoth (s.ownerOf pa) code (toLe 5 pa) else s.raisePf 0 code (toLe 5 pa)

/-! ### The health log and the alert line (R480, R521) -/

/-- Set an alert cause of R480. -/
def State.alert (s : State) (bit : Nat) : State :=
  { s with boot := { s.boot with causes := s.boot.causes ||| BitVec.ofNat 5 (1 <<< bit) } }

/-- The 32 bytes of a health record (R521). -/
def HealthRec.bytes (r : HealthRec) : List Byte :=
  toLe 1 r.kind ++ toLe 1 r.unitKind ++ toLe 1 r.unit ++ toLe 1 r.part ++ toLe 4 r.detail ++ toLe 8 r.time ++ zeros 16

/-- Write a health record and send it as HEALTH_RECORD, whose DATA is bytes 0 to 15 of the record (R521, R522). -/
def State.appendHealth (s : State) (r : HealthRec) : State :=
  let log := s.health.log ++ [r]
  let s := { s with health := { s.health with log := if log.length > 16384 then log.drop 1 else log } }
  s.raisePf 0 0x59 (r.bytes.take 16)

/-- A health record of something that happens now. -/
def State.logHealth (s : State) (kind unitKind unit part detail : Nat) : State :=
  s.appendHealth { kind := kind, unitKind := unitKind, unit := unit, part := part, detail := detail, time := s.now }

/-- A health record whose DETAIL the manual leaves open. -/
def State.logOpen (s : State) (kind unitKind unit part : Nat) : State :=
  (s.logHealth kind unitKind unit part (s.freeNat % 2 ^ 32)).tick

/-! ### The module state (R490, R536) -/

/-- The code of a module state (CHN.STATE.STATE, R498). -/
def ModSt.code : ModSt → Nat
  | .off => 0 | .precharge => 1 | .guardBoot => 2 | .stewardBoot => 3 | .train => 4 | .selftest => 5 | .ready => 6
  | .degraded => 7 | .curtain => 8 | .safe => 9

/-- Every domain is in a state, or is told to take it. -/
def State.allDoms (s : State) (f : Domain → Bool) : Bool := s.power.doms.all f

/-- The module is in DEEP (R150). -/
def State.moduleDeep (s : State) : Bool := s.allDoms (fun d => d.st == .deep)

/-- The partition that holds a domain, unless it is UNCONFIGURED. -/
def State.domOwner (s : State) (k : Nat) : Option Nat :=
  (List.range 16).find? (fun p => (s.part p).sec.st != .unconfigured && (s.part p).sec.vdMask.getLsbD k)

/-- The domains of every partition are asked back to RUN. -/
def State.wantRun (s : State) : State :=
  (List.range 16).foldl (fun (t : State) k => if (s.domOwner k).isSome then t.onDom k (fun d => { d with wantSt := .run, clamp := 0 }) else t) s

/-- A nudge or a register write wakes the module from DEEP (R154): the steward asks for RUN, and the next resolution carries it out. -/
def State.wakeDeep (s : State) : State := if s.moduleDeep then s.wantRun else s

/-- The module state changes (R490): the STATE cause is set and MODULE_STATE is sent; as the module leaves PRECHARGE the
causes are what CHN.ALERT's reset value says, JOIN alone (R498). READY and DEGRADED end the boot
attempts (R495, R496), and the own line of a pair is deasserted in every state but READY, DEGRADED and CURTAIN (R536). -/
def State.setModule (s : State) (st : ModSt) : State :=
  if s.boot.st = st then s
  else
    let up := st == .ready || st == .degraded
    let b := s.boot
    let fw := if up then b.fw.map (fun t => { t with reached := true }) else b.fw
    let attempts := if up then 0 else b.attempts
    let cause := if st = ModSt.safe then b.safeCause else 0
    let early := b.st == .off || b.st == .precharge
    let causes := if !early then b.causes ||| 2 else if st = .guardBoot then 1 else 0
    let s := { s with boot := { b with st := st, attempts := attempts, safeCause := cause, fw := fw, causes := causes } }
    let s := { s with pair := { s.pair with own := s.pair.own && (up || st == ModSt.curtain) } }
    s.raise 0 0x80 (toLe 1 st.code ++ toLe 1 s.boot.safeCause)

/-- A tile is fenced, or a memory port or bulk channel is unavailable (R490). -/
def State.hurt (s : State) : Bool := s.fabric.tiles.any (fun t => t.st == .fenced) || s.portGone

/-- The state that the module takes on leaving CURTAIN or SAFE (R133, R171, R490). -/
def State.calm (s : State) : ModSt := if s.hurt then .degraded else .ready

/-- READY becomes DEGRADED (R490, R512). -/
def State.reviewDown (s : State) : State := if s.boot.st = .ready then s.setModule .degraded else s

/-- DEGRADED becomes READY once nothing is fenced or unavailable (R490). -/
def State.reviewUp (s : State) : State := if s.boot.st = .degraded && !s.hurt then s.setModule .ready else s

/-- The HEALTH cause is set, and HEALTH_LOW is sent (R519). -/
def State.healthLow (s : State) : State :=
  let m := s.health.scoreMin
  (s.alert 2).raise 0 0x58 (toLe 2 m.2.2 ++ toLe 1 m.1 ++ toLe 1 m.2.1)

/-- The module expels itself while a condition of R566 holds; CAUSE follows the conditions (R569). -/
def State.checkExpel (s : State) : State :=
  match s.boot.st with
  | .ready | .degraded | .curtain | .safe =>
    (match s.expelWhy with
     | some c =>
       if s.health.expelled then { s with health := { s.health with expelCause := c } }
       else ({ s with health := { s.health with expelled := true, expelCause := c } }).healthLow
     | none => s)
  | _ => s

/-- Recompute the scores (R518), raise HEALTH_LOW where the lowest falls below the threshold or a unit was fenced (`forced`,
R519), and see whether the module expels itself (R566). -/
def State.reviewHealth (s : State) (forced : Bool) : State :=
  let was := s.health.scoreMin.2.2
  let s := s.rescore
  let falls := was ≥ s.health.thresh && s.health.scoreMin.2.2 < s.health.thresh
  (if forced || falls then s.healthLow else s).checkExpel

/-! ### The counters and work items of a tile (R62, R63, R107 to R112, R118, R251) -/

/-- The guaranteed beats per ms at a regulator voltage in steps of 2.5 mV, in thousands: the table of R107, less the 1 % that it takes
off at 105 °C. -/
def floorRate (volt : Nat) : Nat :=
  if volt < 248 then 0 else if volt < 280 then 445500 else if volt < 320 then 673200 else if volt < 344 then 910800
  else if volt < 368 then 990000 else 1059300

/-- The counters of tile t are brought up to the present (R107, R111, R112): PACE runs in RUN and HOLD, in RUN no slower than its floor;
BEATS in RUN while the tile is ACTIVE, within 0.5 % of PACE; WORK for part of BEATS. How far they run is timing and free
(notes/assumptions/55.md). -/
def State.settleTile (s : State) (t : Nat) : State :=
  let x := s.tile t
  let dt := s.now - x.countedAt
  if dt = 0 then s
  else
    let d := s.dom (domOfTile t)
    let pace := if d.st == .run then dt * floorRate d.volt / 1000000 + s.freeNat else if d.st == .hold then s.freeNat else 0
    let beats := if d.st == .run && x.st == .active then pace - pace / 200 + s.tick.freeNat % (2 * (pace / 200) + 1) else 0
    let work := s.tick.tick.freeNat % (beats + 1)
    (s.tick.tick.tick).onTile t (fun y => { y with
      pace := y.pace + BitVec.ofNat 64 pace, beats := y.beats + BitVec.ofNat 64 beats, work := y.work + BitVec.ofNat 64 work,
      countedAt := s.now })

/-- The counters of a domain's tiles are brought up to the present, before what they depend on changes. -/
def State.settleDom (s : State) (k : Nat) : State := (tilesOfDom k).foldl State.settleTile s

/-- What tile t has spent on its work item so far goes to the item's descriptor (R118). -/
def State.chargeItem (s : State) (t : Nat) : State :=
  let s := s.settleTile t
  let x := s.tile t
  match x.items with
  | [] => s
  | (p, num) :: _ =>
    let s := s.onPart p (fun q => { q with fetched := q.fetched.map (fun (d : Desc) =>
      if d.num == num then { d with beats := d.beats + (x.beats - x.itemFrom).toNat } else d) })
    s.onTile t (fun y => { y with itemFrom := y.beats })

/-- The descriptor belongs to a cyclic act. -/
def State.inCyclic (s : State) (p : Nat) (d : Desc) : Bool :=
  match d.act with
  | some a => (s.act p a.1).cyc.isSome
  | none => false

/-- The priority class of a descriptor: PRIO, and 0 in a cyclic act (R251). -/
def State.classOf (s : State) (p : Nat) (d : Desc) : Nat := if s.inCyclic p d then 0 else d.prio

/-- One started descriptor is served before another: its class is lower, or it is the same and the descriptor started first (R251). -/
def State.before (s : State) (p : Nat) (d e : Desc) : Bool :=
  s.classOf p d < s.classOf p e ||
    (s.classOf p d == s.classOf p e && (d.startedAt.getD 0 < e.startedAt.getD 0 || (d.startedAt == e.startedAt && d.num < e.num)))

/-- The work item that a tile takes next comes first (R62, R251). -/
def State.nextFirst (s : State) : List (Nat × Nat) → List (Nat × Nat)
  | [] => []
  | x :: xs =>
    let find := fun (i : Nat × Nat) => (s.part i.1).fetched.find? (fun d => d.num == i.2)
    let best := xs.foldl (fun a y => match find a, find y with
      | some d, some e => if a.1 = y.1 && s.before a.1 e d then y else a
      | _, _ => a) x
    best :: (x :: xs).erase best

/-! ### Fencing a tile (R512 to R514) -/

/-- An event of a tile: to the partition that holds it and to the physical function (R522). -/
def State.raiseTile (s : State) (t code : Nat) (data : List Byte) : State :=
  match (s.tile t).part with
  | some p => s.raiseBoth p code data
  | none => s.raise 0 code data

/-- The partition of a tile as a health record holds it: 0xFF for none (R521). -/
def State.tilePart (s : State) (t : Nat) : Nat := (s.tile t).part.getD 0xFF

/-- Engine `i` of Pp has lost a tile to a fence (R513). -/
def State.noteShrunk (s : State) (p i : Nat) : State :=
  match (s.part p).engines.find? (fun e => e.idx == i) with
  | none => s
  | some e =>
    let out := if (s.liveTiles e).isEmpty then 2 else if e.elastic then 0 else 1
    let s := s.onPart p (fun q => if out = 0 then q else
      { q with hlt := { q.hlt with degraded := q.hlt.degraded ||| BitVec.ofNat 64 (1 <<< i) } })
    s.raiseBoth p 0x56 (toLe 1 i ++ toLe 1 out)

/-- A fence takes effect on tile t (R63, R512, R513). -/
def State.fenceTile (s : State) (t reason : Nat) : State :=
  let s := s.chargeItem t
  let x := s.tile t
  let s := s.onTile t (fun y => { y with st := .fenced, engine := none, items := [], fencePending := none })
  let s := s.onUnit 0 t (fun u => { u with fenced := true })
  let s := match x.part, x.engine with
    | some p, some i => s.noteShrunk p i
    | _, _ => s
  let s := s.raiseTile t 0x54 (toLe 1 0 ++ toLe 1 t ++ toLe 1 reason)
  ((s.logOpen 13 0 t (s.tilePart t)).reviewDown).reviewHealth true

/-- Tile t has come to rest: a fence that waited takes effect (R514). -/
def State.settleFence (s : State) (t : Nat) : State :=
  match (s.tile t).fencePending with
  | some r => if (s.tile t).st = .idle || (s.tile t).st = .free then s.fenceTile t r else s
  | none => s

/-! ### Presence, nudges and doorbell reads (R230 to R233) -/

/-- The power state that stands for Pp: its lowest-numbered domain's; DARK when it has none, as PWR.PSTAT resets. -/
def State.pstate (s : State) (p : Nat) : PState :=
  match s.domsOf p with
  | k :: _ => (s.dom k).st
  | [] => .dark

/-- The presence word of Pp (R231). -/
def State.presence (s : State) (p : Nat) : List Byte :=
  let h := (s.part p).host
  toLe 1 (b2n (h.doze != .awake) + 2 * (s.pstate p).code + 16 * b2n (s.part p).pwr.paused) ++ toLe 1 h.wakes ++ zeros 2 ++
    toLe 4 h.evt.seq

/-- Write the presence word of Pp (R231), once its doorbell page is set. -/
def State.postPresence (s : State) (p : Nat) : State :=
  if (s.part p).host.dbValid then s.hostWriteAs p (s.part p).host.dbBase (s.presence p) else s

/-- Issue a doorbell read, or one more after the one outstanding (R232); none without a doorbell page (R225) or a function (R218). -/
def State.doorbell (s : State) (p : Nat) : State :=
  let live := s.hasFn p
  s.onHost p (fun h =>
    if !h.dbValid || !live then h else if h.dbOut then { h with dbAgain := true } else { h with dbOut := true, lastDb := s.now })

/-- A trigger of R232: it counts while the partition is awake. -/
def State.trigger (s : State) (p : Nat) : State :=
  if (s.part p).host.doze = .awake then s.doorbell p else s

/-- End a doze: PRESENCE with DOZING 0 and WAKES advanced, then a doorbell read (R233). -/
def State.endDoze (s : State) (p : Nat) : State :=
  if (s.part p).host.doze = .awake then s
  else
    let s := s.onHost p (fun h => { h with doze := .awake, wakes := (h.wakes + 1) % 256, eligibleSince := none })
    (s.postPresence p).doorbell p

/-- Free slots of CQ c (R226). -/
def Cq.free (r : Cq) : Nat := ringFree r.sizeLog2 r.slot r.accepted - r.reserved

/-- SQ q shows a pending descriptor. -/
def Sq.hasPending (r : Sq) : Bool := r.tail != r.head

/-- SQ q of Pp has a pending descriptor and its CQ a free slot. -/
def State.sqReady (s : State) (p q : Nat) : Bool :=
  let r := s.sq p q
  let c := s.cq p r.cq
  r.st == .enabled && !r.draining && r.hasPending && c.st == .enabled && c.free > 0

/-- Pp is doze-eligible now, but for the time it must last (R233). -/
def State.quiet (s : State) (p : Nat) : Bool :=
  (List.range 64).all (fun q => !s.sqReady p q) && (s.part p).fetched.all (fun d => d.op == 0x04 || d.op == 0x05) &&
    (s.part p).host.late.isEmpty

/-- Since when Pp is doze-eligible (R233). -/
def State.noteQuiet (s : State) (p : Nat) : State :=
  let q := s.quiet p
  s.onHost p (fun h => { h with eligibleSince := if q then some (h.eligibleSince.getD s.now) else none })

/-! ### Ring errors (R244) -/

/-- A ring that a cause of R244 can put in ERROR. -/
def RingSt.live (st : RingSt) : Bool := st == .enabled || st == .paused

/-- SQ q of Pp enters ERROR. -/
def State.sqError (s : State) (p q cause : Nat) : State :=
  if (s.sq p q).st.live then
    (s.onSq p q (fun r => { r with st := .error, errCode := cause })).raiseBoth p 0x01 (toLe 1 0 ++ toLe 1 q ++ toLe 1 cause)
  else s

/-- CQ c of Pp enters ERROR, and every SQ bound to it with cause CQ_ERR. -/
def State.cqError (s : State) (p c cause : Nat) : State :=
  if (s.cq p c).st.live then
    let s := s.onCq p c (fun r => { r with st := .error, errCode := cause })
    let s := s.raiseBoth p 0x01 (toLe 1 1 ++ toLe 1 c ++ toLe 1 cause)
    (List.range 64).foldl (fun t q => if (t.sq p q).cq = c then t.sqError p q 0x06 else t) s
  else s

/-- The events that wait are discarded and counted in LOST (R239). -/
def EvtRing.dropQueue (e : EvtRing) : EvtRing :=
  { e with lost := satTo 16 (e.lost + e.queue.length), lostFlag := e.lostFlag || !e.queue.isEmpty, queue := [] }

/-- The event ring of Pp enters ERROR; only the physical function hears of it (R242). -/
def State.evtError (s : State) (p cause : Nat) : State :=
  if (s.part p).host.evt.st.live then
    (s.onEvt p (fun e => { e.dropQueue with st := .error, errCode := cause })).raisePf p 0x01
      (toLe 1 2 ++ toLe 1 0 ++ toLe 1 cause)
  else s

/-- Every ring of Pp enters ERROR. -/
def State.allRingsError (s : State) (p cause : Nat) : State :=
  let s := (List.range 16).foldl (fun t c => t.cqError p c cause) ((List.range 64).foldl (fun t q => t.sqError p q cause) s)
  s.evtError p cause

/-! ### Completion (R235 to R238, R255, R256, R265) -/

/-- Descriptor `num` of Pp, if it is fetched and not complete. -/
def State.desc? (s : State) (p num : Nat) : Option Desc := (s.part p).fetched.find? (fun d => d.num == num)

/-- The bytes of a completion record (R235). -/
def cqRecord (d : Desc) (st cflags result beats : Nat) (phase : Bool) : List Byte :=
  toLe 4 d.tag ++ toLe 1 st ++ toLe 1 cflags ++ toLe 1 (d.sq + 128 * b2n phase) ++ toLe 1 d.slot ++ toLe 4 result ++
    toLe 4 (satTo 32 beats)

/-- Write a completion record into the next slot of CQ c, when it is ENABLED; with SPLIT the PHASE goes last (R236). -/
def State.writeRecord (s : State) (p : Nat) (d : Desc) (st cflags result beats : Nat) : State :=
  let r := s.cq p d.cq
  if r.st = .enabled then
    let n := 2 ^ r.sizeLog2
    let bs := cqRecord d st cflags result beats r.phase
    let at_ := r.base + 16 * r.slot
    let sealAt := r.base + pageUp (16 * n) + 32 * r.slot
    let s := if r.split then
        (s.putUnit p 2 d.cq r.slot (some 6) at_ sealAt (overlay bs 6 [bs.getD 6 0#8 ^^^ 0x80#8])).hostWriteAs p (at_ + 6)
          [bs.getD 6 0#8]
      else s.putUnit p 2 d.cq r.slot (some 6) at_ sealAt bs
    s.onCq p d.cq (fun r => { r with slot := (r.slot + 1) % n, phase := if r.slot + 1 = n then !r.phase else r.phase,
                                     due := r.due || d.irq })
  else s

/-- The user number of a CRC context that descriptor `num` holds (R408). -/
def crcUser (num : Nat) : Nat := 64 + num

/-- A media command leaves the stream context. One that ended early takes the frames that it listed with it (R435): the next ENCODE lists
them from the first on. -/
def VidCtx.without (y : VidCtx) (num : Nat) (keep : Bool) : VidCtx :=
  let gone := if keep || !y.cmds.any (fun k => k.num == num) then [] else (y.frames.filter (fun f => f.num == num)).map EncFrame.pts
  { y with
    cmds := y.cmds.filter (fun k => k.num != num), frames := y.frames.filter (fun f => !gone.contains f.pts)
    ptsq := y.ptsq.filter (fun t => !gone.contains t)
    lastPts := match gone with | [] => y.lastPts | t :: ts => some (ts.foldl Nat.min t - 1) }

/-- A media command leaves the stream context it waits on or is in progress on (R418); after a TIMEOUT its frames stay
(notes/assumptions/80.md). -/
def State.dropMedia (s : State) (p num : Nat) (keep : Bool) : State :=
  { s with video := { s.video with ctxs := s.video.ctxs.zipIdx.map (fun x =>
      if (s.chan x.2).part = p then x.1.map (fun y => y.without num keep) else x.1) } }

/-- Descriptor `num` is not fetched any more: those whose predecessor it was know its STATUS (R256), a CRC context that it
held is free (R408), and an OK ends a run of resets (R511). -/
def State.forget (s : State) (p num st : Nat) : State :=
  ((s.crcUnbind { part := p, user := crcUser num }).dropMedia p num (st == stTimeout)).onPart p (fun q => { q with
    fetched := (q.fetched.filter (fun e => e.num != num)).map (fun e =>
      if e.pred == some num then { e with predStatus := some st } else e),
    resolved := q.resolved.filter (fun r => r.num != num),
    running := q.running.filter (fun r => r.num != num)
    hlt := if statusGood st then { q.hlt with faultResets := [] } else q.hlt })

/-- Tile t has these items left: with none an ACTIVE tile is IDLE, and a fence that waited for one takes effect (R63, R514). -/
def State.leftItems (s : State) (t : Nat) (items : List (Nat × Nat)) : State :=
  let s := (s.progress 0 t).onTile t (fun x => { x with
    items := items, st := if items.isEmpty && x.st == .active then .idle else x.st })
  if (s.tile t).fencePending.isSome then s.settleFence t else s

/-- A tile's work items of descriptor `num` of Pp are gone: the one in progress ends with what it has spent. -/
def State.dropItem (s : State) (p num t : Nat) : State :=
  match (s.tile t).items with
  | [] => s
  | x :: xs =>
    if x = (p, num) then (s.chargeItem t).leftItems t (s.nextFirst (xs.filter (· ≠ (p, num))))
    else if xs.contains (p, num) then s.onTile t (fun y => { y with items := y.items.filter (· ≠ (p, num)) })
    else s

/-- Take the work items of a descriptor off every tile. -/
def State.dropItems (s : State) (p num : Nat) : State := (List.range 64).foldl (fun t i => t.dropItem p num i) s

/-- A completion batch of Pp closes: a doorbell read follows (R232), and a doze ends (R233). -/
def State.closeBatch (s : State) (p : Nat) : State := if (s.part p).host.doze = .awake then s.doorbell p else s.endDoze p

/-- A record of CQ c has joined its batch, which closes at 32, or where no further record is ready (R238). -/
def State.inBatchOf (s : State) (p c : Nat) : State :=
  match (s.part p).host.batch with
  | none => s.closeBatch p
  | some l =>
    let n := match l.find? (fun x => x.1 == c) with | some x => x.2 + 1 | none => 1
    let rest := l.filter (fun x => x.1 != c)
    if n = 32 then (s.onHost p (fun h => { h with batch := some rest })).closeBatch p
    else s.onHost p (fun h => { h with batch := some ((c, n) :: rest) })

/-- Several records of Pp are ready at once: those of one CQ form batches of up to 32 (R238). -/
def State.batched (s : State) (p : Nat) (f : State → State) : State :=
  if (s.part p).host.batch.isSome then f s
  else
    let t := f (s.onHost p (fun h => { h with batch := some [] }))
    let l := (t.part p).host.batch.getD []
    l.foldl (fun (u : State) _ => u.closeBatch p) (t.onHost p (fun h => { h with batch := none }))

/-- A completion record goes into the slot that its fetch reserved (R226, R237). -/
def State.recordOut (s : State) (p : Nat) (r : LateRec) : State :=
  let s := s.onCq p r.desc.cq (fun c => { c with reserved := c.reserved - 1 })
  s.writeRecord p r.desc r.status.1 r.status.2 r.result.1 r.result.2

/-- A ring descriptor, off its tiles, completes with one record, which waits while the doorbell read of a doze sequence is outstanding
(R233, R238). -/
def State.completeRing (s : State) (p : Nat) (d : Desc) (o : Done) (beats : Nat) : State :=
  let f := o.final
  let s := s.forget p d.num f.1
  let s := s.onSq p d.sq (fun r => if r.lastNum == some d.num then { r with lastStatus := some f.1 } else r)
  let r : LateRec := { desc := d, status := f, result := (o.result % 2 ^ 32, beats) }
  if (s.part p).host.doze = .entering then (s.onHost p (fun h => { h with late := h.late ++ [r] }))
  else
    let written := (s.cq p d.cq).st == .enabled
    let s := (s.recordOut p r).noteQuiet p
    if written then s.inBatchOf p d.cq else s

/-- The outputs of a command that ended early hold undefined bytes (R253, R287). -/
def State.spoilAll (s : State) (p : Nat) (src : Option Nat) (l : List (Nat × Nat)) : State :=
  l.foldl (fun t r => t.spoil p src r.1 r.2) s

/-- The bytes that a command wrote in host memory are undefined (R253, R287); none while the link is down (R216). -/
def State.spoilHost (s : State) (l : List (Nat × Nat)) : State :=
  l.foldl (fun (t : State) r =>
    let new := (t.hostMem.read r.1 r.2).zipIdx.map (fun b => Config.spoiled (t.fresh + b.2) b.1)
    { t.hostWrite r.1 new with fresh := t.fresh + r.2 }) s

/-- The record of a once-run act: STATUS, RESULT and CFLAGS over its descriptors' outcomes (R265). -/
def actDone (count : Nat) (timedOut : Bool) (outs : List ActOut) : Done :=
  let bad := outs.filter (fun o => !statusGood o.status)
  match bad.foldl (fun a o => match a with | some (b : ActOut) => if o.idx < b.idx then some o else a | none => some o) none with
  | some o => { status := if timedOut then stTimeout else o.status, result := o.idx }
  | none => { result := count, cflags := outs.foldl (fun a o => a ||| o.cflags) 0 }

/-- Act slot n becomes FREE: the ACT_STOPs that wait complete with the number of cycles run (R266). -/
def State.freeAct (s : State) (p n cycles : Nat) : State :=
  let stops := (s.act p n).stops
  let s := s.onAct p n (fun _ => {})
  s.batched p (fun u => stops.foldl (fun t k => match t.desc? p k with
    | some e => t.completeRing p e { result := cycles } 0
    | none => t) u)

/-- When the last descriptor of a once-run act is complete, its ACT_RUN completes and the slot becomes FREE; after a TIMEOUT all
that the act wrote is undefined (R265, R266). -/
def State.actCheck (s : State) (p n : Nat) : State :=
  let a := s.act p n
  if a.cyc.isNone && (a.st == .running || a.st == .stopping) && a.outs.length == a.count then
    let s := if a.timedOut then (s.spoilAll p none a.wrote).spoilHost a.wroteHost else s
    s.batched p (fun u =>
      (match u.desc? p a.runNum with
       | some e => u.completeRing p e (actDone a.count a.timedOut a.outs) (a.outs.foldl (fun x (o : ActOut) => x + o.beats) 0)
       | none => u).freeAct p n 1)
  else s.noteQuiet p

/-- The beats of a descriptor (R118): the sum over the work items that its engine's tiles have spent on it. A hub-run command and one
that never started have none. -/
def State.beatsOf (s : State) (p : Nat) (d : Desc) : Nat :=
  match s.desc? p d.num with
  | some e => if e.engineRun && e.startedAt.isSome then e.beats else 0
  | none => 0

/-- A descriptor completes, in its ring or in its act. -/
def State.complete (s : State) (p : Nat) (d : Desc) (o : Done) : State :=
  let s := s.dropItems p d.num
  let beats := s.beatsOf p d
  let s := if isColl d.op && !statusGood o.status then s.sendAbort p d else s
  match d.act with
  | none => s.completeRing p d o beats
  | some (n, lane, idx) =>
    let f := o.final
    let s := s.forget p d.num f.1
    let good := statusGood f.1
    let wrote := if good then s.writeRanges p d else []
    let host := if good && !d.lost then s.hostRanges p d else []
    let s := s.onAct p n (fun a => { a with
      outs := a.outs ++ [{ lane := lane, idx := idx, status := f.1, cflags := f.2, beats := beats }]
      wrote := a.wrote ++ wrote
      wroteHost := a.wroteHost ++ host })
    s.actCheck p n

/-- Complete descriptor `num` of Pp, if it is there. -/
def State.completeNum (s : State) (p num : Nat) (o : Done) : State :=
  match s.desc? p num with
  | some d => s.complete p d o
  | none => s

/-- What a failure leaves beside its STATUS: MEM.FAULT latches the first translation fault (R200), MEM_DENIED is sent for
a refusal (R184), MEM_UNCORR at the first read of a word on an unavailable port (R603). -/
def State.note (s : State) (p : Nat) : Fail → State
  | .status _ _ => s
  | .xlat reason src va write _ =>
    s.onPart p (fun q => if q.mem.faultValid then q else
      { q with mem := { q.mem with faultValid := true, faultReason := reason, faultSource := src, faultWrite := write,
                                   faultVa := va % 2 ^ 48 } })
  | .rights pa src _ => s.raisePf p 0x43 (toLe 5 pa ++ toLe 1 p ++ toLe 1 src)
  | .poison pas => pas.foldl (fun (s : State) pa =>
    if !s.mem.reachable pa && !s.mem.reported.contains (wordOf pa) then
      ({ s with mem := { s.mem with reported := wordOf pa :: s.mem.reported } }).raiseMem 0x40 (wordOf pa)
    else s) s
  | .retired _ => s
  | .waits => s

/-- A descriptor completes with a failure; one that waits stays as it is. -/
def State.failDesc (s : State) (p : Nat) (d : Desc) (f : Fail) : State :=
  match f with
  | .waits => s
  | _ => (s.note p f).complete p d f.done

/-! ### Start (R254, R256, R290 to R292) -/

/-- Two descriptors stand in one line of order: the same SQ, or the same run of an act (R254, R263). -/
def Desc.sameLine (d e : Desc) : Bool :=
  match d.act, e.act with
  | none, none => d.sq == e.sq
  | some a, some b => a.1 == b.1 && a.2.1 == b.2.1
  | _, _ => false

/-- The fetch number that SQ_MASK of BARRIER counts from: inside an act, that of its ACT_RUN (R259). -/
def State.maskNum (s : State) (p : Nat) (d : Desc) : Nat :=
  match d.act with
  | none => d.num
  | some a => (s.act p a.1).runNum

/-- The order conditions of R254, with SQ_MASK of BARRIER (R259). -/
def State.orderOk (s : State) (p : Nat) (d : Desc) : Bool :=
  let before := (s.part p).fetched.filter (fun e => d.sameLine e && e.num < d.num)
  !before.any (fun e => e.barrier) && (!d.barrier || before.isEmpty) &&
  (!d.fenceIn || !before.any (fun e => e.fenceOut)) &&
  (!d.chain || (match d.pred with | some n => (s.desc? p n).isNone | none => true)) &&
  (d.op != 0x01 || (setBits 64 (d.fld 16 8)).all (fun q => (s.sq p q).st != .enabled ||
    !(s.part p).fetched.any (fun e => e.act.isNone && e.sq == q && e.num < s.maskNum p d && e.num != d.num)))

/-- Engine e of Pp. -/
def State.engine? (s : State) (p e : Nat) : Option Engine := (s.part p).engines.find? (fun x => x.idx == e)

/-- The images that a release's manifest lists, over both banks (R61, R494). -/
def State.images (s : State) (release : Nat) : List Image :=
  let t := s.boot.fw.getD 2 {}
  (if t.a.valid && t.a.version == release then t.a.images else []) ++
  (if t.b.valid && t.b.version == release then t.b.images else [])

/-- The image an engine runs. -/
def State.imageOf (s : State) (e : Engine) : Option Image := (s.images e.release).find? (fun i => i.num == e.image)

/-- How an engine-run descriptor meets its engine (R292). -/
inductive Meets where
  /-- It waits: tiles LOADING or RESETTING, domains not in RUN, or every queue full -/
  | wait
  /-- It completes with this -/
  | fails (f : Fail)
  /-- It can start -/
  | goes
deriving DecidableEq, Repr

/-- Tiles of an engine work on nothing now: one is LOADING or RESETTING, or a domain of theirs is not in RUN, where request tokens
are withheld (R150, R292). -/
def State.halted (s : State) (live : List Nat) : Bool :=
  live.any (fun t => (s.tile t).st == .loading || (s.tile t).st == .resetting || (s.dom (domOfTile t)).st != .run)

/-- Every tile holds an item in progress and 64 queued: the lead tile takes no descriptor (R66). -/
def State.allFull (s : State) (live : List Nat) : Bool := live.all (fun t => decide (65 ≤ (s.tile t).items.length))

/-- R292, with the domains of the engine in RUN (R150) and room in some queue (R66, R254). -/
def State.meetsEngine (s : State) (p : Nat) (d : Desc) : Meets :=
  if !d.engineRun then .goes else
  match s.engine? p d.engine with
  | none => .fails (.status stIllegalState 0)
  | some e =>
    let live := s.liveTiles e
    let listed := match s.imageOf e with | some i => i.opcodes.contains d.op | none => false
    if !listed then .fails (.status stIllegalState 0)
    else if live.any (fun t => (s.tile t).st == .loading || (s.tile t).st == .resetting) then .wait
    else if live.isEmpty || (!e.elastic && live.length < e.tiles.length) then .fails (.status stEngineFenced 0)
    else if s.halted live || s.allFull live then .wait else .goes

/-- The work of a started descriptor stands still: its engine's tiles work on nothing (R150). -/
def State.stands (s : State) (p : Nat) (d : Desc) : Bool :=
  d.engineRun && (match s.engine? p d.engine with | some e => s.halted (s.liveTiles e) | none => false)

/-- The lead tile of the descriptor's engine: the source of its transfers (R62); none for a hub unit. -/
def State.srcOf (s : State) (p : Nat) (d : Desc) : Option Nat :=
  if d.engineRun then
    match s.engine? p d.engine with
    | some e => (s.liveTiles e).head?
    | none => none
  else none

/-- The opcodes that SAFE runs (R290). -/
def runsInSafe (op : Nat) : Bool := op ≤ 0x05 || op == 0x07 || isAdmin op

/-- The opcodes that CURTAIN admits (R132). -/
def runsInCurtain (op : Nat) : Bool :=
  (op ≤ 0x0F && op != 0x06) || op == 0x53 || op == 0x43 || op == 0x45 || op == 0x80 || op == 0x82 || isAdmin op

/-- The opcodes that a module which expelled itself refuses (R566). -/
def refusedExpelled (op : Nat) : Bool := op == 0x50 || op == 0x06 || (0x60 ≤ op && op ≤ 0x64)

/-- Check 5 of R257: the module state admits the descriptor (R132, R290, R566). -/
def State.moduleAdmits (s : State) (p : Nat) (d : Desc) : Bool :=
  (match s.boot.st with
   | .ready | .degraded => true
   | .curtain => d.act.isSome || runsInCurtain d.op
   | .safe => runsInSafe d.op
   | _ => false) &&
  !(s.health.expelled && refusedExpelled d.op && !s.inCyclic p d)

/-- The descriptor came from the admin ring (R229). -/
def onAdminRing (p : Nat) (d : Desc) : Bool := p == 0 && d.sq == 0 && d.act.isNone

/-- R291: the partition state makes the opcode legal. -/
def State.partAdmits (s : State) (p : Nat) (d : Desc) : Bool :=
  isAdmin d.op ||
  (match (s.part p).sec.st with
   | .running | .quiescing => true
   | .admitted =>
     (d.op ≤ 0x0F && d.op != 0x06) || ((d.op == 0x19 || d.op == 0x1A) && d.engine == 0xFF) || d.op == 0x81 ||
       d.op == 0x6F || d.op == 0x45
   | _ => false)

/-- The predecessor failed (R256). -/
def Desc.chainFails (d : Desc) : Bool :=
  d.chain && d.pred.isSome && (match d.predStatus with | some st => !statusGood st | none => false)

/-- Checks 1 to 6 of R257 that every opcode shares. -/
def State.checks (s : State) (p : Nat) (d : Desc) : Option Fail :=
  if d.chainFails then some (.status stChainAborted 0)
  else match staticFail d.act.isSome d.bytes with
    | some f => some f
    | none =>
      if isAdmin d.op && !onAdminRing p d then some (.status stAccessDenied 0xF)
      else if !s.moduleAdmits p d then some (.status stNotAdmitted 0)
      else if !s.partAdmits p d then some (.status stIllegalState 0)
      else match s.meetsEngine p d with
        | .fails f => some f
        | _ => none

/-- The descriptor may start now: its order conditions hold and its engine, if it has one, is not to be waited for. -/
def State.mayStart (s : State) (p : Nat) (d : Desc) : Bool :=
  s.orderOk p d && (s.meetsEngine p d != .wait || d.chainFails || (staticFail d.act.isSome d.bytes).isSome)

/-- The test area of a tile under self-test has back what was saved (R516). -/
def State.untest (s : State) (t : Nat) : State :=
  let s := match (s.unit 0 t).saved with
    | some bs => { s with mem := { s.mem with cells := s.mem.cells.write (winBase + t * 0x1000000 + 0x3C0000) bs } }
    | none => s
  s.onUnit 0 t (fun u => { u with saved := none })

/-- A descriptor has started: the time counts (R253), and each tile of its engine that has room takes a work item (R62, R63,
R66), what self-test saved of it restored first (R516). -/
def State.started (s : State) (p : Nat) (d : Desc) : State :=
  let s := s.onPart p (fun q => { q with fetched := q.fetched.map (fun e =>
    if e.num == d.num then { e with startedAt := some s.now } else e) })
  if d.engineRun then
    match s.engine? p d.engine with
    | some e => (s.liveTiles e).foldl (fun (t : State) i =>
        let t := if (t.tile i).items.isEmpty then t.progress 0 i else t
        ((t.settleTile i).untest i).onTile i (fun x =>
          if x.items.length < 65 then
            { x with st := if x.st = .idle then .active else x.st, itemFrom := if x.items.isEmpty then x.beats else x.itemFrom
                     items := x.items ++ [(p, d.num)] }
          else x)) s
    | none => s
  else s

/-- Every output of a descriptor holds undefined bytes. -/
def State.spoilOut (s : State) (p : Nat) (d : Desc) : State :=
  (s.spoilAll p (s.srcOf p d) (s.outRanges p d)).spoilHost (if d.lost then [] else s.hostRanges p d)

/-- A command that ends with this STATUS wrote no byte (R287). -/
def leavesNone (st : Nat) : Bool :=
  st == stBadOpcode || st == stIllegalState || st == stChainAborted || st == stBusy || st == stNotAdmitted

/-- What a failure leaves of the outputs: undefined bytes, and after poisoned inputs poison marks (R47, R203, R287). -/
def State.spoilFor (s : State) (p : Nat) (d : Desc) (f : Fail) : State :=
  match f with
  | .poison _ => (s.outRanges p d).foldl (fun (t : State) r => t.taint p r.1 r.2) (s.spoilOut p d)
  | .status st _ => if leavesNone st then s else s.spoilOut p d
  | _ => s.spoilOut p d

/-- What one opcode adds to the shared course of a descriptor. -/
structure Course where
  /-- Checks 6 and 7 of R257 of the opcode's own -/
  check : State → Nat → Desc → Option Fail := fun _ _ _ => none
  /-- What starting it does -/
  opens : State → Nat → Desc → State := fun s _ _ => s
  /-- Check 8: its effect and its outcome -/
  run : State → Nat → Desc → Except Fail (State × Done)
  /-- What a failure in check 8 leaves of its outputs -/
  leaves : State → Nat → Desc → Fail → State := State.spoilFor

/-- The descriptors of Pp other than `d` that are under way: no order of R254 stands between them and `d`. -/
def State.others (s : State) (p : Nat) (d : Desc) : List Desc :=
  (s.part p).fetched.filter (fun e => e.startedAt.isSome && e.num != d.num)

/-- Where two lists of ranges meet. -/
def meetOf (a b : List (Nat × Nat)) : List (Nat × Nat) :=
  a.flatMap (fun x => (b.filter (fun y => x.1 < y.1 + y.2 && y.1 < x.1 + x.2)).map (fun y =>
    (max x.1 y.1, min (x.1 + x.2) (y.1 + y.2) - max x.1 y.1)))

/-- The physical ranges whose reads by `d` race an unordered write (R35): the outputs of descriptors under way, what others wrote
while `d` was, and its own outputs where they overlap its inputs (R15, R273, R278). -/
def State.raceOf (s : State) (p : Nat) (d : Desc) : List (Nat × Nat) :=
  (s.others p d).flatMap (fun e => s.physOf p true (s.writeRanges p e)) ++
    (match s.desc? p d.num with | some e => e.raced | none => []) ++
    meetOf (s.physOf p true (s.writeRanges p d)) (s.physOf p false (s.inRanges p d))

/-- The execution of `d` is over: what it wrote races the reads of descriptors under way (R35). -/
def State.endRace (s : State) (p : Nat) (d : Desc) : State :=
  let t := { s with racing := [], fresh := if s.racing.isEmpty then s.fresh else s.fresh + 1 }
  if (s.others p d).isEmpty then t
  else
    let w := s.physOf p true (s.writeRanges p d)
    t.onPart p (fun q => { q with fetched := q.fetched.map (fun e =>
      if e.startedAt.isSome && e.num != d.num then { e with raced := e.raced ++ w } else e) })

/-- Whether what descriptor d writes to host memory goes out (R216): `on` sets whether the port takes it. -/
def State.plug (s : State) (d : Desc) (on : Bool) : State := if d.lost then { s with host := { s.host with up := on } } else s

/-- Carry out a started descriptor and complete it; nothing happens while an access of it waits. -/
def State.finish (s : State) (p : Nat) (d : Desc) (c : Course) : State :=
  match c.run ({ s with racing := s.raceOf p d }.plug d false) p d with
  | .ok r => ((r.1.plug d s.host.up).endRace p d).complete p d r.2
  | .error .waits => s
  | .error f => ((c.leaves s p d f).endRace p d).failDesc p d f

/-- The hub unit whose queue holds a hub-run descriptor: the host movers, the scaler or the protocol engine; none for a command
that no unit's queue holds. -/
def hubUnitOf (op : Nat) : Option Nat :=
  match op with
  | 0x19 | 0x1A | 0x80 | 0x81 => some 0
  | 0x74 => some 1
  | 0x75 => some 2
  | _ => none

/-- A started hub-run descriptor waits in its unit's queue behind one of the partition with a lower class, or with the same class
and an earlier start (R251; notes/assumptions/54.md). -/
def State.outranked (s : State) (p : Nat) (d : Desc) : Bool :=
  !d.engineRun && (hubUnitOf d.op).isSome &&
  (s.others p d).any (fun e => !e.engineRun && hubUnitOf e.op == hubUnitOf d.op && s.before p e d)

/-- The course of a descriptor row: the named descriptor, when it is of the row (`mine`) and may start, is checked in
the order of R257 and then started or run to its completion; one that has started is run to its completion. -/
def State.runDesc (s : State) (r : DescRef) (mine : Desc → Bool) (c : Course) : State :=
  match s.desc? r.part r.num with
  | none => s
  | some d =>
    if !mine d then s
    else if d.startedAt.isSome then
      (if r.startOnly || s.stands r.part d || s.outranked r.part d then s else s.finish r.part d c)
    else if !s.mayStart r.part d then s
    else match s.checks r.part d with
      | some f => s.failDesc r.part d f
      | none =>
        match c.check s r.part d with
        | some f => s.failDesc r.part d f
        | none =>
          let t := c.opens (s.started r.part d) r.part d
          if r.startOnly then t else t.finish r.part d c

/-- A descriptor's operation is reached now: it has started, or it may start and passes every check before it. -/
def State.reaches (s : State) (c : Course) (p : Nat) (x : Desc) : Bool :=
  x.startedAt.isSome || (s.mayStart p x && (s.checks p x).isNone && (c.check s p x).isNone)

/-- The start of a descriptor row whose command completes later: when the named descriptor is of the row, has not started
and may start, it is checked in the order of R257, started, and `go` opens it. -/
def State.startDesc (s : State) (r : DescRef) (mine : Desc → Bool) (check : State → Nat → Desc → Option Fail)
    (go : State → Nat → Desc → State) : State :=
  match s.desc? r.part r.num with
  | none => s
  | some d =>
    if !mine d || d.startedAt.isSome || !s.mayStart r.part d then s
    else match s.checks r.part d with
      | some f => s.failDesc r.part d f
      | none =>
        match check s r.part d with
        | some f => s.failDesc r.part d f
        | none => go (s.started r.part d) r.part d

/-- The descriptor has this opcode. -/
def isOp (op : Nat) (d : Desc) : Bool := d.op == op

/-- A command that completes with nothing else to do. -/
def okDone (s : State) : Except Fail (State × Done) := .ok (s, {})

end Sys2Proof.Machine
end

