-- ==== Sys2Proof/Machine/Convert.lean ====
section
/-! DEFINITION. Output conversion (R88 to R95, R100), the exact accumulator (R78 to R85) and ordered sums (R52, R86,
R87). -/

namespace Sys2Proof.Machine

/-! ### Conversion -/

/-- Convert one value to a non-MX destination (R89, R93, R94): the encoding and OUT_RANGE. -/
def encodeElem (fmt : Nat) (mode : Rounding) (sat : Bool) (zero : Int) (x : Num) : Nat × Bool :=
  let int := fun (w : Nat) (lo hi z : Int) => let r := x.toIntFmt mode lo hi z; (ofInt w r.1, r.2)
  match fmt with
  | 0x01 => int 8 (-128) 127 zero
  | 0x02 => int 8 0 255 0
  | 0x03 => int 4 (-8) 7 0
  | 0x04 => fmtE4M3.encode mode sat x
  | 0x05 => fmtE5M2.encode mode sat x
  | 0x0C => fmtBF16.encode mode sat x
  | 0x0D => fmtFP16.encode mode sat x
  | 0x0E => fmtFP32.encode mode sat x
  | 0x0F => int 32 (-2147483648) 2147483647 0
  | 0x11 => (match x with
    | .fin _ m e => (log2 m + e + 127).toNat
    | _ => 0xFF, false)
  | 0x13 => int 32 0 4294967295 0
  | 0x15 => int 16 (-32768) 32767 0
  | _ => (0, false)

/-- emax of an MX element format (R95 step 2). -/
def mxEmax (fmt : Nat) : Int :=
  match fmt with
  | 0x06 => 8 | 0x07 => 15 | 0x08 => 4 | 0x09 => 2 | 0x0A => 2 | _ => 0

/-- The larger of two finite magnitudes. -/
def maxMag (a b : Nat × Int) : Nat × Int := if magLt a.1 a.2 b.1 b.2 then b else a

/-- The scale byte of a block of values and whether its clamp at 127 sets OUT_RANGE (R95 steps 1 to 3, 5). -/
def mxScale (fmt : Nat) (ws : List Num) : Nat × Bool :=
  if ws.any Num.isNan then (0xFF, false)
  else
    let m := ws.foldl (fun a w => match w with | .fin _ k e => maxMag a (k, e) | _ => a) (0, 0)
    if m.1 = 0 then (0, false)
    else
      let x := (log2 m.1 : Int) + m.2 - mxEmax fmt
      if x > 127 then (254, true) else if x < -127 then (0, false) else ((x + 127).toNat, false)

/-- `w / 2^(scale - 127)`. -/
def unscale (scale : Nat) : Num → Num
  | .fin n m e => .fin n m (e - ((scale : Int) - 127))
  | x => x

/-- One element of an MX block under its scale byte (R95 step 4). -/
def mxElem (fmt : Nat) (mode : Rounding) (scale : Nat) (w : Num) : Nat :=
  if scale = 0xFF then 0
  else
    let v := unscale scale w
    match fmt with
    | 0x06 => (fmtE4M3.encode mode true v).1
    | 0x07 => (fmtE5M2.encode mode true v).1
    | 0x08 => (fmtE3M2.encode mode true v).1
    | 0x09 => (fmtE2M3.encode mode true v).1
    | 0x0A => (fmtE2M1.encode mode true v).1
    | _ => ofInt 8 ((v.mul (.fin false 1 6)).toIntFmt mode (-127) 127 0).1

/-- How a command converts its output: SR with SEED, SATURATE, MX_AXIS (R267). -/
structure Conv where
  /-- SR -/
  sr : Bool
  /-- SEED -/
  seed : Nat
  /-- SATURATE -/
  sat : Bool
  /-- MX_AXIS: blocks run along columns -/
  axis : Bool
  /-- The index of the first element, for SR (R92, R384) -/
  base : Nat := 0

/-- The conversion of a tensor command. -/
def Desc.conv (d : Desc) : Conv :=
  { sr := bitOf (d.fld 23 1) 0, seed := d.fld 32 8, sat := bitOf (d.fld 23 1) 1, axis := bitOf (d.fld 23 1) 2 }

/-- A tensor of values by batch, row and column. -/
abbrev Grid (α : Type) := List (List (List α))

/-- Tabulate a grid. -/
def gridOf {α : Type} (b r c : Nat) (f : Nat → Nat → Nat → α) : Grid α :=
  (List.range b).map (fun i => (List.range r).map (fun j => (List.range c).map (fun k => f i j k)))

/-- An entry of a grid. -/
def Grid.at_ {α : Type} (g : Grid α) (dflt : α) (b r c : Nat) : α := ((g.getD b []).getD r []).getD c dflt

/-- Some entry of a grid meets a condition. -/
def Grid.some_ {α : Type} (g : Grid α) (f : α → Bool) : Bool := g.any (fun x => x.any (fun y => y.any f))

/-- A converted output: the encodings, the scales of an MX destination, and OUT_RANGE. -/
structure Converted where
  /-- The encodings -/
  elems : Grid Nat
  /-- The scale bytes, by batch and the scale tensor's rows and columns -/
  scales : Grid Nat
  /-- OUT_RANGE -/
  above : Bool

/-- Convert the values of output region `j` to `fmt` (R89 steps 2 to 4, R95, R100); `zero` is the zero point of a
column. -/
def Conv.run (k : Conv) (fmt j b r c : Nat) (zero : Nat → Nat → Int) (w : Grid Num) : Converted :=
  let mode := fun (i m n : Nat) => roundingOf k.sr k.seed j (k.base + (i * r + m) * c + n)
  let val := w.at_ (.fin false 0 0)
  if isMx fmt then
    let sr := if k.axis then r / 32 else r
    let sc := if k.axis then c else c / 32
    let block := fun (i m n : Nat) => (List.range 32).map (fun t =>
      if k.axis then val i (32 * m + t) n else val i m (32 * n + t))
    let scs := gridOf b sr sc (fun i m n => mxScale fmt (block i m n))
    let scaleAt := fun (i m n : Nat) => (scs.at_ (0, false) i (if k.axis then m / 32 else m) (if k.axis then n else n / 32)).1
    { elems := gridOf b r c (fun i m n => mxElem fmt (mode i m n) (scaleAt i m n) (val i m n)),
      scales := scs.map (fun x => x.map (fun y => y.map Prod.fst)),
      above := scs.some_ Prod.snd }
  else
    let es := gridOf b r c (fun i m n => encodeElem fmt (mode i m n) k.sat (zero i n) (val i m n))
    { elems := es.map (fun x => x.map (fun y => y.map Prod.fst)), scales := [], above := es.some_ Prod.snd }

/-- The tensor of a record with the encodings of a grid. -/
def TRec.ofGrid (r : TRec) (g : Grid Nat) : Tensor := r.build (g.at_ 0)

/-- The rows and columns of an MX scale tensor along MX_AXIS (R95). -/
def mxShape (axis : Bool) (rows cols : Nat) : Nat × Nat := if axis then (rows / 32, cols) else (rows, cols / 32)

/-- Formats that a vector command reads (R100): every one that stands for a number of its own. -/
def vIn : List Nat := [0x01, 0x02, 0x03, 0x04, 0x05, 0x0C, 0x0D, 0x0E, 0x0F, 0x13, 0x15]

/-- Formats that a vector command converts to (R100). -/
def vOut : List Nat := [0x01, 0x02, 0x03, 0x04, 0x05, 0x0C, 0x0D, 0x0E, 0x0F]

/-! ### The exact accumulator -/

/-- One cell of the array in exact mode: V, the special state and the flags (R78, R82). -/
structure Acc where
  /-- V, in units of 2^(A - 64) -/
  v : Int := 0
  /-- The special state: none, NaN or an infinity -/
  special : Option Num := none
  /-- WINDOW_LOW -/
  low : Bool := false
  /-- WINDOW_HIGH -/
  high : Bool := false
  /-- SPECIAL_IN -/
  specialIn : Bool := false
deriving DecidableEq, Repr

/-- NaN absorbs everything; opposite infinities give NaN (R82). -/
def joinSpecial (a : Option Num) (x : Num) : Option Num :=
  match a with
  | none => some x
  | some y => some (if y.isNan || x.isNan then .nan else if y = x then y else .nan)

/-- Join a special value to the cell. -/
def Acc.join (a : Acc) (x : Num) : Acc := { a with special := joinSpecial a.special x, specialIn := true }

/-- Add a product under anchor `an` (R80, R82). -/
def Acc.product (an : Int) (a : Acc) (p : Num) : Acc :=
  match p with
  | .fin neg m e =>
    let u := inUnits m e (an - 64)
    let big := decide (u.1 ≥ 2 ^ 127)
    let k := if big then 2 ^ 127 - 1 else u.1
    { a with v := a.v + (if neg then -(k : Int) else k), high := a.high || big, low := a.low || (!big && decide (u.2.1 ≠ 0)) }
  | x => a.join x

/-- Add a bias or a preload's value, truncated toward zero and saturated to 160 bits; the sum has one bit more (R84 step 1). -/
def Acc.bias (an : Int) (a : Acc) (p : Num) : Acc :=
  match p with
  | .fin neg m e =>
    let u := inUnits m e (an - 64)
    let big := decide (u.1 ≥ 2 ^ 159)
    let k := if big then 2 ^ 159 - 1 else u.1
    { a with v := a.v + (if neg then -(k : Int) else k), low := a.low || decide (u.2.1 ≠ 0), high := a.high || big }
  | x => a.join x

/-- The value of an ACC160 record and its special value, WL and WH (R85). -/
def accRecord (bits : Nat) : Num × Option Num × Bool × Bool :=
  let v := sext 160 bits
  let an := sext 16 (bitsOf bits 191 176)
  let sp := match bitsOf bits 161 160 with
    | 1 => some (Num.inf false) | 2 => some (Num.inf true) | 3 => some Num.nan | _ => none
  (.fin (decide (v < 0)) v.natAbs (an - 64), sp, bitOf bits 162, bitOf bits 163)

/-- The first reserved byte of an ACC160 record that is not 0 (R85). -/
def accReserved (bits : Nat) : Option Nat :=
  if bitsOf bits 167 164 ≠ 0 then some 20 else if bitsOf bits 175 168 ≠ 0 then some 21 else none

/-- Add a preload record (R84 step 1, R85). -/
def Acc.preload (an : Int) (a : Acc) (bits : Nat) : Acc :=
  let r := accRecord bits
  let a := match r.2.1 with | some x => a.join x | none => a.bias an r.1
  { a with low := a.low || r.2.2.1, high := a.high || r.2.2.2 }

/-- Saturate to a symmetric range of `w` bits (R84 steps 2 and 3). -/
def Acc.saturate (w : Nat) (a : Acc) : Acc :=
  let top : Int := 2 ^ (w - 1) - 1
  if a.v > top then { a with v := top, high := true } else if a.v < -top then { a with v := -top, high := true } else a

/-- The value that goes to output conversion (R84 step 3), with the flags. -/
def Acc.value (an : Int) (a : Acc) : Num × Acc :=
  match a.special with
  | some x => (x, a)
  | none => let b := a.saturate 128; (.fin (decide (b.v < 0)) b.v.natAbs (an - 64), b)

/-- The ACC160 record as the number its 24 bytes spell (R84 step 2, R85), with the flags. WL and WH are those of the element's own
accumulation, not the block's (DESIGN CHOICE, notes/assumptions/72.md). -/
def Acc.record (an : Int) (a : Acc) : Nat × Acc :=
  let b := a.saturate 160
  let sp := match b.special with | some (.inf false) => 1 | some (.inf true) => 2 | some _ => 3 | none => 0
  (ofInt 160 b.v + sp * 2 ^ 160 + b2n b.low * 2 ^ 162 + b2n b.high * 2 ^ 163 + ofInt 16 an * 2 ^ 176, b)

/-! ### Ordered sums -/

/-- The fused chain of one chunk (R86). -/
def chain (l : List (Num × Num)) : F32 := l.foldl (fun s x => ((x.1.mul x.2).add s.num).f32) f32Zero

/-- One level of the pairwise tree of R87. -/
def pairUp : List F32 → List F32
  | a :: b :: r => fAdd a b :: pairUp r
  | l => l

/-- The pairwise tree; `fuel` counts its levels. -/
def pairTree : Nat → List F32 → F32
  | 0, l => l.headD f32Zero
  | n + 1, l => pairTree n (pairUp l)

/-- Split a list into runs of `n`. -/
def chunksOf {α : Type} (n : Nat) (l : List α) : List (List α) :=
  (List.range (cdiv l.length (Nat.max n 1))).map (fun i => (l.drop (i * n)).take n)

/-- The ordered sum of products with chunk length KC (0: K) and its bias (R87). -/
def orderedSum (kc : Nat) (l : List (Num × Num)) (bias : F32) : F32 :=
  fAdd (pairTree 19 ((chunksOf (if kc = 0 then l.length else kc) l).map chain)) bias

/-- One level of the lane tree: an empty side passes the other on (R52). -/
def laneLevel (f : F32 → F32 → F32) : List (Option F32) → List (Option F32)
  | a :: b :: r => (match a, b with | some x, some y => some (f x y) | some x, none => some x | none, y => y) :: laneLevel f r
  | l => l

/-- The eight levels of the lane tree. -/
def laneTree (f : F32 → F32 → F32) : Nat → List (Option F32) → List (Option F32)
  | 0, l => l
  | n + 1, l => laneTree f n (laneLevel f l)

/-- A lane's total over its slices, in ascending order. -/
def laneTotal (f : F32 → F32 → F32) (xs : List F32) (lane : Nat) : Option F32 :=
  (List.range (cdiv xs.length 256)).foldl (fun a i =>
    match xs[256 * i + lane]? with
    | some x => some (match a with | some t => f t x | none => x)
    | none => a) none

/-- The reduction of a vector in the order of R52. -/
def laneReduce (f : F32 → F32 → F32) (xs : List F32) : F32 :=
  ((laneTree f 8 ((List.range 256).map (laneTotal f xs))).headD none).getD f32Zero

end Sys2Proof.Machine
end

