-- ==== Sys2Proof/Machine/Tensor.lean ====
section
/-! DEFINITION. The tensor commands: MATMUL, CONV, ELTWISE, REDUCE, NORM, SOFTMAX, CONVERT, GATHER, SCATTER, COPY, FILL
and DIGEST (R267 to R279). -/

namespace Sys2Proof.Machine

/-! ### The shared course -/

/-- Read the parameter block of R267. -/
def State.paramBlock (s : State) (p : Nat) (d : Desc) : Except Fail (List Byte) :=
  s.readVa p (s.srcOf p d) 0 (d.fld 16 6) (32 * d.fld 22 1)

/-- DIGEST_VA can be written (R268). -/
def State.digestReach (s : State) (p : Nat) (d : Desc) : Option Fail :=
  if d.digest || d.op == 0x1B then
    match s.resolve p (s.srcOf p d) slotDva d.digestVa 16 true with
    | .ok _ => none
    | .error f => some f
  else none

/-- The course of a tensor command: its block's checks, then its run on the block. -/
def tensorCourse (bad : Desc → List Byte → List (Bool × Nat))
    (run : State → Nat → Desc → List Byte → Except Fail (State × Done)) : Course :=
  { check := fun s p d =>
      match s.paramBlock p d with
      | .error f => some f
      | .ok b => match firstBad (bad d b) with
        | some o => some (badInBlock o)
        | none => s.digestReach p d
    run := fun s p d => do run s p d (← s.paramBlock p d) }

/-- The failure of a computation. -/
def failOf {α : Type} : Except Fail α → Option Fail
  | .ok _ => none
  | .error f => some f

/-- A tensor command's course with the lists that check 7 of R257 reads after its block. -/
def Course.withLists (c : Course) (lists : State → Nat → Desc → List Byte → Option Fail) : Course :=
  { c with check := fun s p d => c.check s p d <|> (match s.paramBlock p d with
      | .ok b => lists s p d b
      | .error f => some f) }

/-- Write output tensors with their slots in order. -/
def State.writeOuts (s : State) (p : Nat) (src : Option Nat) : List (Nat × Tensor) → Except Fail State
  | [] => .ok s
  | x :: xs => do (← s.writeTensor p src x.1 x.2).writeOuts p src xs

/-- Write the digest of a command's output regions, where it is asked for (R59, R268). -/
def State.writeDigest (s : State) (p : Nat) (d : Desc) (regions : List (List Byte)) : Except Fail State :=
  if d.digest then s.writeVa p (s.srcOf p d) slotDva d.digestVa (digestOf regions) else .ok s

/-- Write the outputs, then their digest, and complete with `o`. -/
def State.putOuts (s : State) (p : Nat) (d : Desc) (outs : List (Nat × Tensor)) (o : Done) : Except Fail (State × Done) := do
  let t ← s.writeOuts p (s.srcOf p d) outs
  let t ← t.writeDigest p d (outs.map (fun x => x.2.bytes))
  .ok (t, o)

/-- Read the tensor of slot `i`. -/
def State.slotTensor (s : State) (p : Nat) (d : Desc) (b : List Byte) (i : Nat) : Except Fail Tensor :=
  s.readTensor p (s.srcOf p d) i (slotRec b i)

/-- Read the tensor of slot `i` when it is present. -/
def State.slotTensor? (s : State) (p : Nat) (d : Desc) (b : List Byte) (i : Nat) : Except Fail (Option Tensor) :=
  if slotHere b i then (s.slotTensor p d b i).map some else .ok none

/-- Batch `i` of a tensor that may have one batch for all. -/
def Tensor.batchOf (t : Tensor) (i : Nat) : Nat := if t.shape.batch = 1 then 0 else i

/-- The FP32 argument at a byte of the descriptor, where 0 means 1.0. -/
def Desc.scaleArg (d : Desc) (off : Nat) : F32 := if d.fld off 4 = 0 then f32One else BitVec.ofNat 32 (d.fld off 4)

/-! ### Variant deltas (R351 to R353) -/

/-- A delta of a weight (R351), read whole. -/
structure Delta where
  /-- KIND is low-rank -/
  low : Bool
  /-- FORMAT -/
  fmt : Nat
  /-- RANK -/
  rank : Nat
  /-- ALPHA -/
  alpha : F32
  /-- K -/
  k : Nat
  /-- N -/
  n : Nat
  /-- The bytes at DATA_VA -/
  data : List Byte
  /-- The bytes at AUX_VA -/
  aux : List Byte
deriving DecidableEq, Repr

/-- The first offending byte of a delta reference for a weight of K × N (R351). -/
def deltaBad (r : List Byte) (k n : Nat) (sparse : Bool) : List (Bool × Nat) :=
  let kind := byteAt r 0
  let nb := fieldAt r 4 4
  chk [(sparse || (kind != 1 && kind != 2), 0), (!([0x0C, 0x04, 0x05].contains (byteAt r 1)), 1),
    (if kind == 2 then fieldAt r 2 2 == 0 || fieldAt r 2 2 > 128 else fieldAt r 2 2 != 0, 2),
    (if kind == 2 then nb != 0 else nb * 256 * 20 > k * n, 4), (fieldAt r 24 4 != k, 24), (fieldAt r 28 4 != n, 28)]

/-- The block list of a sparse delta is strictly ascending (R351). -/
def deltaAscends (aux : List Byte) (nb : Nat) : Bool :=
  (List.range (nb - 1)).all (fun i =>
    fieldAt aux (4 * i) 2 * 65536 + fieldAt aux (4 * i + 2) 2 < fieldAt aux (4 * i + 4) 2 * 65536 + fieldAt aux (4 * i + 6) 2)

/-- Read the delta reference at `va` for a weight of K × N, checking it (R351); none for 0. -/
def State.readDelta (s : State) (p : Nat) (src : Option Nat) (va k n : Nat) (sparse : Bool) : Except Fail (Option Delta) :=
  if va = 0 then .ok none else do
    let r ← s.readVa p src 12 va 32
    match firstBad (deltaBad r k n sparse) with
    | some o => .error (badInBlock o)
    | none =>
      let low := byteAt r 0 == 2
      let fmt := byteAt r 1
      let w := elemBits fmt / 8
      let rank := fieldAt r 2 2
      let nb := fieldAt r 4 4
      let data ← s.readVa p src 12 (fieldAt r 12 6) (if low then k * rank * w else nb * 256 * w)
      let aux ← s.readVa p src 12 (fieldAt r 18 6) (if low then rank * n * w else nb * 4)
      if !low && !deltaAscends aux nb then .error (badInBlock 18)
      else .ok (some { low := low, fmt := fmt, rank := rank, alpha := BitVec.ofNat 32 (fieldAt r 8 4), k := k, n := n,
                       data := data, aux := aux })

/-- The element `i` of packed bytes of a delta's format. -/
def Delta.elem (d : Delta) (bs : List Byte) (i : Nat) : Num := elemNum d.fmt (rowElem bs (elemBits d.fmt) i)

/-- The delta value δ of weight element (i, j) (R352). -/
def Delta.value (d : Delta) (i j : Nat) : F32 :=
  if d.low then
    fMul d.alpha (chain ((List.range d.rank).map (fun k => (d.elem d.data (i * d.rank + k), d.elem d.aux (k * d.n + j)))))
  else
    match (List.range (d.aux.length / 4)).find? (fun b => fieldAt d.aux (4 * b) 2 == i / 16 && fieldAt d.aux (4 * b + 2) 2 == j / 16) with
    | some b => fMul d.alpha ((d.elem d.data (b * 256 + i % 16 * 16 + j % 16)).f32)
    | none => f32Zero

/-- A weight element merged with its delta: the value under its block scale, and OUT_RANGE (R352). -/
def mergeElem (fmt : Nat) (elem scale : Num) (delta : F32) : Num × Bool :=
  let sum := (elem.mul scale).add delta.num
  let x := match scale with | .fin _ _ e => sum.mul (.fin false 1 (-e)) | _ => .nan
  let r := match fmt with
    | 0x08 => fmtE3M2.encode .rne true x | 0x09 => fmtE2M3.encode .rne true x | 0x0A => fmtE2M1.encode .rne true x
    | 0x06 => fmtE4M3.encode .rne true x | 0x07 => fmtE5M2.encode .rne true x
    | 0x0B => let i := (x.mul (.fin false 1 6)).toIntFmt .rne (-127) 127 0; (ofInt 8 i.1, i.2)
    | _ => encodeElem fmt .rne true 0 x
  let inf := match x with | .inf _ => true | _ => false
  (if x.isNan && fmt != 0x01 && fmt != 0x02 && fmt != 0x03 then .nan else (elemNum fmt r.1).mul scale, r.2 || inf)

/-! ### MATMUL and CONV -/

/-- Operand formats of the 8-bit class (R70). -/
def cls8 : List Nat := [0x01, 0x02, 0x04, 0x05, 0x06, 0x07, 0x08, 0x09, 0x0B]

/-- Operand formats of the array (R70). -/
def arrayFmts : List Nat := cls8 ++ [0x03, 0x0A, 0x0C, 0x0D]

/-- A 16-bit operand: ordered mode (R78, R86). -/
def is16 (fmt : Nat) : Bool := fmt == 0x0C || fmt == 0x0D

/-- The formats that pair with a format (R75). -/
def pairsWith (fmt : Nat) : List Nat :=
  if is16 fmt then [0x0C, 0x0D] else if fmt = 0x03 ∨ fmt = 0x0A then [fmt] else cls8

/-- Output formats (R88). -/
def arrayOut (exact : Bool) : List Nat :=
  [0x0E, 0x0C, 0x0D, 0x04, 0x05, 0x0F, 0x01, 0x06, 0x07, 0x08, 0x09, 0x0A, 0x0B] ++ (if exact then [0x10] else [])

/-- ANCHOR_TABLE -/
def Desc.anchorTable (d : Desc) : Bool := bitOf (d.fld 23 1) 3

/-- The checks that MATMUL and CONV share: rows `m`, columns `n`, inner `k` and batches `b` of the product, the record
shapes of the scales of A being `sa` (R271, R272, with R74 to R76, R79, R81, R87, R95). -/
def prodBad (d : Desc) (bl : List Byte) (m n k b : Nat) (aRows aCols : Nat) (sa : Nat × Nat) : List (Bool × Nat) :=
  let fa := (slotRec bl 0).fmt
  let fb := (slotRec bl 1).fmt
  let fc := (slotRec bl 2).fmt
  let exact := !is16 fa
  let sparse := (slotRec bl 1).sparse
  let ab := [1, b]
  let blocks := cdiv m 128 * cdiv n 128
  let mxc := isMx fc
  let sc := mxShape d.conv.axis m n
  blockBad bl [
    (need arrayFmts).shape aRows aCols,
    { ((need (pairsWith fa)).shape k n).batches ab with sparse := exact },
    ((need (arrayOut exact)).shape m n).batches [b],
    ((needIf (isMx fa) [0x11]).shape sa.1 sa.2).batches [b],
    ((needIf (isMx fb) [0x11]).shape (k / 32) n).batches [(slotRec bl 1).batch],
    ((needIf sparse [0x12]).shape (k / 4) n).batches [(slotRec bl 1).batch],
    ((may (if exact then [0x0E, 0x0F] else [0x0E])).shape 1 n).batches ab,
    (if exact && !slotHere bl 6 then ((may [0x10]).shape m n).batches [b] else absent),
    ((may [0x0E]).shape 1 n).batches ab,
    (if fc == 0x01 then ((may [0x01]).shape 1 n).batches ab else absent),
    ((needIf d.anchorTable [0x15]).shape 1 blocks).batches ab,
    ((needIf mxc [0x11]).shape sc.1 sc.2).batches [b],
    (if d.op == 0x10 then may [0x14] else absent)] ++
  chk [((isMx fa || isMx fb) && k % 32 != 0, 12), (sparse && k % 4 != 0, 32 + 8), (k > 2 ^ 24, 12),
    (mxc && (if d.conv.axis then m else n) % 32 != 0, if d.conv.axis then 64 + 8 else 64 + 12)]

/-- ANCHOR and KC against the mode, as offsets in the descriptor (R79, R87, R267). -/
def modeBad (d : Desc) (exact : Bool) (k : Nat) : Option Nat :=
  let kc := d.fld 28 4
  firstBad (chk [(!exact && d.anchorTable, 23), (!exact && d.fld 24 2 != 0, 24),
    (if exact then kc != 0 else kc != 0 && (kc % 64 != 0 || kc > k), 28)])

/-- A product to be computed: batch, row, column and inner counts, and the operands at (batch, row, column, inner). -/
structure Prod_ where
  /-- Batches -/
  b : Nat
  /-- Rows -/
  m : Nat
  /-- Columns -/
  n : Nat
  /-- Inner positions -/
  k : Nat
  /-- The value of A at (batch, row, column, inner) -/
  a : Nat → Nat → Nat → Nat → Num
  /-- The value of B there, none at a position that a sparse B does not name, and OUT_RANGE of its delta -/
  w : Nat → Nat → Nat → Nat → Option (Num × Bool)

/-- The optional parts of a product: bias, preload, column scale, zero point, anchors. -/
structure ProdArgs where
  /-- Slot 6 -/
  bias : Option Tensor
  /-- Slot 7 -/
  preload : Option Tensor
  /-- Slot 8 -/
  colScale : Option Tensor
  /-- Slot 9 -/
  zero : Option Tensor
  /-- Slot 10 -/
  anchors : Option Tensor

/-- Read slots 6 to 10. -/
def State.prodArgs (s : State) (p : Nat) (d : Desc) (bl : List Byte) : Except Fail ProdArgs := do
  .ok { bias := ← s.slotTensor? p d bl 6, preload := ← s.slotTensor? p d bl 7, colScale := ← s.slotTensor? p d bl 8,
        zero := ← s.slotTensor? p d bl 9, anchors := ← s.slotTensor? p d bl 10 }

/-- The anchor of output block `e` of batch `i` (R79). -/
def anchorOf (d : Desc) (t : Option Tensor) (i e : Nat) : Int :=
  match t with
  | some x => sext 16 (x.elem (x.batchOf i) 0 e)
  | none => sext 16 (d.fld 24 2)

/-- A slot of one row: the value of column `n` for batch `i`. -/
def rowNum (t : Option Tensor) (i n : Nat) : Option Num := t.map (fun x => x.num (x.batchOf i) 0 n)

/-- An anchor outside its range in an anchor table, a preload record with a reserved bit (R79, R85): the data fault. -/
def argsFault (g : ProdArgs) : Option Fail :=
  let anchor := match g.anchors with
    | some t => (List.range t.shape.batch).any (fun i => (List.range t.shape.cols).any (fun e =>
        let a := sext 16 (t.elem i 0 e); a < -640 || a > 640))
    | none => false
  let reserved := match g.preload with
    | some t => (List.range t.shape.batch).findSome? (fun i => (List.range t.shape.rows).findSome? (fun r =>
        (List.range t.shape.cols).findSome? (fun c => accReserved (t.elem i r c))))
    | none => none
  if anchor then some (badData 10 0) else reserved.map (badData 7)

/-- One output element of an exact product: its cell after the bias and the preload (R80 to R84). -/
def exactCell (q : Prod_) (g : ProdArgs) (an : Int) (i r c : Nat) : Acc :=
  let acc := (List.range q.k).foldl (fun t k => match q.w i r c k with
    | some w => t.product an ((q.a i r c k).mul w.1)
    | none => t) ({} : Acc)
  let acc := match rowNum g.bias i c with | some x => acc.bias an x | none => acc
  match g.preload with | some t => acc.preload an (t.elem i r c) | none => acc

/-- The scale s of R89 for column `c` of batch `i`: slot 8, MATMUL's OSCALE (R271), or 1; CONV has no OSCALE (R272). -/
def outScale (d : Desc) (g : ProdArgs) (i c : Nat) : Num :=
  match rowNum g.colScale i c with | some x => x | none => if d.op = 0x11 then .fin false 1 0 else (d.scaleArg 48).num

/-- w := u × s; an exact sum of zero stays +0 (R89, R97). A value that rounds to zero at output keeps the sign of w, so under a negative scale
not that of V (DESIGN CHOICE, notes/assumptions/73.md). -/
def scaled (exact : Bool) (u sc : Num) : Num :=
  let w := u.mul sc
  if exact && u.isZero && w.isZero then .fin false 0 0 else w

/-- Compute a product and write it (R78 to R97). -/
def State.runProd (s : State) (p : Nat) (d : Desc) (bl : List Byte) (exact : Bool) (q : Prod_) (g : ProdArgs) :
    Except Fail (State × Done) :=
  match argsFault g with
  | some f => .error f
  | none =>
    let rc := slotRec bl 2
    let an := fun (i r c : Nat) => anchorOf d g.anchors i (r / 128 * cdiv q.n 128 + c / 128)
    let deltaOver := (gridOf q.b q.m q.n (fun i r c => (List.range q.k).any (fun k =>
      match q.w i r c k with | some w => w.2 | none => false))).some_ id
    let zero := fun (i c : Nat) => match g.zero with | some t => sext 8 (t.elem (t.batchOf i) 0 c) | none => 0
    let special := fun (x : Num) => x.special
    if exact then
      let cells := gridOf q.b q.m q.n (fun i r c =>
        let a := exactCell q g (an i r c) i r c
        if rc.fmt = 0x10 then let x := a.record (an i r c); (Num.nan, x.1, x.2) else let x := a.value (an i r c); (x.1, 0, x.2))
      let flags := flagIf (cells.some_ (fun x => x.2.2.low)) cfWindowLow ||| flagIf (cells.some_ (fun x => x.2.2.high)) cfWindowHigh |||
        flagIf (cells.some_ (fun x => x.2.2.specialIn)) cfSpecialIn
      if rc.fmt = 0x10 then
        s.putOuts p d [(2, rc.build (fun i r c => (cells.at_ (.nan, 0, {}) i r c).2.1))]
          { cflags := flags ||| flagIf deltaOver cfOutRange }
      else
        let w := gridOf q.b q.m q.n (fun i r c => scaled true (cells.at_ (.nan, 0, {}) i r c).1 (outScale d g i c))
        let o := d.conv.run rc.fmt 0 q.b q.m q.n zero w
        s.putOuts p d ((2, rc.ofGrid o.elems) :: (if isMx rc.fmt then [(11, (slotRec bl 11).ofGrid o.scales)] else []))
          { cflags := flags ||| flagIf (o.above || deltaOver) cfOutRange }
    else
      let terms := fun (i r c : Nat) => (List.range q.k).map (fun k =>
        (q.a i r c k, match q.w i r c k with | some w => w.1 | none => .fin false 0 0))
      let bias := fun (i c : Nat) => match rowNum g.bias i c with | some x => x | none => .fin false 0 0
      let spec := (gridOf q.b q.m q.n (fun i r c => special (bias i c) ||
        (terms i r c).any (fun x => special x.1 || special x.2))).some_ id
      let w := gridOf q.b q.m q.n (fun i r c =>
        scaled false (orderedSum (d.fld 28 4) (terms i r c) (bias i c).f32).num (outScale d g i c))
      let o := d.conv.run rc.fmt 0 q.b q.m q.n zero w
      s.putOuts p d ((2, rc.ofGrid o.elems) :: (if isMx rc.fmt then [(11, (slotRec bl 11).ofGrid o.scales)] else []))
        { cflags := flagIf spec cfSpecialIn ||| flagIf (o.above || deltaOver) cfOutRange }

/-- The place of a bad 2:4 metadata nibble (R77): the data fault. -/
def metaFault (slot : Nat) (t : Option Tensor) : Option Fail :=
  match t with
  | none => none
  | some x => (List.range x.shape.batch).findSome? (fun i => (List.range x.shape.rows).findSome? (fun g =>
      (List.range x.shape.cols).findSome? (fun n =>
        let nib := x.elem i g n
        if nib % 4 ≥ nib / 4 then some (badData slot (n / 2)) else none)))

/-- The stored value of a sparse tensor at (inner position, column), none at a position that no nibble names (R76). -/
def sparseElem (v meta_ : Tensor) (i k c : Nat) : Option Nat :=
  let nib := meta_.elem i (k / 4) c
  if k % 4 = nib % 4 then some (v.kept i (2 * (k / 4)) c)
  else if k % 4 = nib / 4 then some (v.kept i (2 * (k / 4) + 1) c)
  else none

/-- The encoding of B at (inner position, column). -/
def weightBits (v : Tensor) (meta_ : Option Tensor) (i k c : Nat) : Option Nat :=
  match meta_ with
  | some m => sparseElem v m i k c
  | none => some (v.elem i k c)

/-- The scale of an MX element, 2^0 otherwise (R74). -/
def scaleAt (t : Option Tensor) (i r c : Nat) : Num :=
  match t with | some x => scaleNum (x.elem i r c) | none => .fin false 1 0

/-- The weight operand with an optional delta for each output row. -/
def weightOf (v : Tensor) (meta_ scales : Option Tensor) (delta : Nat → Option Delta) (i r c k : Nat) : Option (Num × Bool) :=
  let i := v.batchOf i
  (weightBits v meta_ i k c).map (fun bits =>
    let e := elemNum v.shape.fmt bits
    let sc := scaleAt scales i (k / 32) c
    match delta r with
    | some d => mergeElem v.shape.fmt e sc (d.value k c)
    | none => (e.mul sc, false))

/-- The groups of a delta list (R353), with their deltas read; `bs` are the list's bytes. -/
def State.readGroups (s : State) (p : Nat) (src : Option Nat) (bs : List Byte) (m k n : Nat) (sparse : Bool) :
    (count at_ low : Nat) → Except Fail (List (Nat × Nat × Option Delta))
  | 0, _, _ => .ok []
  | count + 1, at_, low =>
    let first := fieldAt bs at_ 4
    let rows := fieldAt bs (at_ + 4) 4
    match firstBad (chk [(first < low, at_), (rows == 0 || first + rows > m, at_ + 4)] ++ resv bs (at_ + 14) 18) with
    | some o => .error (badInBlock o)
    | none => do
      let d ← s.readDelta p src (fieldAt bs (at_ + 8) 6) k n sparse
      let r ← s.readGroups p src bs m k n sparse count (at_ + 32) (first + rows)
      .ok ((first, rows, d) :: r)

/-- Slot 12 of MATMUL: the delta of each row of A (R353). -/
def State.deltaList (s : State) (p : Nat) (d : Desc) (bl : List Byte) (m k n : Nat) : Except Fail (Nat → Option Delta) :=
  if !slotHere bl 12 then .ok (fun _ => none) else do
    let t ← s.slotTensor p d bl 12
    let bs := t.bytes
    let ng := fieldAt bs 0 2
    match firstBad (chk [(ng == 0 || ng > 64 || bs.length < 16 + 32 * ng, 0)] ++ resv bs 2 14) with
    | some o => .error (badInBlock o)
    | none =>
      let gs ← s.readGroups p (s.srcOf p d) bs m k n (slotRec bl 1).sparse ng 16 0
      .ok (fun r => match gs.find? (fun g => g.1 ≤ r && r < g.1 + g.2.1) with | some g => g.2.2 | none => none)

/-- The delta list of MATMUL, at check 7 (R257, R351, R353). -/
def State.matmulLists (s : State) (p : Nat) (d : Desc) (bl : List Byte) : Option Fail :=
  failOf (s.deltaList p d bl (slotRec bl 0).rows (slotRec bl 0).cols (slotRec bl 1).cols)

/-- MATMUL's own checks (R271). -/
def matmulBad (d : Desc) (bl : List Byte) : List (Bool × Nat) :=
  let a := slotRec bl 0
  prodBad d bl a.rows (slotRec bl 1).cols a.cols a.batch a.rows a.cols (a.rows, a.cols / 32)

/-- MATMUL (R271). -/
def State.runMatmul (s : State) (p : Nat) (d : Desc) (bl : List Byte) : Except Fail (State × Done) := do
  let a ← s.slotTensor p d bl 0
  let b ← s.slotTensor p d bl 1
  let sa ← s.slotTensor? p d bl 3
  let sb ← s.slotTensor? p d bl 4
  let mt ← s.slotTensor? p d bl 5
  let g ← s.prodArgs p d bl
  let delta ← s.deltaList p d bl a.shape.rows a.shape.cols b.shape.cols
  match metaFault 5 mt with
  | some f => .error f
  | none =>
    s.runProd p d bl (!is16 a.shape.fmt)
      { b := a.shape.batch, m := a.shape.rows, n := b.shape.cols, k := a.shape.cols
        a := fun i r _ k => (a.num i r k).mul (scaleAt sa i r (k / 32))
        w := weightOf b mt sb delta } g

/-- The geometry of CONV (R272). -/
structure ConvGeo where
  ih : Nat
  iw : Nat
  kh : Nat
  kw : Nat
  sh : Nat
  sw : Nat
  dh : Nat
  dw : Nat
  pt : Nat
  pl : Nat
  pb : Nat
  pr : Nat
  g : Nat

/-- OPARGS of CONV. -/
def Desc.geo (d : Desc) : ConvGeo :=
  { ih := d.fld 48 2, iw := d.fld 50 2, kh := d.fld 52 1, kw := d.fld 53 1, sh := bitsOf (d.fld 54 1) 3 0,
    sw := bitsOf (d.fld 54 1) 7 4, dh := bitsOf (d.fld 55 1) 3 0, dw := bitsOf (d.fld 55 1) 7 4, pt := d.fld 56 1,
    pl := d.fld 57 1, pb := d.fld 58 1, pr := d.fld 59 1, g := d.fld 60 2 }

/-- One output extent, 0 where the kernel does not fit. -/
def convOut (n lo hi dil k stride : Nat) : Nat :=
  if n + lo + hi < dil * (k - 1) + 1 then 0 else (n + lo + hi - dil * (k - 1) - 1) / stride + 1

/-- OUT_H -/
def ConvGeo.oh (g : ConvGeo) : Nat := convOut g.ih g.pt g.pb g.dh g.kh g.sh
/-- OUT_W -/
def ConvGeo.ow (g : ConvGeo) : Nat := convOut g.iw g.pl g.pr g.dw g.kw g.sw

/-- CONV's own checks (R272). An MX input needs C a multiple of 32, which R272 does not say, beside the K of R74 (DESIGN CHOICE,
notes/assumptions/75.md). -/
def convBad (d : Desc) (bl : List Byte) : List (Bool × Nat) :=
  let x := slotRec bl 0
  let g := d.geo
  let oc := (slotRec bl 1).cols
  let k := g.kh * g.kw * (x.cols / g.g)
  prodBad d bl (g.oh * g.ow) oc k x.batch (g.ih * g.iw) x.cols (g.ih * g.iw, x.cols / 32) ++
  chk [(x.cols % g.g != 0, 12), (oc % g.g != 0, 32 + 12), (isMx x.fmt && x.cols % 32 != 0, 12)]

/-- CONV (R272). -/
def State.runConv (s : State) (p : Nat) (d : Desc) (bl : List Byte) : Except Fail (State × Done) := do
  let x ← s.slotTensor p d bl 0
  let w ← s.slotTensor p d bl 1
  let sa ← s.slotTensor? p d bl 3
  let sb ← s.slotTensor? p d bl 4
  let mt ← s.slotTensor? p d bl 5
  let args ← s.prodArgs p d bl
  let g := d.geo
  let cg := x.shape.cols / g.g
  let ocg := w.shape.cols / g.g
  match metaFault 5 mt with
  | some f => .error f
  | none =>
    s.runProd p d bl (!is16 x.shape.fmt)
      { b := x.shape.batch, m := g.oh * g.ow, n := w.shape.cols, k := g.kh * g.kw * cg
        a := fun i r c k =>
          let y := r / g.ow * g.sh + k / cg / g.kw * g.dh
          let z := r % g.ow * g.sw + k / cg % g.kw * g.dw
          let ch := c / ocg * cg + k % cg
          if y < g.pt || z < g.pl || y - g.pt ≥ g.ih || z - g.pl ≥ g.iw then .fin false 0 0
          else
            let px := (y - g.pt) * g.iw + (z - g.pl)
            (x.num i px ch).mul (scaleAt sa i px (ch / 32))
        w := weightOf w mt sb (fun _ => none) } args

/-- A product command's checks: ANCHOR and KC against the mode, which follows the operands, then the block. -/
def prodCheck (bad : Desc → List Byte → List (Bool × Nat)) (inner : Desc → List Byte → Nat)
    (run : State → Nat → Desc → List Byte → Except Fail (State × Done)) (s : State) (p : Nat) (d : Desc) : Option Fail :=
  match s.paramBlock p d with
  | .error f => some f
  | .ok b =>
    match modeBad d (!is16 (slotRec b 0).fmt) (inner d b) with
    | some o => some (badAt o)
    | none => (tensorCourse bad run).check s p d

/-- A product command's course. -/
def prodCourse (bad : Desc → List Byte → List (Bool × Nat)) (inner : Desc → List Byte → Nat)
    (run : State → Nat → Desc → List Byte → Except Fail (State × Done)) : Course :=
  { tensorCourse bad run with check := fun s p d => prodCheck bad inner run s p d }

/-! ### Vector commands -/

/-- A slot that matches slot 0 or broadcasts along a dimension of size 1 (R273). -/
def broadcastBad (bl : List Byte) (i : Nat) : List (Bool × Nat) :=
  let a := slotRec bl 0
  let r := slotRec bl i
  if slotHere bl i then
    chk [(r.rows != a.rows && r.rows != 1, 32 * i + 8), (r.cols != a.cols && r.cols != 1, 32 * i + 12),
      (r.batch != a.batch && r.batch != 1, 32 * i + 20)]
  else []

/-- The OP uses b (R273). -/
def eltUsesB (op : Nat) : Bool := op ≤ 0x06 || op == 0x20 || op == 0x21

/-- ELTWISE's own checks. -/
def eltwiseBad (d : Desc) (bl : List Byte) : List (Bool × Nat) :=
  let op := d.fld 48 1
  let a := slotRec bl 0
  blockBad bl [need vIn, needIf (eltUsesB op) vIn, needIf (op == 0x06) vIn,
    ((need vOut).shape a.rows a.cols).batches [a.batch]] ++ broadcastBad bl 1 ++ broadcastBad bl 2

/-- The FP32 result of an OP (R273). -/
def eltOp (op : Nat) (a b c sArg tArg : F32) : F32 :=
  match op with
  | 0x00 => fAdd a b
  | 0x01 => fSub a b
  | 0x02 => fMul a b
  | 0x03 => fMul a (sfuRecip b)
  | 0x04 => fMax a b
  | 0x05 => fMin a b
  | 0x06 => fFma a b c
  | 0x07 => fFma a sArg tArg
  | 0x10 => sfuExp2 (fMul a sArg)
  | 0x11 => sfuLog2 (fMul a sArg)
  | 0x12 => sfuRsqrt (fMul a sArg)
  | 0x13 => sfuRecip (fMul a sArg)
  | 0x14 => sfuTanh (fMul a sArg)
  | 0x15 => sfuErf (fMul a sArg)
  | 0x16 => sfuSigmoid (fMul a sArg)
  | 0x17 => sfuSilu (fMul a sArg)
  | 0x18 => sfuGelu (fMul a sArg)
  | 0x20 => fMul (sfuSilu a) b
  | _ => fMul (sfuGelu a) b

/-- The INT32 result of an OP before it wraps or saturates (R51, R273). -/
def eltInt (op : Nat) (a b : Int) : Int :=
  match op with
  | 0x00 => a + b | 0x01 => a - b | 0x02 => a * b | 0x04 => max a b | _ => min a b

/-- The element of an operand that may broadcast. -/
def Tensor.spread (t : Tensor) (i r c : Nat) : Nat :=
  t.elem (t.batchOf i) (if t.shape.rows = 1 then 0 else r) (if t.shape.cols = 1 then 0 else c)

/-- That element in FP32 (R100), +0 for an absent operand. -/
def spread32 (t : Option Tensor) (i r c : Nat) : F32 :=
  match t with | some x => (elemNum x.shape.fmt (x.spread i r c)).f32 | none => f32Zero

/-- ELTWISE (R273). -/
def State.runEltwise (s : State) (p : Nat) (d : Desc) (bl : List Byte) : Except Fail (State × Done) := do
  let a ← s.slotTensor p d bl 0
  let b ← s.slotTensor? p d bl 1
  let c ← s.slotTensor? p d bl 2
  let ro := slotRec bl 3
  let op := d.fld 48 1
  let isInt := fun (t : Option Tensor) => match t with | some x => x.shape.fmt == 0x0F | none => true
  let sArg : F32 := BitVec.ofNat 32 (d.fld 52 4)
  let tArg : F32 := BitVec.ofNat 32 (d.fld 56 4)
  if [0x00, 0x01, 0x02, 0x04, 0x05].contains op && a.shape.fmt == 0x0F && isInt b && ro.fmt == 0x0F then
    let es := gridOf ro.batch ro.rows ro.cols (fun i r k =>
      let y := match b with | some t => sext 32 (t.spread i r k) | none => 0
      let v := eltInt op (sext 32 (a.elem i r k)) y
      let z := clampInt (-2147483648) 2147483647 v
      if d.conv.sat then (ofInt 32 z.1, z.2) else (ofInt 32 v, false))
    s.putOuts p d [(3, ro.build (fun i r k => (es.at_ (0, false) i r k).1))]
      { cflags := flagIf (es.some_ Prod.snd) cfOutRange }
  else
    let w := gridOf ro.batch ro.rows ro.cols (fun i r k =>
      (eltOp op (spread32 (some a) i r k) (spread32 b i r k) (spread32 c i r k) sArg tArg).num)
    let o := d.conv.run ro.fmt 0 ro.batch ro.rows ro.cols (fun _ _ => 0) w
    s.putOuts p d [(3, ro.ofGrid o.elems)] { cflags := flagIf o.above cfOutRange }

/-- REDUCE's own checks (R274). -/
def reduceBad (d : Desc) (bl : List Byte) : List (Bool × Nat) :=
  let x := slotRec bl 0
  let sh := if d.fld 49 1 = 0 then (x.rows, 1) else (1, x.cols)
  blockBad bl [need vIn, ((need vOut).shape sh.1 sh.2).batches [x.batch],
    ((needIf (d.fld 48 1 ≥ 4) [0x13]).shape sh.1 sh.2).batches [x.batch]]

/-- The index that ARGMAX or ARGMIN gives: the first NaN, else the lowest of the best (R274). -/
def argBest (isMax : Bool) (xs : List F32) : Nat :=
  match xs.findIdx? (fun x => x.isNan) with
  | some i => i
  | none =>
    (xs.zipIdx.foldl (fun (a : F32 × Nat) x =>
      if (if isMax then a.1.num.below x.1.num else x.1.num.below a.1.num) then x else a) (xs.headD f32Zero, 0)).2

/-- The value that REDUCE gives for one row or column. -/
def reduceOne (op : Nat) (xs : List F32) : F32 :=
  match op with
  | 0 => laneReduce fAdd xs
  | 1 => laneReduce fMax xs
  | 2 => laneReduce fMin xs
  | 3 => laneReduce fAdd (xs.map (fun x => fMul x x))
  | 4 => laneReduce fMax xs
  | _ => laneReduce fMin xs

/-- REDUCE (R274). -/
def State.runReduce (s : State) (p : Nat) (d : Desc) (bl : List Byte) : Except Fail (State × Done) := do
  let x ← s.slotTensor p d bl 0
  let ro := slotRec bl 1
  let op := d.fld 48 1
  let line := fun (i r c : Nat) =>
    if d.fld 49 1 = 0 then (List.range x.shape.cols).map (fun k => x.f32 i r k)
    else (List.range x.shape.rows).map (fun k => x.f32 i k c)
  let w := gridOf ro.batch ro.rows ro.cols (fun i r c => (reduceOne op (line i r c)).num)
  let o := d.conv.run ro.fmt 0 ro.batch ro.rows ro.cols (fun _ _ => 0) w
  let idx := if op ≥ 4 then [(2, (slotRec bl 2).build (fun i r c => argBest (op == 4) (line i r c)))] else []
  s.putOuts p d ((1, ro.ofGrid o.elems) :: idx) { cflags := flagIf o.above cfOutRange }

/-- NORM's own checks (R275). -/
def normBad (d : Desc) (bl : List Byte) : List (Bool × Nat) :=
  let x := slotRec bl 0
  let vec := (may vIn).shape 1 x.cols
  let same := fun (q : SlotRule) => (q.shape x.rows x.cols).batches [x.batch]
  blockBad bl [need vIn, ((need vIn).shape 1 x.cols).batches [1, x.batch],
    (if d.fld 48 1 = 0 then vec.batches [1, x.batch] else absent), same (need vOut), same (may vIn), same (may vOut)]

/-- The normalised row (R275): h, γ and β in FP32. -/
def normRow (rms : Bool) (eps : F32) (h gamma beta : List F32) : List F32 :=
  let n := h.length
  let rn := (recipNum false n 0).f32
  let sum := laneReduce fAdd
  if rms then
    let ms := fMul (sum (h.map (fun x => fMul x x))) rn
    let r := sfuRsqrt (fAdd ms eps)
    h.zipIdx.map (fun x => fMul (fMul x.1 r) (gamma.getD x.2 f32Zero))
  else
    let mu := fMul (sum h) rn
    let c := h.map (fun x => fSub x mu)
    let var := fMul (sum (c.map (fun x => fMul x x))) rn
    let r := sfuRsqrt (fAdd var eps)
    c.zipIdx.map (fun x => fAdd (fMul (fMul x.1 r) (gamma.getD x.2 f32Zero)) (beta.getD x.2 f32Zero))

/-- NORM (R275). -/
def State.runNorm (s : State) (p : Nat) (d : Desc) (bl : List Byte) : Except Fail (State × Done) := do
  let x ← s.slotTensor p d bl 0
  let ga ← s.slotTensor p d bl 1
  let be ← s.slotTensor? p d bl 2
  let r ← s.slotTensor? p d bl 4
  let sh := x.shape
  let cols := List.range sh.cols
  let hs := gridOf sh.batch sh.rows sh.cols (fun i j k =>
    match r with | some t => fAdd (x.f32 i j k) (t.f32 i j k) | none => x.f32 i j k)
  let vec := fun (t : Option Tensor) (i : Nat) =>
    cols.map (fun k => match t with | some v => v.f32 (v.batchOf i) 0 k | none => f32Zero)
  let ys := (List.range sh.batch).map (fun i => (List.range sh.rows).map (fun j =>
    (normRow (d.fld 48 1 == 1) (BitVec.ofNat 32 (d.fld 52 4)) ((hs.getD i []).getD j []) (vec (some ga) i) (vec be i)).map
      F32.num))
  let o := d.conv.run (slotRec bl 3).fmt 0 sh.batch sh.rows sh.cols (fun _ _ => 0) ys
  let h := d.conv.run (slotRec bl 5).fmt 1 sh.batch sh.rows sh.cols (fun _ _ => 0)
    (hs.map (fun a => a.map (fun b => b.map F32.num)))
  let here := slotHere bl 5
  s.putOuts p d ((3, (slotRec bl 3).ofGrid o.elems) :: (if here then [(5, (slotRec bl 5).ofGrid h.elems)] else []))
    { cflags := flagIf (o.above || (here && h.above)) cfOutRange }

/-- SOFTMAX's own checks (R276). -/
def softmaxBad (_d : Desc) (bl : List Byte) : List (Bool × Nat) :=
  let x := slotRec bl 0
  blockBad bl [need vIn, ((need vOut).shape x.rows x.cols).batches [x.batch],
    ((may [0x0E]).shape x.rows 1).batches [x.batch]]

/-- The softmax of a row and its log-sum-exp (R276). -/
def softmaxRow (sc : F32) (xs : List F32) : List F32 × F32 :=
  if xs.any (fun x => x.isNan) then (xs.map (fun _ => f32Nan), f32Nan)
  else if xs.all (fun x => x == f32NegInf) then (xs.map (fun _ => f32Zero), f32NegInf)
  else
    let z := xs.map (fun x => fMul x sc)
    let m := laneReduce fMax z
    let e := z.map (fun x => sfuExp2 (fMul (fSub x m) f32L2E))
    let sigma := laneReduce fAdd e
    let r := sfuRecip sigma
    (e.map (fun x => fMul x r), fAdd m (fMul (sfuLog2 sigma) f32LN2))

/-- SOFTMAX (R276). -/
def State.runSoftmax (s : State) (p : Nat) (d : Desc) (bl : List Byte) : Except Fail (State × Done) := do
  let x ← s.slotTensor p d bl 0
  let sh := x.shape
  let rows := (List.range sh.batch).map (fun i => (List.range sh.rows).map (fun j =>
    softmaxRow (d.scaleArg 52) ((List.range sh.cols).map (fun k => x.f32 i j k))))
  let ys := rows.map (fun a => a.map (fun b => b.1.map F32.num))
  let o := d.conv.run (slotRec bl 1).fmt 0 sh.batch sh.rows sh.cols (fun _ _ => 0) ys
  let lse := (slotRec bl 2).build (fun i j _ => (((rows.getD i []).getD j ([], f32Zero)).2).toNat)
  s.putOuts p d ((1, (slotRec bl 1).ofGrid o.elems) :: (if slotHere bl 2 then [(2, lse)] else []))
    { cflags := flagIf o.above cfOutRange }

/-! ### CONVERT, GATHER, SCATTER -/

/-- Destinations of CONVERT for a source format (R100): those of R88 but ACC160; INT16 and UINT32 where they hold every value of the source,
and for an MX or ACC160 source, whose rows name any other format; and E8M0 for itself. An integer that does not fit a narrower integer format
saturates as R94 has it for floating point (DESIGN CHOICE, notes/assumptions/74.md). -/
def convertOut (fmt : Nat) : List Nat :=
  let wide := isMx fmt || fmt == 0x10
  vOut ++ [0x06, 0x07, 0x08, 0x09, 0x0A, 0x0B] ++
    (if wide || [0x01, 0x02, 0x03, 0x15].contains fmt then [0x15] else []) ++ (if wide || [0x02, 0x13].contains fmt then [0x13] else []) ++
    (if fmt = 0x11 then [0x11] else [])

/-- CONVERT's own checks (R100, R277). -/
def convertBad (d : Desc) (bl : List Byte) : List (Bool × Nat) :=
  let x := slotRec bl 0
  let fo := (slotRec bl 1).fmt
  let sc := mxShape d.conv.axis x.rows x.cols
  let odd := (if d.conv.axis then x.rows else x.cols) % 32 != 0
  let off := if d.conv.axis then 8 else 12
  blockBad bl [need (vIn ++ [0x06, 0x07, 0x08, 0x09, 0x0A, 0x0B, 0x10, 0x11]),
    ((need (convertOut x.fmt)).shape x.rows x.cols).batches [x.batch],
    ((needIf (isMx fo) [0x11]).shape sc.1 sc.2).batches [x.batch],
    ((needIf (isMx x.fmt) [0x11]).shape sc.1 sc.2).batches [x.batch]] ++
  chk [(isMx x.fmt && odd, off), (isMx fo && odd, 32 + off)]

/-- CONVERT (R100, R277). -/
def State.runConvert (s : State) (p : Nat) (d : Desc) (bl : List Byte) : Except Fail (State × Done) := do
  let x ← s.slotTensor p d bl 0
  let sc ← s.slotTensor? p d bl 3
  let sh := x.shape
  let isAcc := sh.fmt == 0x10
  let bad := if isAcc then (List.range sh.batch).findSome? (fun i => (List.range sh.rows).findSome? (fun r =>
      (List.range sh.cols).findSome? (fun c => accReserved (x.elem i r c)))) else none
  match bad with
  | some o => .error (badData 0 o)
  | none =>
    let acc := fun (i r c : Nat) =>
      let bits := x.elem i r c
      let an := sext 16 (bitsOf bits 191 176)
      (({} : Acc).preload an bits).value an
    let w := gridOf sh.batch sh.rows sh.cols (fun i r c =>
      if isAcc then (acc i r c).1
      else if sh.fmt = 0x11 then scaleNum (x.elem i r c)
      else (x.num i r c).mul (scaleAt sc i (if d.conv.axis then r / 32 else r) (if d.conv.axis then c else c / 32)))
    let accs := if isAcc then gridOf sh.batch sh.rows sh.cols (fun i r c => (acc i r c).2) else []
    let ro := slotRec bl 1
    let o := d.conv.run ro.fmt 0 sh.batch sh.rows sh.cols (fun _ _ => 0) w
    s.putOuts p d ((1, ro.ofGrid o.elems) :: (if isMx ro.fmt then [(2, (slotRec bl 2).ofGrid o.scales)] else []))
      { cflags := flagIf o.above cfOutRange ||| flagIf (accs.some_ (fun a => a.low)) cfWindowLow |||
          flagIf (accs.some_ (fun a => a.high)) cfWindowHigh }

/-- Every format of R270; GATHER and SCATTER WRITE move the rows of any of them unchanged (R277). -/
def allFmts : List Nat :=
  [0x01, 0x02, 0x03, 0x04, 0x05, 0x06, 0x07, 0x08, 0x09, 0x0A, 0x0B, 0x0C, 0x0D, 0x0E, 0x0F, 0x10, 0x11, 0x12, 0x13, 0x14, 0x15]

/-- GATHER's own checks (R277). -/
def gatherBad (_d : Desc) (bl : List Byte) : List (Bool × Nat) :=
  let t := slotRec bl 0
  let x := slotRec bl 1
  let o := slotRec bl 2
  blockBad bl [(need allFmts).batches [1, x.batch], { need [0x13] with rows := some 1 },
    { ((need [t.fmt]).shape x.cols t.cols).batches [x.batch] with sparse := true },
    ((needIf o.sparse [0x12]).shape (x.cols / 4) t.cols).batches [x.batch]]

/-- GATHER (R277). -/
def State.runGather (s : State) (p : Nat) (d : Desc) (bl : List Byte) : Except Fail (State × Done) := do
  let t ← s.slotTensor p d bl 0
  let x ← s.slotTensor p d bl 1
  let mt ← s.slotTensor? p d bl 3
  let ro := slotRec bl 2
  match metaFault 3 mt with
  | some f => .error f
  | none =>
    let row := fun (i j c : Nat) =>
      let k := x.elem i 0 j
      if k < t.shape.rows then t.elem (t.batchOf i) k c else 0
    let out := ro.build (fun i j c =>
      match mt with
      | some m =>
        let nib := m.elem i (j / 2) c
        row i (4 * (j / 2) + (if j % 2 = 0 then nib % 4 else nib / 4)) c
      | none => row i j c)
    let bad := ((List.range x.shape.batch).flatMap (fun i => (List.range x.shape.cols).filter (fun j =>
      t.shape.rows ≤ x.elem i 0 j))).length
    s.putOuts p d [(2, out)] { result := satTo 32 bad, cflags := flagIf (bad != 0) cfOutRange }

/-- SCATTER's own checks (R277). -/
def scatterBad (d : Desc) (bl : List Byte) : List (Bool × Nat) :=
  let add := d.fld 48 1 == 1
  let q := slotRec bl 0
  blockBad bl [{ need (if add then vIn else allFmts) with sparse := true },
    ((need [0x13]).shape 1 q.rows).batches [q.batch],
    { (need (if add then vOut else [q.fmt])).batches [q.batch] with cols := some q.cols },
    ((needIf q.sparse [0x12]).shape (q.rows / 4) q.cols).batches [q.batch]]

/-- The source rows that go to destination row `r` of batch `i`, ascending. -/
def hitsOf (x : Tensor) (i r : Nat) : List Nat := (List.range x.shape.cols).filter (fun j => x.elem i 0 j == r)

/-- SCATTER (R277). -/
def State.runScatter (s : State) (p : Nat) (d : Desc) (bl : List Byte) : Except Fail (State × Done) := do
  let q ← s.slotTensor p d bl 0
  let x ← s.slotTensor p d bl 1
  let mt ← s.slotTensor? p d bl 3
  let rd := slotRec bl 2
  let add := d.fld 48 1 == 1
  match metaFault 3 mt with
  | some f => .error f
  | none =>
    let src := fun (i r c : Nat) => match mt with | some m => (sparseElem q m i r c).getD 0 | none => q.elem i r c
    let wide := fun (fmt bits : Nat) => (elemNum fmt bits).f32
    let old ← if add || rd.trans then s.readTensor p (s.srcOf p d) 2 rd else .ok { shape := rd, rows := [] }
    let new := gridOf rd.batch rd.rows rd.cols (fun i r c =>
      match hitsOf x i r with
      | [] => (old.elem i r c, false)
      | hs =>
        if add then
          let v := hs.foldl (fun a j => fAdd a (wide q.shape.fmt (src i j c))) (wide rd.fmt (old.elem i r c))
          encodeElem rd.fmt (roundingOf d.conv.sr d.conv.seed 0 ((i * rd.rows + r) * rd.cols + c)) d.conv.sat 0 v.num
        else (src i (hs.getLastD 0) c, false))
    let out := rd.ofGrid (new.map (fun a => a.map (fun b => b.map Prod.fst)))
    let hit := fun (y : Nat × Nat) => rd.trans || !(hitsOf x y.1 y.2).isEmpty
    let rows := ((rd.rowList.map (fun y => (y, rd.rowVa y.1 y.2))).zip out.rows).filter (fun z => hit z.1.1)
    let t ← s.writeRows p (s.srcOf p d) 2 (rows.map (fun z => (z.1.2, z.2)))
    let t ← if d.digest then do t.writeDigest p d [(← t.readTensor p (s.srcOf p d) 2 rd).bytes] else .ok t
    let out' := (List.range x.shape.batch).any (fun i => (List.range x.shape.cols).any (fun j => rd.rows ≤ x.elem i 0 j))
    .ok (t, { cflags := flagIf (out' || new.some_ Prod.snd) cfOutRange })

/-! ### COPY, FILL, DIGEST -/

/-- What a read of host memory that failed gives its command (R215). -/
def hostFail : HostRead → Option Fail
  | .data _ | .sealed _ => none
  | .refused => some (.status stAccessDenied 6)
  | .poisoned => some (.status stMemUncorrectable 0)
  | .timedOut => some (.status stTimeout 0)

/-- The plaintext of sealed units up to the first that fails, and that one's index (R460): its tag fails, its SEQ has been
used in the session, or it does not rise with the unit index. -/
def openUnits (seen : List Nat) (last : Option Nat) (i : Nat) : List (List Byte × Bool × Nat) → List Byte × Option Nat
  | [] => ([], none)
  | (bs, ok, seq) :: us =>
    if !ok || seen.contains seq || (match last with | some l => decide (seq ≤ l) | none => false) then ([], some i)
    else let r := openUnits seen (some seq) (i + 1) us; (bs ++ r.1, r.2)

/-- Input data for partition p from host memory (R215, R216, R460): the bytes and the unit at which they break off, or the
failure. A sealed partition takes opened units only. -/
def State.hostInput (s : State) (p : Nat) (h : HostRead) : Except Fail (List Byte × Option Nat) :=
  match hostFail (s.hostGives h) with
  | some f => .error f
  | none =>
    match s.isSealed p, h with
    | true, .sealed us => .ok (openUnits (s.part p).sec.seenSeqs none 0 (us.zipIdx.map (fun x => s.unseal p 5 0 x.2 x.1)))
    | false, .data bs => .ok (bs, none)
    | _, _ => .ok ([], some 0)

/-- Count a failed read of host memory (R248, R246), and use up the SEQs of opened units (R460). -/
def State.noteHostRead (s : State) (p : Nat) (h : HostRead) : State :=
  match s.hostGives h with
  | .data _ => s
  | .sealed us => s.onSec p (fun x => { x with seenSeqs := us.map (fun u => fieldAt u.2 0 8) ++ x.seenSeqs })
  | _ => s.countRdErr p

/-- SRC_HOST of COPY. -/
def Desc.srcHost (d : Desc) : Bool := bitOf (d.fld 48 1) 0
/-- DST_HOST of COPY. -/
def Desc.dstHost (d : Desc) : Bool := bitOf (d.fld 48 1) 1

/-- COPY's own checks (R278). -/
def copyBad (_d : Desc) (bl : List Byte) : List (Bool × Nat) :=
  let a := slotRec bl 0
  blockBad bl [{ need allFmts with sparse := true },
    { ((need [a.fmt]).shape a.rows a.cols).batches [a.batch] with sparse := true }] ++
  chk [((slotRec bl 1).sparse != a.sparse, 32 + 7)]

/-- A tensor whose stored rows stand one after the other in bytes. -/
def TRec.ofPacked (r : TRec) (bs : List Byte) : Tensor :=
  { shape := r, rows := (List.range r.rowList.length).map (fun i => sliceOf bs (i * r.packed) r.packed) }

/-- The tensor of `to_` that holds the logical tensor `t` (R278). -/
def Tensor.recast (t : Tensor) (to_ : TRec) : Tensor :=
  if t.shape.trans = to_.trans then { shape := to_, rows := t.rows }
  else to_.build (fun i r c => if to_.sparse then t.kept i r c else t.elem i r c)

/-- Write a tensor's stored rows to host memory from a bus address on. -/
def State.hostRows (s : State) (p addr : Nat) (t : Tensor) : State :=
  if s.isSealed p then s.putRegion p 0 addr t.bytes
  else ((t.shape.rowList.map (fun x => addr + (t.shape.rowVa x.1 x.2 - t.shape.va))).zip t.rows).foldl
    (fun u x => u.hostWriteAs p x.1 x.2) s

/-- COPY (R278). -/
def State.runCopy (s : State) (p : Nat) (d : Desc) (h : HostRead) (bl : List Byte) : Except Fail (State × Done) := do
  let r0 := slotRec bl 0
  let r1 := slotRec bl 1
  let inp ← if d.srcHost then s.hostInput p h else .ok ([], none)
  let src ← if d.srcHost then .ok (r0.ofPacked inp.1) else s.slotTensor p d bl 0
  let out := src.recast r1
  match inp.2 with
  | some i =>
    if r0.trans != r1.trans then .error (.status stCrcMismatch i)
    else
      let t ← s.writeRows p (s.srcOf p d) 1 ((r1.rowList.map (fun x => r1.rowVa x.1 x.2)).zip out.rows)
      .ok (t, { status := stCrcMismatch, result := i })
  | none =>
  if d.dstHost then
    let t := s.hostRows p (d.fld 56 8) out
    .ok (← t.writeDigest p d [out.bytes], {})
  else s.putOuts p d [(1, out)] {}

/-- FILL's own checks (R278). -/
def fillBad (_d : Desc) (bl : List Byte) : List (Bool × Nat) := blockBad bl [need allFmts]

/-- The first byte of PATTERN with a bit above the element's width (R278). -/
def patternBad (d : Desc) (bl : List Byte) : Option Nat :=
  let w := elemBits (slotRec bl 0).fmt
  let above := fun (i : Nat) => d.fld (48 + i) 1 * 2 ^ (8 * i) / 2 ^ w != 0
  (List.range 8).findSome? (fun i => if above i then some (48 + i) else none)

/-- FILL (R278). -/
def State.runFill (s : State) (p : Nat) (d : Desc) (bl : List Byte) : Except Fail (State × Done) :=
  s.putOuts p d [(0, (slotRec bl 0).build (fun _ _ _ => d.fld 48 8))] {}

/-- DIGEST's own checks (R279). -/
def digestBadBlock (d : Desc) (bl : List Byte) : List (Bool × Nat) :=
  blockBad bl (List.replicate (d.fld 22 1) (need allFmts))

/-- DIGEST (R279). -/
def State.runDigest (s : State) (p : Nat) (d : Desc) (bl : List Byte) : Except Fail (State × Done) := do
  let regions ← (List.range (d.fld 22 1)).mapM (fun i => (s.slotTensor p d bl i).map Tensor.bytes)
  let dg := digestOf regions
  let t ← s.writeVa p (s.srcOf p d) slotDva d.digestVa dg
  let differs := bitOf (d.fld 23 1) 4 && dg != sliceOf d.bytes 48 16
  .ok (t, { status := if differs then stDigestMismatch else stOk, result := fieldAt dg 0 4 })

/-! ### The rows -/

/-- MATMUL (R271). -/
def execMatmul (d : DescRef) (s : State) : Host.Outcome State Fault Refusal :=
  .next (s.runDesc d (isOp 0x10)
    ((prodCourse matmulBad (fun _ b => (slotRec b 0).cols) State.runMatmul).withLists State.matmulLists))

/-- CONV (R272). -/
def execConv (d : DescRef) (s : State) : Host.Outcome State Fault Refusal :=
  .next (s.runDesc d (isOp 0x11)
    (prodCourse convBad (fun d b => d.geo.kh * d.geo.kw * ((slotRec b 0).cols / d.geo.g)) State.runConv))

/-- ELTWISE (R273). -/
def execEltwise (d : DescRef) (s : State) : Host.Outcome State Fault Refusal :=
  .next (s.runDesc d (isOp 0x12) (tensorCourse eltwiseBad State.runEltwise))

/-- REDUCE (R274). -/
def execReduce (d : DescRef) (s : State) : Host.Outcome State Fault Refusal :=
  .next (s.runDesc d (isOp 0x13) (tensorCourse reduceBad State.runReduce))

/-- NORM (R275). -/
def execNorm (d : DescRef) (s : State) : Host.Outcome State Fault Refusal :=
  .next (s.runDesc d (isOp 0x14) (tensorCourse normBad State.runNorm))

/-- SOFTMAX (R276). -/
def execSoftmax (d : DescRef) (s : State) : Host.Outcome State Fault Refusal :=
  .next (s.runDesc d (isOp 0x15) (tensorCourse softmaxBad State.runSoftmax))

/-- CONVERT (R100, R277). -/
def execConvert (d : DescRef) (s : State) : Host.Outcome State Fault Refusal :=
  .next (s.runDesc d (isOp 0x16) (tensorCourse convertBad State.runConvert))

/-- GATHER (R277). -/
def execGather (d : DescRef) (s : State) : Host.Outcome State Fault Refusal :=
  .next (s.runDesc d (isOp 0x17) (tensorCourse gatherBad State.runGather))

/-- SCATTER (R277). -/
def execScatter (d : DescRef) (s : State) : Host.Outcome State Fault Refusal :=
  .next (s.runDesc d (isOp 0x18) (tensorCourse scatterBad State.runScatter))

/-- The failure ends a transfer: a fault in translation or in rights (R57). -/
def endsMove : Fail → Bool
  | .xlat .. | .rights .. => true
  | _ => false

/-- What a COPY that a fault ends has moved, where stored rows move unchanged within device memory; else its output is undefined. -/
def State.copyLeft (s : State) (p : Nat) (d : Desc) (f : Fail) : State :=
  let block := s.blockOf p d
  let a := slotRec block 0
  let b := slotRec block 1
  if endsMove f && d.fld 48 1 % 4 = 0 && a.trans == b.trans then
    (a.ranges.zip b.ranges).foldl (fun (t : State) x => t.copySome p (s.srcOf p d) x.1.1 x.2.1 x.2.2) s
  else s.spoilFor p d f

/-- What a FILL that a fault ends has written. -/
def State.fillLeft (s : State) (p : Nat) (d : Desc) (f : Fail) : State :=
  let r := slotRec (s.blockOf p d) 0
  if endsMove f then
    ((r.rowList.map (fun x => r.rowVa x.1 x.2)).zip (r.build (fun _ _ _ => d.fld 48 8)).rows).foldl
      (fun (t : State) x => t.moveSome p (s.srcOf p d) x.1 x.2) s
  else s.spoilFor p d f

/-- COPY (R278): `h` is what the reads of its host-side source returned. -/
def execCopy (d : DescRef) (h : HostRead) (s : State) : Host.Outcome State Fault Refusal :=
  let c := { tensorCourse copyBad (fun s p x b => s.runCopy p x h b) with leaves := State.copyLeft }
  let reads := !d.startOnly && (match s.desc? d.part d.num with
    | some x => isOp 0x19 x && x.srcHost && s.reaches c d.part x
    | none => false)
  let t := s.runDesc d (isOp 0x19) c
  .next (if reads then t.noteHostRead d.part h else t)

/-- FILL's checks, with PATTERN against the element's width (R278). -/
def State.fillCheck (s : State) (p : Nat) (x : Desc) : Option Fail :=
  match (tensorCourse fillBad State.runFill).check s p x with
  | some f => some f
  | none =>
    match s.paramBlock p x with
    | .error f => some f
    | .ok b => (patternBad x b).map badAt

/-- FILL (R278). -/
def execFill (d : DescRef) (s : State) : Host.Outcome State Fault Refusal :=
  .next (s.runDesc d (isOp 0x1A) { tensorCourse fillBad State.runFill with check := State.fillCheck, leaves := State.fillLeft })

/-- DIGEST (R279). -/
def execDigest (d : DescRef) (s : State) : Host.Outcome State Fault Refusal :=
  .next (s.runDesc d (isOp 0x1B) (tensorCourse digestBadBlock State.runDigest))

end Sys2Proof.Machine
end

