-- ==== Sys2Proof/Machine/Kv.lean ====
section
/-! DEFINITION. KV spaces: the header, page records, sequences, the prefix index, allocation, moves and parking (R293 to
R318, R332, R333), and the KV commands. A space's records stand in device memory and are read and written there; a
command's commit and its writes of token slots are one step, when the command starts (R305). -/

namespace Sys2Proof.Machine

/-! ### The header (R294 to R296) -/

/-- An attached KV space: its partition, number, HEADER_VA and the header as it stands. -/
structure Kv where
  /-- The partition -/
  part : Nat
  /-- SPACE -/
  space : Nat
  /-- HEADER_VA -/
  va : Nat
  /-- The 512 bytes of the header -/
  head : List Byte
deriving DecidableEq, Repr

namespace Kv

/-- DL. -/
def dl (k : Kv) : Nat := fieldAt k.head 4 2
/-- DR. -/
def dr (k : Kv) : Nat := byteAt k.head 6
/-- FORMAT. -/
def fmt (k : Kv) : Nat := byteAt k.head 7
/-- LAT_SCALE as written. -/
def latScale (k : Kv) : Nat := fieldAt k.head 8 4
/-- SIDE_SCALE as written. -/
def sideScale (k : Kv) : Nat := fieldAt k.head 12 4
/-- SEQ_MAX. -/
def seqMax (k : Kv) : Nat := fieldAt k.head 16 4
/-- PAGE_MAX. -/
def pageMax (k : Kv) : Nat := fieldAt k.head 20 4
/-- INDEX_LOG2. -/
def indexLog2 (k : Kv) : Nat := byteAt k.head 24
/-- POS. -/
def pos (k : Kv) : Nat := byteAt k.head 25
/-- PAIRING. -/
def pairing (k : Kv) : Nat := byteAt k.head 26
/-- PARK_POOL. -/
def parkPool (k : Kv) : Nat := byteAt k.head 27
/-- CHUNK_MAX. -/
def chunkMax (k : Kv) : Nat := fieldAt k.head 28 4
/-- SEQ_VA. -/
def seqVa (k : Kv) : Nat := fieldAt k.head 32 6
/-- META_VA. -/
def metaVa (k : Kv) : Nat := fieldAt k.head 40 6
/-- INDEX_VA. -/
def indexVa (k : Kv) : Nat := fieldAt k.head 48 6
/-- CHUNK_VA. -/
def chunkVa (k : Kv) : Nat := fieldAt k.head 56 6
/-- ROPE_VA. -/
def ropeVa (k : Kv) : Nat := fieldAt k.head 64 6
/-- ALLOC_VA. -/
def allocVa (k : Kv) : Nat := fieldAt k.head 72 6
/-- ALIBI_MAX as written. -/
def alibiMax (k : Kv) : Nat := fieldAt k.head 80 4
/-- VA of pool i. -/
def poolVa (k : Kv) (i : Nat) : Nat := fieldAt k.head (96 + 16 * i) 6
/-- KIND of pool i. -/
def poolKind (k : Kv) (i : Nat) : Nat := if i < 8 then byteAt k.head (102 + 16 * i) else 0
/-- SLOTS of pool i, none of an absent pool. -/
def poolSlots (k : Kv) (i : Nat) : Nat := if k.poolKind i = 0 then 0 else fieldAt k.head (104 + 16 * i) 4
/-- Bytes of one stored element (R296). -/
def elemBytes (k : Kv) : Nat := if k.fmt = 0x0C then 2 else 1
/-- PAGE_BYTES (R296). -/
def pageBytes (k : Kv) : Nat := 64 * (k.dl + k.dr) * k.elemBytes
/-- Bytes of the allocation maps (R295). -/
def allocBytes (k : Kv) : Nat :=
  cdiv (cdiv (k.pageMax + k.chunkMax + (List.range 8).foldl (fun a i => a + k.poolSlots i) 0) 8) 0x1000 * 0x1000
/-- The regions that the module owns, with the header and the rotary table, as (byte of the field, VA, size) (R295). -/
def regions (k : Kv) : List (Nat × Nat × Nat) :=
  [(24, k.va, 512), (32, k.seqVa, k.seqMax * 320), (40, k.metaVa, k.pageMax * 384), (48, k.indexVa, 2 ^ k.indexLog2 * 32),
   (56, k.chunkVa, k.chunkMax * 1024)] ++
  (if k.pos = 1 then [(64, k.ropeVa, 2048 * k.dr * 4)] else []) ++ [(72, k.allocVa, k.allocBytes)]
/-- The pools that are there, as (byte of the field, VA, size, KIND). -/
def pools (k : Kv) : List (Nat × Nat × Nat × Nat) :=
  ((List.range 8).filter (fun i => k.poolKind i != 0)).map (fun i =>
    (96 + 16 * i, k.poolVa i, k.poolSlots i * k.pageBytes, k.poolKind i))
/-- The address of a token's latent elements in a data slot (R296). -/
def latentVa (k : Kv) (slot t : Nat) : Nat := slot + t * k.dl * k.elemBytes
/-- The address of a token's side key in a data slot (R296). -/
def sideVa (k : Kv) (slot t : Nat) : Nat := slot + 64 * k.dl * k.elemBytes + t * k.dr * k.elemBytes

end Kv

/-- Space `n` of Pp, when it is attached (R293). -/
def State.kv? (s : State) (p n : Nat) : Option Kv :=
  ((s.part p).kv.find? (fun x => x.1 == n)).map (fun x => { part := p, space := n, va := x.2, head := s.peekVa p x.2 512 })

/-! ### Records (R297, R300, R303) -/

/-- A field of page record n. -/
def State.pg (s : State) (k : Kv) (n off len : Nat) : Nat := leNat (s.peekVa k.part (k.metaVa + n * 384 + off) len)

/-- Write a field of page record n. -/
def State.setPg (s : State) (k : Kv) (n off len v : Nat) : State := s.tryWriteVa k.part (k.metaVa + n * 384 + off) (toLe len v)

/-- STATE of page n: 0 FREE, 1 PARTIAL, 2 FULL, 3 INDEXED, 4 RELEASING. -/
def State.pgState (s : State) (k : Kv) (n : Nat) : Nat := s.pg k n 0 1 % 8
/-- POOL of page n. -/
def State.pgPool (s : State) (k : Kv) (n : Nat) : Nat := s.pg k n 1 1 % 8
/-- FILL of page n. -/
def State.pgFill (s : State) (k : Kv) (n : Nat) : Nat := s.pg k n 2 2
/-- REFS of page n. -/
def State.pgRefs (s : State) (k : Kv) (n : Nat) : Nat := s.pg k n 4 4
/-- SLOT of page n. -/
def State.pgSlot (s : State) (k : Kv) (n : Nat) : Nat := s.pg k n 8 4
/-- PINS of page n. -/
def State.pgPins (s : State) (k : Kv) (n : Nat) : Nat := s.pg k n 12 4
/-- HASH of page n. -/
def State.pgHash (s : State) (k : Kv) (n : Nat) : List Byte := s.peekVa k.part (k.metaVa + n * 384 + 32) 16
/-- TOKENS of page n. -/
def State.pgTokens (s : State) (k : Kv) (n : Nat) : List Byte := s.peekVa k.part (k.metaVa + n * 384 + 64) 256
/-- The first byte of page n's data slot (R296). -/
def State.pgVa (s : State) (k : Kv) (n : Nat) : Nat := k.poolVa (s.pgPool k n) + s.pgSlot k n * k.pageBytes

/-- A field of the entry of sequence q. -/
def State.sqf (s : State) (k : Kv) (q off len : Nat) : Nat := leNat (s.peekVa k.part (k.seqVa + q * 320 + off) len)

/-- Write a field of the entry of sequence q. -/
def State.setSqf (s : State) (k : Kv) (q off len v : Nat) : State := s.tryWriteVa k.part (k.seqVa + q * 320 + off) (toLe len v)

/-- STATE of sequence q: 0 FREE, 1 ACTIVE, 2 PARKED, 3 EXPIRED. -/
def State.seqState (s : State) (k : Kv) (q : Nat) : Nat := s.sqf k q 0 1 % 4
/-- TTL_RUN of sequence q. -/
def State.seqRuns (s : State) (k : Kv) (q : Nat) : Bool := bitOf (s.sqf k q 0 1) 2
/-- LEN of sequence q. -/
def State.seqLen (s : State) (k : Kv) (q : Nat) : Nat := s.sqf k q 4 4
/-- MODEL of sequence q. -/
def State.seqModel (s : State) (k : Kv) (q : Nat) : Nat := s.sqf k q 8 4
/-- VARIANT of sequence q. -/
def State.seqVariant (s : State) (k : Kv) (q : Nat) : Nat := s.sqf k q 12 4
/-- CHUNK[c] of sequence q. -/
def State.seqChunk (s : State) (k : Kv) (q c : Nat) : Nat := s.sqf k q (64 + 4 * c) 4

/-- Set STATE, TTL_RUN and LOST of sequence q. -/
def State.setSeq (s : State) (k : Kv) (q st : Nat) (run lost : Bool) : State :=
  s.setSqf k q 0 1 (st + 4 * b2n run + 8 * b2n lost)

/-- No list chunk, no page. -/
def kvNone : Nat := 0xFFFFFFFF

/-- A deleted index entry (R303). -/
def kvDeleted : Nat := 0xFFFFFFFE

/-- The page of block b of sequence q (R300). -/
def State.seqPage (s : State) (k : Kv) (q b : Nat) : Nat :=
  leNat (s.peekVa k.part (k.chunkVa + s.seqChunk k q (b / 256) * 1024 + b % 256 * 4) 4)

/-- The page list of sequence q. -/
def State.seqPages (s : State) (k : Kv) (q : Nat) : List Nat := (List.range (cdiv (s.seqLen k q) 64)).map (s.seqPage k q)

/-- The sequences of a space in a STATE, ascending. -/
def State.seqsIn (s : State) (k : Kv) (st : Nat) : List Nat := (List.range k.seqMax).filter (fun q => s.seqState k q == st)

/-- The sequences that hold pages, ascending: ACTIVE and PARKED. -/
def State.holders (s : State) (k : Kv) : List Nat :=
  (List.range k.seqMax).filter (fun q => s.seqState k q == 1 || s.seqState k q == 2)

/-! ### Allocation (R299) -/

/-- The lowest-numbered free page record. -/
def State.freePage (s : State) (k : Kv) : Option Nat := (List.range k.pageMax).find? (fun n => s.pgState k n == 0)

/-- The data slots of a pool that pages hold. -/
def State.usedSlots (s : State) (k : Kv) (pool : Nat) : List Nat :=
  (List.range k.pageMax).filterMap (fun n => if s.pgState k n != 0 && s.pgPool k n == pool then some (s.pgSlot k n) else none)

/-- The lowest-numbered free data slot of a pool. -/
def State.freeSlot (s : State) (k : Kv) (pool : Nat) : Option Nat :=
  let used := s.usedSlots k pool
  (List.range (k.poolSlots pool)).find? (fun n => !used.contains n)

/-- Free data slots of a pool. -/
def State.freeSlots (s : State) (k : Kv) (pool : Nat) : Nat :=
  let used := s.usedSlots k pool
  ((List.range (k.poolSlots pool)).filter (fun n => !used.contains n)).length

/-- The list chunks that sequences hold. -/
def State.usedChunks (s : State) (k : Kv) : List Nat :=
  (s.holders k).flatMap (fun q => ((List.range 64).map (s.seqChunk k q)).filter (· ≠ kvNone))

/-- The lowest-numbered free list chunk. -/
def State.freeChunk (s : State) (k : Kv) : Option Nat :=
  let used := s.usedChunks k
  (List.range k.chunkMax).find? (fun n => !used.contains n)

/-- Put a page at block b of sequence q, taking a list chunk where one is needed (R300). -/
def State.listPage (s : State) (k : Kv) (q b page : Nat) : Option State :=
  let c := s.seqChunk k q (b / 256)
  let put := fun (t : State) (c : Nat) => t.tryWriteVa k.part (k.chunkVa + c * 1024 + b % 256 * 4) (toLe 4 page)
  if c ≠ kvNone then some (put s c)
  else match s.freeChunk k with
    | some c => some (put (s.setSqf k q (64 + 4 * (b / 256)) 4 c) c)
    | none => none

/-- Free the list chunks past the first `n` blocks of sequence q (R300). -/
def State.trimChunks (s : State) (k : Kv) (q n : Nat) : State :=
  ((List.range 64).filter (fun c => cdiv n 256 ≤ c)).foldl (fun t c => t.setSqf k q (64 + 4 * c) 4 kvNone) s

/-! ### The prefix index (R302, R303) -/

/-- The block hash of R302. -/
def State.blockHash (s : State) (p : Nat) (prev : List Byte) (model variant : Nat) (tokens : List Byte) : List Byte :=
  siphash (s.part p).sec.partKey (prev ++ toLe 4 model ++ toLe 4 variant ++ tokens)

/-- PAGE of index entry i. -/
def State.ixPage (s : State) (k : Kv) (i : Nat) : Nat := leNat (s.peekVa k.part (k.indexVa + i * 32 + 16) 4)

/-- HASH of index entry i. -/
def State.ixHash (s : State) (k : Kv) (i : Nat) : List Byte := s.peekVa k.part (k.indexVa + i * 32) 16

/-- The 16 entries of a hash's probe sequence. -/
def Kv.probes (k : Kv) (h : List Byte) : List Nat := (List.range 16).map (fun i => (leNat h + i) % 2 ^ k.indexLog2)

/-- Search the entries of a probe sequence for a live entry with a hash. -/
def State.ixFind (s : State) (k : Kv) (h : List Byte) : List Nat → Option Nat
  | [] => none
  | i :: is =>
    if s.ixPage k i = kvNone then none
    else if s.ixPage k i ≠ kvDeleted ∧ s.ixHash k i = h then some (s.ixPage k i)
    else s.ixFind k h is

/-- Insert page n under its hash: the state, and whether the insertion succeeded (R303). -/
def State.ixInsert (s : State) (k : Kv) (n : Nat) (h : List Byte) : State × Bool :=
  let ps := k.probes h
  let live := fun i => s.ixPage k i ≠ kvNone ∧ s.ixPage k i ≠ kvDeleted
  let spot := if ps.any (fun i => decide (live i) && s.ixHash k i == h) then none else ps.find? (fun i => decide (¬ live i))
  match spot with
  | some i => (s.tryWriteVa k.part (k.indexVa + i * 32) (h ++ toLe 4 n), true)
  | none => (s.tryWriteVa k.part (k.va + 268) (toLe 4 (satTo 32 (leNat (s.peekVa k.part (k.va + 268) 4) + 1))), false)

/-- Remove the index entries of page n: they are marked deleted. -/
def State.ixRemove (s : State) (k : Kv) (n : Nat) : State :=
  match (k.probes (s.pgHash k n)).find? (fun i => s.ixPage k i == n) with
  | some i => s.tryWriteVa k.part (k.indexVa + i * 32 + 16) (toLe 4 kvDeleted)
  | none => s

/-! ### Pages (R298, R306 to R308) -/

/-- Copy bytes of device memory from one virtual address to another, poison marks with them (R203, R308). -/
def State.copyVa (s : State) (p src dst len : Nat) : State :=
  match s.resolve p none 0 src len false, s.resolve p none 0 dst len true with
  | .ok a, .ok b =>
    let bytes := a.flatMap (fun c => s.mem.cells.read c.1 c.2)
    let at_ := fun (l : List (Nat × Nat)) (o : Nat) =>
      (l.foldl (fun (x : Nat × Nat) c => if x.2 < c.2 then (c.1 + x.2, x.2 + 2 ^ 60) else if x.2 ≥ 2 ^ 60 then x else (x.1, x.2 - c.2)) (0, o)).1
    let bad := (List.range (cdiv len 8)).filter (fun i => s.mem.poisoned (at_ a (8 * i)))
    let m := s.mem.storePieces b bytes
    { s with mem := bad.foldl (fun m i => m.poisonWord (at_ b (8 * i))) m }
  | _, _ => s

/-- Move page n into pool i now (R308): the state, and whether it moved. -/
def State.movePage (s : State) (k : Kv) (n i : Nat) : State × Bool :=
  match s.freeSlot k i with
  | none =>
    ((s.setPg k n 1 1 (s.pgPool k n)).raise k.part 0xB1 (toLe 1 k.space ++ toLe 1 i ++ zeros 2 ++ toLe 4 n), false)
  | some slot =>
    (((s.copyVa k.part (s.pgVa k n) (k.poolVa i + slot * k.pageBytes) k.pageBytes).setPg k n 1 1 i).setPg k n 8 4 slot, true)

/-- Request a move of page n to pool i (R308): the state, and whether it moved at once. -/
def State.moveReq (s : State) (k : Kv) (n i : Nat) : State × Bool :=
  if s.pgPool k n = i then (s.setPg k n 1 1 i, false)
  else if s.pgPins k n > 0 then (s.setPg k n 1 1 (s.pgPool k n + 16 * i + 128), false)
  else s.movePage k n i

/-- Request moves of pages in turn: the state, and how many moved at once. -/
def State.moveAll (s : State) (k : Kv) (i : Nat) (pages : List Nat) : State × Nat :=
  pages.foldl (fun (a : State × Nat) n => let r := a.1.moveReq k n i; (r.1, a.2 + b2n r.2)) (s, 0)

/-- Page n loses one reference (R298): the state, and whether REFS reached 0. -/
def State.dropRef (s : State) (k : Kv) (n : Nat) : State × Bool :=
  let refs := s.pgRefs k n - 1
  let s := s.setPg k n 4 4 refs
  if refs > 0 then (s, false)
  else
    let s := if s.pgState k n = 3 then s.ixRemove k n else s
    (s.setPg k n 0 1 (if s.pgPins k n > 0 then 4 else 0), true)

/-- Each of a list of pages loses one reference: the state, and how many left REFS > 0. -/
def State.dropRefs (s : State) (k : Kv) (pages : List Nat) : State × Nat :=
  pages.foldl (fun (a : State × Nat) n => let r := a.1.dropRef k n; (r.1, a.2 + b2n r.2)) (s, 0)

/-- Page n loses one pin (R298, R308). -/
def State.unpin (s : State) (k : Kv) (n : Nat) : State :=
  let pins := s.pgPins k n - 1
  let s := s.setPg k n 12 4 pins
  if pins > 0 then s
  else if s.pgState k n = 4 then s.setPg k n 0 1 0
  else if bitOf (s.pg k n 1 1) 7 then (s.movePage k n (bitsOf (s.pg k n 1 1) 6 4)).1
  else s

/-- Sequence q lets go of its list: every page loses a reference, the chunks are free, LEN is 0. -/
def State.dropList (s : State) (k : Kv) (q : Nat) : State × Nat :=
  let r := s.dropRefs k (s.seqPages k q)
  ((r.1.setSqf k q 4 4 0).trimChunks k q 0, r.2)

/-- Take a new page for a sequence (R298, R299): the state and the page, none when no record or slot is free. -/
def State.newPage (s : State) (k : Kv) (pool model variant : Nat) : Option (State × Nat) :=
  match s.freePage k, s.freeSlot k pool with
  | some n, some slot =>
    some (s.tryWriteVa k.part (k.metaVa + n * 384)
      (toLe 1 1 ++ toLe 1 pool ++ toLe 2 0 ++ toLe 4 1 ++ toLe 4 slot ++ toLe 4 0 ++ toLe 4 model ++ toLe 4 variant), n)
  | _, _ => none

/-- Truncate sequence q to `keep` tokens (R307). -/
def State.truncateSeq (s : State) (k : Kv) (q keep : Nat) : State :=
  let s := (s.dropRefs k ((s.seqPages k q).drop (cdiv keep 64))).1
  let s := if keep % 64 = 0 then s else
    let n := s.seqPage k q (keep / 64)
    if s.pgRefs k n = 1 ∧ s.pgPins k n = 0 then
      let s := if s.pgState k n = 3 then s.ixRemove k n else s
      (s.setPg k n 0 1 1).setPg k n 2 2 (keep % 64)
    else s
  (s.setSqf k q 4 4 keep).trimChunks k q (cdiv keep 64)

/-! ### Commits (R305, R316, R317) -/

/-- Every page of a sequence's list has one holder (R316). -/
def State.sole (s : State) (k : Kv) (q : Nat) : Bool := (s.seqPages k q).all (fun n => s.pgRefs k n == 1)

/-- A parked handle after a commit at module time `t` (R316): pages that have come to be its alone move to PARK_POOL, and
the time to live runs or stops; `before` is the space before the commit. -/
def State.settleHandle (s : State) (k : Kv) (before : State) (t q : Nat) : State :=
  let fell := (s.seqPages k q).filter (fun n => s.pgRefs k n == 1 && before.pgRefs k n > 1 && s.pgPool k n != k.parkPool)
  let s := (s.moveAll k k.parkPool fell).1
  let lost := bitOf (s.sqf k q 0 1) 3
  if s.sole k q && !s.seqRuns k q then
    (s.setSeq k q 2 true lost).setSqf k q 24 8 (t + s.sqf k q 16 8)
  else if !s.sole k q && s.seqRuns k q then
    (s.setSqf k q 16 8 (s.sqf k q 24 8 - t)).setSeq k q 2 false lost
  else s

/-- The counters of the header as they stand (R294), under SEQ as R117 reads it; the allocation maps, whose layout the
manual does not give, hold undefined bytes. -/
def State.postCounters (s : State) (k : Kv) : State :=
  let pages := (List.range k.pageMax).filter (fun n => s.pgState k n != 0)
  let old := s.peekVa k.part (k.va + 256) 128
  let s := s.tryWriteVa k.part (k.va + 256) (toLe 4 (fieldAt old 0 4 / 2 * 2 + 2) ++ toLe 4 pages.length ++
    toLe 4 (pages.filter (fun n => s.pgState k n == 3)).length ++ sliceOf old 12 8 ++
    toLe 4 (s.seqsIn k 1).length ++ toLe 4 (s.seqsIn k 2).length ++
    toLe 4 (pages.filter (fun n => bitOf (s.pg k n 1 1) 7)).length ++ (List.range 8).flatMap (fun i => toLe 4 (s.freeSlots k i)))
  s.spoil k.part none k.allocVa k.allocBytes

/-- The end of a commit at module time `t`. -/
def State.settle (s : State) (k : Kv) (before : State) (t : Nat) : State :=
  ((s.seqsIn k 2).foldl (fun a q => a.settleHandle k before t q) s).postCounters k

/-- The parked handle of a space whose DEADLINE comes first, if it is due at `t`. -/
def State.nextDue (s : State) (k : Kv) (t : Nat) : Option Nat :=
  ((s.seqsIn k 2).filter (fun q => s.seqRuns k q && s.sqf k q 24 8 ≤ t)).foldl
    (fun a q => match a with
      | some b => if s.sqf k q 24 8 < s.sqf k b 24 8 then some q else some b
      | none => some q) none

/-- The expiry of a handle is a commit at its DEADLINE (R317). -/
def State.expireSeq (s : State) (k : Kv) (q : Nat) : State :=
  let t := s.sqf k q 24 8
  let a := (s.dropList k q).1.setSeq k q 3 false false
  (a.raiseAt k.part 0xB0 k.part t (toLe 1 k.space ++ zeros 3 ++ toLe 4 q)).settle k s t

/-- Every expiry of a space due at `t`, in the order of DEADLINE. -/
def State.expireUntil (s : State) (k : Kv) (t : Nat) : Nat → State
  | 0 => s
  | fuel + 1 => match s.nextDue k t with
    | some q => (s.expireSeq k q).expireUntil k t fuel
    | none => s

/-- The space as a commit now finds it: expiries due by now come first (R317). -/
def State.kvNow (s : State) (k : Kv) : State := s.expireUntil k s.now k.seqMax

/-- The commands of R305 on space n of Pp that are not complete, but for `num`. -/
def State.kvBusy (s : State) (p n num : Nat) : Bool :=
  (s.part p).resolved.any (fun r => r.space == n && r.num != num) ||
    (s.part p).running.any (fun r => r.num != num && r.layers.any (fun l => l.1 == n))

/-- Remember what a started KV command completes with. -/
def State.kvOpen (s : State) (p : Nat) (r : Resolved) : State :=
  s.onPart p (fun q => { q with resolved := r :: q.resolved.filter (fun x => x.num != r.num) })

/-- What a KV command started under number `num` completes with. -/
def State.kvOutcome (s : State) (p num : Nat) : Done :=
  match (s.part p).resolved.find? (fun r => r.num == num) with
  | some r => r.out
  | none => {}

/-- The course of a KV command on the space that byte `off` of its descriptor names: `bad` are its checks and `go` its
commit with what it completes with. The commit and its writes take place at its start. -/
def kvCourse (off : Nat) (bad : State → Kv → Desc → Option Fail) (go : State → Kv → Desc → State × Done) : Course :=
  { check := fun s p d =>
      match s.kv? p (d.fld off 1 % 16) with
      | none => some (.status stIllegalState 0)
      | some k =>
        match s.readVa p (s.srcOf p d) 0 k.va 512 with
        | .error f => some f
        | .ok _ => bad (s.kvNow k) k d
    opens := fun s p d =>
      match s.kv? p (d.fld off 1 % 16) with
      | none => s
      | some k =>
        let s := s.kvNow k
        let r := go s k d
        (r.1.settle k s s.now).kvOpen p { num := d.num, space := k.space, seqs := [], out := r.2 }
    run := fun s p d => .ok (s, s.kvOutcome p d.num) }

/-- A KV command of a row: while a STEP that started earlier works on a sequence that it names (`names`, by space), it waits
to commit and does not start (R305). -/
def State.runKv (s : State) (r : DescRef) (mine : Desc → Bool) (off : Nat) (names : Kv → Desc → List Nat) (c : Course) : State :=
  match s.desc? r.part r.num with
  | none => s
  | some d =>
    let held := match s.kv? r.part (d.fld off 1 % 16) with
      | some k => mine d && d.startedAt.isNone && (s.part r.part).running.any (fun x =>
          x.layers.any (fun l => l.1 == k.space && (names k d).contains l.2))
      | none => false
    if held then s else s.runDesc r mine c

/-- The sequence at byte `off` of a descriptor is one of the space's: otherwise BAD_DESCRIPTOR. -/
def seqBad (k : Kv) (d : Desc) (off : Nat) : Option Fail := if d.fld off 4 < k.seqMax then none else some (badAt off)

/-- ILLEGAL_STATE unless a condition holds. -/
def unlessOk (ok : Bool) : Option Fail := if ok then none else some (.status stIllegalState 0)

/-! ### KV_LOOKUP (R304, R313) -/

/-- The blocks that KV_LOOKUP reads token ids for. -/
def lookupBlocks (d : Desc) : Nat := Nat.min (d.fld 40 4) (d.fld 44 4) / 64

/-- The pages that a lookup matches from block b on, and whether a failed comparison stopped it. -/
def State.lookupFrom (s : State) (k : Kv) (model variant : Nat) : List Byte → List (List Byte) → List Nat × Bool
  | _, [] => ([], false)
  | prev, toks :: rest =>
    let h := s.blockHash k.part prev model variant toks
    match s.ixFind k h (k.probes h) with
    | none => ([], false)
    | some n =>
      if s.peekVa k.part (k.metaVa + n * 384 + 48) 16 != prev || s.pg k n 16 4 != model || s.pg k n 20 4 != variant ||
          s.pgTokens k n != toks then ([], true)
      else let r := s.lookupFrom k model variant h rest; (n :: r.1, r.2)

/-- The token ids of KV_LOOKUP, block by block. -/
def State.lookupTokens (s : State) (k : Kv) (d : Desc) : Except Fail (List (List Byte)) := do
  .ok (chunksOf 256 (← s.readVa k.part (s.srcOf k.part d) 0 (d.fld 32 6) (256 * lookupBlocks d)))

/-- What a lookup matches. -/
def State.lookupPages (s : State) (k : Kv) (d : Desc) : List Nat × Bool :=
  match s.lookupTokens k d with
  | .ok toks => s.lookupFrom k (d.fld 24 4) (d.fld 28 4) (zeros 16) toks
  | .error _ => ([], false)

/-- Open sequence q with a list of pages, each gaining a reference; the chunks are known to suffice. -/
def State.openSeq (s : State) (k : Kv) (q len model variant : Nat) (pages : List Nat) : State :=
  let s := ((((s.setSeq k q 1 false false).setSqf k q 4 4 len).setSqf k q 8 4 model).setSqf k q 12 4 variant).trimChunks k q 0
  pages.zipIdx.foldl (fun (t : State) x =>
    match t.listPage k q x.2 x.1 with
    | some u => u.setPg k x.1 4 4 (u.pgRefs k x.1 + 1)
    | none => t) s

/-- The list of `n` blocks needs more chunks than are free. -/
def State.chunksShort (s : State) (k : Kv) (n : Nat) : Bool :=
  let used := s.usedChunks k
  ((List.range k.chunkMax).filter (fun c => !used.contains c)).length < cdiv n 256

/-- KV_LOOKUP (R304, R313). -/
def execKvLookup (d : DescRef) (s : State) : Host.Outcome State Fault Refusal :=
  .next (s.runKv d (isOp 0x42) 16 (fun _ d => [d.fld 20 4]) (kvCourse 16
    (fun s k d =>
      match seqBad k d 20 with
      | some f => some f
      | none =>
        if s.seqState k (d.fld 20 4) != 0 then some (.status stIllegalState 0)
        else match s.lookupTokens k d with
          | .error f => some f
          | .ok _ => if s.chunksShort k (s.lookupPages k d).1.length then some (.status stNotAdmitted 0) else none)
    (fun s k d =>
      let r := s.lookupPages k d
      let s := if r.2 then s.tryWriteVa k.part (k.va + 272) (toLe 4 (satTo 32 (leNat (s.peekVa k.part (k.va + 272) 4) + 1))) else s
      let len := 64 * r.1.length
      let s := s.openSeq k (d.fld 20 4) len (d.fld 24 4) (d.fld 28 4) r.1
      ((s.moveAll k (d.fld 17 1) (r.1.filter (fun n => k.poolKind (s.pgPool k n) == 2))).1, { result := len }))))

/-! ### KV_PARK, KV_RESUME, KV_COPY (R314, R315, R318) -/

/-- The pages that KV_PARK moves: held by the sequence alone and outside PARK_POOL. -/
def State.parkPages (s : State) (k : Kv) (q : Nat) : List Nat :=
  (s.seqPages k q).filter (fun n => s.pgRefs k n == 1 && s.pgPool k n != k.parkPool)

/-- What stands against parking sequence q, as a STATUS (R315). -/
def State.parkBad (s : State) (k : Kv) (q : Nat) : Option Nat :=
  if k.parkPool == 0xFF || s.seqState k q != 1 then some stIllegalState
  else if s.freeSlots k k.parkPool < (s.parkPages k q).length then some stNotAdmitted else none

/-- Sequence q becomes PARKED for `ttl` seconds (R315): the state, and the pages moved. -/
def State.parkSeq (s : State) (k : Kv) (q ttl : Nat) : State × Nat :=
  ((s.setSeq k q 2 false false).setSqf k q 16 8 (ttl * 1000000000)).moveAll k k.parkPool (s.parkPages k q)

/-- KV_PARK (R315). -/
def execKvPark (d : DescRef) (s : State) : Host.Outcome State Fault Refusal :=
  .next (s.runKv d (isOp 0x43) 16 (fun _ d => [d.fld 20 4]) (kvCourse 16
    (fun s k d =>
      match seqBad k d 20 with
      | some f => some f
      | none => (s.parkBad k (d.fld 20 4)).map (fun st => .status st 0))
    (fun s k d =>
      let r := s.parkSeq k (d.fld 20 4) (d.fld 24 4)
      (r.1, { result := r.2 }))))

/-- KV_RESUME (R301, R318). -/
def execKvResume (d : DescRef) (s : State) : Host.Outcome State Fault Refusal :=
  .next (s.runKv d (isOp 0x44) 16 (fun _ d => [d.fld 20 4]) (kvCourse 16
    (fun s k d =>
      match seqBad k d 20 with
      | some f => some f
      | none =>
        let st := s.seqState k (d.fld 20 4)
        if st != 2 && st != 3 then some (.status stIllegalState 0)
        else if k.poolKind (d.fld 17 1) != 1 then some (badAt 17) else none)
    (fun s k d =>
      let q := d.fld 20 4
      if s.seqState k q = 3 then (s.setSeq k q 0 false false, { status := stExpired })
      else
        let s := s.setSeq k q 1 false false
        let r := s.moveAll k (d.fld 17 1) ((s.seqPages k q).filter (fun n => k.poolKind (s.pgPool k n) == 2))
        (r.1, { result := r.2 }))))

/-- LEN that KV_COPY shares. -/
def State.copyLen (s : State) (k : Kv) (d : Desc) : Nat :=
  if d.fld 28 4 = kvNone then s.seqLen k (d.fld 20 4) else d.fld 28 4

/-- KV_COPY (R301, R314). -/
def execKvCopy (d : DescRef) (s : State) : Host.Outcome State Fault Refusal :=
  .next (s.runKv d (isOp 0x46) 16 (fun _ d => [d.fld 20 4, d.fld 24 4]) (kvCourse 16
    (fun s k d =>
      match seqBad k d 20 with
      | some f => some f
      | none =>
        match seqBad k d 24 with
        | some f => some f
        | none =>
          let st := s.seqState k (d.fld 20 4)
          if d.fld 20 4 == d.fld 24 4 then some (badAt 24)
          else if (st != 1 && st != 2) || s.seqState k (d.fld 24 4) != 0 || s.copyLen k d > s.seqLen k (d.fld 20 4) then
            some (.status stIllegalState 0)
          else if s.chunksShort k (cdiv (s.copyLen k d) 64) then some (.status stNotAdmitted 0) else none)
    (fun s k d =>
      let src := d.fld 20 4
      let len := s.copyLen k d
      let pages := (s.seqPages k src).take (cdiv len 64)
      let s := s.openSeq k (d.fld 24 4) len (s.seqModel k src) (s.seqVariant k src) pages
      let s := if d.fld 17 1 = 0xFF then s
        else (s.moveAll k (d.fld 17 1) (pages.filter (fun n => k.poolKind (s.pgPool k n) == 2))).1
      (s, { result := pages.length }))))

/-! ### KV_FREE (R295, R309) -/

/-- The descriptor is KV_FREE with this scope. -/
def isKvFree (scope : Nat) (d : Desc) : Bool := isOp 0x45 d && (d.fld 16 1 == scope || (scope == 0 && d.fld 16 1 > 4))

/-- Sequence q becomes FREE: the state, and how many pages left REFS > 0. -/
def State.freeSeq (s : State) (k : Kv) (q : Nat) : State × Nat :=
  let r := s.dropList k q
  (r.1.setSeq k q 0 false false, r.2)

/-- KV_FREE scope SEQ (R309). -/
def execKvFreeSeq (d : DescRef) (s : State) : Host.Outcome State Fault Refusal :=
  .next (s.runKv d (isKvFree 0) 17 (fun _ d => [d.fld 20 4]) (kvCourse 17
    (fun s k d => match seqBad k d 20 with
      | some f => some f
      | none => unlessOk (s.seqState k (d.fld 20 4) != 0))
    (fun s k d => let r := s.freeSeq k (d.fld 20 4); (r.1, { result := r.2 }))))

/-- KV_FREE scope ALL (R309). -/
def execKvFreeAll (d : DescRef) (s : State) : Host.Outcome State Fault Refusal :=
  .next (s.runKv d (isKvFree 1) 17 (fun k _ => List.range k.seqMax) (kvCourse 17 (fun _ _ _ => none)
    (fun s k _ =>
      let r := ((List.range k.seqMax).filter (fun q => s.seqState k q != 0)).foldl
        (fun (a : State × Nat) q => let x := a.1.freeSeq k q; (x.1, a.2 + x.2)) (s, 0)
      (r.1, { result := r.2 }))))

/-- A command of R305 on the space is not complete, or a sequence is not FREE. -/
def State.kvInUse (s : State) (k : Kv) (num : Nat) : Bool :=
  s.kvBusy k.part k.space num || (List.range k.seqMax).any (fun q => s.seqState k q != 0)

/-- KV_FREE scope DETACH (R309): the memory is untouched. -/
def execKvFreeDetach (d : DescRef) (s : State) : Host.Outcome State Fault Refusal :=
  .next (s.runDesc d (isKvFree 3) {
    check := fun s p d => match s.kv? p (d.fld 17 1) with
      | some k => unlessOk (!(s.kvNow k).kvInUse k d.num)
      | none => some (.status stIllegalState 0)
    run := fun s p d => okDone (s.onPart p (fun q => { q with kv := q.kv.filter (fun x => x.1 != d.fld 17 1) })) })

/-- The new hashes of a list of pages as far as they are full: (page, PREV_HASH, HASH). -/
def State.rehashList (s : State) (k : Kv) : List Byte → List Nat → List (Nat × List Byte × List Byte)
  | _, [] => []
  | prev, n :: ns =>
    if s.pgState k n = 2 ∨ s.pgState k n = 3 then
      let h := s.blockHash k.part prev (s.pg k n 16 4) (s.pg k n 20 4) (s.pgTokens k n)
      (n, prev, h) :: s.rehashList k h ns
    else []

/-- Give page n its new hashes and insert it (R298). -/
def State.rehashPage (s : State) (k : Kv) (x : Nat × List Byte × List Byte) : State :=
  let s := s.tryWriteVa k.part (k.metaVa + x.1 * 384 + 32) (x.2.2 ++ x.2.1)
  let r := s.ixInsert k x.1 x.2.2
  r.1.setPg k x.1 0 1 (if r.2 then 3 else 2)

/-- KV_FREE scope REHASH (R309). -/
def execKvFreeRehash (d : DescRef) (s : State) : Host.Outcome State Fault Refusal :=
  .next (s.runDesc d (isKvFree 4) (kvCourse 17
    (fun s k d => unlessOk (!s.kvBusy k.part k.space d.num))
    (fun s k _ =>
      let new := (s.holders k).flatMap (fun q => s.rehashList k (zeros 16) (s.seqPages k q))
      let s := (List.range (2 ^ k.indexLog2)).foldl (fun (t : State) i =>
        if t.ixPage k i = kvNone then t else t.tryWriteVa k.part (k.indexVa + i * 32 + 16) (toLe 4 kvDeleted)) s
      let s := (List.range k.pageMax).foldl (fun (t : State) n =>
        match new.find? (fun x => x.1 == n) with
        | some x => t.rehashPage k x
        | none => t) s
      (s, { result := ((List.range k.pageMax).filter (fun n => s.pgState k n == 3)).length }))))

/-- A scale of the header: 0, or for the FP8 formats a finite number above 0. -/
def kvScaleBad (fmt v : Nat) : Bool :=
  v != 0 && (fmt == 0x0C || (match fmtFP32.decode v with | .fin false m _ => m == 0 | _ => true))

/-- The fields of a header that lie outside their ranges, and reserved bytes (R294, R295). -/
def kvHeadBad (k : Kv) : List (Bool × Nat) :=
  let h := k.head
  chk [(fieldAt h 0 4 != 1, 0), (k.dl < 64 || k.dl > 1024 || k.dl % 64 != 0, 4), (k.dr != 0 && k.dr != 64 && k.dr != 128, 6),
   (k.fmt != 0x0C && k.fmt != 0x04 && k.fmt != 0x05, 7), (kvScaleBad k.fmt k.latScale, 8), (kvScaleBad k.fmt k.sideScale, 12),
   (k.seqMax == 0 || k.seqMax > 65536, 16), (k.pageMax == 0 || k.pageMax > 2 ^ 24, 20),
   (k.indexLog2 < 10 || k.indexLog2 > 24, 24), (k.pos > 2 || (k.pos == 1 && k.dr == 0), 25), (k.pairing > 1, 26),
   (k.parkPool != 0xFF && k.poolKind k.parkPool != 2, 27), (k.chunkMax == 0 || k.chunkMax > 2 ^ 22, 28),
   (k.pos != 1 && k.ropeVa != 0, 64), (k.pos != 2 && k.alibiMax != 0, 80)] ++
  [32, 40, 48, 56, 64, 72].flatMap (fun o => misaligned h o 6 0x1000 ++ resv h (o + 6) 2) ++ resv h 84 12 ++
  (List.range 8).flatMap (fun i =>
    let o := 96 + 16 * i
    misaligned h o 6 0x1000 ++ chk [(byteAt h (o + 6) > 2, o + 6)] ++ resv h (o + 7) 1 ++ resv h (o + 12) 4) ++ resv h 224 32

/-- Two ranges have a byte in common. -/
def overlap (a la b lb : Nat) : Bool := a < b + lb && b < a + la

/-- The regions and pools that overlap an earlier one, by the byte of their field (R295). -/
def kvOverlaps (k : Kv) : List (Bool × Nat) :=
  let all := k.regions ++ k.pools.map (fun x => (x.1, x.2.1, x.2.2.1))
  all.zipIdx.map (fun x => ((all.take x.2).any (fun y => overlap x.1.2.1 x.1.2.2 y.2.1 y.2.2), x.1.1))

/-- A physical address lies in stacked DRAM. -/
def inStacked (pa : Nat) : Bool := match placeOf pa with | .stacked _ _ => true | _ => false

/-- A physical address lies in the bulk tier. -/
def inBulk (pa : Nat) : Bool := match placeOf pa with | .bulk _ _ => true | _ => false

/-- The space that FORMAT would attach. -/
def State.kvFormat (s : State) (p : Nat) (d : Desc) : Except Fail Kv := do
  .ok { part := p, space := d.fld 17 1, va := d.fld 24 6, head := ← s.readVa p (s.srcOf p d) 0 (d.fld 24 6) 512 }

/-- Check 7 of FORMAT (R293, R295). -/
def State.formatBad (s : State) (p : Nat) (d : Desc) (k : Kv) : Option Fail :=
  match firstBad (kvHeadBad k) with
  | some o => some (badInBlock o)
  | none =>
    match firstBad (kvOverlaps k) with
    | some o => some (badInBlock o)
    | none =>
      let src := s.srcOf p d
      match (k.regions.filter (fun x => x.1 != 64)).findSome? (fun x =>
          match s.resolve p src 0 x.2.1 x.2.2 true with | .error f => some f | .ok _ => none) with
      | some f => some f
      | none =>
        match k.pools.findSome? (fun x =>
            match s.resolve p src 0 x.2.1 x.2.2.1 true with
            | .error f => some f
            | .ok ps => if ps.all (fun c => if x.2.2.2 = 1 then inStacked c.1 else inBulk c.1) then none
                        else some (badInBlock x.1)) with
        | some f => some f
        | none =>
          let others := (s.part p).kv.filterMap (fun x => if x.1 = k.space then none else (s.kv? p x.1).map Kv.seqMax)
          if others.foldl (· + ·) k.seqMax > 65536 then some (.status stNotAdmitted 0) else none

/-- Write `n` copies of a unit of bytes from `va` on. -/
def State.fillVa (s : State) (p va : Nat) (unit : List Byte) : Nat → State
  | 0 => s
  | n + 1 => (s.tryWriteVa p va unit).fillVa p (va + unit.length) unit n

/-- Every module-owned region in its empty state (R295). -/
def State.emptyKv (s : State) (k : Kv) : State :=
  let s := s.fillVa k.part k.seqVa (zeros 64 ++ List.replicate 256 0xFF#8) k.seqMax
  let s := s.fillVa k.part k.metaVa (zeros 384) k.pageMax
  let s := s.fillVa k.part k.indexVa (zeros 16 ++ toLe 4 kvNone ++ zeros 12) (2 ^ k.indexLog2)
  let s := s.fillVa k.part k.chunkVa (zeros 1024) k.chunkMax
  (s.tryWriteVa k.part (k.va + 256) (zeros 128)).postCounters k

/-- KV_FREE scope FORMAT (R293, R295, R309). -/
def execKvFreeFormat (d : DescRef) (s : State) : Host.Outcome State Fault Refusal :=
  .next (s.runDesc d (isKvFree 2) {
    check := fun s p d =>
      let busy := match s.kv? p (d.fld 17 1) with
        | some k => (s.kvNow k).kvInUse k d.num
        | none => false
      if busy then some (.status stIllegalState 0)
      else match s.kvFormat p d with
        | .error f => some f
        | .ok k => s.formatBad p d k
    run := fun s p d => do
      let k ← s.kvFormat p d
      let s := s.onPart p (fun q => { q with kv := q.kv.filter (fun x => x.1 != k.space) ++ [(k.space, k.va)] })
      okDone (s.emptyKv k) })

/-! ### KV_APPEND (R306, R310 to R312, R319) -/

/-- One entry of an append list (R310). -/
structure AppendEntry where
  /-- SEQ -/
  seq : Nat
  /-- KEEP_LEN -/
  keep : Nat
  /-- COUNT -/
  count : Nat
  /-- ROW -/
  row : Nat
  /-- MODEL -/
  model : Nat
  /-- VARIANT -/
  variant : Nat
  /-- POOL -/
  pool : Nat
deriving DecidableEq, Repr

/-- An entry of 32 bytes. -/
def AppendEntry.ofBytes (b : List Byte) : AppendEntry :=
  { seq := fieldAt b 0 4, keep := fieldAt b 4 4, count := fieldAt b 8 4, row := fieldAt b 12 4, model := fieldAt b 16 4,
    variant := fieldAt b 20 4, pool := byteAt b 24 % 8 }

/-- The offending bytes of an append list over tensors of `nrows` rows (R301, R310). -/
def appendListBad (k : Kv) (nrows : Nat) (l : List Byte) : List (Bool × Nat) :=
  let es := (chunksOf 32 l).map AppendEntry.ofBytes
  (chunksOf 32 l).zipIdx.flatMap (fun x =>
    let e := AppendEntry.ofBytes x.1
    (chk [(e.seq ≥ k.seqMax || (es.take x.2).any (fun y => y.seq == e.seq), 0), (e.count > 8192, 8), (e.row + e.count > nrows, 12),
      (byteAt x.1 24 > 7 || k.poolKind e.pool == 0, 24)] ++ resv x.1 25 7).map (fun y => (y.1, 32 * x.2 + y.2)))

/-- The rules of the append's slots, `nrows` rows, list of `nseq` entries (R310). -/
def appendRules (k : Kv) (nrows nseq : Nat) (lst : TRec) : List SlotRule :=
  [{ ((need [0x0C, 0x0E]).batches [1]) with cols := some k.dl },
   if k.dr = 0 then absent else ((need [0x0C, 0x0E]).shape nrows k.dr).batches [1],
   { ((need [0x14]).batches [1]) with rows := some (if lst.rows * lst.cols = 32 * nseq then lst.rows else 0) },
   ((need [0x13]).shape 1 nrows).batches [1]]

/-- The length that an entry appends from. -/
def State.appendFrom (s : State) (k : Kv) (e : AppendEntry) : Nat :=
  if s.seqState k e.seq = 0 then 0 else if e.keep = kvNone then s.seqLen k e.seq else e.keep

/-- An entry's sequence cannot take it (R301). -/
def State.appendBarred (s : State) (k : Kv) (e : AppendEntry) : Bool :=
  (match s.seqState k e.seq with
   | 0 => e.keep != 0 && e.keep != kvNone
   | 1 => e.keep != kvNone && e.keep > s.seqLen k e.seq
   | _ => true) || s.appendFrom k e + e.count > 1048576

/-- A token slot that an append writes: page, token within it, position, and row of the tensors. -/
structure NewToken where
  /-- The page -/
  page : Nat
  /-- The token's place in the page -/
  idx : Nat
  /-- Its position in the sequence -/
  at_ : Nat
  /-- Its row -/
  row : Nat
deriving DecidableEq, Repr

/-- Where an append stands: the state, pages allocated, and token slots to write, newest first. -/
structure Appended where
  /-- The state -/
  st : State
  /-- Pages allocated -/
  alloc : Nat := 0
  /-- Token slots -/
  toks : List NewToken := []

/-- A private copy of page n for sequence q at block b, with the tokens below `t` (R306). -/
def State.copyPage (s : State) (k : Kv) (q b pool n t : Nat) : Option (State × Nat) :=
  match s.newPage k pool (s.seqModel k q) (s.seqVariant k q) with
  | none => none
  | some (s, m) =>
    let va := s.pgVa k n
    let s := s.copyVa k.part va (s.pgVa k m) (t * k.dl * k.elemBytes)
    let s := s.copyVa k.part (k.sideVa va 0) (k.sideVa (s.pgVa k m) 0) (t * k.dr * k.elemBytes)
    let s := (s.tryWriteVa k.part (k.metaVa + m * 384 + 64) ((s.pgTokens k n).take (4 * t))).setPg k m 2 2 t
    match s.listPage k q b m with
    | some s => some ((s.dropRef k n).1, m)
    | none => none

/-- The page that takes token `t` of block b of sequence q (R298, R306): the state, the page, and pages allocated. -/
def State.pageFor (s : State) (k : Kv) (q b pool t : Nat) : Option (State × Nat × Nat) :=
  if b * 64 ≥ s.seqLen k q ∧ t = 0 then
    match s.newPage k pool (s.seqModel k q) (s.seqVariant k q) with
    | some (s, n) => (s.listPage k q b n).map (fun s => (s, n, 1))
    | none => none
  else
    let n := s.seqPage k q b
    if s.pgRefs k n > 1 || s.pgPins k n > 0 then (s.copyPage k q b pool n t).map (fun r => (r.1, r.2, 1))
    else if s.pgState k n = 1 ∧ s.pgFill k n ≤ t then some (s, n, 0)
    else
      let s := if s.pgState k n = 3 then s.ixRemove k n else s
      some ((s.setPg k n 0 1 1).setPg k n 2 2 t, n, 0)

/-- A page reached FILL 64 (R298, R311 step 6). -/
def State.fullPage (s : State) (k : Kv) (q b n : Nat) (index : Bool) : State :=
  let prev := if b = 0 then zeros 16 else s.pgHash k (s.seqPage k q (b - 1))
  let h := s.blockHash k.part prev (s.seqModel k q) (s.seqVariant k q) (s.pgTokens k n)
  let s := s.tryWriteVa k.part (k.metaVa + n * 384 + 32) (h ++ prev)
  if index then let r := s.ixInsert k n h; r.1.setPg k n 0 1 (if r.2 then 3 else 2) else s.setPg k n 0 1 2

/-- Put the records of one token (R311). -/
def Appended.token (k : Kv) (q pool : Nat) (index : Bool) (a : Appended) (at_ row tok : Nat) : Option Appended :=
  let b := at_ / 64
  let t := at_ % 64
  match a.st.pageFor k q b pool t with
  | none => none
  | some (s, n, new) =>
    let s := ((s.setPg k n (64 + 4 * t) 4 tok).setPg k n 2 2 (t + 1)).setSqf k q 4 4 (at_ + 1)
    let s := if t = 63 then s.fullPage k q b n index else s
    some { st := s, alloc := a.alloc + new, toks := { page := n, idx := t, at_ := at_, row := row } :: a.toks }

/-- Put the records of an entry's tokens from the `i`th on. -/
def Appended.tokens (k : Kv) (e : AppendEntry) (index : Bool) (from_ : Nat) (tok : Nat → Nat) : Nat → Nat → Appended → Option Appended
  | 0, _, a => some a
  | n + 1, i, a =>
    match a.token k e.seq e.pool index (from_ + i) (e.row + i) (tok (e.row + i)) with
    | some b => b.tokens k e index from_ tok n (i + 1)
    | none => none

/-- One entry of an append (R311 steps 1, 2, 5, 6). -/
def Appended.entry (k : Kv) (index : Bool) (tok : Nat → Nat) (a : Appended) (e : AppendEntry) : Option Appended :=
  let from_ := a.st.appendFrom k e
  let s := if a.st.seqState k e.seq = 0 then
      ((((a.st.setSeq k e.seq 1 false false).setSqf k e.seq 4 4 0).setSqf k e.seq 8 4 e.model).setSqf k e.seq 12 4 e.variant)
    else if from_ < a.st.seqLen k e.seq then a.st.truncateSeq k e.seq from_ else a.st
  { a with st := s }.tokens k e index from_ tok e.count 0

/-- The records of a whole append; none when pages, slots or chunks run out. -/
def State.appendRecords (s : State) (k : Kv) (index : Bool) (es : List AppendEntry) (tok : Nat → Nat) : Option Appended :=
  es.foldl (fun (a : Option Appended) e => match a with | some x => x.entry k index tok e | none => none) (some { st := s })

/-- The reciprocal by which an element is stored: 1.0 for a scale of 0. -/
def storeScale (v : Nat) : Num := if v = 0 then .fin false 1 0 else (sfuRecip (BitVec.ofNat 32 v)).num

/-- The value of a scale: 1.0 for 0. -/
def loadScale (v : Nat) : Num := if v = 0 then .fin false 1 0 else fmtFP32.decode v

/-- A row of the rotary table (R319). -/
def State.ropeRow (s : State) (p : Nat) (src : Option Nat) (slot va dr i : Nat) : Except Fail (List F32) := do
  .ok ((chunksOf 4 (← s.readVa p src slot (va + i * dr * 4) (dr * 4))).map (fun b => BitVec.ofNat 32 (leNat b)))

/-- Rotate a side key at a position with its coarse and fine rows (R319). -/
def rotate (pairing : Nat) (hi lo v : List F32) : List F32 :=
  let half := v.length / 2
  let g := fun (l : List F32) (i : Nat) => l.getD i f32Zero
  let pair := fun (f : Nat) =>
    let (ca, sa) := (g hi (2 * f), g hi (2 * f + 1))
    let (cb, sb) := (g lo (2 * f), g lo (2 * f + 1))
    let c := fFma ca cb (fMul (fNeg sa) sb)
    let s := fFma sa cb (fMul ca sb)
    let (a, b) := if pairing = 0 then (g v (2 * f), g v (2 * f + 1)) else (g v f, g v (f + half))
    (fFma a c (fMul (fNeg b) s), fFma a s (fMul b c))
  if pairing = 0 then (List.range half).flatMap (fun f => [(pair f).1, (pair f).2])
  else (List.range half).map (fun f => (pair f).1) ++ (List.range half).map (fun f => (pair f).2)

/-- The stored bytes of a token's part and OUT_RANGE (R311 steps 3, 4). -/
def storePart (k : Kv) (scale : Nat) (sr : Bool) (seed region base : Nat) (xs : List Num) : List Byte × Bool :=
  let rec_ := storeScale scale
  let es := xs.zipIdx.map (fun x => encodeElem k.fmt (roundingOf sr seed region (base + x.2)) true 0 (x.1.mul rec_))
  (packElems (elemBits k.fmt) (es.map Prod.fst), es.any Prod.snd)

/-- What an append stores: its latents and side keys, SR and SEED. -/
structure AppendData where
  /-- Slot 0 -/
  lat : Tensor
  /-- Slot 1 -/
  side : Option Tensor
  /-- SR -/
  sr : Bool
  /-- SEED -/
  seed : Nat

/-- The stored bytes of one token: its latent and its side key, and OUT_RANGE. -/
def State.tokenBytes (s : State) (k : Kv) (src : Option Nat) (a : AppendData) (t : NewToken) :
    Except Fail (List Byte × List Byte × Bool) := do
  let l := storePart k k.latScale a.sr a.seed 0 (t.row * k.dl) ((List.range k.dl).map (fun j => a.lat.num 0 t.row j))
  match a.side with
  | none => .ok (l.1, [], l.2)
  | some side =>
    let v := (List.range k.dr).map (fun j => side.num 0 t.row j)
    let v ← if k.pos = 1 then do
        let hi ← s.ropeRow k.part src 1 k.ropeVa k.dr (t.at_ / 1024)
        let lo ← s.ropeRow k.part src 1 k.ropeVa k.dr (1024 + t.at_ % 1024)
        .ok ((rotate k.pairing hi lo (v.map Num.f32)).map F32.num)
      else .ok v
    let r := storePart k k.sideScale a.sr a.seed 1 (t.row * k.dr) v
    .ok (l.1, r.1, l.2 || r.2)

/-- Write the token slots of an append, oldest first: the state and OUT_RANGE. -/
def State.writeTokens (s : State) (k : Kv) (src : Option Nat) (a : AppendData) : List NewToken → Bool → Except Fail (State × Bool)
  | [], above => .ok (s, above)
  | t :: ts, above => do
    let x ← s.tokenBytes k src a t
    let va := s.pgVa k t.page
    let u ← s.writeVa k.part src 0 (k.latentVa va t.idx) x.1
    let u ← u.writeVa k.part src 0 (k.sideVa va t.idx) x.2.1
    u.writeTokens k src a ts (above || x.2.2)

/-- Token slots hold undefined bytes (R312). -/
def State.spoilTokens (s : State) (k : Kv) (ts : List (Nat × Nat)) : State :=
  ts.foldl (fun (t : State) x =>
    let va := t.pgVa k x.1
    (t.spoil k.part none (k.latentVa va x.2) (k.dl * k.elemBytes)).spoil k.part none (k.sideVa va x.2) (k.dr * k.elemBytes)) s

/-- The operands of an append as read: its entries and token ids, from the slots `base` on of a parameter block. -/
structure AppendArgs where
  /-- The entries -/
  entries : List AppendEntry
  /-- The token ids -/
  toks : Tensor
  /-- INDEX -/
  index : Bool
  /-- The first slot of the append's records -/
  base : Nat
  /-- SR -/
  sr : Bool
  /-- SEED -/
  seed : Nat

/-- The faults of an append's block from slot `base` on (R310). -/
def appendBlockBad (k : Kv) (bl : List Byte) (base nseq : Nat) : List (Bool × Nat) :=
  let nrows := (slotRec bl base).rows
  ((appendRules k nrows nseq (slotRec bl (base + 2))).zipIdx.flatMap (fun x => slotBad bl (base + x.2) x.1)) ++
    chk [(nrows > 65536, 32 * base + 8)]

/-- Read an append's list and token ids. -/
def State.appendArgs (s : State) (k : Kv) (d : Desc) (bl : List Byte) (base : Nat) (index sr : Bool) (seed : Nat) :
    Except Fail AppendArgs := do
  let l ← s.slotTensor k.part d bl (base + 2)
  match firstBad (appendListBad k (slotRec bl base).rows l.bytes) with
  | some o => .error (badInBlock o)
  | none =>
    let toks ← s.slotTensor k.part d bl (base + 3)
    .ok { entries := (chunksOf 32 l.bytes).map AppendEntry.ofBytes, toks := toks, index := index, base := base, sr := sr,
          seed := seed }

/-- The checks of an append on the space: R301 with the index of the first failing entry, and room (R311). -/
def State.appendBad (s : State) (k : Kv) (g : AppendArgs) : Option Fail :=
  match g.entries.zipIdx.find? (fun x => s.appendBarred k x.1) with
  | some x => some (.status stIllegalState x.2)
  | none => if (s.appendRecords k g.index g.entries (fun i => g.toks.elem 0 0 i)).isNone then some (.status stNotAdmitted 0) else none

/-- The commit of an append and its writes of token slots: the state, the outcome, and the slots written. A failure after
the commit keeps the records (R312). -/
def State.appendGo (s : State) (k : Kv) (d : Desc) (bl : List Byte) (g : AppendArgs) : State × Done × List (Nat × Nat) :=
  match s.appendRecords k g.index g.entries (fun i => g.toks.elem 0 0 i) with
  | none => (s, { status := stNotAdmitted }, [])
  | some a =>
    let places := a.toks.map (fun t => (t.page, t.idx))
    let data : Except Fail AppendData := do
      .ok { lat := ← s.slotTensor k.part d bl g.base, side := ← s.slotTensor? k.part d bl (g.base + 1), sr := g.sr, seed := g.seed }
    match data.bind (fun x => a.st.writeTokens k (s.srcOf k.part d) x a.toks.reverse false) with
    | .ok r => (r.1, { result := a.alloc, cflags := flagIf r.2 cfOutRange }, places)
    | .error f => ((a.st.spoilTokens k places).note k.part f, f.done, places)

/-- The sequences that an append's list names, none when it cannot be read. -/
def State.appendNames (s : State) (base : Nat) (k : Kv) (d : Desc) : List Nat :=
  match (do let bl ← s.paramBlock k.part d; (← s.slotTensor k.part d bl (base + 2)).bytes |> Except.ok : Except Fail (List Byte)) with
  | .ok l => (chunksOf 32 l).map (fun e => (AppendEntry.ofBytes e).seq)
  | .error _ => []

/-- KV_APPEND's operands. -/
def State.kvAppendArgs (s : State) (k : Kv) (d : Desc) (bl : List Byte) : Except Fail AppendArgs :=
  s.appendArgs k d bl 0 (bitOf (d.fld 23 1) 1) (bitOf (d.fld 23 1) 0) (d.fld 32 8)

/-- Checks 6 and 7 of KV_APPEND. -/
def State.kvAppendCheck (s : State) (k : Kv) (d : Desc) : Option Fail :=
  match s.paramBlock k.part d with
  | .error f => some f
  | .ok bl =>
    match firstBad (appendBlockBad k bl 0 (d.fld 26 2)) with
    | some o => some (badInBlock o)
    | none => match s.kvAppendArgs k d bl with
      | .error f => some f
      | .ok g => s.appendBad k g

/-- The course of KV_APPEND: its commit is at its start, and a failure afterwards leaves its token slots undefined. -/
def kvAppendCourse : Course :=
  { check := (kvCourse 24 State.kvAppendCheck (fun s _ _ => (s, {}))).check
    opens := fun s p d =>
      match s.kv? p (d.fld 24 1), s.paramBlock p d with
      | some k, .ok bl =>
        let s := s.kvNow k
        match s.kvAppendArgs k d bl with
        | .ok g =>
          let r := s.appendGo k d bl g
          (r.1.settle k s s.now).kvOpen p { num := d.num, space := k.space, seqs := [], out := r.2.1, slots := r.2.2 }
        | .error _ => s
      | _, _ => s
    run := fun s p d => .ok (s, s.kvOutcome p d.num) }

/-- KV_APPEND (R310 to R312). -/
def execKvAppend (d : DescRef) (s : State) : Host.Outcome State Fault Refusal :=
  .next (s.runKv d (isOp 0x41) 24 (s.appendNames 0) kvAppendCourse)

/-- A started KV command or ATTEND ends otherwise than by its own run (R305, R312): its pins go, and an append's token
slots hold undefined bytes. -/
def State.kvAbandon (s : State) (p num : Nat) : State :=
  match (s.part p).resolved.find? (fun r => r.num == num) with
  | none => s
  | some r =>
    match s.kv? p r.space with
    | none => s
    | some k =>
      let s := s.spoilTokens k r.slots
      let s' := r.pinned.foldl (fun (t : State) n => t.unpin k n) s
      if r.pinned.isEmpty then s else s'.settle k s s.now

/-! ### Expiry and wake (R317, R332) -/

/-- KV_EXPIRY (R317). -/
def execKvExpiry (p space seq : Nat) (s : State) : Host.Outcome State Fault Refusal :=
  .next (match s.kv? p space with
    | some k =>
      if seq < k.seqMax ∧ s.seqState k seq = 2 ∧ s.seqRuns k seq = true ∧ s.sqf k seq 24 8 ≤ s.now then
        s.expireUntil k (s.sqf k seq 24 8) k.seqMax
      else s
    | none => s)

/-- Some byte of a range of virtual addresses lies in stacked DRAM. -/
def State.touchesStacked (s : State) (p va len : Nat) : Bool :=
  match s.resolve p none 0 va len false with
  | .ok ps => ps.any (fun c => inStacked c.1)
  | .error _ => false

/-- A space that kept its records through DEEP: sequences with pages in pools of KIND 1 are lost (R332). -/
def State.kvLose (s : State) (k : Kv) : State :=
  let lost := (s.holders k).filter (fun q => (s.seqPages k q).any (fun n => k.poolKind (s.pgPool k n) == 1))
  if lost.isEmpty then s
  else
    let t := lost.foldl (fun (t : State) q => (t.dropList k q).1.setSeq k q 3 false true) s
    (t.settle k s s.now).raise k.part 0xB3 (toLe 1 k.space ++ zeros 3 ++ toLe 4 lost.length)

/-- What a partition's KV spaces lost in DEEP, as the module does it on wake (R332); `inDram` tells for each attached space
whether its header, a module-owned region or its rotary table lay in stacked DRAM. -/
def State.kvWake (s : State) (p : Nat) (inDram : Nat → Bool) : State :=
  ((s.part p).kv.map Prod.fst).foldl (fun (t : State) n =>
    if inDram n then
      (t.onPart p (fun q => { q with kv := q.kv.filter (fun x => x.1 != n) })).raise p 0xB2 (toLe 1 n)
    else match t.kv? p n with
      | some k => t.kvLose k
      | none => t) s

/-- A space's header, a module-owned region or its rotary table lies in stacked DRAM. -/
def State.kvInDram (s : State) (p n : Nat) : Bool :=
  match s.kv? p n with
  | some k => k.regions.any (fun x => s.touchesStacked p x.2.1 x.2.2)
  | none => false

end Sys2Proof.Machine
end

