-- ==== Sys2Proof/Machine/Attend.lean ====
section
/-! DEFINITION. ATTEND: fused attention in dense and cache mode, with an append, a bitmap and stored probabilities (R319 to
R331). -/

namespace Sys2Proof.Machine

/-! ### Fields (R321) -/

namespace Desc

/-- SOURCE: cache mode. -/
def attCache (d : Desc) : Bool := bitOf (d.fld 23 1) 0
/-- ABSORBED. -/
def attAbsorbed (d : Desc) : Bool := bitOf (d.fld 23 1) 1
/-- APPEND. -/
def attAppend (d : Desc) : Bool := bitOf (d.fld 23 1) 2
/-- STORE_P. -/
def attStoreP (d : Desc) : Bool := bitOf (d.fld 23 1) 3
/-- INDEX. -/
def attIndex (d : Desc) : Bool := bitOf (d.fld 23 1) 4
/-- MASK. -/
def attMask (d : Desc) : Nat := bitsOf (d.fld 25 1) 1 0
/-- WINDOW. -/
def attWindow (d : Desc) : Bool := bitOf (d.fld 25 1) 2
/-- BITMAP. -/
def attBitmap (d : Desc) : Bool := bitOf (d.fld 25 1) 3
/-- HQ. -/
def hq (d : Desc) : Nat := d.fld 26 1
/-- HKV. -/
def hkv (d : Desc) : Nat := d.fld 27 1
/-- DK. -/
def dk (d : Desc) : Nat := d.fld 28 2
/-- DV. -/
def dv (d : Desc) : Nat := d.fld 30 2
/-- NSEQ. -/
def nseq (d : Desc) : Nat := d.fld 52 2
/-- QMAX. -/
def qmax (d : Desc) : Nat := d.fld 54 2
/-- DRD. -/
def drd (d : Desc) : Nat := d.fld 62 1

end Desc

/-- The shape that an ATTEND has with its space, if it has one: position term, pairing, rotary width, ALiBi span, the rotary
table, query width and value width (R321, R325). -/
structure AttShape where
  /-- The space -/
  kv : Option Kv
  /-- POS -/
  pos : Nat
  /-- PAIRING -/
  pairing : Nat
  /-- Rotary width: DR or DRD -/
  dr : Nat
  /-- ALIBI_MAX -/
  alibi : F32
  /-- W -/
  w : Nat
  /-- Width of a head's output -/
  ov : Nat

/-- The shape of an ATTEND. -/
def attShape (d : Desc) (kv : Option Kv) : AttShape :=
  match kv with
  | some k =>
    { kv := kv, pos := k.pos, pairing := k.pairing, dr := k.dr, alibi := BitVec.ofNat 32 k.alibiMax,
      w := (if d.attAbsorbed then k.dl else d.dk) + k.dr, ov := if d.attAbsorbed then k.dl else d.dv }
  | none =>
    { kv := none, pos := d.fld 60 1, pairing := d.fld 61 1, dr := d.drd, alibi := BitVec.ofNat 32 (d.fld 56 4),
      w := d.dk + d.drd, ov := d.dv }

/-- The offending bytes of the block (R322). -/
def attBlockBad (d : Desc) (q : AttShape) (bl : List Byte) : List (Bool × Nat) :=
  let f8 := [0x0C, 0x04, 0x05]
  let rows := d.nseq * d.qmax
  let dense := q.kv.isNone
  let keyRows := (slotRec bl 5).rows
  let dl := match q.kv with | some k => k.dl | none => 0
  let one := fun (r : SlotRule) => r.batches [1]
  let key := if dense then { one (need f8) with cols := some (d.hkv * q.w), rows := some (if keyRows % d.nseq = 0 then keyRows else 0) }
    else if d.attAbsorbed || d.dk == 0 then absent else one ((need [0x0C]).shape dl (d.hkv * d.dk))
  let val := if dense then one ((need f8).shape keyRows (d.hkv * d.dv))
    else if d.attAbsorbed then absent else one ((need [0x0C]).shape dl (d.hkv * d.dv))
  let main := [one ((need f8).shape rows (d.hq * q.w)), one ((need [0x0E, 0x0C, 0x0D]).shape rows (d.hq * q.ov)),
    one ((may [0x0E]).shape rows d.hq), one ((need [0x13]).shape 1 d.nseq), one ((may [0x13]).shape 1 d.nseq), key, val,
    if dense && q.pos == 1 then one ((need [0x0E]).shape 2048 d.drd) else absent,
    if d.attBitmap then one (need [0x14]) else absent,
    if d.attStoreP then { one (need [0x0C]) with rows := some (d.nseq * d.hq * d.qmax) } else absent]
  (main.zipIdx.flatMap (fun x => slotBad bl x.2 x.1)) ++
  (match q.kv with
   | some k => if d.attAppend then appendBlockBad k bl 10 ((slotRec bl 12).rows * (slotRec bl 12).cols / 32)
               else [10, 11, 12, 13].flatMap (fun i => slotBad bl i absent)
   | none => [10, 11, 12, 13].flatMap (fun i => slotBad bl i absent))

/-- The append of an ATTEND (R330). -/
def State.attAppendArgs (s : State) (k : Kv) (d : Desc) (bl : List Byte) : Except Fail AppendArgs :=
  s.appendArgs k d bl 10 d.attIndex false 0

/-- LEN of a sequence once an append's entry is in. -/
def State.lenAfter (s : State) (k : Kv) (es : List AppendEntry) (q : Nat) : Nat :=
  match es.find? (fun e => e.seq == q) with
  | some e => s.appendFrom k e + e.count
  | none => s.seqLen k q

/-- The query counts: slot 4, or QMAX each. -/
def State.qcounts (s : State) (p : Nat) (d : Desc) (bl : List Byte) : Except Fail (List Nat) := do
  match ← s.slotTensor? p d bl 4 with
  | some t => .ok ((List.range d.nseq).map (t.elem 0 0))
  | none => .ok (List.replicate d.nseq d.qmax)

/-- Checks on the sequences of an ATTEND in cache mode, with the entries of its append (R301, R323, R329, R330). -/
def State.attSeqBad (s : State) (k : Kv) (d : Desc) (bl : List Byte) (qs qc : List Nat) (es : List AppendEntry) : Option Fail :=
  let lens := qs.map (s.lenAfter k es)
  let opened := fun (q : Nat) => es.any (fun e => e.seq == q)
  let bad := qs.zipIdx.flatMap (fun x =>
    chk [(x.1 ≥ k.seqMax || (qs.take x.2).contains x.1 || (d.attAppend && !opened x.1), 4 * x.2)])
  match firstBad bad with
  | some o => some (badInBlock o)
  | none =>
    match (qs.zip qc).zipIdx.find? (fun x => (s.seqState k x.1.1 != 1 && !opened x.1.1) || x.1.2 > s.lenAfter k es x.1.1) with
    | some x => some (.status stIllegalState x.2)
    | none =>
      if d.attStoreP && lens.any (· > 16384) then some (badAt 23)
      else if d.attStoreP && lens.any (· > (slotRec bl 9).cols) then some (badInBlock (32 * 9 + 12))
      else none

/-- The checks of an ATTEND in cache mode on its space. -/
def State.attCacheCheck (s : State) (k : Kv) (d : Desc) : Option Fail :=
  let q := attShape d (some k)
  if !d.attAbsorbed && (q.w > 256 || q.w == 0) then some (badAt 28)
  else match s.paramBlock k.part d with
    | .error f => some f
    | .ok bl =>
      match firstBad (attBlockBad d q bl) with
      | some o => some (badInBlock o)
      | none =>
        let args : Except Fail (List Nat × List Nat × Option AppendArgs) := do
          let t ← s.slotTensor k.part d bl 3
          let g ← if d.attAppend then (s.attAppendArgs k d bl).map some else .ok none
          .ok ((List.range d.nseq).map (t.elem 0 0), ← s.qcounts k.part d bl, g)
        match args with
        | .error f => some f
        | .ok (qs, qc, g) =>
          let es := match g with | some x => x.entries | none => []
          let barred := match g with | some x => s.appendBad k x | none => none
          match s.attSeqBad k d bl qs qc es, barred with
          | some f, _ => some f
          | none, some f => some f
          | none, none => s.digestReach k.part d

/-- The checks of an ATTEND in dense mode. -/
def State.attDenseCheck (s : State) (p : Nat) (d : Desc) : Option Fail :=
  let q := attShape d none
  match s.paramBlock p d with
  | .error f => some f
  | .ok bl =>
    match firstBad (attBlockBad d q bl) with
    | some o => some (badInBlock o)
    | none =>
      let args : Except Fail (List Nat × List Nat) := do
        let t ← s.slotTensor p d bl 3
        .ok ((List.range d.nseq).map (t.elem 0 0), ← s.qcounts p d bl)
      match args with
      | .error f => some f
      | .ok (kl, qc) =>
        let kmax := (slotRec bl 5).rows / d.nseq
        match firstBad ((kl.zip qc).zipIdx.map (fun x => (x.1.1 > kmax || x.1.2 > x.1.1, 4 * x.2))) with
        | some o => some (badInBlock o)
        | none =>
          if d.attStoreP && kl.any (· > 16384) then some (badAt 23)
          else if d.attStoreP && kl.any (· > (slotRec bl 9).cols) then some (badInBlock (32 * 9 + 12))
          else s.digestReach p d

/-! ### Visibility (R323, R324) -/

/-- Key position j is visible to query position i of a sequence of `klen` keys. -/
def visible (d : Desc) (bm : Option Tensor) (klen : Nat) (i : Int) (j : Nat) : Bool :=
  let jj : Int := j
  decide (j < klen) &&
  (match d.attMask with
   | 0 => true
   | 1 => decide (jj ≤ i)
   | _ => decide (jj ≤ i) || decide (j < d.fld 48 4)) &&
  (!d.attWindow || decide (i - jj < (d.fld 36 4 : Nat))) &&
  (match bm with
   | none => true
   | some t =>
     let row := (i / 64).toNat
     let col := j / 64 / 8
     decide (0 ≤ i) && decide (row < t.shape.rows) && decide (col < t.shape.cols) && bitOf (t.elem 0 row col) (j / 64 % 8))

/-- Some valid row of a sequence sees a key of block b. -/
def blockSeen (d : Desc) (bm : Option Tensor) (klen qcount b : Nat) : Bool :=
  (List.range (Nat.min qcount d.qmax)).any (fun r =>
    (List.range 64).any (fun t => visible d bm klen ((klen : Int) - qcount + r) (64 * b + t)))

/-! ### Keys and values (R296, R325) -/

/-- A value rounded to BF16. -/
def bf16 (x : Num) : Num := fmtBF16.decode (fmtBF16.encode .rne false x).1

/-- The keys of one key block of one sequence as the heads read them: token by token, the key of each head group and its
value, and whether an element read was NaN or infinite. -/
structure KeyBlock where
  /-- Keys by token and head group -/
  keys : List (List (List Num))
  /-- Values by token and head group -/
  vals : List (List (List Num))
  /-- SPECIAL_IN -/
  special : Bool

/-- The last `n` elements of a vector rotated to a position and rounded to BF16 (R319, R325). -/
def rotateTail (pairing n : Nat) (hi lo : List F32) (v : List Num) : List Num :=
  let cut := v.length - n
  v.take cut ++ (rotate pairing hi lo ((v.drop cut).map Num.f32)).map (fun x => bf16 x.num)

/-- The rotary rows of a position from a dense table or a space's. -/
def State.ropeAt (s : State) (p : Nat) (src : Option Nat) (q : AttShape) (table : Option Tensor) (at_ : Nat) :
    Except Fail (List F32 × List F32) :=
  match table, q.kv with
  | some t, _ =>
    .ok ((List.range q.dr).map (fun c => t.f32 0 (at_ / 1024) c), (List.range q.dr).map (fun c => t.f32 0 (1024 + at_ % 1024) c))
  | none, some k => do .ok (← s.ropeRow p src 3 k.ropeVa k.dr (at_ / 1024), ← s.ropeRow p src 3 k.ropeVa k.dr (1024 + at_ % 1024))
  | none, none => .ok ([], [])

/-- The tensors of an ATTEND beside its sequences. -/
structure AttData where
  /-- Slot 0 -/
  q : Tensor
  /-- Slot 5 -/
  k : Option Tensor
  /-- Slot 6 -/
  v : Option Tensor
  /-- Slot 7 -/
  rope : Option Tensor
  /-- Slot 8 -/
  bitmap : Option Tensor

/-- A latent through one head group's projection: the ordered product with KC = 64, rounded to BF16 (R325). -/
def project (w : Option Tensor) (c : List Num) (g width : Nat) : List Num :=
  match w with
  | none => []
  | some t => (List.range width).map (fun e =>
      bf16 (orderedSum 64 (c.zipIdx.map (fun x => (x.1, t.num 0 x.2 (g * width + e)))) f32Zero).num)

/-- Tokens `j0` and on of dense sequence `i`, as many as are keys (R325). -/
def State.denseKeys (s : State) (p : Nat) (src : Option Nat) (d : Desc) (q : AttShape) (a : AttData) (kmax i : Nat) :
    List Nat → Except Fail KeyBlock
  | [] => .ok ⟨[], [], false⟩
  | j :: js => do
    let row := i * kmax + j
    let kg := fun (g : Nat) => match a.k with | some t => (List.range q.w).map (fun e => t.num 0 row (g * q.w + e)) | none => []
    let vg := fun (g : Nat) => match a.v with | some t => (List.range d.dv).map (fun e => t.num 0 row (g * d.dv + e)) | none => []
    let r ← if q.pos = 1 then s.ropeAt p src q a.rope j else .ok ([], [])
    let keys := (List.range d.hkv).map kg
    let turned := keys.map (fun k => if q.pos = 1 then rotateTail q.pairing q.dr r.1 r.2 k else k)
    let vals := (List.range d.hkv).map vg
    let rest ← s.denseKeys p src d q a kmax i js
    .ok ⟨turned :: rest.keys, vals :: rest.vals,
      rest.special || keys.any (fun k => k.any Num.special) || vals.any (fun v => v.any Num.special)⟩

/-- Stored elements as ATTEND loads them (R296). -/
def loadPart (k : Kv) (scale n : Nat) (bs : List Byte) : List Num :=
  (List.range n).map (fun e => bf16 ((elemNum k.fmt (rowElem bs (8 * k.elemBytes) e)).mul (loadScale scale)))

/-- Tokens of a page of a KV space (R296, R325). -/
def State.cacheKeys (s : State) (k : Kv) (src : Option Nat) (d : Desc) (a : AttData) (page : Nat) : List Nat → Except Fail KeyBlock
  | [] => .ok ⟨[], [], false⟩
  | t :: ts => do
    let va := s.pgVa k page
    let c := loadPart k k.latScale k.dl (← s.readVa k.part src 3 (k.latentVa va t) (k.dl * k.elemBytes))
    let side := loadPart k k.sideScale k.dr (← s.readVa k.part src 3 (k.sideVa va t) (k.dr * k.elemBytes))
    let keys := (List.range d.hkv).map (fun g => (if d.attAbsorbed then c else project a.k c g d.dk) ++ side)
    let vals := (List.range d.hkv).map (fun g => if d.attAbsorbed then c else project a.v c g d.dv)
    let rest ← s.cacheKeys k src d a page ts
    .ok ⟨keys :: rest.keys, vals :: rest.vals, rest.special || c.any Num.special || side.any Num.special⟩

/-- One sequence of an ATTEND with what it reads. -/
structure AttSeq where
  /-- KLEN -/
  klen : Nat
  /-- QCOUNT -/
  qcount : Nat
  /-- Its key blocks that some row sees, by block number -/
  blocks : List (Nat × KeyBlock)

/-- Load the key blocks of a sequence that some row of it sees. -/
def State.attLoad (s : State) (p : Nat) (src : Option Nat) (d : Desc) (q : AttShape) (a : AttData) (i klen qcount : Nat)
    (pages : List Nat) : List Nat → Except Fail (List (Nat × KeyBlock))
  | [] => .ok []
  | b :: bs => do
    let rest ← s.attLoad p src d q a i klen qcount pages bs
    if blockSeen d a.bitmap klen qcount b then do
      let n := Nat.min 64 (klen - 64 * b)
      let x ← match q.kv with
        | some k => s.cacheKeys k src d a (pages.getD b 0) (List.range n)
        | none => s.denseKeys p src d q a ((slotOf a).rows / d.nseq) i ((List.range n).map (64 * b + ·))
      .ok ((b, x) :: rest)
    else .ok rest
where
  /-- The record of the dense keys -/
  slotOf (a : AttData) : TRec := match a.k with | some t => t.shape | none => TRec.ofBytes []

/-! ### The rows (R320, R326, R327, R329) -/

/-- Where a row stands between key blocks: m, l, o and the scores so far by key position. -/
structure RowState where
  /-- m -/
  m : F32 := f32NegInf
  /-- l -/
  l : F32 := f32Zero
  /-- o -/
  o : List F32
  /-- s[j] of the visible keys -/
  scores : List (Nat × F32) := []

/-- The slope of query head h (R320). -/
def alibiSlope (alibi : F32) (hq h : Nat) : F32 :=
  sfuExp2 (fNeg (fMul alibi (fMul (F32.ofNat' (h + 1)) (sfuRecip (F32.ofNat' hq)))))

/-- One key block for one row and head (R326). -/
def attBlock (d : Desc) (q : AttShape) (bm : Option Tensor) (klen : Nat) (i : Int) (h : Nat) (qv : List Num) (r : RowState)
    (b : Nat × KeyBlock) : RowState :=
  let g := h / (d.hq / d.hkv)
  let seen := (List.range b.2.keys.length).filter (fun t => visible d bm klen i (64 * b.1 + t))
  if seen.isEmpty then r
  else
    let sm := d.scaleArg 32
    let slope := alibiSlope q.alibi d.hq h
    let score := fun (t : Nat) =>
      let dot := orderedSum 64 (qv.zip ((b.2.keys.getD t []).getD g [])) f32Zero
      let x := fMul dot sm
      let x := if q.pos = 2 then fSub x (fMul slope (F32.ofInt' (i - (64 * b.1 + t : Nat)))) else x
      fMul x f32L2E
    let ss := seen.map (fun t => (t, score t))
    let m2 := ss.foldl (fun a x => fMax a x.2) r.m
    let alpha := sfuExp2 (fSub r.m m2)
    let ps := ss.map (fun x => (x.1, (bf16 (sfuExp2 (fSub x.2 m2)).num).f32))
    let p := fun (t : Nat) => match ps.find? (fun x => x.1 == t) with | some x => x.2 | none => f32Zero
    let sigma := laneReduce fAdd ((List.range 64).map p)
    let u := fun (e : Nat) => ps.foldl (fun a x => fFma x.2 (((b.2.vals.getD x.1 []).getD g []).getD e (.fin false 0 0)).f32 a) f32Zero
    { m := m2, l := fFma r.l alpha sigma,
      o := r.o.zipIdx.map (fun x => fFma x.1 alpha (u x.2)),
      scores := r.scores ++ ss.map (fun x => (64 * b.1 + x.1, x.2)) }

/-- What one row and head give: the output's encodings, LSE, the stored probabilities, and OUT_RANGE, SPECIAL_IN and whether
it is an empty row. -/
structure RowOut where
  /-- Encodings of the output -/
  out : List Nat
  /-- LSE -/
  lse : F32
  /-- Stored probabilities, by column -/
  probs : List Nat
  /-- OUT_RANGE -/
  above : Bool := false
  /-- A query element read is NaN or infinite -/
  special : Bool := false
  /-- It is an empty row -/
  empty : Bool := false

/-- The row of zeros of a padded or empty row (R327). -/
def RowOut.zero (q : AttShape) (cols : Nat) : RowOut :=
  { out := List.replicate q.ov 0, lse := f32NegInf, probs := List.replicate cols 0 }

/-- One valid row and head, from its query vector with the rotary part turned (R326, R327, R329). -/
def attRow (d : Desc) (q : AttShape) (bm : Option Tensor) (fmt cols : Nat) (x : AttSeq) (i : Int) (h : Nat) (qv : List Num) : RowOut :=
  let r := x.blocks.foldl (attBlock d q bm x.klen i h qv) { o := List.replicate q.ov f32Zero }
  if r.l.num.isZero then { RowOut.zero q cols with empty := true }
  else
    let rl := sfuRecip r.l
    let es := r.o.map (fun o => encodeElem fmt .rne false 0 (fMul o rl).num)
    let top := fAdd r.m (sfuLog2 r.l)
    { out := es.map Prod.fst, lse := fMul top f32LN2, above := es.any Prod.snd,
      probs := (List.range cols).map (fun j => match r.scores.find? (fun y => y.1 == j) with
        | some y => (fmtBF16.encode .rne false (sfuExp2 (fSub y.2 top)).num).1
        | none => 0) }

/-- Row r of sequence n for every query head. -/
def State.attRowAll (s : State) (p : Nat) (src : Option Nat) (d : Desc) (q : AttShape) (a : AttData) (fmt cols n r : Nat) (x : AttSeq) :
    Except Fail (List RowOut) :=
  if r < x.qcount then do
    let i : Int := (x.klen : Int) - x.qcount + r
    let rope ← if q.pos = 1 then s.ropeAt p src q a.rope i.toNat else .ok ([], [])
    .ok ((List.range d.hq).map (fun h =>
      let raw := (List.range q.w).map (fun e => a.q.num 0 (n * d.qmax + r) (h * q.w + e))
      let qv := if q.pos = 1 then rotateTail q.pairing q.dr rope.1 rope.2 raw else raw
      { attRow d q a.bitmap fmt cols x i h qv with special := raw.any Num.special }))
  else .ok (List.replicate d.hq (RowOut.zero q cols))

/-- Every row of an ATTEND, in order. -/
def State.attRows (s : State) (p : Nat) (src : Option Nat) (d : Desc) (q : AttShape) (a : AttData) (fmt cols : Nat)
    (xs : List AttSeq) : List Nat → Except Fail (List (List RowOut))
  | [] => .ok []
  | m :: ms => do
    let x ← s.attRowAll p src d q a fmt cols (m / d.qmax) (m % d.qmax) (xs.getD (m / d.qmax) ⟨0, 0, []⟩)
    let rest ← s.attRows p src d q a fmt cols xs ms
    .ok (x :: rest)

/-- Load every sequence of an ATTEND. -/
def State.attSeqs (s : State) (p : Nat) (src : Option Nat) (d : Desc) (q : AttShape) (a : AttData) :
    Nat → List (Nat × Nat × List Nat) → Except Fail (List AttSeq)
  | _, [] => .ok []
  | n, (klen, qcount, pages) :: rest => do
    let b ← s.attLoad p src d q a n klen qcount pages (List.range (cdiv klen 64))
    let xs ← s.attSeqs p src d q a (n + 1) rest
    .ok (⟨klen, qcount, b⟩ :: xs)

/-- Some element of a tensor is NaN or infinite. -/
def Tensor.anySpecial (t : Tensor) : Bool :=
  (List.range t.shape.rows).any (fun r => (List.range t.shape.cols).any (fun c => (t.num 0 r c).special))

/-- Compute an ATTEND over its sequences (KLEN, QCOUNT, pages) and write its outputs (R326 to R329). -/
def State.attCompute (s : State) (p : Nat) (d : Desc) (q : AttShape) (bl : List Byte) (seqs : List (Nat × Nat × List Nat)) :
    Except Fail (State × Done) := do
  let src := s.srcOf p d
  let a : AttData := { q := ← s.slotTensor p d bl 0, k := ← s.slotTensor? p d bl 5, v := ← s.slotTensor? p d bl 6,
                       rope := ← s.slotTensor? p d bl 7, bitmap := ← s.slotTensor? p d bl 8 }
  let xs ← s.attSeqs p src d q a 0 seqs
  let o := slotRec bl 1
  let cols := if d.attStoreP then (slotRec bl 9).cols else 0
  let rows ← s.attRows p src d q a o.fmt cols xs (List.range (d.nseq * d.qmax))
  let get := fun (m h : Nat) => (rows.getD m []).getD h (RowOut.zero q cols)
  let all := rows.flatMap id
  let empty := (all.filter (fun r => r.empty)).length
  let weights := q.kv.isSome && xs.any (fun x => !x.blocks.isEmpty) &&
    ((match a.k with | some t => t.anySpecial | none => false) || (match a.v with | some t => t.anySpecial | none => false))
  let special := all.any (fun r => r.special) || xs.any (fun x => x.blocks.any (fun b => b.2.special)) || weights
  let outs := [(1, o.build (fun _ r c => (get r (c / q.ov)).out.getD (c % q.ov) 0))] ++
    (if slotHere bl 2 then [(2, (slotRec bl 2).build (fun _ r c => (get r c).lse.toNat))] else []) ++
    (if d.attStoreP then [(9, (slotRec bl 9).build (fun _ r c =>
       let sq := r / (d.hq * d.qmax)
       (get (sq * d.qmax + r % d.qmax) (r / d.qmax % d.hq)).probs.getD c 0))] else [])
  let flags := flagIf (all.any (fun r => r.above)) cfOutRange ||| flagIf special cfSpecialIn ||| flagIf (empty > 0) cfEmptyRows
  s.putOuts p d outs { result := satTo 32 empty, cflags := flags }

/-! ### The course (R305, R330) -/

/-- Resolve the sequences of an ATTEND and pin what it will read (R305). -/
def State.attResolve (s : State) (k : Kv) (d : Desc) (bl : List Byte) (out : Done) (slots : List (Nat × Nat)) : State :=
  let args : Except Fail (List Nat × List Nat × Option Tensor) := do
    let t ← s.slotTensor k.part d bl 3
    .ok ((List.range d.nseq).map (t.elem 0 0), ← s.qcounts k.part d bl, ← s.slotTensor? k.part d bl 8)
  match args with
  | .error _ => s
  | .ok (qs, qc, bm) =>
    let seqs := qs.map (fun q => (q, s.seqLen k q, s.seqPages k q))
    let pins := ((seqs.zip qc).flatMap (fun x => ((List.range x.1.2.2.length).filter (fun b =>
      blockSeen d bm x.1.2.1 x.2 b)).map (fun b => x.1.2.2.getD b 0))).eraseDups
    let t := pins.foldl (fun (t : State) n => t.setPg k n 12 4 (t.pgPins k n + 1)) s
    t.kvOpen k.part { num := d.num, space := k.space, seqs := seqs, pinned := pins, slots := slots, out := out }

/-- An ATTEND in cache mode commits: its append, if it has one, then its resolution (R305, R330). -/
def State.attOpen (s : State) (p : Nat) (d : Desc) : State :=
  match s.kv? p (d.fld 24 1), s.paramBlock p d with
  | some k, .ok bl =>
    let s := s.kvNow k
    let r := if d.attAppend then
        match s.attAppendArgs k d bl with
        | .ok g => s.appendGo k d bl g
        | .error _ => (s, {}, [])
      else (s, {}, [])
    ((r.1.settle k s s.now).attResolve k d bl r.2.1 r.2.2).postCounters k
  | _, _ => s

/-- An ATTEND in cache mode computes, and its pins go whatever its STATUS (R305). -/
def State.attRun (s : State) (p : Nat) (d : Desc) : Except Fail (State × Done) :=
  if !d.attCache then do
    let bl ← s.paramBlock p d
    s.attCompute p d (attShape d none) bl (← dense bl)
  else
    match (s.part p).resolved.find? (fun r => r.num == d.num), s.kv? p (d.fld 24 1) with
    | some r, some k =>
      let go : Except Fail (State × Done) := do
        let bl ← s.paramBlock p d
        let qc ← s.qcounts p d bl
        s.attCompute p d (attShape d (some k)) bl ((r.seqs.zip qc).map (fun x => (x.1.2.1, x.2, x.1.2.2)))
      let unpin := fun (t : State) => (r.pinned.foldl (fun (u : State) n => u.unpin k n) t).settle k t t.now
      let spoil := fun (t : State) => t.spoilOut p d
      if !statusGood r.out.status then .ok (unpin (spoil s), r.out)
      else match go with
        | .ok x => .ok (unpin x.1, { x.2 with cflags := x.2.cflags ||| r.out.cflags })
        | .error f => .ok (unpin ((spoil (s.note p f)).spoilTokens k r.slots), f.done)
    | _, _ => .error (.status stIllegalState 0)
where
  /-- KLEN, QCOUNT and no pages of each dense sequence -/
  dense (bl : List Byte) : Except Fail (List (Nat × Nat × List Nat)) := do
    let t ← s.slotTensor p d bl 3
    let qc ← s.qcounts p d bl
    .ok (((List.range d.nseq).map (t.elem 0 0)).zip qc |>.map (fun x => (x.1, x.2, [])))

/-- The course of ATTEND. -/
def attendCourse : Course :=
  { check := fun s p d => if d.attCache then (kvCourse 24 State.attCacheCheck (fun s _ _ => (s, {}))).check s p d else s.attDenseCheck p d
    opens := fun s p d => if d.attCache then s.attOpen p d else s
    run := State.attRun }

/-- The sequences that an ATTEND in cache mode names. -/
def State.attNames (s : State) (k : Kv) (d : Desc) : List Nat :=
  if !d.attCache then []
  else
    (match (do let bl ← s.paramBlock k.part d; s.slotTensor k.part d bl 3 : Except Fail Tensor) with
     | .ok t => (List.range d.nseq).map (t.elem 0 0)
     | .error _ => []) ++ (if d.attAppend then s.appendNames 10 k d else [])

/-- ATTEND (R319 to R331). -/
def execAttend (d : DescRef) (s : State) : Host.Outcome State Fault Refusal :=
  .next (s.runKv d (isOp 0x40) 24 s.attNames attendCourse)

end Sys2Proof.Machine
end

