-- ==== Sys2Proof/Machine/Net.lean ====
section
/-! DEFINITION. The network functions of the field ports (R392, R393): Ethernet frames, IPv4, IPv6 and UDP, and the answers
that the module gives for the addresses of its open channels. The wire formats are those of the standards that R393
names; their fields are big-endian. -/

namespace Sys2Proof.Machine

/-! ### Numbers on the wire -/

/-- The number that a run of bytes spells, most significant byte first. -/
def beNat (bs : List Byte) : Nat := bs.foldl (fun (a : Nat) (b : Byte) => 256 * a + b.toNat) 0

/-- `len` bytes of a number, most significant first. -/
def toBe (len n : Nat) : List Byte := (toLe len n).reverse

/-- The big-endian field of `len` bytes at `off`. -/
def beAt (bs : List Byte) (off len : Nat) : Nat := beNat (sliceOf bs off len)

/-- The sum of 16-bit big-endian words. -/
def wordSum : List Byte → Nat
  | [] => 0
  | [a] => a.toNat * 256
  | a :: b :: r => a.toNat * 256 + b.toNat + wordSum r

/-- The ones' complement sum of the words. -/
def onesSum (bs : List Byte) : Nat := if wordSum bs = 0 then 0 else (wordSum bs - 1) % 65535 + 1

/-- The Internet checksum. -/
def inetCheck (bs : List Byte) : Nat := 65535 - onesSum bs

/-! ### Ethernet -/

/-- A received Ethernet frame without its FCS. -/
structure Eth where
  /-- Destination -/
  dst : Nat
  /-- Source -/
  src : Nat
  /-- The 802.1Q tag's control information, if it has one -/
  vlan : Option Nat
  /-- EtherType -/
  typ : Nat
  /-- What follows -/
  body : List Byte
deriving DecidableEq, Repr

/-- An Ethernet frame with its FCS; none when it is too short, too long or its FCS is bad (R392, R410). -/
def Eth.parse (maxFrame : Nat) (f : List Byte) : Option Eth :=
  let n := f.length
  if n < 64 || n > maxFrame || crc32.bytes (f.take (n - 4)) != f.drop (n - 4) then none
  else
    let f := f.take (n - 4)
    let tag := beAt f 12 2 == 0x8100
    some { dst := beAt f 0 6, src := beAt f 6 6, vlan := if tag then some (beAt f 14 2) else none,
           typ := if tag then beAt f 16 2 else beAt f 12 2, body := f.drop (if tag then 18 else 14) }

/-- An Ethernet frame of field port n, padded to 64 bytes (R392). -/
def ethFrame (n dst : Nat) (vlan : Option Nat) (typ : Nat) (body : List Byte) : List Byte :=
  let h := toBe 6 dst ++ toBe 6 (Config.mac n).toNat ++ (match vlan with | some t => toBe 2 0x8100 ++ toBe 2 t | none => []) ++
    toBe 2 typ ++ body
  let h := h ++ zeros (60 - h.length)
  h ++ crc32.bytes h

/-- A frame of field port n enters its send queue while the port is up (R405). -/
def State.txFrame (s : State) (n : Nat) (f : List Byte) : State :=
  { s with field := { s.field with ports := updAt s.field.ports n (fun p =>
      if p.up && p.enable then { p with txq := p.txq ++ [f] } else p) } }

/-- A frame is discarded and counted in FLD.RX_DROP.OTHER (R393). -/
def State.dropFrame (s : State) (n : Nat) : State :=
  { s with field := { s.field with ports := updAt s.field.ports n (fun p => { p with other := satTo 8 (p.other + 1) }) } }

/-- A frame with a length or FCS of its own that is wrong is discarded, and counts in the port's score (R393, R518). -/
def State.dropBad (s : State) (n : Nat) : State :=
  let s := s.dropFrame n
  { s with field := { s.field with ports := updAt s.field.ports n (fun p => { p with badAt := s.now :: p.badAt }) } }

/-! ### IP and UDP -/

/-- An IP datagram. -/
structure Dgram where
  /-- IPv6 -/
  v6 : Bool
  /-- Source address -/
  src : Nat
  /-- Destination address -/
  dst : Nat
  /-- Protocol, or next header -/
  proto : Nat
  /-- Payload -/
  body : List Byte
deriving DecidableEq, Repr

/-- An IPv4 datagram without options or fragments whose header checksum holds (R393). -/
def Dgram.parse4 (b : List Byte) : Option Dgram :=
  let len := beAt b 2 2
  if byteAt b 0 != 0x45 || len < 20 || len > b.length || onesSum (b.take 20) != 65535 || beAt b 6 2 % 0x8000 % 0x4000 != 0 then none
  else some { v6 := false, src := beAt b 12 4, dst := beAt b 16 4, proto := byteAt b 9, body := sliceOf b 20 (len - 20) }

/-- An IPv6 datagram; a Hop-by-Hop header is skipped (R393). -/
def Dgram.parse6 (b : List Byte) : Option Dgram :=
  let len := beAt b 4 2
  if byteAt b 0 / 16 != 6 || 40 + len > b.length then none
  else
    let body := sliceOf b 40 len
    let hop := byteAt b 6 == 0
    some { v6 := true, src := beAt b 8 16, dst := beAt b 24 16, proto := if hop then byteAt body 0 else byteAt b 6,
           body := if hop then body.drop (8 * (byteAt body 1 + 1)) else body }

/-- The IP datagram that a frame carries. -/
def Eth.dgram (e : Eth) : Option Dgram :=
  if e.typ = 0x0800 then Dgram.parse4 e.body else if e.typ = 0x86DD then Dgram.parse6 e.body else none

/-- The pseudo-header of a checksum over `len` bytes. -/
def pseudo (v6 : Bool) (src dst proto len : Nat) : List Byte :=
  if v6 then toBe 16 src ++ toBe 16 dst ++ toBe 4 len ++ toBe 4 proto else toBe 4 src ++ toBe 4 dst ++ toBe 2 proto ++ toBe 2 len

/-- The checksum of a datagram's payload with its pseudo-header holds. -/
def Dgram.sumOk (d : Dgram) : Bool := onesSum (pseudo d.v6 d.src d.dst d.proto d.body.length ++ d.body) == 65535

/-- Source port, destination port and payload of a UDP datagram whose length and checksum hold (R393). -/
def Dgram.udp (d : Dgram) : Option (Nat × Nat × List Byte) :=
  let len := beAt d.body 4 2
  let d' := { d with body := d.body.take len }
  if d.proto != 17 || len < 8 || len > d.body.length then none
  else if (!d.v6 && beAt d.body 6 2 == 0) || (beAt d.body 6 2 != 0 && d'.sumOk) then
    some (beAt d.body 0 2, beAt d.body 2 2, d'.body.drop 8)
  else none

/-- An IP packet; identification 0 and no fragmentation on IPv4. -/
def ipPacket (v6 : Bool) (src dst proto hops dscp : Nat) (body : List Byte) : List Byte :=
  if v6 then toBe 4 (6 * 2 ^ 28 + dscp * 4 * 2 ^ 20) ++ toBe 2 body.length ++ toBe 1 proto ++ toBe 1 hops ++ toBe 16 src ++
    toBe 16 dst ++ body
  else
    let h := fun (c : Nat) => toBe 1 0x45 ++ toBe 1 (dscp * 4) ++ toBe 2 (20 + body.length) ++ toBe 2 0 ++ toBe 2 0x4000 ++
      toBe 1 hops ++ toBe 1 proto ++ toBe 2 c ++ toBe 4 src ++ toBe 4 dst
    h (inetCheck (h 0)) ++ body

/-- A UDP datagram with its checksum; a sum of 0 is sent as 0xFFFF. -/
def udpBytes (v6 : Bool) (src dst sport dport : Nat) (data : List Byte) : List Byte :=
  let len := 8 + data.length
  let u := fun (c : Nat) => toBe 2 sport ++ toBe 2 dport ++ toBe 2 len ++ toBe 2 c ++ data
  let c := inetCheck (pseudo v6 src dst 17 len ++ u 0)
  u (if c = 0 then 0xFFFF else c)

/-- The EtherType of an IP version. -/
def ipType (v6 : Bool) : Nat := if v6 then 0x86DD else 0x0800

/-- An ICMPv6 or ICMP message with its checksum in bytes 2 and 3. -/
def icmpBytes (v6 : Bool) (src dst : Nat) (m : List Byte) : List Byte :=
  let m := overlay m 2 (zeros 2)
  overlay m 2 (toBe 2 (inetCheck ((if v6 then pseudo true src dst 58 m.length else []) ++ m)))

/-! ### Channels as hosts -/

/-- FLD.PORT_CFG and so on of field port n. -/
def State.fp (s : State) (n : Nat) : FieldPort := s.field.ports.getD n {}

namespace Channel

/-- A field of the channel block. -/
def fld (c : Channel) (off len : Nat) : Nat := fieldAt c.block off len
/-- PORT -/
def port (c : Channel) : Nat := c.fld 4 1 % 2
/-- CLASS -/
def cls (c : Channel) : Nat := bitsOf (c.fld 4 1) 2 1
/-- IPV6 -/
def v6 (c : Channel) : Bool := bitOf (c.fld 4 1) 3
/-- The channel uses RTCP -/
def useRtcp (c : Channel) : Bool := bitOf (c.fld 4 1) 6 && (c.kind == 0 || (c.kind == 2 && !bitOf (c.fld 4 1) 4))
/-- LOCAL_IP as a number, read little-endian as every field is (R11) -/
def localIp (c : Channel) : Nat := c.fld 16 (if c.v6 then 16 else 4)
/-- REMOTE_IP as a number (R11) -/
def remoteIp (c : Channel) : Nat := c.fld 32 (if c.v6 then 16 else 4)
/-- REMOTE_MAC -/
def remoteMac (c : Channel) : Nat := c.fld 48 6
/-- The 802.1Q tag that the channel sends, or none -/
def tag (c : Channel) : Option Nat :=
  let v := c.fld 12 2
  if bitOf v 15 then some (bitsOf v 14 12 * 8192 + bitsOf v 11 0) else none
/-- A receive channel -/
def receives (c : Channel) : Bool := c.isOpen && (c.kind == 0 || c.kind == 1)
/-- A multicast group address -/
def group (c : Channel) : Bool := if c.v6 then c.localIp / 2 ^ 120 == 0xFF else c.localIp / 2 ^ 28 == 0xE
/-- The channel has addresses on field port n -/
def onField (c : Channel) (n : Nat) : Bool := c.isOpen && c.kind != 3 && c.port == n
/-- The tag of a received frame is the channel's -/
def tagOk (c : Channel) (t : Option Nat) : Bool :=
  match t with
  | some v => bitOf (c.fld 12 2) 15 && v % 4096 == bitsOf (c.fld 12 2) 11 0
  | none => !bitOf (c.fld 12 2) 15

/-- Send data by UDP to the channel's remote address (R397). -/
def datagram (c : Channel) (sport dport : Nat) (data : List Byte) : List Byte :=
  ethFrame c.port c.remoteMac c.tag (ipType c.v6)
    (ipPacket c.v6 c.localIp c.remoteIp 17 64 (c.fld 54 1 % 64) (udpBytes c.v6 c.localIp c.remoteIp sport dport data))

end Channel

/-- Some open channel of field port n has the local address, of its IP version and not a group. -/
def State.localOf (s : State) (n : Nat) (v6 : Bool) (ip : Nat) : Bool :=
  s.field.chans.any (fun c => c.onField n && c.fld 14 2 == 0 && c.v6 == v6 && !c.group && c.localIp == ip)

/-- The frame that reports a channel's group: IGMPv3 to 224.0.0.22, MLDv2 to ff02::16, joining it (R393). -/
def Channel.groupReport (c : Channel) : List Byte :=
  if c.v6 then
    let dst := 0xFF02 * 2 ^ 112 + 0x16
    let m := icmpBytes true 0 dst (toBe 1 143 ++ zeros 5 ++ toBe 2 1 ++ toBe 1 4 ++ zeros 3 ++ toBe 16 c.localIp)
    ethFrame c.port (0x3333 * 2 ^ 32 + 0x16) c.tag 0x86DD
      (ipPacket true 0 dst 0 1 0 (toBe 1 58 ++ zeros 1 ++ toBe 4 0x05020000 ++ zeros 2 ++ m))
  else
    let dst := 0xE0000016
    let m := icmpBytes false 0 0 (toBe 1 0x22 ++ zeros 5 ++ toBe 2 1 ++ toBe 1 4 ++ zeros 3 ++ toBe 4 c.localIp)
    let h := fun (k : Nat) => toBe 1 0x46 ++ zeros 1 ++ toBe 2 (24 + m.length) ++ toBe 4 0x4000 ++ toBe 1 1 ++ toBe 1 2 ++
      toBe 2 k ++ zeros 4 ++ toBe 4 dst ++ toBe 4 0x94040000
    ethFrame c.port (0x01005E * 2 ^ 24 + 0x16) c.tag 0x0800 (h (inetCheck (h 0)) ++ m)

/-- Report the group of an open receive channel (R393). -/
def State.reportGroup (s : State) (c : Channel) : State :=
  if c.receives && c.fld 14 2 == 0 && c.group then s.txFrame c.port c.groupReport else s

/-- Answer an ARP request for a local address (R393). -/
def State.answerArp (s : State) (n : Nat) (e : Eth) : State :=
  let b := e.body
  if beAt b 0 2 == 1 && beAt b 2 2 == 0x800 && beAt b 6 2 == 1 && s.localOf n false (beAt b 24 4) then
    s.txFrame n (ethFrame n e.src e.vlan 0x0806 (b.take 6 ++ toBe 2 2 ++ toBe 6 (Config.mac n).toNat ++ toBe 4 (beAt b 24 4) ++
      toBe 6 (beAt b 8 6) ++ toBe 4 (beAt b 14 4)))
  else s.dropFrame n

/-- Send a datagram back to where a frame came from. -/
def State.answer (s : State) (n : Nat) (e : Eth) (v6 : Bool) (src dst proto hops : Nat) (m : List Byte) : State :=
  s.txFrame n (ethFrame n e.src e.vlan (ipType v6) (ipPacket v6 src dst proto hops 0 m))

/-- ICMP, ICMPv6, IGMP and MLD (R393): echo requests while PING is 1, Neighbor Solicitations, group queries. -/
def State.answerIp (s : State) (n : Nat) (e : Eth) (d : Dgram) : State :=
  let t := byteAt d.body 0
  let mine := s.localOf n d.v6 d.dst
  let report := fun (v6 : Bool) => (s.field.chans.filter (fun c => c.onField n && c.v6 == v6)).foldl State.reportGroup s
  if d.v6 && d.proto == 58 && d.sumOk then
    if t == 135 && s.localOf n true (beAt d.body 8 16) then
      let me := beAt d.body 8 16
      let dest := if d.src = 0 then 0xFF02 * 2 ^ 112 + 1 else d.src
      s.answer n e true me dest 58 255 (icmpBytes true me dest
        (toBe 1 136 ++ zeros 3 ++ toBe 4 0x60000000 ++ toBe 16 me ++ toBe 2 0x0201 ++ toBe 6 (Config.mac n).toNat))
    else if t == 128 && mine && (s.fp n).ping then
      s.answer n e true d.dst d.src 58 64 (icmpBytes true d.dst d.src (toBe 1 129 ++ d.body.drop 1))
    else if t == 130 then report true
    else s.dropFrame n
  else if !d.v6 && d.proto == 1 && onesSum d.body == 65535 && t == 8 && mine && (s.fp n).ping then
    s.answer n e false d.dst d.src 1 64 (icmpBytes false 0 0 (toBe 1 0 ++ d.body.drop 1))
  else if !d.v6 && d.proto == 2 && onesSum d.body == 65535 && t == 0x11 then report false
  else s.dropFrame n

/-- The destination address of a frame is the port's or a group's. -/
def Eth.forPort (e : Eth) (n : Nat) : Bool := e.dst == (Config.mac n).toNat || e.dst / 2 ^ 40 % 2 == 1

/-- The receive channel that a frame belongs to, whether by its RTCP port, and the UDP payload or Ethernet payload. -/
def State.target (s : State) (n : Nat) (e : Eth) : Option (Nat × Bool × Nat × Nat × List Byte) :=
  let find := fun (f : Channel → Bool) => s.field.chans.findIdx? f
  let base := fun (c : Channel) => c.receives && c.port == n && c.tagOk e.vlan
  match find (fun c => base c && c.kind == 1 && c.fld 14 2 != 0 && c.fld 14 2 == e.typ) with
  | some i => some (i, false, 0, 0, e.body)
  | none =>
    match e.dgram with
    | none => none
    | some d =>
      match d.udp with
      | none => none
      | some (sport, dport, data) =>
        let here := fun (c : Channel) => c.onField n && c.tagOk e.vlan && c.fld 14 2 == 0 && c.v6 == d.v6 && c.localIp == d.dst
        match find (fun c => here c && c.receives && c.fld 8 2 == dport) with
        | some i => some (i, false, d.src, sport, data)
        | none => (find (fun c => here c && c.useRtcp && c.fld 8 2 + 1 == dport)).map (fun i => (i, true, d.src, sport, data))

/-- A frame that belongs to no channel (R393): answered, ignored (PAUSE, R392), or discarded and counted. -/
def State.handleOther (s : State) (n : Nat) (e : Eth) : State :=
  if e.typ = 0x8808 then s
  else if e.typ = 0x0806 then s.answerArp n e
  else match e.dgram with
    | some d => s.answerIp n e d
    | none => s.dropFrame n

/-! ### Sensor frames (R404, R405) -/

/-- FRAMING 1 on a send channel. -/
def Channel.framed (c : Channel) : Bool := c.isOpen && c.kind == 2 && bitOf (c.fld 4 1) 4

/-- The CRC of a channel block (R397, R407). -/
def crcOfBlock (b : List Byte) : CrcParams :=
  match byteAt b 92 with
  | 1 => crc32 | 2 => crc32c | 3 => crc16 | 4 => crc64
  | _ => { width := byteAt b 93, poly := fieldAt b 96 8, init := fieldAt b 104 8, refIn := bitOf (byteAt b 94) 0,
           refOut := bitOf (byteAt b 94) 1, xorOut := fieldAt b 112 8 }

/-- Bytes of the check that a channel appends: none without a CRC unit. -/
def Channel.checkLen (c : Channel) : Nat := if c.fld 6 1 = 0xFE then 0 else cdiv (crcOfBlock c.block).width 8

/-- Bytes of IP and UDP header before a sensor frame. -/
def Channel.overhead (c : Channel) : Nat :=
  if c.fld 14 2 != 0 then 0 else (if bitOf (c.fld 4 1) 3 then 40 else 20) + 8

/-- A payload of `n` bytes fits one frame within MTU (R404, R405, R534). -/
def Channel.fits (c : Channel) (n : Nat) : Bool := c.overhead + 32 + n + c.checkLen ≤ c.fld 60 2


/-- The header and payload of a sensor frame (R404). -/
def sensorFrame (flags source frameNo stamp nsamp fmt nchan : Nat) (payload : List Byte) : List Byte :=
  toLe 2 0x5346 ++ toLe 1 1 ++ toLe 1 flags ++ toLe 4 source ++ toLe 4 frameNo ++ toLe 8 stamp ++ toLe 2 nsamp ++ toLe 1 fmt ++
    toLe 1 nchan ++ toLe 4 payload.length ++ zeros 4 ++ payload

/-- Send a sensor frame on a channel, with its check where the channel has a CRC context; a port that is down discards it
and counts it (R405, R406). FRAME_NO moves on. -/
def State.sendSensor (s : State) (c flags stamp nsamp fmt nchan : Nat) (payload : List Byte) : State :=
  let ch := s.chan c
  let f := sensorFrame flags (ch.fld 124 4) ch.sendSeq stamp nsamp fmt nchan payload
  let f := f ++ (if ch.fld 6 1 = 0xFE then [] else (crcOfBlock ch.block).bytes f)
  let s := s.onChan c (fun x => { x with sendSeq := (x.sendSeq + 1) % 2 ^ 32 })
  if (s.fp ch.port).up then
    s.txFrame ch.port (if ch.fld 14 2 = 0 then ch.datagram (ch.fld 8 2) (ch.fld 10 2) f
                       else ethFrame ch.port ch.remoteMac ch.tag (ch.fld 14 2) f)
  else { s with field := { s.field with ports := updAt s.field.ports ch.port (fun p => { p with txDown := satTo 8 (p.txDown + 1) }) } }

end Sys2Proof.Machine
end

