-- ==== Sys2Proof/Machine/Acts.lean ====
section
/-! DEFINITION. Acts: the header and its descriptors (R263, R264), the cyclic section and its checks (R525 to R527,
R534, R543), act slots (R265, R266), and the role of a pair member (R535 to R539). -/

namespace Sys2Proof.Machine


/-! ### The pair (R536, R538, R539) -/

/-- Events of a pair (R547). -/
def State.pairEvent (s : State) (code : Nat) (data : List Byte) : State := s.raiseBoth s.pair.part code data

/-- The member leaves ACTIVE for STANDBY: own line deasserted, no claim for 20 ms, PAIR_STANDBY with `why` (R538). -/
def State.standDown (s : State) (why : Nat) : State :=
  if s.pair.role = .active then
    ({ s with pair := { s.pair with role := .standby, own := false, notBefore := s.now + 20000000 } }).pairEvent 0x74 (toLe 1 why)
  else s

/-! ### Act slots -/

/-- A cyclic act's slot becomes FREE; a paired one on the active hands over (R266, R538). -/
def State.freeCyclic (s : State) (p n : Nat) : State :=
  let a := s.act p n
  let paired := match a.cyc with | some c => c.paired | none => false
  let s := s.freeAct p n (a.cycles % 2 ^ 32)
  if paired && s.pair.part == p then s.standDown 3 else s

/-- A stopping act whose run or cycle has ended becomes FREE (R266). -/
def State.settleAct (s : State) (p n : Nat) : State :=
  let a := s.act p n
  match a.cyc with
  | none => s.actCheck p n
  | some c =>
    if a.st = .stopping && (c.running.isNone || !(s.part p).fetched.any (fun e => match e.act with
        | some x => x.1 == n | none => false)) then s.freeCyclic p n else s

/-- The act descriptors of slot n that are not complete. -/
def State.actDescs (s : State) (p n : Nat) : List Desc :=
  (s.part p).fetched.filter (fun e => match e.act with | some x => x.1 == n | none => false)

/-- Every act descriptor of slot n that is not complete counts as completed with `st`; those that had started leave
their outputs undefined (R265, R266, R287). -/
def State.endActDescs (s : State) (p n st : Nat) : State :=
  (s.actDescs p n).foldl (fun t e =>
    let t := if e.startedAt.isSome then (t.spoilOut p e).kvAbandon p e.num else t
    let t := if isColl e.op then t.sendAbort p e else t
    let t := (t.dropItems p e.num).forget p e.num st
    match e.act with
    | some (_, lane, idx) => t.onAct p n (fun a => { a with outs := a.outs ++
        [{ lane := lane, idx := idx, status := st, cflags := 0, beats := 0 }] })
    | none => t) s

/-- Stop act slot n: after the run or cycle in progress, or at the next work-item boundary (R266). -/
def State.stopAct (s : State) (p n : Nat) (now : Bool) : State :=
  let s := s.onAct p n (fun a => { a with st := .stopping, now := a.now || now })
  let s := if now then s.endActDescs p n stCancelled else s
  s.settleAct p n

/-! ### Reading an act (R263, R264) -/

/-- The offending bytes of an act header for a MODE. -/
def actHeadBad (cyclic : Bool) (h : List Byte) : List (Bool × Nat) :=
  let cyc := bitOf (byteAt h 2) 0
  chk [(fieldAt h 0 2 == 0 || fieldAt h 0 2 > 4096, 0), (cyc != cyclic || bitsOf (byteAt h 2) 7 1 != 0, 2),
    (if cyc then fieldAt h 8 6 % 64 != 0 else fieldAt h 8 6 != 0, 8)] ++ resv h 3 5 ++ resv h 14 50

/-- BAD_DESCRIPTOR at a byte of act descriptor `i` (R288). -/
def badInAct (i off : Nat) : Fail := .status stBadDescriptor (2 ^ 30 + i * 2 ^ 16 + off % 2 ^ 16)

/-- Act descriptor `i` cannot stand in the act (checks 2 and 3 of R257, R258, R264). -/
def actDescBad (cyclic : Bool) (i : Nat) (bs : List Byte) : Option Fail :=
  match opInfo (byteAt bs 0) with
  | none => some (badInAct i 0)
  | some info =>
    if info.acts == .no || (info.acts == .onceOnly && cyclic) then some (badInAct i 0)
    else match staticFail true bs with
      | some (.status _ off) => some (badInAct i off)
      | some f => some f
      | none => none

/-- The descriptors of the act whose header is at `va`. -/
def State.readAct (s : State) (p va : Nat) (cyclic lane1 : Bool) : Except Fail (List (List Byte)) := do
  let h ← s.readVa p none 0 va 64
  match firstBad (actHeadBad (cyclic && !lane1) h) with
  | some o => .error (badInBlock o)
  | none =>
    let bs ← s.readVa p none 0 (va + 64) (64 * fieldAt h 0 2)
    let ds := (List.range (fieldAt h 0 2)).map (fun i => sliceOf bs (64 * i) 64)
    match ds.zipIdx.findSome? (fun x => actDescBad cyclic x.2 x.1) with
    | some f => .error f
    | none => .ok ds

/-- The engine-run descriptors' engines of a lane. -/
def laneEngines (ds : List (List Byte)) : List Nat := (ds.map (fun b => byteAt b 2)).filter (· < 64)

/-- One region entry of a cyclic section (R526). -/
def Region.ofBytes (e : List Byte) : Region :=
  { kind := byteAt e 0, chan := byteAt e 1, len := fieldAt e 4 4, src := fieldAt e 8 6, va0 := fieldAt e 16 6,
    va1 := fieldAt e 24 6 }

/-- The offending bytes of a region entry. -/
def regionBad (twin : Bool) (e : List Byte) : List (Bool × Nat) :=
  let k := byteAt e 0
  chk [(k == 0 || k > 4, 0), (if k = 2 then byteAt e 1 > 63 else byteAt e 1 != 0, 1),
    (fieldAt e 4 4 % 16 != 0 || fieldAt e 4 4 < 16 || fieldAt e 4 4 > 2 ^ 28, 4), (k != 1 && fieldAt e 8 6 != 0, 8),
    (!twin && fieldAt e 24 6 != 0, 24)] ++ resv e 2 2 ++ resv e 14 2 ++ resv e 22 2 ++ resv e 30 2

/-- Total LEN of the region entries of some kinds. -/
def regionLen (rs : List Region) (kinds : List Nat) : Nat :=
  (rs.filter (fun r => kinds.contains r.kind)).foldl (fun a r => a + r.len) 0

/-- The region entries of a section. -/
def sectionRegions (b : List Byte) : List Region :=
  (List.range (byteAt b 5)).map (fun i => Region.ofBytes (sliceOf b (64 + 32 * i) 32))

/-- The offending bytes of a cyclic section (R526, R527). -/
def sectionBad (periodUs : Nat) (warm : Bool) (b : List Byte) : List (Bool × Nat) :=
  let twin := bitOf (byteAt b 4) 0
  let rs := sectionRegions b
  let pub := fieldAt b 16 4
  let saveN := fieldAt b 20 4
  chk [(fieldAt b 0 4 != 1, 0), (bitsOf (byteAt b 4) 7 2 != 0 || (bitOf (byteAt b 4) 1 && !twin), 4),
    (byteAt b 5 == 0 || byteAt b 5 > 32 || !rs.any (fun r => r.kind == 3), 5),
    (byteAt b 6 > 63 && byteAt b 6 != 0xFF, 6), (if twin then fieldAt b 8 6 % 64 != 0 else fieldAt b 8 6 != 0, 8),
    (pub < 100 || pub > periodUs || (warm && pub + 8000 > periodUs), 16), (saveN > 65535, 20),
    (fieldAt b 24 8 % 0x1000 != 0, 24),
    (fieldAt b 32 4 % 0x1000 != 0 || fieldAt b 32 4 < 0x1000 || fieldAt b 32 4 > 0x4000000 ||
      64 + regionLen rs [3] > fieldAt b 32 4, 32),
    (fieldAt b 40 8 % 0x1000 != 0, 40), (saveN != 0 && 64 + regionLen rs [4] + 8 > fieldAt b 48 4 / 2, 48),
    (regionLen rs [1, 2] > 0x4000000, 64)] ++
  resv b 7 1 ++ resv b 14 2 ++ resv b 36 4 ++ resv b 52 12 ++
  (List.range (byteAt b 5)).flatMap (fun i =>
    (regionBad twin (sliceOf b (64 + 32 * i) 32)).map (fun x => (x.1, 64 + 32 * i + x.2)))

/-- The domains of an engine. -/
def State.engineDoms (s : State) (p e : Nat) : List Nat :=
  match s.engine? p e with | some x => x.tiles.map domOfTile | none => []

/-- The state bytes of one lane, summed over the paired acts of Pp. -/
def State.pairedState (s : State) (p : Nat) : Nat :=
  (s.part p).acts.foldl (fun a x => match x.cyc with | some c => if c.paired then a + regionLen c.regions [4] else a
                                                     | none => a) 0

/-- The pair link is dedicated and the partner's PAIR flag has been seen (R389, R543). -/
def State.pairLink (s : State) : Bool := s.links.pairEn && (s.lp s.links.pairPort).peerPair

/-- The state conditions of R527 and R543 on a cyclic act. -/
def State.cyclicBarred (s : State) (p periodUs : Nat) (b : List Byte) (l0 l1 : List (List Byte)) : Bool :=
  let twin := bitOf (byteAt b 4) 0
  let paired := bitOf (byteAt b 4) 1
  let e0 := (laneEngines l0).eraseDups
  let e1 := (laneEngines l1).eraseDups
  let rs := sectionRegions b
  let chan := byteAt b 6
  e0.length > 1 || e1.length > 1 ||
  (twin && (e0.any (fun e => e1.contains e) ||
    e0.any (fun e => (s.engineDoms p e).any (fun k => e1.any (fun f => (s.engineDoms p f).contains k))))) ||
  (paired && !(s.pair.enable && s.pair.part == p)) || (paired && (s.part p).sec.secMode == 2) ||
  (chan != 0xFF && !((s.chan chan).framed && (s.chan chan).part == p)) ||
  (paired && s.pair.warm && !(s.pairLink && periodUs ≥ 10000 && s.pairedState p + regionLen rs [4] ≤ 0x10000000))

/-- What ACT_RUN reads at check 7: lane 0's and lane 1's descriptors and, for a cyclic act, the section's bytes. -/
structure ActRead where
  /-- Lane 0's descriptors -/
  lane0 : List (List Byte)
  /-- Lane 1's -/
  lane1 : List (List Byte) := []
  /-- The cyclic section with its entries -/
  sect : List Byte := []
deriving DecidableEq, Repr

/-- Read the act that an ACT_RUN names and check it (R257 check 7, R263, R264, R525 to R527, R534). -/
def State.readActRun (s : State) (p : Nat) (d : Desc) : Except Fail ActRead := do
  let cyclic := d.fld 17 1 == 1
  let l0 ← s.readAct p (d.fld 18 6) cyclic false
  if !cyclic then .ok { lane0 := l0 }
  else
    let h ← s.readVa p none 0 (d.fld 18 6) 64
    let at_ := fieldAt h 8 6
    let sec ← s.readVa p none 0 at_ 64
    let b ← s.readVa p none 0 at_ (64 + 32 * Nat.min (byteAt sec 5) 32)
    let period := d.fld 32 4
    let paired := bitOf (byteAt b 4) 1
    match firstBad (sectionBad period (paired && s.pair.warm) b) with
    | some o => .error (badInBlock o)
    | none =>
      let twin := bitOf (byteAt b 4) 0
      let l1 ← if twin then s.readAct p (fieldAt b 8 6) cyclic true else .ok []
      if twin && l1.length != l0.length then .error (badInBlock 0)
      else if s.cyclicBarred p period b l0 l1 then .error (.status stIllegalState 0)
      else if byteAt b 6 != 0xFF && !(s.chan (byteAt b 6)).fits (regionLen (sectionRegions b) [3]) then
        .error (badInBlock 6)
      else .ok { lane0 := l0, lane1 := l1, sect := b }

/-- Put the descriptors of one lane of an act among the fetched ones, each with its predecessor (R256, R263). -/
def State.addLane (s : State) (p n lane : Nat) (d : Desc) (ds : List (List Byte)) : State :=
  ds.zipIdx.foldl (fun t x =>
    let num := (t.part p).host.nextNum
    let e : Desc := { num := num, bytes := x.1, sq := d.sq, slot := d.slot, cq := d.cq, act := some (n, lane, x.2),
                      pred := if x.2 = 0 then none else some (num - 1) }
    (t.onPart p (fun q => { q with fetched := q.fetched ++ [e] })).onHost p (fun h => { h with nextNum := num + 1 })) s

/-- The first cycle of a cyclic act (R525). -/
def firstCycle (now start periodUs : Nat) : Nat :=
  let per := periodUs * 1000
  Nat.max (cdiv start per) (cdiv (now + 1000000) per)

/-- The cyclic act of a section. -/
def Cyclic.ofSection (b : List Byte) (first cycles periodUs : Nat) : Cyclic :=
  { twin := bitOf (byteAt b 4) 0, paired := bitOf (byteAt b 4) 1,
    chan := if byteAt b 6 = 0xFF then none else some (byteAt b 6), lane1 := fieldAt b 8 6, periodUs := periodUs,
    publishUs := fieldAt b 16 4, saveN := fieldAt b 20 4, outAddr := fieldAt b 24 8, outLen := fieldAt b 32 4,
    sharedAddr := fieldAt b 40 8, sharedLen := fieldAt b 48 4, regions := sectionRegions b, first := first,
    left := if cycles = 0 then none else some cycles, next := first, lastUnit := [] }

end Sys2Proof.Machine
end

