-- ==== Sys2Proof/Machine/Control.lean ====
section
/-! DEFINITION. The control commands: NOP, BARRIER, FENCE, the event counters, timers, act slots, undefined opcodes and
the passing of a TIMEOUT (R253 to R266). -/

namespace Sys2Proof.Machine

/-- A command with no work of its own. -/
def plainCourse : Course := { run := fun s _ _ => okDone s }

/-- NOP (R259). -/
def execNop (d : DescRef) (s : State) : Host.Outcome State Fault Refusal := .next (s.runDesc d (isOp 0x00) plainCourse)

/-- BARRIER (R259): its wait is its order condition. -/
def execBarrier (d : DescRef) (s : State) : Host.Outcome State Fault Refusal :=
  .next (s.runDesc d (isOp 0x01) plainCourse)

/-- Discard every cached translation of Pp (R201). -/
def State.dropXlat (s : State) (p : Nat) : State := s.onPart p (fun q => { q with mem := { q.mem with xlat := [] } })

/-- FENCE (R259): with XLAT it discards the cached translations. -/
def execFence (d : DescRef) (s : State) : Host.Outcome State Fault Refusal :=
  .next (s.runDesc d (isOp 0x02) { run := fun t p x => okDone (if bitOf (x.fld 16 1) 0 then t.dropXlat p else t) })

/-- Event counter c of Pp (R260). -/
def State.counter (s : State) (p c : Nat) : BitVec 64 := (s.part p).counters.getD c 0

/-- The new value of a counter under OP (R261). -/
def signalled (op : Nat) (old v : BitVec 64) : BitVec 64 :=
  match op with
  | 0 => old + v
  | 1 => v
  | _ => if old.toNat < v.toNat then v else old

/-- The condition of an EVENT_WAIT holds of a counter value (R261). -/
def waitHolds (d : Desc) (v : BitVec 64) : Bool := if d.fld 17 1 = 0 then v.toNat ≥ d.fld 24 8 else v.toNat == d.fld 24 8

/-- A counter has changed: the EVENT_WAITs that it satisfies complete (R261). -/
def State.wakeWaiters (s : State) (p c : Nat) : State :=
  let v := s.counter p c
  ((s.part p).fetched.filter (fun e => isOp 0x04 e && e.startedAt.isSome && e.fld 16 1 == c && waitHolds e v)).foldl
    (fun t e => t.complete p e { result := v.toNat % 2 ^ 32 }) s

/-- EVENT_SIGNAL (R261). -/
def execEventSignal (d : DescRef) (s : State) : Host.Outcome State Fault Refusal :=
  .next (s.startDesc d (isOp 0x03) (fun _ _ _ => none) (fun t p x =>
    let c := x.fld 16 1
    let v := signalled (x.fld 17 1) (t.counter p c) (BitVec.ofNat 64 (x.fld 24 8))
    let t := t.onPart p (fun q => { q with counters := updAt q.counters c (fun _ => v) })
    (t.complete p x { result := v.toNat % 2 ^ 32 }).wakeWaiters p c))

/-- The EVENT_WAITs of Pp that wait (R260). -/
def State.waiters (s : State) (p : Nat) : List Desc :=
  (s.part p).fetched.filter (fun e => isOp 0x04 e && e.startedAt.isSome)

/-- EVENT_WAIT (R261): it completes at once when its condition holds, and waits otherwise. -/
def execEventWait (d : DescRef) (s : State) : Host.Outcome State Fault Refusal :=
  .next (s.startDesc d (isOp 0x04)
    (fun t p x => if !waitHolds x (t.counter p (x.fld 16 1)) && (t.waiters p).length ≥ 4096 then some (.status stBusy 0)
                  else none)
    (fun t p x =>
      let v := t.counter p (x.fld 16 1)
      if waitHolds x v then t.complete p x { result := v.toNat % 2 ^ 32 } else t))

/-- EVENT_WAIT_DEADLINE (R261). -/
def execEventWaitDeadline (d : DescRef) (s : State) : Host.Outcome State Fault Refusal :=
  .next (match s.desc? d.part d.num with
    | some x =>
      if isOp 0x04 x && x.startedAt.isSome && x.fld 32 8 != 0 && s.now ≥ x.fld 32 8 then
        s.complete d.part x { status := stTimeout }
      else s
    | none => s)

/-- The module time that a TIMER_WAIT started at `at_` waits for (R262). -/
def timerTarget (x : Desc) (at_ : Nat) : Nat := if x.fld 16 1 = 1 then x.fld 24 8 else at_ + x.fld 24 8

/-- TIMER_WAIT (R262). -/
def execTimerWait (d : DescRef) (s : State) : Host.Outcome State Fault Refusal :=
  .next (s.startDesc d (isOp 0x05) (fun _ _ _ => none)
    (fun t p x => if t.now ≥ timerTarget x t.now then t.complete p x {} else t))

/-- TIMER_WAIT_EXPIRY (R262). -/
def execTimerWaitExpiry (d : DescRef) (s : State) : Host.Outcome State Fault Refusal :=
  .next (match s.desc? d.part d.num with
    | some x =>
      match x.startedAt with
      | some t => if isOp 0x05 x && s.now ≥ timerTarget x t then s.complete d.part x {} else s
      | none => s
    | none => s)

/-- BAD_OPCODE (R258): a descriptor whose opcode is not in the map. -/
def execBadOpcode (d : DescRef) (s : State) : Host.Outcome State Fault Refusal :=
  .next (s.runDesc d (fun x => (opInfo x.op).isNone) plainCourse)

/-- ACT_RUN's checks 6 and 7 (R257, R264 to R266, R525 to R527). -/
def State.actRunCheck (s : State) (p : Nat) (d : Desc) : Option Fail :=
  if (s.act p (d.fld 16 1)).st != .free then some (.status stIllegalState 0)
  else match s.readActRun p d with
    | .error f => some f
    | .ok _ => none

/-- ACT_RUN passes its checks (R266): a once-run act starts its descriptors, a cyclic act is scheduled. -/
def State.openAct (s : State) (p : Nat) (d : Desc) : State :=
  match s.readActRun p d with
  | .error f => s.failDesc p d f
  | .ok r =>
    let n := d.fld 16 1
    let a : ActSlot := { runNum := d.num, va := d.fld 18 6, count := r.lane0.length }
    if d.fld 17 1 == 1 then
      let first := firstCycle s.now (d.fld 24 8) (d.fld 32 4)
      let c := Cyclic.ofSection r.sect first (d.fld 36 4) (d.fld 32 4)
      (s.onAct p n (fun _ => { a with st := .scheduled, cyc := some c })).complete p d {}
    else (s.onAct p n (fun _ => { a with st := .running })).addLane p n 0 d r.lane0

/-- ACT_RUN (R264, R265). -/
def execActRun (d : DescRef) (s : State) : Host.Outcome State Fault Refusal :=
  .next (s.startDesc d (isOp 0x06) State.actRunCheck State.openAct)

/-- ACT_STOP (R264, R266): it joins the stop and completes when the slot is FREE. -/
def execActStop (d : DescRef) (s : State) : Host.Outcome State Fault Refusal :=
  .next (s.startDesc d (isOp 0x07)
    (fun t p x => if (t.act p (x.fld 16 1)).st == .free then some (.status stIllegalState 0) else none)
    (fun t p x =>
      let n := x.fld 16 1
      (t.onAct p n (fun a => { a with stops := a.stops ++ [x.num] })).stopAct p n (x.fld 17 1 == 1)))

end Sys2Proof.Machine
end

