-- ==== Sys2Proof/Machine/Ptp.lean ====
section
/-! DEFINITION. The ordinary clock of IEEE 1588-2019 on a field port, with slaveOnly set (R395), and the steering of module
time (R217). -/

namespace Sys2Proof.Machine

/-- Steer module time by an offset, which is the source's time minus module time (R217): a large lag is stepped, anything
else is slewed. -/
def State.steer (s : State) (offset : Int) : State :=
  if offset > 10000 then
    { s with now := s.now + offset.toNat, host := { s.host with slew := 0, slewRun := 0, stepAt := some (s.now + offset.toNat) } }
  else { s with host := { s.host with slew := offset } }

/-- Module time moves on by a nanosecond; where an offset is slewed, one in 5,000 (200 ppm) is added or held back (R217). -/
def State.slewed (s : State) : State :=
  let h := s.host
  if h.slew = 0 then { s with now := s.now + 1 }
  else if h.slewRun < 4999 then { s with now := s.now + 1, host := { h with slewRun := h.slewRun + 1 } }
  else if 0 < h.slew then { s with now := s.now + 2, host := { h with slewRun := 0, slew := h.slew - 1 } }
  else { s with host := { h with slewRun := 0, slew := h.slew + 1 } }

/-- LOCKED: the last eight offsets were each within a bound. -/
def lockedIn (l : List Int) (ns : Nat) : Bool := decide (l.length = 8) && l.all (fun o => o.natAbs ≤ ns)

/-- FLD.PTP_CTRL.LOCKED (R395). -/
def Field.ptpLocked (f : Field) : Bool := f.ptpEnable && lockedIn f.offsets 100

/-- The state that PTP_STATE reports (R409). -/
def Field.ptpState (f : Field) : Nat := if f.holdover then 2 else if f.ptpLocked then 1 else 0

/-- Change the clock, and send PTP_STATE where the state it reports changes (R409). -/
def State.onPtp (s : State) (f : Field → Field) : State :=
  let t := { s with field := f s.field }
  if t.field.ptpState = s.field.ptpState then t
  else t.raise 0 0x91 (toLe 1 t.field.ptpState ++ zeros 7 ++ toLe 8 t.field.clockId)

/-- A PTP timestamp in ns: 48 bits of seconds and 32 of nanoseconds. -/
def ptpStamp (m : List Byte) (off : Nat) : Int := beAt m off 6 * 1000000000 + beAt m (off + 6) 4

/-- The correctionField in ns. -/
def ptpCorr (m : List Byte) : Int := sext 64 (beAt m 8 8) / 65536

/-- The data set that an Announce gives, in the order in which the best master clock algorithm compares. -/
def ptpDataset (m : List Byte) : List Nat :=
  [beAt m 47 1, beAt m 48 1, beAt m 49 1, beAt m 50 2, beAt m 52 1, beAt m 53 8, beAt m 61 2, beAt m 20 10]

/-- The first list is the better data set or the same. -/
def ptpBetter : List Nat → List Nat → Bool
  | a :: as, b :: bs => decide (a < b) || (a == b && ptpBetter as bs)
  | _, _ => true

/-- The module's port identity: the EUI-64 of the port's MAC address, and port number 1. -/
def ptpIdentity (n : Nat) : Nat :=
  let m := (Config.mac n).toNat
  ((m / 2 ^ 24 * 2 ^ 40 + 0xFFFE * 2 ^ 24 + m % 2 ^ 24) * 65536) + 1

/-- A delay request (end to end) or a peer delay request. -/
def ptpRequest (n : Nat) (peer : Bool) (domain seq : Nat) : List Byte :=
  let len := if peer then 54 else 44
  toBe 1 (if peer then 2 else 1) ++ toBe 1 2 ++ toBe 2 len ++ toBe 1 domain ++ zeros 15 ++ toBe 10 (ptpIdentity n) ++ toBe 2 seq ++
    toBe 1 (if peer then 5 else 1) ++ toBe 1 0x7F ++ zeros (len - 34)

/-- Send a PTP message on the clock's port by its transport (R395); event messages use port 319. -/
def State.ptpSend (s : State) (peer : Bool) (m : List Byte) : State :=
  let n := s.field.ptpPort
  s.txFrame n (match s.field.transport with
    | 0 => ethFrame n (if peer then 0x0180C200000E else 0x011B19000000) none 0x88F7 m
    | 1 =>
      let dst := if peer then 0xE000006B else 0xE0000181
      ethFrame n (0x01005E * 2 ^ 24 + dst % 2 ^ 23) none 0x0800 (ipPacket false 0 dst 17 (if peer then 1 else 64) 0 (udpBytes false 0 dst 319 319 m))
    | _ =>
      let dst := if peer then 0xFF02 * 2 ^ 112 + 0x6B else 0xFF0E * 2 ^ 112 + 0x181
      ethFrame n (0x3333 * 2 ^ 32 + dst % 2 ^ 32) none 0x86DD (ipPacket true 0 dst 17 (if peer then 1 else 64) 0 (udpBytes true 0 dst 319 319 m)))

/-- The PTP message that a frame carries under the transport in use (R395). -/
def State.ptpOf (s : State) (e : Eth) : Option (List Byte) :=
  let m := match s.field.transport with
    | 0 => if e.typ = 0x88F7 then some e.body else none
    | t => match e.dgram with
      | some d => match d.udp with
        | some (_, dport, data) => if d.v6 == (t == 2) && (dport == 319 || dport == 320) then some data else none
        | none => none
      | none => none
  match m with
  | some b => if b.length ≥ 44 && byteAt b 1 % 16 == 2 && byteAt b 4 == s.field.domain then some b else none
  | none => none

/-- A measured offset (R395): kept, and module time is steered. -/
def State.ptpOffset (s : State) (o : Int) : State :=
  (s.onPtp (fun f => { f with offsets := (o :: f.offsets).take 8 })).steer o

/-- A Sync with its departure and arrival: the offset is taken once the path delay is known, and the path is measured. -/
def State.ptpSync (s : State) (t1 t2 : Int) : State :=
  let c := s.field.ptp
  let seq := match c.req with | some r => (r.1 + 1) % 65536 | none => 0
  let s := s.onPtp (fun f => { f with ptp := { c with sync := none, t12 := some (t1, t2), req := some (seq, s.now) } })
  let s := match c.delay with | some d => s.ptpOffset (t1 + d - t2) | none => s
  s.ptpSend s.field.delay (ptpRequest s.field.ptpPort s.field.delay s.field.domain seq)

/-- An Announce: the transmitter followed is kept, or replaced by a better one (R395). -/
def State.ptpAnnounce (s : State) (m : List Byte) : State :=
  let d := ptpDataset m
  let own := match s.field.ptp.master with | some x => x.getLast? == d.getLast? || ptpBetter d x | none => true
  let log := sext 8 (byteAt m 33)
  let interval := if log ≥ 0 then 1000000000 * 2 ^ log.toNat else 1000000000 / 2 ^ (-log).toNat
  if own then
    s.onPtp (fun f => { f with announceAt := s.now, holdover := false, clockId := beAt m 20 8,
                               ptp := { f.ptp with master := some d, interval := interval } })
  else s

/-- The message comes from the transmitter followed. -/
def State.ptpMaster (s : State) (m : List Byte) : Bool :=
  match s.field.ptp.master with | some x => x.getLast? == some (beAt m 20 10) | none => false

/-- A PTP message arrives on the clock's port (R395). -/
def State.ptpMessage (s : State) (m : List Byte) : State :=
  let c := s.field.ptp
  let seq := beAt m 30 2
  let twoStep := bitOf (byteAt m 6) 1
  let mine := beAt m 44 10 == ptpIdentity s.field.ptpPort
  let set := fun (g : PtpClock → PtpClock) => s.onPtp (fun f => { f with ptp := g f.ptp })
  match byteAt m 0 % 16 with
  | 0x0 =>
    if !s.ptpMaster m then s
    else if twoStep then set (fun x => { x with sync := some (seq, s.now, ptpCorr m) })
    else s.ptpSync (ptpStamp m 34 + ptpCorr m) s.now
  | 0x8 =>
    match c.sync with
    | some (q, t2, corr) => if s.ptpMaster m && q == seq then s.ptpSync (ptpStamp m 34 + ptpCorr m + corr) t2 else s
    | none => s
  | 0x9 =>
    match c.req, c.t12 with
    | some (q, t3), some (t1, t2) =>
      if s.ptpMaster m && !s.field.delay && q == seq && beAt m 44 10 == ptpIdentity s.field.ptpPort then
        set (fun x => { x with delay := some (((t2 - t1) + (ptpStamp m 34 - ptpCorr m - t3)) / 2) })
      else s
    | _, _ => s
  | 0x2 =>
    if !s.field.delay || m.length < 54 then s
    else
      let head := fun (t : Nat) (two : Nat) => toBe 1 t ++ toBe 1 2 ++ toBe 2 54 ++ toBe 1 s.field.domain ++ zeros 1 ++ toBe 1 two ++ zeros 1 ++
        zeros 8 ++ zeros 4 ++ toBe 10 (ptpIdentity s.field.ptpPort) ++ toBe 2 seq ++ toBe 1 5 ++ toBe 1 0x7F
      s.ptpSend true (head 3 0 ++ zeros 10 ++ sliceOf m 20 10)
  | 0x3 =>
    match c.req with
    | some (q, t1) =>
      if !s.field.delay || q != seq || m.length < 54 || !mine then s
      else if twoStep then set (fun x => { x with resp := some (ptpStamp m 34, s.now, ptpCorr m) })
      else set (fun x => { x with delay := some (((s.now : Int) - t1 - ptpCorr m) / 2) })
    | none => s
  | 0xA =>
    match c.req, c.resp with
    | some (q, t1), some (t2, t4, corr) =>
      if !s.field.delay || q != seq || !mine then s
      else set (fun x => { x with resp := none, delay := some ((t4 - t1 - (ptpStamp m 34 - t2) - corr - ptpCorr m) / 2) })
    | _, _ => s
  | 0xB => if m.length ≥ 64 then s.ptpAnnounce m else s
  | _ => s

/-- PTP_HOLDOVER (R395): three announce intervals have passed since the last Announce of the time transmitter. -/
def execPtpHoldover (s : State) : Host.Outcome State Fault Refusal :=
  let f := s.field
  .next (if f.ptpEnable && !f.holdover && f.ptp.master.isSome && (f.announceAt + 3 * f.ptp.interval ≤ s.now) then
    s.onPtp (fun f => { f with holdover := true, offsets := [], ptp := { f.ptp with master := none, sync := none } })
    else s)

/-- A write of FLD.PTP_CTRL (R395, R410). -/
def State.writePtpCtrl (s : State) (v : Nat) : State :=
  if bitsOf v 17 16 = 3 then s else
  s.onPtp (fun f =>
    let fresh := f.ptpEnable != bitOf v 31 || f.ptpPort != bitsOf v 12 12 || f.domain != bitsOf v 7 0 ||
      f.transport != bitsOf v 17 16 || f.delay != bitOf v 11
    { f with ptpEnable := bitOf v 31, transport := bitsOf v 17 16, ptpPort := bitsOf v 12 12, delay := bitOf v 11,
             domain := bitsOf v 7 0, ptp := if fresh then {} else f.ptp, offsets := if fresh then [] else f.offsets,
             holdover := !fresh && f.holdover })

/-- PTP_CTRL_WRITE (R395). -/
def execPtpCtrlWrite (v : Word) (s : State) : Host.Outcome State Fault Refusal :=
  .next (if s.boot.stepEight then s.wakeDeep.writePtpCtrl v.toNat else s)

/-- A write of HOST.PTM_CTRL (R217, R248). -/
def State.writePtmCtrl (s : State) (v : Nat) : State :=
  if bitsOf v 6 0 = 0 || bitsOf v 6 0 > 100 then s else
  { s with host := { s.host with
      ptmEnable := bitOf v 31, ptmPeriod := bitsOf v 6 0, ptmAt := if bitOf v 31 && s.host.ptmEnable then s.host.ptmAt else none } }

/-- PTM_CTRL_WRITE (R217). -/
def execPtmCtrlWrite (v : Word) (s : State) : Host.Outcome State Fault Refusal :=
  .next (if s.boot.stepEight then s.wakeDeep.writePtmCtrl v.toNat else s)

end Sys2Proof.Machine
end

