-- ==== Sys2Proof/Machine/Host.lean ====
section
/-! DEFINITION. The host port, the rings and the doorbells (R212 to R245): the events of the PCIe link, the ring states,
doorbell reads, descriptor fetch, event records and messages. -/

namespace Sys2Proof.Machine

/-! ### Ring states (R225, R244) -/

/-- The configuration fields of RING.SQ_CFG, which a write changes while the ring is DISABLED (R225, R247). -/
def Sq.configure (r : Sq) (v : Nat) : Sq :=
  { r with sizeLog2 := bitsOf v 20 16, cq := bitsOf v 11 8, cls := bitsOf v 5 4, weight := bitsOf v 3 0 }

/-- The configuration fields of RING.CQ_CFG (R247). -/
def Cq.configure (r : Cq) (v : Nat) : Cq :=
  { r with split := bitOf v 30, sizeLog2 := bitsOf v 20 16, modUs := bitsOf v 15 8, vector := bitsOf v 6 0 }

/-- The configuration fields of RING.EVT_CFG (R246). -/
def EvtRing.configure (r : EvtRing) (v : Nat) : EvtRing :=
  { r with split := bitOf v 30, irq := bitOf v 29, sizeLog2 := bitsOf v 19 16, modUs := bitsOf v 15 8, vector := bitsOf v 6 0 }

/-- A ring that no transition holds: DISABLED (R244). -/
def Sq.idle (r : Sq) : Bool := r.st == .disabled

/-- ENABLE = 1 written to a DISABLED SQ (R225, R244). -/
def State.enableSq (s : State) (p q : Nat) : State :=
  let r := s.sq p q
  let h := (s.part p).host
  if 6 ≤ r.sizeLog2 && r.sizeLog2 ≤ 16 && r.base != 0 && h.dbValid && (s.cq p r.cq).st == .enabled then
    (s.onSq p q (fun r => { r with enable := true, st := .enabled, errCode := 0, head := 0, tail := 0, lastNum := none,
                                   lastStatus := none, lastSeal := none })).hostWriteAs p (h.dbBase + 0x400 + 4 * q) (zeros 4)
  else s.onSq p q (fun r => { r with enable := true, errCode := 1 })

/-- ENABLE = 1 written to a DISABLED CQ. -/
def State.enableCq (s : State) (p c : Nat) : State :=
  let r := s.cq p c
  if 6 ≤ r.sizeLog2 && r.sizeLog2 ≤ 16 && r.base != 0 && (s.part p).host.dbValid then
    s.onCq p c (fun r => { r with enable := true, st := .enabled, errCode := 0, slot := 0, phase := true, accepted := 0 })
  else s.onCq p c (fun r => { r with enable := true, errCode := 1 })

/-- ENABLE = 1 written to a DISABLED event ring (R239). -/
def State.enableEvt (s : State) (p : Nat) : State :=
  let r := (s.part p).host.evt
  if 6 ≤ r.sizeLog2 && r.sizeLog2 ≤ 12 && r.base != 0 && (s.part p).host.dbValid then
    (s.onEvt p (fun r => { r with enable := true, st := .enabled, errCode := 0, slot := 0, phase := true, accepted := 0,
                                  seq := 0, lost := 0 })).postPresence p
  else s.onEvt p (fun r => { r with enable := true, errCode := 1 })

/-- PAUSE written to an SQ (R244): fetching resumes at the next doorbell read. -/
def State.pauseSq (s : State) (p q : Nat) (on : Bool) : State :=
  (s.onSq p q (fun r => { r with
    pause := on,
    st := if on && r.st == .enabled then .paused else if !on && r.st == .paused then .enabled else r.st,
    tail := if !on && r.st == .paused then r.head else r.tail })).noteQuiet p

/-- Some descriptor fetched from SQ q is not complete. -/
def State.sqBusy (s : State) (p q : Nat) : Bool := (s.part p).fetched.any (fun d => d.act.isNone && d.sq == q)

/-- ENABLE = 0 written to an SQ (R244). -/
def State.disableSq (s : State) (p q : Nat) : State :=
  let busy := s.sqBusy p q
  (s.onSq p q (fun r => if r.idle then { r with enable := false }
    else if busy then { r with enable := false, draining := true }
    else { r with enable := false, draining := false, st := .disabled })).noteQuiet p

/-- ENABLE = 0 written to a CQ, ignored while an SQ bound to it is not DISABLED (R225). -/
def State.disableCq (s : State) (p c : Nat) : State :=
  if (s.part p).host.sqs.any (fun q => q.cq == c && !q.idle) then s
  else s.onCq p c (fun r => { r with enable := false, st := .disabled })

/-- ENABLE = 0 written to the event ring (R239, R244). -/
def State.disableEvt (s : State) (p : Nat) : State :=
  s.onEvt p (fun r => { r.dropQueue with enable := false, st := .disabled })

/-- A write of RING.SQ_CFG; a value outside its stated range is ignored whole (R246). -/
def State.writeSqCfg (s : State) (p q v : Nat) : State :=
  if bitsOf v 20 16 < 6 || bitsOf v 20 16 > 16 || bitsOf v 3 0 = 0 then s else
  let s := if (s.sq p q).idle then s.onSq p q (fun r => r.configure v) else s
  let s := if !bitOf v 31 then s.disableSq p q
    else if (s.sq p q).idle then s.enableSq p q else s.onSq p q (fun r => { r with enable := true })
  s.pauseSq p q (bitOf v 30)

/-- A write of RING.CQ_CFG; a value outside its stated range is ignored whole (R246). -/
def State.writeCqCfg (s : State) (p c v : Nat) : State :=
  if bitsOf v 20 16 < 6 || bitsOf v 20 16 > 16 then s else
  let idle := (s.cq p c).st == .disabled
  let s := if idle then s.onCq p c (fun r => r.configure v) else s
  if !bitOf v 31 then s.disableCq p c else if idle then s.enableCq p c else s.onCq p c (fun r => { r with enable := true })

/-- A write of RING.EVT_CFG; a value outside its stated range is ignored whole (R246). -/
def State.writeEvtCfg (s : State) (p v : Nat) : State :=
  if bitsOf v 19 16 < 6 || bitsOf v 19 16 > 12 then s else
  let idle := (s.part p).host.evt.st == .disabled
  let s := if idle then s.onEvt p (fun r => r.configure v) else s
  if !bitOf v 31 then s.disableEvt p else if idle then s.enableEvt p else s.onEvt p (fun r => { r with enable := true })

/-- The P-scope registers of Pp's page take writes: the partition number exists, start-up step 8 has ended (R488) and no
reset of the partition is under way (R584). -/
def State.regsLive (s : State) (p : Nat) : Bool := s.boot.stepEight && p < 16 && !(s.part p).sec.resetting

/-- RING_ENABLE (R225): a write of ENABLE = 1 to a DISABLED ring. -/
def execRingEnable (p : Nat) (r : RingId) (v : Word) (s : State) : Host.Outcome State Fault Refusal :=
  .next (if !s.regsLive p || !bitOf v.toNat 31 then s else
    match r with
    | .sq q => if q < 64 && (s.sq p q).idle then s.wakeDeep.writeSqCfg p q v.toNat else s
    | .cq c => if c < 16 && (s.cq p c).st == .disabled then s.wakeDeep.writeCqCfg p c v.toNat else s
    | .evt => if (s.part p).host.evt.st == .disabled then s.wakeDeep.writeEvtCfg p v.toNat else s)

/-- RING_PAUSE (R244). -/
def execRingPause (p q : Nat) (s : State) : Host.Outcome State Fault Refusal :=
  .next (if s.regsLive p then s.wakeDeep.pauseSq p q true else s)

/-- RING_UNPAUSE (R244). -/
def execRingUnpause (p q : Nat) (s : State) : Host.Outcome State Fault Refusal :=
  .next (if s.regsLive p then s.wakeDeep.pauseSq p q false else s)

/-- RING_DISABLE (R244). -/
def execRingDisable (p : Nat) (r : RingId) (s : State) : Host.Outcome State Fault Refusal :=
  .next (if !s.regsLive p then s else
    match r with
    | .sq q => s.wakeDeep.disableSq p q
    | .cq c => s.wakeDeep.disableCq p c
    | .evt => s.wakeDeep.disableEvt p)

/-- RING_DRAIN_DONE (R244): nothing fetched from the draining SQ is left. -/
def execRingDrainDone (p q : Nat) (s : State) : Host.Outcome State Fault Refusal :=
  .next (if (s.sq p q).draining && !s.sqBusy p q then s.onSq p q (fun r => { r with st := .disabled, draining := false })
         else s)

/-! ### Doorbells (R230 to R233) -/

/-- A nudge (R232, R233); in a doze sequence it acts once the outstanding read has returned. -/
def State.nudge (s : State) (p : Nat) : State :=
  match (s.part p).host.doze with
  | .awake => s.doorbell p
  | .entering => s.onHost p (fun h => { h with wakePend := true })
  | .dozing => s.endDoze p

/-- NUDGE (R232). -/
def execNudge (p : Nat) (s : State) : Host.Outcome State Fault Refusal :=
  .next (if s.regsLive p then s.wakeDeep.nudge p else s)

/-- POLL_EXPIRY (R232). -/
def execPollExpiry (p : Nat) (s : State) : Host.Outcome State Fault Refusal :=
  let h := (s.part p).host
  .next (if h.doze = .awake && h.pollUs != 0 && s.now ≥ h.lastDb + h.pollUs * 1000 then s.doorbell p else s)

/-- A head word is out of range, or would consume records not yet written (R230). -/
def headBad (sizeLog2 slot accepted h : Nat) : Bool :=
  let n := 2 ^ sizeLog2
  decide (h ≥ n) || decide ((h + n - accepted) % n > (slot + n - accepted) % n)

/-- The SQ_TAIL words of a doorbell read. -/
def State.takeTails (s : State) (p : Nat) (bs : List Byte) : State :=
  (List.range 64).foldl (fun t q =>
    if (t.sq p q).st.live then
      let v := fieldAt bs (0xC0 + 4 * q) 4
      if v ≥ 2 ^ (t.sq p q).sizeLog2 then t.sqError p q 0x02 else t.onSq p q (fun r => { r with tail := v })
    else t) s

/-- The CQ_HEAD words. -/
def State.takeHeads (s : State) (p : Nat) (bs : List Byte) : State :=
  (List.range 16).foldl (fun t c =>
    let r := t.cq p c
    if r.st.live then
      let v := fieldAt bs (0x1C0 + 4 * c) 4
      if headBad r.sizeLog2 r.slot r.accepted v then t.cqError p c 0x03 else t.onCq p c (fun r => { r with accepted := v })
    else t) s

/-- The EVT_HEAD word. -/
def State.takeEvtHead (s : State) (p : Nat) (bs : List Byte) : State :=
  let r := (s.part p).host.evt
  if r.st.live then
    let v := fieldAt bs 0 4
    if headBad r.sizeLog2 r.slot r.accepted v then s.evtError p 0x03 else s.onEvt p (fun r => { r with accepted := v })
  else s

/-- What a doorbell read returned (bytes 0x040 to 0x23F of the page) is taken (R215, R230). -/
def State.takeDoorbell (s : State) (p : Nat) (r : HostRead) : State :=
  match r with
  | .data bs => ((s.takeTails p bs).takeHeads p bs).takeEvtHead p bs
  | _ => ((s.countRdErr p).onHost p (fun h => { h with dbFault := true })).allRingsError p 0x05

/-- The records that waited for the doze sequence's doorbell read are written, in order. -/
def State.writeLate (s : State) (p : Nat) : State :=
  (s.part p).host.late.foldl (fun (t : State) r => t.recordOut p r) (s.onHost p (fun h => { h with late := [] }))

/-- Step 3 of the doze sequence, once its doorbell read has returned (R233): a record that fell due is written and ends it, as a nudge
does; new work keeps the partition awake; otherwise it dozes. -/
def State.settleDoze (s : State) (p : Nat) : State :=
  let h := (s.part p).host
  if h.doze != .entering then s
  else
    let t := (s.writeLate p).onHost p (fun x => { x with doze := .dozing, wakePend := false })
    if h.wakePend || !h.late.isEmpty then t.endDoze p
    else if (List.range 64).any (fun q => t.sqReady p q) then
      (t.onHost p (fun x => { x with doze := .awake, eligibleSince := none })).postPresence p
    else t

/-- The outstanding doorbell read has returned; a trigger that came meanwhile causes one more (R232). -/
def State.doorbellDone (s : State) (p : Nat) : State :=
  let s := s.onHost p (fun h => { h with dbOut := h.dbAgain, dbAgain := false, dbSeen := true,
                                         lastDb := if h.dbAgain then s.now else h.lastDb })
  (s.noteQuiet p).settleDoze p

/-- DOORBELL_READ_RETURN (R230). -/
def execDoorbellReadReturn (p : Nat) (r : HostRead) (s : State) : Host.Outcome State Fault Refusal :=
  .next (if (s.part p).host.dbOut then (s.takeDoorbell p r).doorbellDone p else s)

/-- DOZE_SEQUENCE (R233), steps 1 and 2: PRESENCE is written with DOZING 1, and one doorbell read is issued; its return is
DOORBELL_READ_RETURN. -/
def execDozeSequence (p : Nat) (s : State) : Host.Outcome State Fault Refusal :=
  let h := (s.part p).host
  let due := match h.eligibleSince with | some t => decide (s.now ≥ t + h.dozeUs * 1000) | none => false
  .next (if h.doze != .awake || h.dbOut || !h.dbValid || !s.hasFn p || !due || !s.quiet p then s
    else (s.onHost p (fun h => { h with doze := .entering, dbOut := true, lastDb := s.now })).postPresence p)

/-! ### Descriptor fetch (R226 to R229) -/

/-- Pp's SQ q may be fetched from, in the partition's and the module's state (R226, R229). -/
def State.mayFetch (s : State) (p q : Nat) : Bool :=
  s.sqReady p q && (s.part p).host.dbSeen && s.hasFn p &&
    (if p == 0 && q == 0 then s.boot.st == .ready || s.boot.st == .degraded || s.boot.st == .curtain || s.boot.st == .safe
     else (s.part p).sec.st == .admitted || (s.part p).sec.st == .running)

/-- The SQ that is served next and what is left of its turn (R228): the lowest class, and in it ascending numbers in turns. -/
def State.nextSq (s : State) (p : Nat) : Option (Nat × Nat) :=
  let cand := (List.range 64).filter (s.mayFetch p)
  let cls := cand.foldl (fun a q => Nat.min a (s.sq p q).cls) 3
  let cand := cand.filter (fun q => (s.sq p q).cls == cls)
  let t := (s.part p).host.turns.getD cls (63, 0)
  if t.2 > 0 && cand.contains t.1 then some (t.1, t.2 - 1)
  else
    match (match cand.find? (fun q => q > t.1) with | some q => some q | none => cand.head?) with
    | some q => some (q, Nat.max (s.sq p q).weight 1 - 1)
    | none => none

/-- The hint event of a fetch (R252). -/
def hintOf (now : Nat) (d : Desc) : Option Nat := if d.hintNext = 0 then none else some (now + d.hintNext * 1000)

/-- The fetched bytes enter: the slot is passed, a CQ slot is reserved, and the descriptor waits to start (R226, R227). -/
def State.fetched (s : State) (p q left : Nat) (bytes : List Byte) (tagOnly : Bool) : State :=
  let r := s.sq p q
  let num := (s.part p).host.nextNum
  let d : Desc := { num := num, bytes := bytes, sq := q, slot := r.head, cq := r.cq, pred := r.lastNum, predStatus := r.lastStatus }
  let head := (r.head + 1) % 2 ^ r.sizeLog2
  let s := s.onSq p q (fun r => { r with head := head, lastNum := some num, lastStatus := none })
  let s := s.onCq p r.cq (fun c => { c with reserved := c.reserved + 1 })
  let s := s.onHost p (fun h => { h with nextNum := num + 1, turns := updAt h.turns r.cls (fun _ => (q, left)),
                                         hint := if tagOnly then h.hint else hintOf s.now d })
  let s := s.onPart p (fun x => { x with fetched := x.fetched ++ [d] })
  (s.noteQuiet p).hostWriteAs p ((s.part p).host.dbBase + 0x400 + 4 * q) (toLe 4 head)

/-- A sealed descriptor whose tag fails or whose SEQ breaks its rule (R460): it is fetched and completes with
CRC_MISMATCH, its record carrying TAG 0xFFFF_FFFF. -/
def State.fetchBroken (s : State) (p q left : Nat) : State :=
  let num := (s.part p).host.nextNum
  let s := s.fetched p q left (zeros 4 ++ List.replicate 4 0xFF#8 ++ zeros 56) true
  s.completeNum p num { status := stCrcMismatch }

/-- The SEQ of a sealed descriptor follows its rule (R460): never used, and rising within the ring. -/
def State.sealSeqOk (s : State) (p q seq : Nat) : Bool :=
  !(s.part p).sec.seenSeqs.contains seq && (match (s.sq p q).lastSeal with | some l => decide (l < seq) | none => true)

/-- DESCRIPTOR_FETCH (R226): `r` is what the read of the slot returned. -/
def execDescriptorFetch (p : Nat) (r : HostRead) (s : State) : Host.Outcome State Fault Refusal :=
  .next (match s.nextSq p with
    | none => s
    | some (q, left) =>
      match r, s.isSealed p with
      | .data bs, false => s.fetched p q left (bs.take 64 ++ zeros (64 - bs.length)) false
      | .sealed (u :: _), true =>
        let (bs, ok, seq) := s.unseal p 1 q (s.sq p q).head u
        let good := ok && s.sealSeqOk p q seq
        let s := s.onSec p (fun x => { x with seenSeqs := seq :: x.seenSeqs })
        if good then (s.onSq p q (fun x => { x with lastSeal := some seq })).fetched p q left (bs.take 64 ++ zeros (64 - bs.length)) false
        else s.fetchBroken p q left
      | .data _, true => s.fetchBroken p q left
      | .sealed _, _ => s
      | _, _ => (s.countRdErr p).sqError p q 0x04)

/-! ### Event records and messages (R239 to R243) -/

/-- The bytes of an event record (R240). -/
def eventRecord (x : Event) (lost phase : Bool) (seq : Nat) : List Byte :=
  toLe 1 x.code ++ toLe 1 (x.subject % 16 + 64 * b2n lost + 128 * b2n phase) ++ zeros 2 ++ toLe 4 seq ++ toLe 8 x.time ++
    (x.data ++ zeros 16).take 16

/-- EVENT_RECORD_WRITE (R239): the oldest queued event enters the ring when a slot is free. -/
def execEventRecordWrite (p : Nat) (s : State) : Host.Outcome State Fault Refusal :=
  let r := (s.part p).host.evt
  .next (match r.queue with
    | [] => s
    | x :: xs =>
      if r.st != .enabled || ringFree r.sizeLog2 r.slot r.accepted = 0 then s
      else
        let n := 2 ^ r.sizeLog2
        let seq := (r.seq + 1) % 2 ^ 32
        let bs := eventRecord x r.lostFlag r.phase seq
        let at_ := r.base + 32 * r.slot
        let sealAt := r.base + pageUp (32 * n) + 32 * r.slot
        let s := if r.split then
            (s.putUnit p 3 0 r.slot (some 1) at_ sealAt (overlay bs 1 [bs.getD 1 0#8 ^^^ 0x80#8])).hostWriteAs p (at_ + 1)
              [bs.getD 1 0#8]
          else s.putUnit p 3 0 r.slot (some 1) at_ sealAt bs
        let s := s.onEvt p (fun r => { r with queue := xs, seq := seq, lostFlag := false, slot := (r.slot + 1) % n,
                                              phase := if r.slot + 1 = n then !r.phase else r.phase, due := r.due || r.irq })
        s.postPresence p)

/-- Vector v of function p sends no message now: MSI-X is not enabled, or the function or the vector is masked (R243). -/
def State.vectorHeld (s : State) (p v : Nat) : Bool :=
  let c := s.host.cfg.getD p {}
  !c.msixOn || c.msixMask || ((s.part p).host.msix.getD v {}).masked

/-- The message of a vector goes out, and its pending bit is clear. -/
def State.message (s : State) (p v : Nat) : State :=
  let e := (s.part p).host.msix.getD v {}
  (s.onHost p (fun h => { h with msix := updAt h.msix v (fun e => { e with pend := false }) })).hostWriteAs p e.addr (toLe 4 e.data)

/-- The moderation gap since a ring's last message has passed (R243). -/
def gapOver (now : Nat) (last : Option Nat) (modUs : Nat) : Bool :=
  match last with | some t => decide (now ≥ t + modUs * 1000) | none => true

/-- The pending bit of a vector is set. -/
def State.pend (s : State) (p v : Nat) : State :=
  s.onHost p (fun h => { h with msix := updAt h.msix v (fun e => { e with pend := true }) })

/-- A vector that holds a message may have been unmasked (R243): the message goes out where the gap of every ring that waits for it is
over; else those rings' interrupts are due again, for when their gaps end. -/
def State.unmask (s : State) (p v : Nat) : State :=
  let h := (s.part p).host
  if !((h.msix.getD v {}).pend) || s.vectorHeld p v then s
  else
    let mine := fun (r : Cq) => r.pended && r.vector == v
    let own := h.evt.pended && h.evt.vector == v
    let free := h.cqs.all (fun r => !mine r || gapOver s.now r.lastMsg r.modUs) && (!own || gapOver s.now h.evt.lastMsg h.evt.modUs)
    let t := s.onHost p (fun x => { x with
      msix := updAt x.msix v (fun e => { e with pend := false })
      cqs := x.cqs.map (fun (r : Cq) => if mine r then
        { r with pended := false, due := r.due || !free, lastMsg := if free then some s.now else r.lastMsg } else r)
      evt := if own then
          { x.evt with pended := false, due := x.evt.due || !free, lastMsg := if free then some s.now else x.evt.lastMsg } else x.evt })
    if free then t.message p v else t

/-- MSIX_SEND (R243). -/
def execMsixSend (p : Nat) (r : RingId) (s : State) : Host.Outcome State Fault Refusal :=
  .next (match r with
    | .sq _ => s
    | .cq c =>
      let q := s.cq p c
      if !q.due then s
      else if s.vectorHeld p q.vector then (s.onCq p c (fun r => { r with due := false, pended := true })).pend p q.vector
      else if gapOver s.now q.lastMsg q.modUs then
        (s.onCq p c (fun r => { r with due := false, lastMsg := some s.now })).message p q.vector
      else s
    | .evt =>
      let q := (s.part p).host.evt
      if !q.due then s
      else if s.vectorHeld p q.vector then (s.onEvt p (fun r => { r with due := false, pended := true })).pend p q.vector
      else if gapOver s.now q.lastMsg q.modUs then
        (s.onEvt p (fun r => { r with due := false, lastMsg := some s.now })).message p q.vector
      else s)

/-! ### The link (R215 to R217) -/

/-- The command reads its input from host memory. -/
def readsHost (d : Desc) : Bool := (d.op == 0x19 && d.srcHost) || d.op == 0x81 || d.op == 0x98 ||
  (d.op == 0x97 && d.fld 17 1 == 5)

/-- HOST_READ_FAILURE (R215). -/
def execHostReadFailure (p : Nat) (what : ReadOf) (r : HostRead) (s : State) : Host.Outcome State Fault Refusal :=
  .next (match hostFail r, r with
    | none, _ => s
    | some f, _ =>
      match what with
      | .doorbell => if (s.part p).host.dbOut then (s.takeDoorbell p r).doorbellDone p else s
      | .descriptor q => if s.sqReady p q then (s.countRdErr p).sqError p q 0x04 else s
      | .input num =>
        match s.desc? p num with
        | some d =>
          if d.startedAt.isSome && readsHost d then
            let s := s.countRdErr p
            (s.spoilOut p d).failDesc p d f
          else s
        | none => s)

/-- The started commands that wait for host memory fail at once (R216); what they write is undefined (R258). -/
def State.failHostReads (s : State) (p : Nat) : State :=
  ((s.part p).fetched.filter (fun d => d.startedAt.isSome && readsHost d)).foldl
    (fun (t : State) d => ((t.countRdErr p).spoilOut p d).failDesc p d (.status stAccessDenied 6)) s

/-- PCIe configuration space returns to its reset values (R216, R488). -/
def State.resetConfig (s : State) : State :=
  { s with host := { s.host with numVfs := 0, bar2Log2 := List.replicate 16 36, vfBars := (0, 0), cfg := List.replicate 16 {} } }

/-- The partition's part of a link that goes down: its rings fail, a doze sequence ends, host reads fail, and what its commands under way
write to host memory is discarded from now on (R216). -/
def State.dropLink (s : State) (p : Nat) : State :=
  let s := (s.allRingsError p 0x07).writeLate p
  let s := (s.failHostReads p).onHost p (fun h => { h with
    dbOut := false, dbAgain := false, dbSeen := false, wakePend := false, doze := if h.doze = .entering then .awake else h.doze })
  s.onPart p (fun q => { q with fetched := q.fetched.map (fun d => { d with lost := true }) })

/-- The host link goes down (R216): the registers keep their values but for UP. -/
def State.linkDown (s : State) : State :=
  ((List.range 16).foldl (fun (t : State) p => t.dropLink p) { s with host := { s.host with up := false } }).resetConfig

/-- HOST_LINK_DOWN (R216). -/
def execHostLinkDown (s : State) : Host.Outcome State Fault Refusal := .next (if s.host.up then s.linkDown else s)

/-- LINK_CHANGE (R216). -/
def execLinkChange (speed width : Nat) (flit : Bool) (s : State) : Host.Outcome State Fault Refusal :=
  .next (if s.host.up && (s.host.speed != speed || s.host.width != width) then
    ({ s with host := { s.host with speed := speed, width := width, flit := flit } }).raise 0 0x02 (toLe 1 speed ++ toLe 1 width)
    else s)

/-- PERST_ASSERT (R488). -/
def execPerstAssert (s : State) : Host.Outcome State Fault Refusal :=
  let t := { s with host := { s.host with perst := true } }
  .next (if s.host.up then t.linkDown else t.resetConfig)

/-- PERST_RELEASE (R488): the link trains from here; HOST_LINK_UP ends the training. -/
def execPerstRelease (s : State) : Host.Outcome State Fault Refusal :=
  .next { s with host := { s.host with perst := false } }

/-- The link comes up: held events are delivered (R216, R495, R512). -/
def execHostLinkUp (speed width : Nat) (flit : Bool) (s : State) : Host.Outcome State Fault Refusal :=
  .next (if s.host.up || s.host.perst || !s.boot.guardUp then s
    else
      let held := s.boot.held
      let s := { s with host := { s.host with up := true, speed := speed, width := width, flit := flit },
                        boot := { s.boot with held := [] }, fabric := { s.fabric with locked := s.fabric.locked ||| 1 } }
      held.foldl (fun t e => t.onEvt 0 (fun r => r.add e)) s)

/-- PTM_DIALOG (R217): `offset` is PTM master time minus module time in ns; one dialog every PERIOD_MS. -/
def execPtmDialog (offset : Int) (s : State) : Host.Outcome State Fault Refusal :=
  let due := match s.host.ptmAt with | some t => decide (t + s.host.ptmPeriod * 1000000 ≤ s.now) | none => true
  .next (if !s.host.ptmEnable || s.field.ptpEnable || !due then s
    else
      ({ s with host := { s.host with ptmAt := some s.now, ptmOffsets := (offset :: s.host.ptmOffsets).take 8 } }).steer offset)

/-! ### BAR0 and BAR2 (R220, R222) -/

/-- BAR0_ACCESS_IGNORED (R220): an access that is not an aligned one of 4 or 8 bytes. -/
def execBar0AccessIgnored (fn off len : Nat) (s : State) : Host.Outcome State Fault Refusal :=
  .next (if s.hasFn fn && !((len == 4 || len == 8) && off % len == 0) then
    { s.onHost fn (fun h => { h with badAccess := satTo 16 (h.badAccess + 1) }) with
      host := { s.host with badAccess := satTo 16 (s.host.badAccess + 1) } }
    else s)

/-- The BAR2 window of Pp is open (R222, R459). -/
def State.windowOpen (s : State) (p : Nat) : Bool := (s.part p).host.apEnable && !s.isSealed p && s.hasFn p

/-- The virtual address of a BAR2 offset (R222). -/
def State.bar2Va (s : State) (p off : Nat) : Nat :=
  let size := 2 ^ (s.host.bar2Log2.getD p 36)
  (s.part p).host.apBase / size * size + off

/-- BAR2_WRITE (R222). -/
def execBar2Write (p off : Nat) (data : List Byte) (s : State) : Host.Outcome State Fault Refusal :=
  .next (if p ≥ 16 || off + data.length > 2 ^ (s.host.bar2Log2.getD p 36) || !s.windowOpen p then s
    else
      match s.writeVa p none 0 (s.bar2Va p off) data with
      | .ok t => t
      | .error f => s.note p f)

/-- BAR2_READ (R222): the data returned, and whether it carried the poisoned attribute. -/
def execBar2Read (p off len : Nat) (s : State) : Host.Outcome State Fault Refusal :=
  let ones := List.replicate len 0xFF#8
  let give := fun (t : State) (bs : List Byte) (poisoned : Bool) => { t with host := { t.host with bar2Read := some (bs, poisoned) } }
  .next (if !s.hasFn p || off + len > 2 ^ (s.host.bar2Log2.getD p 36) then s
    else if !s.windowOpen p then give s ones false
    else
      match s.readVa p none 0 (s.bar2Va p off) len with
      | .ok bs => give s bs false
      | .error (.poison a) => give (s.note p (.poison a)) (s.peekVa p (s.bar2Va p off) len) true
      | .error f => give (s.note p f) ones false)

end Sys2Proof.Machine
end

