-- ==== Sys2Proof/Machine/Links.lean ====
section
/-! DEFINITION. The module links (R369 to R377, R387, R389): port states, frames, credits, the pair link, and the aborts
of collectives. -/

namespace Sys2Proof.Machine

/-- A port event (R390): to the physical function and to the partition that holds the port. -/
def State.portEvent (s : State) (n code : Nat) (data : List Byte) : State :=
  let o := (s.lp n).owner
  if o < 16 then s.raiseBoth o code data else s.raise 0 code data

/-- DATA of LINK_UP and LINK_DEGRADED. -/
def State.linkData (s : State) (n : Nat) : List Byte :=
  toLe 1 n ++ toLe 1 (s.lp n).width ++ toLe 1 (b2n (s.lp n).slow)

/-- A started collective of Pp ends with TIMEOUT and COLL_ABORTED (R387); its receive bytes are undefined. -/
def State.endCollective (s : State) (p : Nat) (d : Desc) : State :=
  ((s.spoilAll p (s.srcOf p d) (s.outRanges p d)).complete p d { status := stTimeout }).raise p 0xA5
    (toLe 1 (d.fld 24 1) ++ zeros 3 ++ toLe 4 (d.fld 28 4))

/-- The started collectives of Pp whose group meets a condition. -/
def State.collectives (s : State) (p : Nat) (f : Group → Bool) : List Desc :=
  (s.part p).fetched.filter (fun d => isColl d.op && d.startedAt.isSome &&
    (match s.group? p (d.fld 24 1) with | some g => f g | none => false))

/-- Every collective that uses link port n ends (R387). -/
def State.endOnPort (s : State) (n : Nat) : State :=
  (List.range 16).foldl (fun t p =>
    (t.collectives p (fun g => g.ports.contains n)).foldl (fun u d => u.endCollective p d) t) s

/-- What a port keeps when it goes to OFF or is reset: its configuration, its partner's registers and its counts. -/
def LinkPort.cleared (p : LinkPort) (now : Nat) : LinkPort :=
  { enable := p.enable, rate106 := p.rate106, widthMin := p.widthMin, owner := p.owner, peer := p.peer,
    peerRelease := p.peerRelease, peerPort := p.peerPort, crcErr := p.crcErr, replays := p.replays, replayAt := p.replayAt, fecCorr := p.fecCorr,
    fecUncorr := p.fecUncorr, fails := p.fails, retrains := p.retrains, since := now }

/-- Training of link port n starts (R374, R376): the module sends HELLO. -/
def State.trainLink (s : State) (n : Nat) : State :=
  (s.onLp n (fun p => { p.cleared s.now with st := .training })).sendHello n

/-- The module is past GUARD_BOOT, so a port may train (R376). -/
def State.linksLive (s : State) : Bool :=
  match s.boot.st with
  | .off | .precharge | .guardBoot => false
  | _ => true

/-- A port in OFF whose ENABLE is 1 trains (R376). -/
def State.tryTrain (s : State) (n : Nat) : State :=
  if (s.lp n).enable && (s.lp n).st == .off && s.linksLive then s.trainLink n else s

/-- Link port n goes to OFF (R376): its collectives end, LINK_DOWN with cause 3. -/
def State.linkOff (s : State) (n : Nat) : State :=
  if (s.lp n).st == .off then s
  else
    let s := s.onLp n (fun p => { p.cleared s.now with st := .off })
    (s.endOnPort n).portEvent n 0xA1 (toLe 1 n ++ toLe 1 3)

/-- Link port n fails (R376): the replay buffer is discarded, its collectives end, LINK_DOWN. -/
def State.linkFail (s : State) (n cause : Nat) : State :=
  let s := s.onLp n (fun p => { p with st := .failed, kept := [], txWait := [], fails := satTo 16 (p.fails + 1), since := s.now })
  (s.endOnPort n).portEvent n 0xA1 (toLe 1 n ++ toLe 1 cause)

/-- The fields of LNK.PORT_CFG that software writes (R391); a WIDTH_MIN of 3 is outside the range. -/
def State.writePortCfg (s : State) (n v : Nat) : State :=
  if bitsOf v 29 28 = 3 then s
  else
    let fenced := (s.unit 2 n).fenced
    let on := bitOf v 31 && !fenced
    let s := s.onLp n (fun p => { p with rate106 := bitOf v 30, widthMin := bitsOf v 29 28, enable := on })
    if on then s.tryTrain n else s.linkOff n

/-- LINK_PORT_ENABLE (R376): a write of LNK.PORT_CFG with ENABLE = 1. -/
def execLinkPortEnable (n : Nat) (v : Word) (s : State) : Host.Outcome State Fault Refusal :=
  .next (if s.boot.stepEight && n < 8 && bitOf v.toNat 31 then s.wakeDeep.writePortCfg n v.toNat else s)

/-- LINK_PORT_DISABLE (R376): a write with ENABLE = 0. -/
def execLinkPortDisable (n : Nat) (v : Word) (s : State) : Host.Outcome State Fault Refusal :=
  .next (if s.boot.stepEight && n < 8 && !bitOf v.toNat 31 then s.wakeDeep.writePortCfg n v.toNat else s)

/-- The width that a set of trained lanes gives (R375), as LNK.PORT_STAT.WIDTH codes it. -/
def lanesWidth (lanes : Nat) : Nat :=
  if bitsOf lanes 3 0 = 15 then 3 else if bitsOf lanes 1 0 = 3 then 2 else if bitOf lanes 0 then 1 else 0

/-- The partner on the dedicated pair link stands at a chain position of the same parity (R535). -/
def State.sameParity (s : State) : Bool :=
  s.links.pairEn && (s.lp s.links.pairPort).peerPair && s.boot.dynAddr.isSome &&
    (s.lp s.links.pairPort).peerChain % 2 == s.boot.dynAddr.getD 0 % 2

/-- The pair link's partner is checked for PAIR once the port is UP (R389), and a pair member's for its parity (R535). -/
def State.checkPair (s : State) (n : Nat) : State :=
  if s.links.pairEn && s.links.pairPort == n && (s.lp n).st == .up then
    if !(s.lp n).peerPair then s.portEvent n 0xA4 (toLe 1 n)
    else if s.pair.enable && s.sameParity then s.raiseBoth s.pair.part 0x78 (toLe 1 1)
    else s
  else s

/-- LINK_TRAINING_COMPLETE (R374): width and rate are the lower of the two sides', credits are set, the port is UP. -/
def execLinkTrainingComplete (n lanes : Nat) (slow : Bool) (s : State) : Host.Outcome State Fault Refusal :=
  let p := s.lp n
  let w := Nat.min (lanesWidth lanes) p.offerWidth
  .next (if n < 8 && s.clocked 2 n && p.st == .training && p.helloOk && w > p.widthMin then
    let s := s.onLp n (fun p => { p with
      st := .up, lanesOk := bitsOf lanes 3 0, width := w, slow := slow || p.rate106 || p.offerSlow, credits := (768, 192, 64),
      peerSeen := true, since := s.now })
    let s := s.portEvent n 0xA0 (s.linkData n)
    (s.checkPair n).onLp n (fun p => p.pump s.now)
    else s)

/-- LINK_TRAINING_TIMEOUT (R376). -/
def execLinkTrainingTimeout (n : Nat) (s : State) : Host.Outcome State Fault Refusal :=
  .next (if n < 8 && (s.lp n).st == .training && s.now ≥ (s.lp n).since + 2500000000 then s.linkFail n 1 else s)

/-- LINK_RETRAIN (R376): sending stops, and the module sends HELLO; the replay buffer, the SEQ numbers and the credits
are kept. -/
def execLinkRetrain (n : Nat) (why : RetrainWhy) (s : State) : Host.Outcome State Fault Refusal :=
  let due := match why with | .replays => decide ((s.lp n).stuck ≥ 8) | _ => true
  .next (if n < 8 && s.clocked 2 n && (s.lp n).st == .up && due then
    (s.onLp n (fun p => { p with st := .retraining, retrains := satTo 16 (p.retrains + 1), stuck := 0, helloOk := false,
                                 since := s.now })).sendHello n
    else s)

/-- RETRAIN_TIMEOUT (R376). -/
def execRetrainTimeout (n : Nat) (s : State) : Host.Outcome State Fault Refusal :=
  .next (if n < 8 && (s.lp n).st == .retraining && s.now ≥ (s.lp n).since + 1000000000 then s.linkFail n 2 else s)

/-! ### Frames received -/

namespace LinkPort

/-- ACK of a received frame: the kept frames before it are acknowledged (R371, R372). -/
def takeAck (p : LinkPort) (now ack : Nat) : LinkPort :=
  match p.kept with
  | [] => p
  | d :: _ =>
    let k := (ack + 65536 - d.seq) % 65536
    if 0 < k ∧ k ≤ p.kept.length then { p with kept := p.kept.drop k, stuck := 0, ackAt := now } else p

/-- The ACK and credit fields of a received frame, after which waiting frames may be sent. -/
def takeFields (p : LinkPort) (now : Nat) (f : Frame) : LinkPort :=
  let q := p.takeAck now f.ack
  { q with credits := onCredit q.credits f.cvc (fun x => x + f.ccount) }

/-- A NAK goes out on the first discard after an accepted frame, and then every 10 µs (R372). -/
def nakNow (p : LinkPort) (now : Nat) : LinkPort :=
  if (match p.nakAt with | some t => decide (now ≥ t + 10000) | none => true) then { p.control 2 p.rxNext [] with nakAt := some now }
  else p

/-- A DATA frame (R372): accepted when its SEQ is the one expected, otherwise discarded. -/
def takeData (p : LinkPort) (now : Nat) (f : Frame) : LinkPort :=
  if f.seq = p.rxNext then
    { p with rxNext := (p.rxNext + 1) % 65536, nakAt := none,
             rxHeld := p.rxHeld ++ [{ seq := f.seq, vc := f.vc, start := f.start, fin := f.fin, payload := f.payload }] }
  else p.nakNow now

/-- An ACK advance, or credits owed, that no other frame has carried goes out in an IDLE frame (R372, R373). -/
def carry (p q : LinkPort) : LinkPort :=
  if q.st == .up && (q.rxNext != p.rxNext || q.owed != p.owed) && q.outgoing.length == p.outgoing.length then q.control 4 0 [] else q

end LinkPort

/-- Take a received frame on link port n: R371 discards and counts a bad one; a good one of the row's TYPE, in a state
that takes it, goes to `k`. -/
def State.takeFrame (s : State) (n typ : Nat) (b : List Byte) (states : List LinkSt) (k : Frame → State → State) : State :=
  if n ≥ 8 || !s.clocked 2 n || !(s.lp n).enable || (s.lp n).st == .off || (s.lp n).st == .failed then s
  else match Frame.ofBytes b with
    | none => s.onLp n (fun p => { p with crcErr := satTo 16 (p.crcErr + 1) })
    | some f => if f.typ = typ && states.contains (s.lp n).st then k f (if typ = 1 then s.progress 2 n else s) else s

/-- DATA_FRAME (R372). -/
def execDataFrame (n : Nat) (f : List Byte) (s : State) : Host.Outcome State Fault Refusal :=
  .next (s.takeFrame n 1 f [.up] (fun f t => t.onLp n (fun p => p.carry (((p.takeFields t.now f).takeData t.now f).pump t.now))))

/-- NAK_FRAME (R372): every kept frame from its SEQ on is sent again. -/
def execNakFrame (n : Nat) (f : List Byte) (s : State) : Host.Outcome State Fault Refusal :=
  .next (s.takeFrame n 2 f [.up] (fun f t => t.onLp n (fun p => ((p.takeFields t.now f).replay t.now f.seq).pump t.now)))

/-- IDLE_FRAME (R371). -/
def execIdleFrame (n : Nat) (f : List Byte) (s : State) : Host.Outcome State Fault Refusal :=
  .next (s.takeFrame n 4 f [.up] (fun f t => t.onLp n (fun p => (p.takeFields t.now f).pump t.now)))

namespace LinkPort

/-- The partner that a HELLO names is recorded (R377). -/
def record (p : LinkPort) (h : List Byte) : LinkPort :=
  { p with peer := fieldAt h 0 8, peerPort := bitsOf (byteAt h 8) 2 0, peerPair := bitOf (byteAt h 9) 3,
           peerRelease := fieldAt h 12 3, peerChain := bitsOf (byteAt h 15) 6 0, helloOk := true,
           offerWidth := bitsOf (byteAt h 9) 1 0 + 1, offerSlow := bitOf (byteAt h 9) 2 }

/-- A HELLO ends a retrain with the partner's offer: width and rate fall to the lower side's. -/
def agree (p : LinkPort) (now : Nat) : LinkPort :=
  { p with st := .up, width := Nat.min p.width p.offerWidth, slow := p.slow || p.offerSlow, since := now }

/-- A port that finds another partner starts afresh, with the SEQ that this one expects (R373, R376). -/
def renew (p : LinkPort) (exp : Nat) : LinkPort :=
  { p with
    kept := [], txWait := [], txNext := exp, stuck := 0, credits := (768, 192, 64), rxHeld := [], nakAt := none }

end LinkPort

/-- HELLO_FRAME (R376, R377): in training the partner is recorded; in a retrain the same partner continues, and another one
starts afresh. -/
def execHelloFrame (n : Nat) (b : List Byte) (s : State) : Host.Outcome State Fault Refusal :=
  .next (s.takeFrame n 3 b [.training, .retraining] (fun f t =>
    let h := f.payload
    let old := t.lp n
    let exp := fieldAt h 10 2
    if old.st == .training then
      t.onLp n (fun p => { (p.record h).takeFields t.now f with txNext := exp, kept := [] })
    else if old.peer == fieldAt h 0 8 && old.peerPort == bitsOf (byteAt h 8) 2 0 then
      if t.now ≥ old.since + 1000000000 then t else
      let t := t.onLp n (fun p => (((((p.record h).takeFields t.now f).takeAck t.now exp).agree t.now).replay t.now exp).pump t.now)
      let new := t.lp n
      if new.width < old.width || (new.slow && !old.slow) then t.portEvent n 0xA2 (t.linkData n) else t
    else
      let t := t.onLp n (fun p => ((p.record h).agree t.now).renew exp)
      ((t.endOnPort n).portEvent n 0xA3 (toLe 1 n ++ zeros 7 ++ toLe 8 (fieldAt h 0 8))).checkPair n))

/-- REPLAY_TIMER (R372). -/
def execReplayTimer (n : Nat) (s : State) : Host.Outcome State Fault Refusal :=
  let p := s.lp n
  .next (match p.kept with
    | [] => s
    | d :: _ => if n < 8 && s.clocked 2 n && p.st == .up && s.now ≥ p.ackAt + 10000 then s.onLp n (fun p => p.replay s.now d.seq) else s)

/-- CREDIT_RETURN (R373): the consumer takes the oldest accepted frame, and its credit is owed to the sender. -/
def execCreditReturn (n : Nat) (s : State) : Host.Outcome State Fault Refusal :=
  .next (match (s.lp n).rxHeld with
    | [] => s
    | d :: r => s.onLp n (fun p => p.carry { p with rxHeld := r, owed := onCredit p.owed d.vc (fun x => x + 1) }))

/-- LINK_PAIR_WRITE's effect (R389, R391): ignored while PORT is granted to a partition, and while the seal holds. -/
def State.writePair (s : State) (v : Nat) : State :=
  let n := bitsOf v 2 0
  if s.sec.sealed || (s.lp n).owner < 16 then s
  else ({ s with links := { s.links with pairEn := bitOf v 31, pairPort := n } }).checkPair n

/-- LINK_PAIR_WRITE (R389). -/
def execLinkPairWrite (v : Word) (s : State) : Host.Outcome State Fault Refusal :=
  .next (if s.boot.stepEight then s.wakeDeep.writePair v.toNat else s)

/-- COLL_ABORT (R387): the message on link port n for GROUP_ID and SEQ ends the collective, which passes it on. -/
def execCollAbort (n gid seq : Nat) (s : State) : Host.Outcome State Fault Refusal :=
  let p := (s.lp n).owner
  .next (if n < 8 && p < 16 && (s.lp n).st == .up then
    ((s.collectives p (fun g => g.gid == gid && g.ports.contains n)).filter (fun d => d.fld 28 4 == seq)).foldl
      (fun t d => t.endCollective p d) s
    else s)

end Sys2Proof.Machine
end

