-- ==== Sys2Proof/Machine/Rtp.lean ====
section
/-! DEFINITION. RTP reception and sending (R401): packets, extended sequence numbers, and the rebuilding of NAL units and
OBUs after RFC 3550, RFC 6184, RFC 7798 and the AOMedia RTP payload format. -/

namespace Sys2Proof.Machine

/-- An RTP packet. -/
structure RtpPkt where
  /-- Marker -/
  marker : Bool
  /-- Payload type -/
  pt : Nat
  /-- Sequence number -/
  seq : Nat
  /-- Timestamp -/
  stamp : Nat
  /-- SSRC -/
  ssrc : Nat
  /-- Payload -/
  data : List Byte
deriving DecidableEq, Repr

/-- CSRC list, extension and padding are skipped (R401). -/
def RtpPkt.parse (b : List Byte) : Option RtpPkt :=
  let cs := 12 + 4 * (byteAt b 0 % 16)
  let head := if bitOf (byteAt b 0) 4 then cs + 4 + 4 * beAt b (cs + 2) 2 else cs
  let pad := if bitOf (byteAt b 0) 5 then byteAt b (b.length - 1) else 0
  if b.length < 12 || byteAt b 0 / 64 != 2 || head + pad ≥ b.length || (bitOf (byteAt b 0) 5 && pad == 0) then none
  else some { marker := bitOf (byteAt b 1) 7, pt := byteAt b 1 % 128, seq := beAt b 2 2, stamp := beAt b 4 4, ssrc := beAt b 8 4,
              data := sliceOf b head (b.length - head - pad) }

/-- An RTP packet to send. -/
def rtpBytes (marker : Bool) (pt seq stamp ssrc : Nat) (data : List Byte) : List Byte :=
  toBe 1 0x80 ++ toBe 1 (128 * b2n marker + pt) ++ toBe 2 seq ++ toBe 4 stamp ++ toBe 4 ssrc ++ data

/-- The extended sequence number, and whether the packet starts a new sequence (RFC 3550 A.1; R401). Numbers count from
65,536 on, so that a packet from before the first one still has its place. -/
def extendSeq (high : Option Nat) (seq : Nat) : Nat × Bool :=
  match high with
  | none => (65536 + seq, false)
  | some h =>
    let d := (seq + 65536 - h % 65536) % 65536
    if d ≤ 3000 then (h + d, false)
    else if d > 65536 - 100 then (h + d - 65536, false)
    else ((h / 65536 + 1) * 65536 + seq, true)

/-! ### Payloads -/

/-- The payload structures that R401 leaves unsupported: STAP-B, MTAP, FU-B, PACI and reserved types. -/
def unsupported (codec : Nat) (b : List Byte) : Bool :=
  match codec with
  | 0 => let t := byteAt b 0 % 32; !((1 ≤ t && t ≤ 24) || t == 28)
  | 1 => byteAt b 0 / 2 % 64 ≥ 50
  | _ => false

/-- The units of an aggregation packet, each after its 16-bit size; a unit cut short is left out. -/
def sizedUnits : Nat → List Byte → List (List Byte)
  | 0, _ => []
  | fuel + 1, b =>
    let n := beAt b 0 2
    if b.length < 3 || n = 0 || n + 2 > b.length then [] else sliceOf b 2 n :: sizedUnits fuel (b.drop (n + 2))

/-- What has been rebuilt: whole units, and a fragmented one under way with the sequence number that continues it. -/
structure Depack where
  /-- Whole units, in order -/
  out : List (List Byte) := []
  /-- The next sequence number and the bytes so far -/
  frag : Option (Nat × List Byte) := none

/-- A fragment: `head` starts the unit when the fragment is its first. -/
def Depack.fragment (d : Depack) (seq : Nat) (start fin : Bool) (head data : List Byte) : Depack :=
  let cur := if start then some (head ++ data) else match d.frag with
    | some (n, bs) => if n = seq then some (bs ++ data) else none
    | none => none
  match cur with
  | some bs => if fin then { out := d.out ++ [bs], frag := none } else { d with frag := some (seq + 1, bs) }
  | none => { d with frag := none }

/-- One packet of H.264 (RFC 6184) or H.265 (RFC 7798). -/
def Depack.nal (hevc : Bool) (d : Depack) (x : Nat × List Byte) : Depack :=
  let b := x.2
  let whole := fun (l : List (List Byte)) => { out := d.out ++ l, frag := none : Depack }
  if hevc then
    let t := byteAt b 0 / 2 % 64
    let f := byteAt b 2
    if t = 48 then whole (sizedUnits b.length (b.drop 2))
    else if t = 49 then d.fragment x.1 (bitOf f 7) (bitOf f 6) [BitVec.ofNat 8 (byteAt b 0 / 128 * 128 + f % 64 * 2 + byteAt b 0 % 2), b.getD 1 0#8]
      (b.drop 3)
    else whole [b]
  else
    let t := byteAt b 0 % 32
    let f := byteAt b 1
    if t = 24 then whole (sizedUnits b.length (b.drop 1))
    else if t = 28 then d.fragment x.1 (bitOf f 7) (bitOf f 6) [BitVec.ofNat 8 (byteAt b 0 / 32 * 32 + f % 32)] (b.drop 2)
    else whole [b]

/-- The value of a leb128 number and its bytes. -/
def leb128 : Nat → List Byte → Nat × Nat
  | 0, _ => (0, 0)
  | _, [] => (0, 0)
  | fuel + 1, b :: r => if b.toNat < 128 then (b.toNat, 1) else let x := leb128 fuel r; (b.toNat - 128 + 128 * x.1, x.2 + 1)

/-- A number in leb128. -/
def toLeb : Nat → Nat → List Byte
  | 0, _ => []
  | fuel + 1, n => if n < 128 then toBe 1 n else toBe 1 (128 + n % 128) ++ toLeb fuel (n / 128)

/-- The OBU elements of an AV1 packet: each after its size, but for the last of a counted list. -/
def obuElems (w : Nat) : Nat → List Byte → List (List Byte)
  | 0, _ => []
  | fuel + 1, b =>
    if b.isEmpty then []
    else if w = 1 then [b]
    else let x := leb128 8 b
      if x.2 = 0 || x.2 + x.1 > b.length then [] else sliceOf b x.2 x.1 :: obuElems (w - 1) fuel (b.drop (x.2 + x.1))

/-- One packet of AV1: Z continues an OBU, Y leaves the last one open. -/
def Depack.av1 (d : Depack) (x : Nat × List Byte) : Depack :=
  let h := byteAt x.2 0
  let els := obuElems (bitsOf h 5 4) x.2.length (x.2.drop 1)
  let n := els.length
  els.zipIdx.foldl (fun (a : Depack) e =>
    a.fragment x.1 (!(bitOf h 7 && e.2 == 0)) (!(bitOf h 6 && e.2 + 1 == n)) [] e.1) d

/-- An OBU in low-overhead form, with obu_size (R401). -/
def obuSized (b : List Byte) : List Byte :=
  let h := byteAt b 0
  let ext := if bitOf h 2 then 2 else 1
  let body := if bitOf h 1 then let x := leb128 8 (b.drop ext); sliceOf b (ext + x.2) x.1 else b.drop ext
  toBe 1 (h / 4 * 4 + 2 + h % 2) ++ sliceOf b 1 (ext - 1) ++ toLeb 8 body.length ++ body

/-- The payload of a unit: what its packets, in sequence order, rebuild whole (R401, R402). -/
def rebuild (codec : Nat) (pkts : List (Nat × List Byte)) : List Byte :=
  match codec with
  | 2 => (pkts.foldl Depack.av1 {}).out.flatMap obuSized
  | c => (pkts.foldl (Depack.nal (c == 1)) {}).out.flatMap (fun n => [0#8, 0#8, 0#8, 1#8] ++ n)

/-! ### Packetisation (R429) -/

/-- The NAL units of an Annex B byte stream: what stands between start codes; `cur` is the unit so far, reversed. -/
def splitNals (cur : List Byte) : List Byte → List (List Byte)
  | [] => if cur.isEmpty then [] else [cur.reverse]
  | a :: r =>
    match cur with
    | 0#8 :: 0#8 :: before =>
      if a = 1#8 then
        let unit := (before.dropWhile (· == 0#8)).reverse
        (if unit.isEmpty then [] else [unit]) ++ splitNals [] r
      else splitNals (a :: cur) r
    | _ => splitNals (a :: cur) r

/-- A run of bytes in pieces of at most `n`. -/
def piecesOf (n : Nat) : Nat → List Byte → List (List Byte)
  | 0, _ => []
  | fuel + 1, b => if b.isEmpty then [] else b.take n :: piecesOf n fuel (b.drop n)

/-- The RTP payloads of a NAL unit: itself, or FU-A or fragmentation units when it is above `room`. -/
def fragNal (hevc : Bool) (room : Nat) (b : List Byte) : List (List Byte) :=
  if b.length ≤ room then [b]
  else
    let hd := if hevc then 2 else 1
    let ps := piecesOf (room - hd - 1) b.length (b.drop hd)
    ps.zipIdx.map (fun x =>
      let se := 128 * b2n (x.2 == 0) + 64 * b2n (x.2 + 1 == ps.length)
      (if hevc then toBe 1 (byteAt b 0 / 128 * 128 + 49 * 2 + byteAt b 0 % 2) ++ sliceOf b 1 1 ++ toBe 1 (se + byteAt b 0 / 2 % 64)
       else toBe 1 (byteAt b 0 / 32 * 32 + 28) ++ toBe 1 (se + byteAt b 0 % 32)) ++ x.1)

/-- The OBUs of a low-overhead stream. -/
def splitObus : Nat → List Byte → List (List Byte)
  | 0, _ => []
  | fuel + 1, b =>
    if b.isEmpty then []
    else
      let ext := if bitOf (byteAt b 0) 2 then 2 else 1
      let x := leb128 8 (b.drop ext)
      let n := if bitOf (byteAt b 0) 1 then ext + x.2 + x.1 else b.length
      b.take n :: splitObus fuel (b.drop n)

/-- The RTP payloads of one OBU: a single element, cut at `room`. -/
def fragObu (room : Nat) (b : List Byte) : List (List Byte) :=
  let ps := piecesOf (room - 1) b.length b
  ps.zipIdx.map (fun x => toBe 1 (128 * b2n (x.2 != 0) + 64 * b2n (x.2 + 1 != ps.length) + 16) ++ x.1)

/-- The RTP payloads of an AV1 temporal unit; temporal delimiters are not sent. -/
def fragAv1 (room : Nat) (b : List Byte) : List (List Byte) :=
  ((splitObus b.length b).filter (fun o => byteAt o 0 / 8 % 16 != 2)).flatMap (fragObu room)

/-- The payloads of an access unit (R429). -/
def packetise (codec room : Nat) (b : List Byte) : List (List Byte) :=
  match codec with
  | 2 => fragAv1 room b
  | c => (splitNals [] b).flatMap (fragNal (c == 1) room)

end Sys2Proof.Machine
end

