-- ==== Sys2Proof/Machine/Streams.lean ====
section
/-! DEFINITION. The field ports and the stream channels (R392 to R409): frames in, the carousel of the protocol engine,
jitter buffers and unit release, sensor frames and their checks, RTCP, and the commands that open, close and send. -/

namespace Sys2Proof.Machine

/-! ### CRC contexts (R408) -/

/-- Unit u may give Pp a context: it has one free and no other partition reserves it (R408, R444). -/
def State.crcFree (s : State) (p u : Nat) : Bool :=
  (s.field.crcs.getD u {}).ctxs.any (fun c => c.isNone) &&
    (List.range 16).all (fun q => q == p || !(s.part q).sec.crcUnits.getLsbD u)

/-- The unit that a CU field takes for Pp: the named one, or for 0xFF the lowest-numbered one that is free. -/
def State.crcPick (s : State) (p cu : Nat) : Option Nat :=
  if cu = 0xFF then (List.range 16).find? (s.crcFree p) else if cu < 16 && s.crcFree p cu then some cu else none

/-- Bind a context of unit u: its first free one. -/
def State.crcBind (s : State) (u : Nat) (x : CrcCtx) : State :=
  { s with field := { s.field with crcs := updAt s.field.crcs u (fun c =>
      { c with ctxs := updAt c.ctxs (c.ctxs.findIdx (fun o => o.isNone)) (fun _ => some x) }) } }

/-- The index of the context that a binding will take. -/
def State.crcSlot (s : State) (u : Nat) : Nat := (s.field.crcs.getD u {}).ctxs.findIdx (fun o => o.isNone)

/-- A check value has been compared on unit u (R411). -/
def State.crcCount (s : State) (u : Nat) (bad : Bool) : State :=
  { s with field := { s.field with crcs := updAt s.field.crcs u (fun c =>
      { c with checked := c.checked + 1, mismatch := satTo 16 (c.mismatch + b2n bad) }) } }

/-! ### The status block and the unit ring (R403) -/

/-- Write the status block of channel c: all but READ_IDX, which is the consumer's, under the SEQ discipline. -/
def State.postChan (s : State) (c : Nat) : State :=
  let s := s.onChan c (fun x => { x with statSeq := (x.statSeq + 2) % 2 ^ 32 })
  let x := s.chan c
  let va := x.fld 86 6
  let s := s.tryWriteVa x.part va (toLe 4 ((x.statSeq + 2 ^ 32 - 1) % 2 ^ 32))
  let s := s.tryWriteVa x.part (va + 4) (toLe 4 x.writeIdx)
  let s := s.tryWriteVa x.part (va + 12) (toLe 4 x.packets ++ toLe 4 x.missing ++ toLe 4 x.late ++ toLe 4 x.unsupported ++
    toLe 4 x.overrun ++ toLe 4 x.badCheck ++ toLe 4 x.sr.1 ++ toLe 8 x.sr.2.1 ++ toLe 8 x.sr.2.2 ++ toLe 8 x.lastArrival)
  s.tryWriteVa x.part va (toLe 4 x.statSeq)

/-- READ_IDX of channel c, as the consumer has written it. -/
def State.readIdx (s : State) (c : Nat) : Nat := leNat (s.peekVa (s.chan c).part ((s.chan c).fld 86 6 + 8) 4)

/-- WRITE_IDX of channel c: the module's own, or for KIND 3 the host's. -/
def State.writeIdx (s : State) (c : Nat) : Nat :=
  let x := s.chan c
  if x.kind = 3 then leNat (s.peekVa x.part (x.fld 86 6 + 4) 4) else x.writeIdx

/-- Records of channel c between READ_IDX and WRITE_IDX. -/
def State.unread (s : State) (c : Nat) : Nat := (s.writeIdx c + 2 ^ 32 - s.readIdx c) % 2 ^ 32

/-- The 32 bytes of record `i` of the unit ring. -/
def State.unitRecord (s : State) (c i : Nat) : List Byte :=
  let x := s.chan c
  s.peekVa x.part (x.fld 80 6 + 32 * (i % 2 ^ x.fld 55 1)) 32

/-- Where a payload of `n` bytes goes: the next 16-byte boundary, or offset 0; none when the ring or the buffer is full. -/
def State.unitPlace (s : State) (c n : Nat) : Option Nat :=
  let x := s.chan c
  let size := x.fld 72 4
  let next := cdiv x.bufPos 16 * 16
  let off := if next + n ≤ size then next else 0
  let held := (List.range (Nat.min (s.unread c) (2 ^ x.fld 55 1))).map (fun i => s.unitRecord c (s.readIdx c + i))
  if s.unread c ≥ 2 ^ x.fld 55 1 || n > size then none
  else if held.any (fun r => fieldAt r 12 4 < off + n && off < fieldAt r 12 4 + fieldAt r 16 4) then none
  else some off

/-- What a unit record says beside its place. -/
structure UnitRec where
  /-- The flag bits of byte 4 -/
  flags : Nat
  /-- MISSING -/
  missing : Nat
  /-- STAMP -/
  stamp : Nat
  /-- ARRIVAL -/
  arrival : Nat
  /-- ORIGIN -/
  origin : Nat
deriving DecidableEq, Repr

/-- Write a unit: its payload, its record, then WRITE_IDX (R403). -/
def State.putUnitRec (s : State) (c off : Nat) (u : UnitRec) (payload : List Byte) : State :=
  let x := s.chan c
  let s := s.tryWriteVa x.part (x.fld 64 6 + off) payload
  let s := s.tryWriteVa x.part (x.fld 80 6 + 32 * (x.writeIdx % 2 ^ x.fld 55 1))
    (toLe 4 x.writeIdx ++ toLe 1 u.flags ++ zeros 1 ++ toLe 2 (satTo 16 u.missing) ++ toLe 4 u.stamp ++ toLe 4 off ++
      toLe 4 payload.length ++ toLe 8 u.arrival ++ toLe 4 u.origin)
  (s.onChan c (fun x => { x with writeIdx := (x.writeIdx + 1) % 2 ^ 32, bufPos := off + payload.length })).postChan c

/-- An event that is sent on its first cause after 1 s without one (R409, R425). -/
def quietFor (now : Nat) (last : Option Nat) : Bool :=
  match last with | some t => decide (now ≥ t + 1000000000) | none => true

/-- A unit finds no space (R403): discarded whole, and the next unit carries LOST. -/
def State.overrun (s : State) (c : Nat) : State :=
  let old := (s.chan c).overrunAt
  let s := s.onChan c (fun x => { x with overrun := satTo 32 (x.overrun + 1), nextLost := true, overrunAt := some s.now })
  if quietFor s.now old then s.raise (s.chan c).part 0x93 (toLe 1 c) else s

/-! ### Unit release (R402) -/

/-- The packets of the next unit: those of one timestamp, up to the marker or the start of a new sequence. -/
def takeUnit (stamp : Nat) : List Pkt → List Pkt
  | [] => []
  | k :: ks => if k.stamp != stamp then [] else if k.marker then [k] else
      k :: (match ks with | n :: _ => if n.discont then [] else takeUnit stamp ks | [] => [])

namespace Channel

/-- The next unit that waits. -/
def nextUnit (c : Channel) : List Pkt := match c.jitter with | k :: _ => takeUnit k.stamp c.jitter | [] => []

/-- The sequence number at which the unit starts: after the last packet released, or its first one in a new sequence. -/
def unitFrom (c : Channel) (u : List Pkt) : Nat :=
  match u with
  | k :: _ => if k.discont then k.seq else c.nextSeq.getD k.seq
  | [] => 0

/-- Sequence numbers missing before the unit's last packet. -/
def unitMissing (c : Channel) (u : List Pkt) : Nat :=
  match u.getLast? with | some k => k.seq + 1 - c.unitFrom u - u.length | none => 0

/-- The unit is complete. -/
def unitWhole (c : Channel) (u : List Pkt) : Bool :=
  (match u.getLast? with | some k => k.marker | none => false) && c.unitMissing u == 0

/-- The unit's deadline: its first arrival plus JITTER_MS. -/
def unitDue (c : Channel) (u : List Pkt) : Nat :=
  u.foldl (fun a (k : Pkt) => Nat.min a k.arrival) (match u with | k :: _ => k.arrival | [] => 0) + c.fld 62 2 * 1000000

end Channel

/-- Release the next unit of channel c. -/
def State.releaseUnit (s : State) (c : Nat) : State :=
  let x := s.chan c
  let u := x.nextUnit
  match u.head?, u.getLast? with
  | some k, some l =>
    let missing := x.unitMissing u
    let payload := if x.kind = 0 then rebuild (x.fld 5 1 % 4) (u.map (fun k => (k.seq, k.data))) else k.data
    let flags := b2n (missing > 0 || x.nextLost) + 2 * b2n (!l.marker) + 4 * b2n k.discont + 8 * b2n (u.any (fun k => k.bad)) +
      16 * b2n payload.isEmpty
    let s := s.onChan c (fun y => { y with jitter := y.jitter.drop u.length, nextSeq := some (l.seq + 1) })
    match s.unitPlace c payload.length with
    | some off =>
      let s := s.onChan c (fun y => { y with nextLost := false, missing := satTo 32 (y.missing + missing) })
      s.putUnitRec c off { flags := flags, missing := missing, stamp := k.stamp, arrival := x.unitDue u - x.fld 62 2 * 1000000,
                           origin := k.origin } payload
    | none => s.overrun c
  | _, _ => s

/-- Release, in order, every unit that is complete or whose deadline is at or before `t`. -/
def State.releaseTo (s : State) (c t : Nat) : Nat → State
  | 0 => s
  | fuel + 1 =>
    let x := s.chan c
    let u := x.nextUnit
    if !u.isEmpty && (x.unitWhole u || x.unitDue u ≤ t) then (s.releaseUnit c).releaseTo c t fuel else s

/-- Release what is due on channel c at `t`. -/
def State.releaseDue (s : State) (c t : Nat) : State := s.releaseTo c t ((s.chan c).jitter.length + 1)

/-! ### Packets in (R401, R402, R404, R406) -/

/-- Insert a packet in sequence order. -/
def insertPkt (k : Pkt) : List Pkt → List Pkt
  | [] => [k]
  | x :: xs => if k.seq < x.seq then k :: x :: xs else x :: insertPkt k xs

/-- Take a packet into the jitter buffer, or discard it as late or a duplicate (R402); then release what is complete. -/
def State.acceptPkt (s : State) (c : Nat) (k : Pkt) : State :=
  let x := s.chan c
  let old := !k.discont && ((match x.nextSeq with | some n => decide (k.seq < n) | none => false) || x.jitter.any (fun j => j.seq == k.seq))
  if old then s.onChan c (fun x => { x with late := satTo 32 (x.late + 1) })
  else
    (s.onChan c (fun x => { x with
      jitter := insertPkt k x.jitter, packets := satTo 32 (x.packets + 1), lastArrival := k.arrival, stalled := false,
      highSeq := some (match x.highSeq with | some h => Nat.max h k.seq | none => k.seq) })).releaseDue c k.arrival

/-- The source filters of a channel (R397): an address or port of 0 accepts any. -/
def Channel.fromOk (c : Channel) (src sport : Nat) : Bool :=
  (c.remoteIp == 0 || c.remoteIp == src) && (c.fld 10 2 == 0 || c.fld 10 2 == sport)

/-- The statistics of RFC 3550 for one packet: clock 90 kHz. -/
def Rtcp.take (r : Rtcp) (k : RtpPkt) (ext arrival : Nat) : Rtcp :=
  let t : Int := (arrival * 9 / 100000 : Nat) - (k.stamp : Int)
  let d := match r.transit with | some o => (t - o).natAbs | none => 0
  { r with ssrc := k.ssrc, base := if r.received = 0 then ext else r.base, received := r.received + 1, transit := some t,
           jitter := r.jitter + d - (r.jitter + 8) / 16 }

/-- An RTP packet of channel c (R401). -/
def State.takeRtp (s : State) (c arrival src sport : Nat) (b : List Byte) : State :=
  let x := s.chan c
  match RtpPkt.parse b with
  | none => s
  | some k =>
    if !x.fromOk src sport || (x.fld 56 4 != 0 && x.fld 56 4 != k.ssrc) || (x.fld 7 1 != 0xFF && x.fld 7 1 != k.pt) then s
    else if unsupported (x.fld 5 1 % 4) k.data then s.onChan c (fun x => { x with unsupported := satTo 32 (x.unsupported + 1) })
    else
      let e := extendSeq x.highSeq k.seq
      (s.onChan c (fun x => { x with rtcp := x.rtcp.take k e.1 arrival })).acceptPkt c
        { seq := e.1, stamp := k.stamp, marker := k.marker, arrival := arrival, data := k.data, origin := k.ssrc, discont := e.2 }

/-- An RTCP packet of channel c from the address `src`: the latest Sender Report is recorded (R401). -/
def State.takeRtcp (s : State) (c arrival src : Nat) (b : List Byte) : State :=
  let x := s.chan c
  if b.length ≥ 28 && byteAt b 0 / 64 == 2 && byteAt b 1 == 200 && x.receives && (x.remoteIp == 0 || x.remoteIp == src) &&
      (x.fld 56 4 == 0 || x.fld 56 4 == beAt b 4 4) then
    s.onChan c (fun x => { x with sr := (beAt b 16 4, beAt b 8 8, arrival) })
  else s

/-- A check value differs (R406, R409). -/
def State.checkFail (s : State) (c u : Nat) : State :=
  let old := (s.chan c).checkAt
  let s := s.onChan c (fun x => { x with badCheck := satTo 32 (x.badCheck + 1), checkAt := some s.now })
  if quietFor s.now old then s.raise (s.chan c).part 0x94 (toLe 1 c ++ toLe 1 u) else s

/-- The extended FRAME_NO of a sensor frame. -/
def extendFrame (high : Option Nat) (no : Nat) : Nat :=
  match high with
  | none => 2 ^ 32 + no
  | some h => let d := (no + 2 ^ 32 - h % 2 ^ 32) % 2 ^ 32; if d < 2 ^ 31 then h + d else h + d - 2 ^ 32

/-- A sensor frame of channel c (R404, R406). -/
def State.takeSensor (s : State) (c arrival src sport : Nat) (b : List Byte) : State :=
  let x := s.chan c
  let direct := x.fld 14 2 != 0
  let len := 32 + fieldAt b 24 4
  let w := x.checkLen
  let no := fieldAt b 8 4
  if (!direct && !x.fromOk src sport) then s
  else if fieldAt b 0 2 != 0x5346 || byteAt b 2 != 1 || b.length < 32 || (if direct then len + w > b.length else len + w != b.length) then
    s.onChan c (fun x => { x with unsupported := satTo 32 (x.unsupported + 1) })
  else if x.fld 124 4 != 0 && x.fld 124 4 != fieldAt b 4 4 then s
  else
    let body := b.take len
    let bad := w != 0 && (crcOfBlock x.block).bytes body != sliceOf b len w
    let u := match x.crc with | some y => y.1 | none => 0
    let s := if w != 0 then s.crcCount u bad else s
    let s := if bad then s.checkFail c u else s
    if bad && bitOf (x.fld 4 1) 5 then s.onChan c (fun x => { x with nextLost := true })
    else s.acceptPkt c { seq := extendFrame x.highSeq no, stamp := no, marker := true, arrival := arrival, data := body,
                         origin := fieldAt b 4 4, bad := bad }

/-- A frame of channel c is parsed, after the deadlines that passed before it arrived. -/
def State.takePacket (s : State) (c : Nat) (a : Nat × List Byte) : State :=
  let n := (s.chan c).port
  match Eth.parse (s.fp n).maxFrame a.2 with
  | none => s
  | some e =>
    match s.target n e with
    | some (i, rtcp, src, sport, data) =>
      if i != c then s
      else
        let s := s.releaseDue c a.1
        if rtcp then s.takeRtcp c a.1 src data
        else if (s.chan c).kind = 0 then s.takeRtp c a.1 src sport data else s.takeSensor c a.1 src sport data
    | none => s

/-! ### Ports and the carousel (R394, R396, R400) -/

/-- Bytes that frames of port n hold in its ingress buffer. -/
def State.ingressBytes (s : State) (n : Nat) : Nat :=
  let sum := fun (l : List (Nat × List Byte)) => l.foldl (fun (a : Nat) x => a + x.2.length) 0
  sum (s.fp n).ingress + (s.field.chans.filter (fun c => c.onField n)).foldl (fun (a : Nat) (c : Channel) => a + sum c.waiting) 0

/-- FIELD_FRAME_RECEIVE (R396): a PTP message is taken at once, any other frame enters the ingress buffer. -/
def execFieldFrameReceive (n : Nat) (f : List Byte) (s : State) : Host.Outcome State Fault Refusal :=
  let p := s.fp n
  let onPort := fun (g : FieldPort → FieldPort) => { s with field := { s.field with ports := updAt s.field.ports n g } }
  let ptp := if s.field.ptpEnable && s.field.ptpPort == n then (Eth.parse p.maxFrame f).bind s.ptpOf else none
  .next (if n ≥ 2 || !s.clocked 3 n || !p.enable || !p.up then s
    else match ptp with
      | some m => s.ptpMessage m
      | none =>
        if s.ingressBytes n + f.length > 0x200000 then onPort (fun p => { p with bufFull := satTo 16 (p.bufFull + 1) })
        else onPort (fun p => { p with ingress := p.ingress ++ [(s.now, f)] }))

/-- One frame leaves the ingress buffer: to the channel it belongs to, or to what answers or counts it. -/
def State.demuxOne (s : State) (n : Nat) (a : Nat × List Byte) : State :=
  match Eth.parse (s.fp n).maxFrame a.2 with
  | none => s.dropBad n
  | some e =>
    if !e.forPort n then s.dropFrame n
    else match s.target n e with
      | some (i, _, _, _, _) => s.onChan i (fun x => { x with
          waitSince := if x.waiting.isEmpty then a.1 else x.waitSince, waiting := x.waiting ++ [a] })
      | none => s.handleOther n e

/-- The ingress buffers are sorted to their channels. -/
def State.demux (s : State) : State :=
  (List.range 2).foldl (fun t n =>
    let fs := (t.fp n).ingress
    let t := { t with field := { t.field with ports := updAt t.field.ports n (fun p => { p with ingress := [] }) } }
    fs.foldl (fun u a => u.demuxOne n a) t) s

/-- The channel that the carousel serves next (R400). -/
def State.nextChan (s : State) : Option Nat :=
  let w := (List.range 64).filter (fun c => (s.chan c).isOpen && !(s.chan c).waiting.isEmpty)
  let live := w.filter (fun c => (s.chan c).cls == 0)
  let cand := if live.isEmpty then w else live
  cand.foldl (fun a c => match a with
    | none => some c
    | some b =>
      let x := s.chan c
      let y := s.chan b
      if x.waitSince < y.waitSince || (x.waitSince == y.waitSince && x.cls < y.cls) then some c else a) none

/-- PROTOCOL_ENGINE_SLICE (R400): up to 32 packets of one channel. -/
def execProtocolEngineSlice (s : State) : Host.Outcome State Fault Refusal :=
  let s := s.demux
  .next (match s.nextChan with
    | none => s
    | some c =>
      let w := (s.chan c).waiting
      let s := s.onChan c (fun x => { x with waiting := w.drop 32, waitSince := s.now })
      ((w.take 32).foldl (fun t a => t.takePacket c a) s).postChan c)

/-- UNIT_DEADLINE (R402). -/
def execUnitDeadline (c : Nat) (s : State) : Host.Outcome State Fault Refusal :=
  let x := s.chan c
  .next (if x.receives && !x.nextUnit.isEmpty && x.unitDue x.nextUnit ≤ s.now then (s.releaseDue c s.now).postChan c else s)

/-- The link of field port n comes up or goes down (R409). -/
def State.fieldLink (s : State) (n : Nat) (up : Bool) (fec : Nat) : State :=
    if n ≥ 2 || (s.fp n).up == up || (up && !s.clocked 3 n) || (up && (!(s.fp n).enable || (s.unit 3 n).fenced)) then s
    else
      let s := { s with field := { s.field with ports := updAt s.field.ports n (fun p =>
        if up then { p with up := true, fecUse := fec % 4 } else { p with up := false, fecUse := 0, txq := [] }) } }
      let data := toLe 1 n ++ toLe 1 (b2n up)
      let ps := (List.range 16).filter (fun p => p != 0 && s.field.chans.any (fun c => c.onField n && c.part == p))
      (0 :: ps).foldl (fun t p => t.raise p 0x90 data) s

/-- FIELD_LINK (R409). -/
def execFieldLink (n : Nat) (up : Bool) (fec : Nat) (s : State) : Host.Outcome State Fault Refusal := .next (s.fieldLink n up fec)

/-- STREAM_STALL (R403). -/
def execStreamStall (c : Nat) (s : State) : Host.Outcome State Fault Refusal :=
  let x := s.chan c
  let since := if x.packets = 0 then x.openedAt else x.lastArrival
  .next (if x.receives && x.fld 76 4 != 0 && !x.stalled && s.now ≥ since + x.fld 76 4 * 1000000 then
    (s.onChan c (fun x => { x with stalled := true })).raise x.part 0x92 (toLe 1 c)
    else s)

/-! ### RTCP (R401) -/

/-- An NTP timestamp of module time. -/
def ntpOf (now : Nat) : Nat := (now / 1000000000 + 2208988800) % 2 ^ 32 * 2 ^ 32 + now % 1000000000 * 2 ^ 32 / 1000000000

/-- A Receiver Report of a channel, by RFC 3550. -/
def Channel.receiverReport (x : Channel) (me now : Nat) : List Byte :=
  let r := x.rtcp
  let high := x.highSeq.getD 0
  let expected := high + 1 - r.base
  let lost := expected - r.received
  let ei := expected - r.prior.1
  let ri := r.received - r.prior.2
  let frac := if ei = 0 || ei ≤ ri then 0 else Nat.min 255 ((ei - ri) * 256 / ei)
  let block := toBe 4 r.ssrc ++ toBe 1 frac ++ toBe 3 (satTo 23 lost) ++ toBe 4 ((high - 65536) % 2 ^ 32) ++ toBe 4 (r.jitter / 16) ++
    toBe 4 (x.sr.2.1 / 65536 % 2 ^ 32) ++ toBe 4 (if x.sr.2.2 = 0 then 0 else (now - x.sr.2.2) * 65536 / 1000000000 % 2 ^ 32)
  if r.received = 0 then toBe 1 0x80 ++ toBe 1 201 ++ toBe 2 1 ++ toBe 4 me
  else toBe 1 0x81 ++ toBe 1 201 ++ toBe 2 7 ++ toBe 4 me ++ block

/-- A Sender Report of a channel: `stamp` is the RTP time of now. -/
def Channel.senderReport (x : Channel) (now : Nat) : List Byte :=
  toBe 1 0x80 ++ toBe 1 200 ++ toBe 2 6 ++ toBe 4 (x.fld 56 4) ++ toBe 8 (ntpOf now) ++ toBe 4 (now * 9 / 100000 % 2 ^ 32) ++
    toBe 4 (x.sent.1 % 2 ^ 32) ++ toBe 4 (x.sent.2 % 2 ^ 32)

/-- RTCP_REPORT (R401). -/
def execRtcpReport (c : Nat) (s : State) : Host.Outcome State Fault Refusal :=
  let x := s.chan c
  .next (if !(x.isOpen && x.useRtcp) || s.now < x.reportAt + 5000000000 then s
    else
      let me := match x.rtcp.self with | some v => v | none => s.freeNat % 2 ^ 32
      let s := if x.rtcp.self.isSome || x.kind = 2 then s else s.tick
      let m := if x.kind = 0 then x.receiverReport me s.now else x.senderReport s.now
      let s := s.onChan c (fun x => { x with
        reportAt := s.now,
        rtcp := if x.kind = 0 then { x.rtcp with self := some me, prior := (x.highSeq.getD 0 + 1 - x.rtcp.base, x.rtcp.received) } else x.rtcp })
      s.txFrame x.port (x.datagram (x.fld 8 2 + 1) (x.fld 10 2 + 1) m))

/-! ### Opening and closing (R281, R397 to R399) -/

/-- The channel of a media descriptor. -/
def Desc.chan (d : Desc) : Nat := d.fld 16 1

/-- R281's checks that every media opcode shares: the channel is the partition's, and open or closed as it must be. -/
def State.mediaCheck (s : State) (p : Nat) (d : Desc) : Option Fail :=
  if !(s.part p).sec.channels.getLsbD d.chan then some (.status stAccessDenied 0xF)
  else if (s.chan d.chan).isOpen == (d.op == 0x70) then some (.status stIllegalState 0)
  else none

/-- The offending bytes of a channel block for a KIND (R397, R398). -/
def chanBad (kind : Nat) (b : List Byte) : List (Bool × Nat) :=
  let b4 := byteAt b 4
  let cu := byteAt b 6
  let rtp := kind == 0 || (kind == 2 && !bitOf b4 4)
  let prog := byteAt b 92 == 0 && cu != 0xFE
  let w := byteAt b 93
  chk [(fieldAt b 0 4 != 1, 0), (bitsOf b4 2 1 == 3 || bitOf b4 7 || (bitOf b4 4 && kind != 2), 4),
    (byteAt b 5 > 3 || (rtp && byteAt b 5 == 3), 5), (!(cu < 16 || cu ≥ 0xFE) || (rtp && cu != 0xFE), 6),
    (rtp && !((96 ≤ byteAt b 7 && byteAt b 7 ≤ 127) || (kind == 0 && byteAt b 7 == 0xFF)), 7),
    (byteAt b 54 > 63, 54), (byteAt b 55 < 6 || byteAt b 55 > 16, 55),
    (kind == 2 && (fieldAt b 60 2 < 576 || fieldAt b 60 2 > 9000), 60), (fieldAt b 62 2 > 1000, 62),
    (fieldAt b 64 6 % 0x1000 != 0, 64),
    (fieldAt b 72 4 < 0x10000 || fieldAt b 72 4 > 0x40000000 || fieldAt b 72 4 % 0x1000 != 0, 72), (fieldAt b 76 4 > 60000, 76),
    (fieldAt b 80 6 % 0x1000 != 0, 80), (fieldAt b 86 6 % 64 != 0, 86), (byteAt b 92 > 4, 92), (prog && (w < 8 || w > 64), 93),
    (byteAt b 94 > 3, 94), (prog && fieldAt b 96 8 ≥ 2 ^ w, 96), (prog && fieldAt b 104 8 ≥ 2 ^ w, 104),
    (prog && fieldAt b 112 8 ≥ 2 ^ w, 112)] ++ resv b 70 2 ++ resv b 95 1

/-- STREAM_OPEN's regions translate for what the module does there. -/
def State.chanReach (s : State) (p kind : Nat) (b : List Byte) : Option Fail :=
  let own := kind != 3
  let go := fun (va len : Nat) (w : Bool) => match s.resolve p none 0 va len w with | .ok _ => none | .error f => some f
  (go (fieldAt b 64 6) (fieldAt b 72 4) own <|> go (fieldAt b 80 6) (32 * 2 ^ byteAt b 55) own) <|> go (fieldAt b 86 6) 64 true

/-- Another open receive channel has the same addresses (R398). -/
def State.chanClash (s : State) (kind : Nat) (b : List Byte) : Bool :=
  let x : Channel := { isOpen := true, kind := kind, block := b }
  x.receives && s.field.chans.any (fun c => c.receives && c.port == x.port && c.localIp == x.localIp && c.v6 == x.v6 &&
    c.fld 8 2 == x.fld 8 2 && c.fld 14 2 == x.fld 14 2)

/-- The channel takes a CRC context. -/
def wantsCrc (kind : Nat) (b : List Byte) : Bool := (kind == 1 || (kind == 2 && bitOf (byteAt b 4) 4)) && byteAt b 6 != 0xFE

/-- STREAM_OPEN's checks (R398). -/
def State.openCheck (s : State) (p : Nat) (d : Desc) : Option Fail :=
  s.mediaCheck p d <|>
  (match s.readVa p none 0 (d.fld 20 6) 128 with
   | .error f => some f
   | .ok b =>
     let k := d.fld 17 1
     match firstBad (chanBad k b) with
     | some o => some (badInBlock o)
     | none => s.chanReach p k b <|>
       (if s.chanClash k b || (wantsCrc k b && (s.crcPick p (byteAt b 6)).isNone) then some (.status stNotAdmitted 0) else none))

/-- STREAM_OPEN opens the channel: its context is bound, the status block starts at 0. -/
def State.openChan (s : State) (p : Nat) (d : Desc) (b : List Byte) : State :=
  let c := d.chan
  let k := d.fld 17 1
  let cu := if wantsCrc k b then (s.crcPick p (byteAt b 6)).map (fun u => (u, s.crcSlot u)) else none
  let s := match cu with | some (u, _) => s.crcBind u { part := p, user := c } | none => s
  let x : Channel := { isOpen := true, part := p, kind := k, block := b, crc := cu, openedAt := s.now, reportAt := s.now }
  let seq := fieldAt b 120 4
  let s := s.onChan c (fun _ => { x with sendSeq := if x.framed then seq else seq % 65536 })
  let s := s.tryWriteVa p (x.fld 86 6 + 8) (zeros 4)
  (s.postChan c).reportGroup x

/-- STREAM_OPEN (R398). -/
def execStreamOpen (d : DescRef) (s : State) : Host.Outcome State Fault Refusal :=
  .next (s.runDesc d (isOp 0x70) {
    check := State.openCheck
    run := fun t p x => do
      let b ← t.readVa p none 0 (x.fld 20 6) 128
      okDone (t.openChan p x b) })

/-- Every media command in progress on channel c ends with `st`, and the stream context ends (R435). -/
def State.endContext (s : State) (c st : Nat) : State :=
  let p := (s.chan c).part
  let on := fun (d : Desc) => (d.op == 0x72 || d.op == 0x73 || d.op == 0x74) && d.chan == c && d.startedAt.isSome
  let s := ((s.part p).fetched.filter on).foldl (fun t d => t.complete p d { status := st }) s
  let off := fun (i : CodecItem) => i.chan == c
  { s with video := { s.video with
      ctxs := updAt s.video.ctxs c (fun _ => none)
      saved := s.video.saved.filter (fun i => !off i)
      cores := s.video.cores.map (fun x => match x.item with
        | some i => if off i then { x with item := none } else x
        | none => x) } }

/-- Channel c closes (R399, R435). -/
def State.closeChan (s : State) (c st : Nat) : State :=
  if (s.chan c).isOpen then
    let x := s.chan c
    ((s.endContext c st).crcUnbind { part := x.part, user := c }).onChan c (fun _ => {})
  else s

/-- The channels that Pp has open close (R399). -/
def State.closeChans (s : State) (p st : Nat) : State :=
  ((List.range 64).filter (fun c => (s.chan c).isOpen && (s.chan c).part == p)).foldl (fun t c => t.closeChan c st) s

/-- STREAM_CLOSE (R399): RESULT is WRITE_IDX. -/
def execStreamClose (d : DescRef) (s : State) : Host.Outcome State Fault Refusal :=
  .next (s.runDesc d (isOp 0x71) {
    check := State.mediaCheck
    run := fun t _ x => .ok (t.closeChan x.chan stCancelled, { result := t.writeIdx x.chan }) })

/-! ### RESULT_FRAME (R405) -/

/-- The offending bytes of the tensor record of a RESULT_FRAME on a channel. -/
def resultBad (c : Channel) (b : List Byte) : List (Bool × Nat) :=
  let r := TRec.ofBytes b
  recBad b ++ chk [(r.sparse, 7), (r.rows > 65535 || !c.fits (r.storedRows * r.packed), 8), (r.cols > 255, 12), (r.batch != 1, 20)]

/-- RESULT_FRAME (R405): RESULT holds the FRAME_NO. -/
def execResultFrame (d : DescRef) (s : State) : Host.Outcome State Fault Refusal :=
  .next (s.runDesc d (isOp 0x75) {
    check := fun t p x => t.mediaCheck p x <|>
      (if !(t.chan x.chan).framed then some (.status stIllegalState 0)
       else match t.readVa p none 0 (x.fld 20 6) 32 with
         | .error f => some f
         | .ok b => (firstBad (resultBad (t.chan x.chan) b)).map badInBlock)
    run := fun t p x => do
      let b ← t.readVa p none 0 (x.fld 20 6) 32
      let r := TRec.ofBytes b
      let data ← t.readTensor p none 0 r
      let stamp := if x.fld 32 8 = 0 then t.now else x.fld 32 8
      .ok (t.sendSensor x.chan 1 stamp r.rows r.fmt r.cols data.bytes, { result := (t.chan x.chan).sendSeq }) })

end Sys2Proof.Machine
end

