-- ==== Sys2Proof/Machine/Recover.lean ====
section
/-! DEFINITION. What ends work before its time, shared by health, power, partitions and start-up: commands that end early,
memory ports that become unavailable (R603), unit resets (R499 to R508), fences and their end (R512, R513), partition
faults and resets (R441, R442, R511), and what a module reset or OFF keeps (R491, R583). -/

namespace Sys2Proof.Machine

/-! ### Commands that end early -/

/-- A fetched descriptor ends with `o`; one that had started leaves its outputs undefined (R287, R506), and a KV command
keeps its record changes (R312). -/
def State.endEarly (s : State) (p num : Nat) (o : Done) : State :=
  match s.desc? p num with
  | none => s
  | some d => (if d.startedAt.isSome then (s.spoilOut p d).kvAbandon p num else s).complete p d o

/-- End each of some descriptors of Pp. -/
def State.endEach (s : State) (p : Nat) (ds : List Desc) (o : Done) : State :=
  s.batched p (fun u => ds.foldl (fun t d => t.endEarly p d.num o) u)

/-- Every fetched descriptor of Pp ends (R291, R442): those of acts, then those of the rings. -/
def State.endAll (s : State) (p st : Nat) : State :=
  let s := (List.range 64).foldl (fun t n => if (t.act p n).st = .free then t else t.endActDescs p n st) s
  s.endEach p ((s.part p).fetched.filter (fun d => d.act.isNone)) { status := st }

/-- The descriptors that have started on engine e of Pp. -/
def State.onEngine (s : State) (p e : Nat) : List Desc :=
  (s.part p).fetched.filter (fun d => d.engineRun && d.engine == e && d.startedAt.isSome)

/-! ### Memory ports and bulk channels (R603) -/

/-- The frames of a granule that are not retired yet. -/
def Granule.freshFrames (g : Granule) : Nat := if g.allRetired then 0 else 0x4000 - g.retired.length

/-- Every frame of a granule with blocks on port `i` is retired: each frame of an interleaved or bulk granule has blocks on
every port (R190, R195). -/
def Granule.retireOn (g : Granule) (i : Nat) (bulk : Bool) : Granule :=
  if g.slices.any (fun x => (if bulk then 16 + x.1 else x.1) == i) then { g with gone := g.gone ++ [if bulk then i - 16 else i] } else g

/-- The frames that become retired with port `i`, by the tag of the granule's owner. -/
def State.framesOn (s : State) (i : Nat) : List (Nat × Nat) :=
  let on := fun (bulk : Bool) (g : Granule) => g.owner < 16 && g.slices.any (fun x => (if bulk then 16 + x.1 else x.1) == i)
  ((s.mem.grans.filter (on false)) ++ (s.mem.bulk.filter (on true))).map (fun g => (g.owner, g.freshFrames))

/-- Frames of Pp in such a list, or of every partition. -/
def frameSum (l : List (Nat × Nat)) (p : Option Nat) : Nat :=
  l.foldl (fun a x => if p.isNone || p == some x.1 then a + x.2 else a) 0

/-- A memory port (0 to 15) or bulk channel (16 to 23) becomes unavailable (R603): its frames are retired, PORT_LOST is
sent, and what it held reads as poisoned. -/
def State.portLost (s : State) (i : Nat) : State :=
  if !(s.mem.port i).avail then s
  else
    let fs := s.framesOn i
    let data := fun (p : Option Nat) =>
      toLe 1 (b2n (decide (16 ≤ i))) ++ toLe 1 (if i < 16 then i else i - 16) ++ zeros 2 ++ toLe 4 (satTo 32 (frameSum fs p))
    let m := s.mem.onPort i (fun q => { q with avail := false })
    let s := { s with mem := { m with
      reported := m.reported.filter (fun w => m.portOf w != some i)
      grans := m.grans.map (fun (g : Granule) => g.retireOn i false)
      bulk := m.bulk.map (fun (g : Granule) => g.retireOn i true) } }
    let owners := (List.range 16).filter (fun p => fs.any (fun x => x.1 == p))
    let s := owners.foldl (fun t p => t.onPart p (fun q =>
      { q with mem := { q.mem with retired := satTo 8 (q.mem.retired + frameSum fs (some p)) } })) s
    (owners.filter (· ≠ 0)).foldl (fun t p => t.raise p 0x45 (data (some p))) (s.raise 0 0x45 (data none))

/-- An unavailable port returns to service: every word on it reads as poisoned until it is written whole (R603). -/
def State.portBack (s : State) (i : Nat) : State :=
  if (s.mem.port i).avail then s
  else { s with mem := s.mem.onPort i (fun q => { q with avail := true, stale := List.range 6, healed := [] }) }

/-- Channels of a port did not enter self-refresh: what they held is lost (R508). -/
def State.channelsLost (s : State) (i : Nat) (lost : List Nat) : State :=
  if lost.isEmpty then s
  else
    let m := s.mem
    { s with mem := m.onPort i (fun q => { q with
        stale := q.stale ++ lost.filter (fun c => !q.stale.contains c)
        healed := if q.stale.isEmpty then [] else q.healed.filter (fun r => !lost.contains (m.chanOf r.1)) }) }

/-- The transactions in flight across the boundary of port `i`, which the reset of a unit loses: neither completed nor cancelled
(R506). -/
def State.dropQueued (s : State) (kind unit i : Nat) : State :=
  let c := if i < 16 then s.mem.cross.getD i {} else {}
  let cut := s.mem.queued.getD i [] ++ (c.inward ++ c.outward).map Flight.txn
  { s with mem := { s.mem with
    queued := updAt s.mem.queued i (fun _ => [])
    cross := if i < 16 then updAt s.mem.cross i (fun _ => {}) else s.mem.cross
    edge := s.mem.edge ++ cut.map (fun t => (t, kind, unit)) } }

/-- A tile's mover holds no transaction any more (R506). -/
def State.dropMover (s : State) (t : Nat) : State :=
  { s with mem := { s.mem with
    waiting := s.mem.waiting.filter (fun x => x.src != some t)
    edge := s.mem.edge.filter (fun x => x.1.src != some t) } }

/-- The memory port behind a rim tile (R19). -/
def rimPort (t : Nat) : Option Nat := if t < 8 then some t else if 56 ≤ t ∧ t < 64 then some (t - 48) else none

/-! ### Tiles -/

/-- Zero a tile's scratchpad (R49). -/
def State.zeroTile (s : State) (t : Nat) : State :=
  { s with mem := s.mem.zero (winBase + t * 0x1000000) (winBase + t * 0x1000000 + 0x400000) }

/-- A tile leaves its engine with its scratchpad zeroed: FREE, unless it is fenced or recovering (R442, R509). -/
def State.freeTile (s : State) (t : Nat) : State :=
  let s := ((s.settleTile t).dropMover t).onUnit 0 t (fun u => { u with striking := false, saved := none })
  ((s.zeroTile t).onTile t (fun x => { x with
    st := if x.st = .fenced || x.st = .resetting then x.st else .free, engine := none, items := [], release := 0, image := 0 })).settleFence t

/-! ### Fences (R512 to R514) -/

/-- A fence of a unit other than a tile takes effect (R512). -/
def State.fenceHub (s : State) (kind unit reason : Nat) : State :=
  let s := s.onUnit kind unit (fun u => { u with fenced := true, fenceWait := none })
  let s := match kind with
    | 2 => (s.linkOff unit).onLp unit (fun p => { p with enable := false })
    | 3 => { s with field := { s.field with ports := updAt s.field.ports unit (fun p => { p with up := false, fecUse := 0, txq := [] }) } }
    | 4 => s.portLost unit
    | 5 => s.portLost (16 + unit)
    | _ => s
  let s := s.raise 0 0x54 (toLe 1 kind ++ toLe 1 unit ++ toLe 1 reason)
  ((s.logOpen 13 kind unit 0xFF).reviewDown).reviewHealth true

/-- The descriptors under way on an engine that a fence of tile t cuts short end with ENGINE_FENCED (R514). -/
def State.endFenced (s : State) (t : Nat) : State :=
  match (s.tile t).part, (s.tile t).engine with
  | some p, some i =>
    (match s.engine? p i with
     | some e =>
       if e.elastic && !(s.liveTiles e).isEmpty then s else s.endEach p (s.onEngine p i) { status := stEngineFenced }
     | none => s)
  | _, _ => s

/-- A fence of a unit: at once, or at the end of a tile's work item, load or reset (R509, R514). -/
def State.fenceUnit (s : State) (kind unit reason : Nat) : State :=
  if (s.unit kind unit).fenced then s
  else if kind ≠ 0 then
    if (s.unit kind unit).recov = .idle then s.fenceHub kind unit reason
    else s.onUnit kind unit (fun u => { u with fenceWait := some reason })
  else
    match (s.tile unit).st with
    | .free | .idle => (s.onTile unit (fun x => { x with fencePending := some reason })).settleFence unit
    | .fenced => s
    | _ => (s.onTile unit (fun x => { x with fencePending := some reason })).endFenced unit

/-- A fence ends (R513): the unit is back, UNIT_UNFENCED is sent. A tile is FREE and zeroed. -/
def State.unfence (s : State) (kind unit : Nat) : State :=
  let s := s.onUnit kind unit (fun u => { u with fenced := false, failRow := 0 })
  let s := match kind with
    | 0 => (s.zeroTile unit).onTile unit (fun x => { x with st := .free, release := 0, image := 0 })
    | 4 => s.portBack unit
    | 5 => s.portBack (16 + unit)
    | _ => s
  let data := toLe 1 kind ++ toLe 1 unit
  let s := if kind = 0 then s.raiseTile unit 0x55 data else s.raise 0 0x55 data
  s.reviewUp.reviewHealth false

/-! ### Partition faults (R441, R511) -/

/-- A partition fault: FAULTED, and the fetched descriptors finish with PARTITION_RESET (R291, R441). -/
def State.faultPart (s : State) (p : Nat) : State :=
  match (s.part p).sec.st with
  | .admitted | .running | .quiescing =>
    ((s.onSec p (fun x => { x with st := .faulted })).endAll p stPartitionReset).checkExpel
  | _ => s

/-! ### Unit resets (R503 to R508) -/

/-- A reset of a unit is requested (R503): it enters the timeline at step 3, unless one is under way (R509). Sources: 1 hang,
2 self-test, 3 host, 4 steward, 5 lock loss. A tile goes to RESETTING (R63). -/
def State.requestReset (s : State) (kind unit source : Nat) (hang : List Byte) (cascade testing : Bool) : State :=
  if (s.unit kind unit).recov ≠ .idle then s
  else
    let s := s.onUnit kind unit (fun u => { u with recov := .dumping, source := source, hang := hang, declaredAt := s.now,
                                                   cascade := cascade, testing := testing, striking := false, saved := none })
    if kind = 0 then (s.chargeItem unit).onTile unit (fun x => { x with st := if x.st = .fenced then x.st else .resetting })
    else s

/-- The commands whose work a reset of the unit ends, as (partition, descriptor) (R506, R387, R435). -/
def State.workOn (s : State) (kind unit : Nat) : List (Nat × Desc) :=
  let pick := fun (f : Nat → Desc → Bool) =>
    (List.range 16).flatMap (fun p => ((s.part p).fetched.filter (fun d => d.startedAt.isSome && f p d)).map (fun d => (p, d)))
  match kind with
  | 0 =>
    (match (s.tile unit).part, (s.tile unit).engine with
     | some p, some i => (s.onEngine p i).map (fun d => (p, d))
     | _, _ => [])
  | 1 =>
    (match (s.video.cores.getD unit {}).item with
     | some i => pick (fun p d => p == i.part && (match s.video.ctxs.getD i.chan none with
         | some x => (x.cmds.head?.map MediaCmd.num) == some d.num | none => false))
     | none => [])
  | 2 => pick (fun p d => isColl d.op && (match s.group? p (d.fld 24 1) with | some g => g.ports.contains unit | none => false))
  | 3 => pick (fun p d => d.op == 0x75 && (s.chan d.chan).onField unit && (s.chan d.chan).part == p)
  | _ => []

/-- RESULT of ENGINE_RESET (R506). -/
def resetResult (kind unit : Nat) : Nat := if kind = 0 then unit else 0xFF + kind * 256 + unit * 65536

/-- What a reset destroys in the unit, its commands aside (R506). -/
def State.wipeUnit (s : State) (kind unit : Nat) : State :=
  match kind with
  | 0 =>
    let s := ((s.zeroTile unit).dropMover unit).onTile unit (fun x => { x with
      items := [], release := 0, image := 0, contPart := false, contMod := false })
    (match rimPort unit with | some i => s.dropQueued 0 unit i | none => s)
  | 1 =>
    (match (s.video.cores.getD unit {}).item with
     | none => s
     | some i =>
       let off := fun (j : CodecItem) => j.chan == i.chan
       { s with video := { s.video with
         cores := s.video.cores.map (fun c => match c.item with | some j => if off j then { c with item := none } else c | none => c)
         saved := s.video.saved.filter (fun j => !off j)
         ctxs := updAt s.video.ctxs i.chan (fun o => o.map (fun y => { y with
           parts := (0, 0), bufs := y.bufs.map (fun b => { b with busy := false }) })) } })
  | 2 => if (s.lp unit).enable then s.trainLink unit else s
  | 3 => { s with field := { s.field with ports := updAt s.field.ports unit (fun p =>
             { p with up := false, fecUse := 0, txq := [], ingress := [] }) } }
  | 4 => s.dropQueued 4 unit unit
  | _ => s.dropQueued 5 unit (16 + unit)

/-- Resets of a unit that count under R512. -/
def State.countedResets (s : State) (kind unit : Nat) : Nat :=
  within s.now (s.health.fenceH * 3600000000000) (s.unit kind unit).resets

/-- The reset counts toward fencing and toward a partition fault (R511, R512). -/
def State.countReset (s : State) (kind unit : Nat) : State :=
  let u := s.unit kind unit
  let s := if u.cascade || u.source = 3 then s else
    let s := s.onUnit kind unit (fun x => { x with resets := s.now :: x.resets })
    if s.countedResets kind unit ≥ s.health.fenceN then s.fenceUnit kind unit 1 else s
  match kind, (s.tile unit).part with
  | 0, some p =>
    if u.cascade then s
    else
      let s := s.onPart p (fun q => { q with hlt := { q.hlt with
        faultResets := s.now :: q.hlt.faultResets.filter (fun t => t + 60000000000 > s.now) } })
      if (s.part p).hlt.faultResets.length ≥ 3 then s.faultPart p else s
  | _, _ => s

/-- The reset of a unit is asserted (steps 4 and 5 of R503): its commands end, UNIT_RESET is sent. -/
def State.assertReset (s : State) (kind unit : Nat) : State :=
  let ended := s.workOn kind unit
  let source := (s.unit kind unit).source
  let part := s.tilePart unit
  let done : Done := { status := if kind = 2 then stTimeout else stEngineReset, result := if kind = 2 then 0 else resetResult kind unit }
  let s := ended.foldl (fun t x => t.endEarly x.1 x.2.num done) s
  let s := s.wipeUnit kind unit
  let s := s.onUnit kind unit (fun u => { u with recov := .recovering, resetAt := s.now })
  let s := { s with health := { s.health with resets := satTo 16 (s.health.resets + 1) } }
  let data := fun (p : Nat) => toLe 1 kind ++ toLe 1 unit ++ toLe 1 source ++ zeros 1 ++
    toLe 4 (ended.filter (fun x => x.1 == p)).length
  let s := if kind = 0 then s.raiseTile unit 0x51 (data part)
    else (((List.range 16).filter (fun p => p != 0 && ended.any (fun x => x.1 == p))).foldl (fun t p => t.raise p 0x51 (data p)) s).raise 0 0x51 (data 0)
  (s.logOpen 12 kind unit (if kind = 0 then part else 0xFF)).countReset kind unit

/-- The engines that load, in the order of their commands (R64). -/
def State.loads (s : State) : List (Nat × Nat) :=
  s.fabric.loads.filter (fun x => s.fabric.tiles.any (fun t => t.st == .loading && t.part == some x.1 && t.engine == some x.2))

/-- The load of an engine's tiles takes its place in that order (R64). -/
def State.queueLoad (s : State) (p i : Nat) : State :=
  { s with fabric := { s.fabric with loads := if s.loads.contains (p, i) then s.loads else s.loads ++ [(p, i)] } }

/-- A recovery ends (R63, R499, R508, R509, R513): the unit is back in service, or fenced when a fence waited or its test
failed. -/
def State.recovered (s : State) (kind unit : Nat) (pass : Bool) (lost : List Nat) : State :=
  let testing := (s.unit kind unit).testing
  let s := s.onUnit kind unit (fun u => { u with recov := .idle, testing := false, cascade := false, hang := [], seenAt := s.now })
  let s := match kind with
    | 0 => (match rimPort unit with | some i => s.channelsLost i lost | none => s)
    | 4 => s.channelsLost unit lost
    | 5 => s.channelsLost (16 + unit) lost
    | _ => s
  let s := if kind = 0 then
      let s := match (s.tile unit).part, (s.tile unit).engine with
        | some p, some i => s.queueLoad p i
        | _, _ => s
      (s.onTile unit (fun x => { x with st := if x.st = .fenced then x.st else if x.fencePending.isSome then .free
                                              else if x.engine.isSome then .loading else .free })).settleFence unit
    else match (s.unit kind unit).fenceWait with
      | some r => s.fenceHub kind unit r
      | none => if testing && pass then s.unfence kind unit else s
  let data := toLe 1 kind ++ toLe 1 unit ++ toLe 1 (if (s.unit kind unit).fenced then 2 else 1)
  if kind = 0 then s.raiseTile unit 0x52 data else s.raise 0 0x52 data

/-! ### Partition reset (R442, R443) -/

/-- What a partition reset leaves of a partition's trust and keys, with a new partition key and memory key (R442). -/
def PartSec.wiped (x : PartSec) (pkey mkey : BitVec 256) : PartSec :=
  { x with
    st := .configured, frozen := false, partKey := pkey.truncate 128, curKey := some mkey, prevKey := none, epoch := 0
    oldFrames := [], retiredFrames := [], content := List.replicate 8 none, loads := [], lastMeas := none
    tdi := if x.secMode = 1 then .unlocked else x.tdi
    session := x.session && x.secMode != 2, handshake := x.handshake && x.secMode != 2
    sealSeq := 1, sealGen := false, sealKey := 0, openKey := 0, openOld := 0, seenSeqs := [] }

/-- What a partition reset leaves of a partition: the configuration and the registers of scope C (R442, R586). -/
def Part.wiped (q : Part) (pkey mkey : BitVec 256) : Part :=
  { sec := q.sec.wiped pkey mkey, pwr := q.pwr
    mem := { corr := q.mem.corr, uncorr := q.mem.uncorr, retired := q.mem.retired }
    hlt := { written := q.hlt.written }
    host := { nextNum := q.host.nextNum } }

/-- Zero every granule that a partition owns (R193, R442). -/
def State.zeroGranules (s : State) (p : Nat) : State :=
  let m := (List.range 144).foldl (fun (m : MemSys) g =>
    if (m.grans.getD g {}).owner = p then m.zero (g * granSize) ((g + 1) * granSize) else m) s.mem
  { s with mem := (List.range 360).foldl (fun (m : MemSys) g =>
    if (m.bulk.getD g {}).owner = p then m.zero (bulkBase + g * granSize) (bulkBase + (g + 1) * granSize) else m) m }

/-- A paired act's partition is reset: an active member drops its line (R546). -/
def State.pairPartReset (s : State) (p : Nat) : State :=
  if s.pair.enable && s.pair.part == p then
    { s with pair := { s.pair with own := false, role := match s.pair.role with
        | .active | .claiming => .standby
        | r => r } }
  else s

/-- A partition reset (R442). -/
def State.resetPart (s : State) (p : Nat) : State :=
  let s := ((s.pairPartReset p).closeChans p stPartitionReset).endAll p stPartitionReset
  let tiles := s.tilesOf p
  let s := tiles.foldl (fun t i => t.freeTile i) s
  let pkey := s.random
  let mkey := s.tick.random
  (((s.onPart p (fun q => q.wiped pkey mkey)).tick).tick).zeroGranules p

/-- A function-level reset of a function whose partition is UNCONFIGURED: its rings and its page (R221). -/
def State.resetPage (s : State) (p : Nat) : State :=
  let s := s.endAll p stPartitionReset
  s.onPart p (fun q => { sec := q.sec, pwr := q.pwr, mem := { corr := q.mem.corr, uncorr := q.mem.uncorr, retired := q.mem.retired },
                         hlt := { written := q.hlt.written }, host := { nextNum := q.host.nextNum } })

/-! ### Module reset and OFF (R491, R583) -/

/-- What flash keeps of a granule (R207, R210). -/
def Granule.saved (g : Granule) : Granule := { retired := g.retired, gone := g.gone }

/-- What a port keeps: its lost slices (flash) and, outside OFF, its O-scope counters; it is in service unless fenced. -/
def MemPort.saved (q : MemPort) (off fenced : Bool) : MemPort :=
  { avail := !fenced, lost := q.lost, chans := q.chans.map (fun _ => {}), corr := if off then 0 else q.corr,
    uncorr := if off then 0 else q.uncorr, forcedUs := if off then 0 else q.forcedUs }

/-- What a tile keeps: it stays FENCED, and outside OFF it keeps its counters (R111, R512, R583). -/
def Tile.saved (x : Tile) (off fenced : Bool) : Tile :=
  let t : Tile := { st := if fenced then .fenced else .free }
  if off then t else { t with
    spCorr := x.spCorr, spUncorr := x.spUncorr, pace := x.pace, beats := x.beats, work := x.work, countedAt := x.countedAt }

/-- What a hot spot keeps: outside OFF all of it but the marks of a trip; the cycle counts are in flash (R173). -/
def HotSpot.saved (h : HotSpot) (off : Bool) : HotSpot :=
  if off then { cycTotal := h.cycTotal, cycHours := h.cycHours, overBudget := h.overBudget }
  else { h with fail0 := false, fail1 := false, diffSince := none, farNoted := false, agreeSince := none, hotSince := none, coolSince := none,
                refresh2x := false, tripped := false }

/-- What a reset unit keeps in flash, and its scores and 24 h history outside OFF (R512, R523, R568). -/
def Unit.retained (u : Unit) (off : Bool) : Unit :=
  let fenced := u.fenced || u.fenceWait.isSome
  if off then { fenced := fenced, resets := u.resets, fails := u.fails, failRow := u.failRow, passedAt := u.passedAt }
  else { fenced := fenced, resets := u.resets, fails := u.fails, failRow := u.failRow, passedAt := u.passedAt,
         overdue := u.overdue, errs := u.errs, score := u.score }

/-- What a link port keeps outside OFF: its O-scope counters. -/
def LinkPort.saved (q : LinkPort) : LinkPort :=
  { crcErr := q.crcErr, replays := q.replays, replayAt := q.replayAt, fecCorr := q.fecCorr, fecUncorr := q.fecUncorr,
    fails := q.fails, retrains := q.retrains }

/-- What a field port keeps outside OFF: its O-scope counters. -/
def FieldPort.saved (q : FieldPort) : FieldPort :=
  { bufFull := q.bufFull, other := q.other, badAt := q.badAt, txDown := q.txDown }

/-- The health state across a module reset or OFF (R509, R512, R568). -/
def Health.saved (h : Health) (tiles : List Tile) (off : Bool) : Health :=
  let units := h.units.zipIdx.map (fun (u : Unit × Nat) =>
    ({ u.1 with fenced := u.1.fenced || (u.2 < 64 && (tiles.getD u.2 {}).fencePending.isSome) } : Unit).retained off)
  if off then { units := units, log := h.log, wear := h.wear }
  else { units := units, log := h.log, wear := h.wear, scoreMin := h.scoreMin, hangs := h.hangs, resets := h.resets,
         dumps := h.dumps, cascades := h.cascades, telemUs := h.telemUs, flashMs := h.flashMs, telemAt := h.telemAt, wearAt := h.wearAt }

/-- The boot state across a module reset or OFF (R478, R486, R491). -/
def Boot.saved (b : Boot) (off : Bool) : Boot :=
  if off then { fw := b.fw, attempts := b.attempts, svcLow := b.svcLow, causes := 0 }
  else { fw := b.fw, attempts := b.attempts, svcLow := b.svcLow, dynAddr := b.dynAddr, eno := b.eno,
         mwl := b.mwl, mrl := b.mrl, eni := b.eni, pendResp := b.pendResp, causes := b.causes &&& 0x7, held := b.held, checkErr := b.checkErr, badCmd := b.badCmd,
         outOfService := b.outOfService, spareEmpty := b.spareEmpty, busPowerAt := b.busPowerAt }

/-- The power state across a module reset or OFF: the rails go off in the order of R140 from where they stand (R491); the closed records
are in flash (R137). -/
def Power.saved (w : Power) (off : Bool) : Power :=
  if off then { pqRing := w.pqRing, busDv := w.busDv, nodeDv := w.nodeDv, prechg := w.prechg, shed := w.shed, rails := w.rails }
  else { pqRing := w.pqRing, pqOpen := w.pqOpen, pqCount := w.pqCount, busDv := w.busDv, powerDw := w.powerDw, nodeDv := w.nodeDv,
         switchOn := w.switchOn, prechg := w.prechg, overvolt := w.overvolt, overAt := w.overAt
         shed := w.shed, shedW := w.shedW, rails := w.rails, report := w.report }

/-- Thermal control across a module reset or OFF: the measured values stay outside OFF (R173, R583). -/
def Thermal.saved (t : Thermal) (off : Bool) : Thermal :=
  let hot := fun (h : HotSpot) => h.saved off
  if off then { tiles := t.tiles.map hot, cycHour := t.cycHour }
  else { tiles := t.tiles.map hot, stackSpots := t.stackSpots.map hot, aux := t.aux.map (fun (a : AuxSpot) => { a with failed := false, tripped := false }), inlet := t.inlet, inletSeen := t.inletSeen, outlet := t.outlet,
         flow := t.flow, flowSrc := t.flowSrc, meterFault := t.meterFault, flowOkAt := t.flowOkAt, cycHour := t.cycHour }

/-- The memory system across a module reset or OFF: its contents are lost, its granules free (R491). -/
def State.memSaved (s : State) (off : Bool) : MemSys :=
  { grans := s.mem.grans.map Granule.saved, bulk := s.mem.bulk.map Granule.saved,
    ports := s.mem.ports.zipIdx.map (fun (q : MemPort × Nat) => q.1.saved off (s.unit 4 q.2).fenced),
    bchans := s.mem.bchans.zipIdx.map (fun (q : MemPort × Nat) => q.1.saved off (s.unit 5 q.2).fenced) }

/-- The monitor across a module reset or OFF (R572, R581). -/
def Monitor.saved (m : Monitor) (off : Bool) : Monitor :=
  if off then { count := m.count }
  else { count := m.count, authFail := m.authFail, actions := m.actions, last := m.last, fails := m.fails, lockUntil := m.lockUntil }

/-- The state with everything at its reset value but what a module reset keeps, or OFF with `off` (R491, R583); the module
state is left to the caller. -/
def State.restart (s : State) (off : Bool) : State :=
  let health := s.health.saved s.fabric.tiles off
  let fenced := fun (i : Nat) => (health.units.getD i {}).fenced
  { now := s.now, fresh := s.fresh, boot := s.boot.saved off, power := s.power.saved off, thermal := s.thermal.saved off
    fabric := { tiles := s.fabric.tiles.zipIdx.map (fun (x : Tile × Nat) => x.1.saved off (fenced x.2)) }
    mem := s.memSaved off
    host := if off then { perst := s.host.perst } else { perst := s.host.perst, rdErr := s.host.rdErr, badAccess := s.host.badAccess }
    sec := if off then {} else { sealed := s.sec.sealed, auto := s.sec.auto, refused := s.sec.refused, requests := s.sec.requests,
                                 restarts := s.sec.restarts }
    health := health
    links := { ports := s.links.ports.zipIdx.map (fun (q : LinkPort × Nat) =>
      { (if off then {} else q.1.saved) with enable := !fenced (72 + q.2) }) }
    field := if off then {} else { ports := s.field.ports.map FieldPort.saved, crcs := s.field.crcs.map (fun c => { checked := c.checked, mismatch := c.mismatch }) }
    video := if off then {} else { cores := s.video.cores.map (fun c => { pics := c.pics, preempts := c.preempts, errors := c.errors }),
                                   pixels := s.video.pixels }
    mon := s.mon.saved off
    pair := if off then {} else { takeovers := s.pair.takeovers, collisions := s.pair.collisions, partner := s.pair.partner,
                                  partnerSeen := s.pair.partnerSeen }
    hostMem := s.hostMem, pending := s.pending }

/-- The S-scope values as they stand, or as they stood before an earlier reset that has not reached step 8 (R583). -/
def State.keptNow (s : State) : Kept :=
  match s.boot.kept with
  | some k => k
  | none => { pairEn := s.links.pairEn, pairPort := s.links.pairPort, enable := s.pair.enable, warm := s.pair.warm,
              part := s.pair.part, engineer := s.mon.engineerEn }

/-- The S-scope registers have back what they held before the reset (R583). -/
def State.writeBack (s : State) : State :=
  match s.boot.kept with
  | none => s
  | some k =>
    { s with
      links := { s.links with pairEn := k.pairEn, pairPort := k.pairPort }
      pair := { s.pair with enable := k.enable, warm := k.warm, part := k.part, role := if k.enable then .standby else s.pair.role }
      mon := { s.mon with engineerEn := k.engineer }
      boot := { s.boot with kept := none } }

/-- A module reset takes effect (R491): start-up stands at the start of GUARD_BOOT. -/
def State.moduleReset (s : State) : State :=
  let k := s.keptNow
  let t := ((List.range 64).foldl State.settleTile s).restart false
  let t := { t with boot := { t.boot with kept := some k, st := s.boot.st } }
  t.setModule .guardBoot

/-- The module is OFF (R133, R142). -/
def State.goOff (s : State) : State :=
  let t := s.restart true
  { t with boot := { t.boot with st := .off } }

/-- MODULE_RESET_PENDING goes out, and the reset takes effect 100 µs later (R472, R491). -/
def State.announceReset (s : State) : State :=
  match s.boot.resetAt with
  | some _ => s
  | none =>
    let at_ := s.now + 100000
    ({ s with boot := { s.boot with resetAt := some at_ } }).raiseLive 0x64 (toLe 8 at_)

/-- The module enters SAFE for a cause (CHN.STATE.SAFE_CAUSE, R498). -/
def State.enterSafe (s : State) (cause : Nat) : State :=
  let s := { s with boot := { s.boot with safeCause := cause } }
  (s.setModule .safe).checkExpel

end Sys2Proof.Machine
end

