-- ==== Sys2Proof/Machine/Health.lean ====
section
/-! DEFINITION. Health (17_health_and_recovery.md): hangs and their attribution (R500 to R502), dumps (R504, R505), resets and
recoveries (R503, R506, R509, R510), striker rounds and memory test slices (R515 to R517), scores (R518, R519), background
tasks (R520), and self-expulsion (R566 to R569). -/

namespace Sys2Proof.Machine

/-! ### Hangs (R500 to R502, R507) -/

/-- How many units of a kind there are (R499). -/
def unitCount (kind : Nat) : Nat :=
  match kind with
  | 0 => 64 | 1 => 8 | 2 => 8 | 3 => 2 | 4 => 16 | 5 => 8 | _ => 0

/-- The unit made progress within the last hang window, as far as the model sees it (R500, R501). -/
def State.moving (s : State) (kind unit : Nat) : Bool := s.now < (s.unit kind unit).seenAt + s.health.windowMs * 1000000

/-- The faulting unit of R501, from the chain of units that hold the oldest handshakes; each with whether it made progress. -/
def State.blame (s : State) (u f : Nat × Nat) : Nat → List (Nat × Nat × Bool) → Nat × Nat
  | 0, _ => f
  | _, [] => f
  | steps + 1, w :: ws =>
    if w.2.2 || s.moving w.1 w.2.1 || (w.1, w.2.1) == u then f else s.blame u (w.1, w.2.1) steps ws

/-- The unit has pending work (R500). -/
def State.hasWork (s : State) (kind unit : Nat) : Bool :=
  match kind with
  | 0 => !(s.tile unit).items.isEmpty ||
    (s.mem.waiting ++ s.mem.queued.flatten ++ s.mem.edge.map Prod.fst).any (fun x => x.src == some unit)
  | 1 => (s.video.cores.getD unit {}).item.isSome
  | 2 => (s.lp unit).st == .up && !(s.lp unit).txWait.isEmpty && (s.lp unit).credits != (0, 0, 0)
  | 3 => (s.fp unit).up && !(s.fp unit).txq.isEmpty
  | 4 => !(s.mem.queued.getD unit []).isEmpty || !(s.mem.cross.getD unit {}).inward.isEmpty
  | _ => !(s.mem.queued.getD (16 + unit) []).isEmpty

/-- The clocked domain at whose crossing the last unit of the chain waits, where it has lost lock (R126). -/
def State.lostAt (s : State) (h : HangReport) : Option Nat :=
  match h.last with
  | .crossing n => if n < 26 && !s.clockUp n then some n else none
  | _ => none

/-- A transaction of tile t has waited at an unavailable router for longer than the hang window (R181). -/
def State.routerHang (s : State) (t : Nat) : Bool :=
  s.mem.waiting.any (fun x => x.src == some t && x.issued + s.health.windowMs * 1000000 < s.now)

/-- The unit is excused (R500): a tile whose domain is not in RUN or whose partition is paused, a unit whose oldest wait is on one
that is resetting or recovering, at the crossing of a domain that has lost lock, at an unavailable router, or for a collective
partner's data on a port that is UP or RETRAINING, and a port in self-refresh or whose clock stands. -/
def State.excused (s : State) (h : HangReport) : Bool :=
  (h.kind == 0 && ((s.dom (domOfTile h.unit)).st != .run ||
    (match (s.tile h.unit).part with | some p => (s.part p).pwr.paused | none => false))) ||
  (h.kind == 4 && s.mem.asleep.isSome) || (h.kind == 5 && s.mem.bulkAsleep.isSome) ||
  (match h.waits with
   | w :: _ => (s.unit w.1 w.2.1).recov != .idle
   | [] =>
     match h.last with
     | .own => false
     | .crossing _ => (s.lostAt h).isSome
     | .router => !(h.kind == 0 && s.routerHang h.unit)
     | .partner n => (s.lp n).st == .up || (s.lp n).st == .retraining)

/-- CAUSE of a hang (R502). -/
def State.hangCause (s : State) (h : HangReport) : Nat :=
  if (s.lostAt h).isSome then 2 else if h.waits.isEmpty && h.last == .router then 3 else 1

/-- The reset unit of a clocked domain that names the hangs at its crossings (R502, R510). -/
def lockUnit (n : Nat) : Option (Nat × Nat) :=
  if 1 ≤ n ∧ n ≤ 8 then some (2, n - 1)
  else if n = 9 ∨ n = 10 then some (3, n - 9)
  else if 11 ≤ n ∧ n ≤ 16 then some (0, 8 * (n - 10))
  else if n = 17 then some (4, 0)
  else if n = 18 then some (5, 0)
  else if n = 20 then some (1, 0)
  else none

/-- The descriptor of a hang (R502): the one whose work item f holds, or the earliest started with work at f. -/
def State.hangContext (s : State) (kind unit : Nat) : Option (Nat × Desc) :=
  let held := if kind = 0 then
      (match (s.tile unit).items with
       | x :: _ => (s.desc? x.1 x.2).map (fun d => (x.1, d))
       | [] => none)
    else none
  held <|> (s.workOn kind unit).foldl (fun (a : Option (Nat × Desc)) x =>
    match a with
    | none => some x
    | some y => if x.2.startedAt.getD 0 < y.2.startedAt.getD 0 then some x else some y) none

/-- DATA of HANG (R502). -/
def hangData (f : Nat × Nat) (c : Option (Nat × Desc)) (cause : Nat) (parent : Option (Nat × Nat)) : List Byte :=
  let mid := match c with
    | some (_, d) =>
      toLe 1 (if d.engineRun then d.engine else 0xFF) ++
      (match d.act with
       | some (n, _, i) => toLe 1 (0x80 + n) ++ toLe 2 i
       | none => toLe 1 d.sq ++ toLe 2 d.slot) ++
      toLe 1 d.op ++ toLe 1 cause ++ toLe 4 d.tag
    | none => [0xFF#8, 0xFF#8] ++ zeros 3 ++ toLe 1 cause ++ zeros 4
  toLe 1 f.1 ++ toLe 1 f.2 ++ mid ++ (match parent with
    | some q => toLe 1 1 ++ toLe 1 q.1 ++ toLe 1 q.2
    | none => zeros 3) ++ zeros 1

/-- HANG goes to the context's partition, or else the tile's, and to the physical function, whose copy says nothing of the
commands of a protected partition (R502). -/
def State.raiseHang (s : State) (p : Option Nat) (data : List Byte) : State :=
  match p with
  | none => s.raise 0 0x50 data
  | some p =>
    let pf := if (s.part p).sec.secMode = 0 then data else overlay data 2 (zeros 10)
    if p = 0 then s.raise 0 0x50 data else (s.raise p 0x50 data).raisePf p 0x50 pf

/-- HANG of a hang whose faulting unit is `f` (R502). -/
def State.sendHang (s : State) (f : Nat × Nat) (cause : Nat) (parent : Option (Nat × Nat)) : State :=
  let c := s.hangContext f.1 f.2
  let part := match c with
    | some x => some x.1
    | none => if f.1 = 0 then (s.tile f.2).part else none
  s.raiseHang part (hangData f c cause parent)

/-- A hang is declared on `f` (R501 to R503): steps 1 and 2 of the timeline. -/
def State.declareHang (s : State) (f : Nat × Nat) (cause : Nat) (parent : Option (Nat × Nat)) : State :=
  let c := s.hangContext f.1 f.2
  let part := match c with
    | some x => some x.1
    | none => if f.1 = 0 then (s.tile f.2).part else none
  let data := hangData f c cause parent
  let s := { s with health := { s.health with
    hangs := satTo 16 (s.health.hangs + 1), cascades := satTo 16 (s.health.cascades + b2n parent.isSome) } }
  let s := (s.raiseHang part data).logHealth 11 f.1 f.2 (part.getD 0xFF) (match parent with | some q => q.1 + 256 * q.2 | none => 0)
  s.requestReset f.1 f.2 1 data parent.isSome false

/-- The reset that caused a hang (R507): the one that cut off a transaction of a tile, or else the unit that the report names, if it has
been reset. -/
def State.parentOf (s : State) (h : HangReport) : Option (Nat × Nat) :=
  ((if h.kind = 0 then s.mem.edge.find? (fun x => x.1.src == some h.unit) else none).map Prod.snd) <|>
    h.parent.bind (fun q => if q.1 ≤ 5 && q.2 < unitCount q.1 && (s.unit q.1 q.2).source != 0 then some q else none)

/-- PROGRESS_WATCHDOG_EXPIRY (R500, R501): the watchdog of a unit with pending work, and not excused, reaches the hang window. A hang
at a crossing that lost lock is merged into its domain's reset (R510), one within 1 ms of another on the same unit is part of that
declaration, and one on a unit that resets or recovers adds nothing (R501). -/
def execProgressWatchdogExpiry (h : HangReport) (s : State) : Host.Outcome State Fault Refusal :=
  let f := match (s.lostAt h).bind lockUnit with
    | some g => g
    | none => s.blame (h.kind, h.unit) (h.kind, h.unit) 8 h.waits
  let u := s.unit f.1 f.2
  .next (if h.unit ≥ unitCount h.kind || f.2 ≥ unitCount f.1 || s.moving h.kind h.unit || !s.hasWork h.kind h.unit ||
      s.excused h || u.fenced then s
    else if u.recov != .idle then
      (if (s.lostAt h).isSome || (u.recov == .dumping && u.source == 1 && s.now ≤ u.declaredAt + 1000000) then
        (s.sendHang f (s.hangCause h) (s.parentOf h)).progress h.kind h.unit
      else s)
    else (s.declareHang f (s.hangCause h) (s.parentOf h)).progress h.kind h.unit)

/-! ### Dumps (R504, R505) -/

/-- The 32-bit pattern of an unreadable read (R504), over `n` bytes. -/
def unreadable (n : Nat) : List Byte := (List.range n).map (fun i => BitVec.ofNat 8 (0xF00DDEAD / 256 ^ (i % 4)))

/-- Bytes cut or padded with zeros to a length. -/
def fitTo (n : Nat) (bs : List Byte) : List Byte := bs.take n ++ zeros (n - bs.length)

/-- A state block as the dump records it. -/
def stateBlock (bad : Bool) (n : Nat) (bs : List Byte) : List Byte := if bad then unreadable n else fitTo n bs

/-- The header of a dump record (R505). -/
def dumpHead (number count kind time mask : Nat) (faulting : Bool) (hang : List Byte) : List Byte :=
  toLe 4 0x44554D50 ++ toLe 1 number ++ toLe 1 (b2n faulting) ++ toLe 1 count ++ toLe 1 kind ++ toLe 8 time ++ fitTo 16 hang ++
    toLe 4 (mask % 2 ^ 18) ++ zeros 28

/-- The tiles that a dump covers, ascending (R504). -/
def State.dumpTiles (s : State) (kind unit : Nat) : List Nat :=
  if kind ≠ 0 then []
  else match (s.tile unit).part, (s.tile unit).engine with
    | some p, some i => (match s.engine? p i with
        | some e => e.tiles.filter (fun t => (s.tile t).engine == some i)
        | none => [unit])
    | _, _ => [unit]

/-- One tile's record for the partition area (R505). -/
def State.tileRecord (s : State) (unit : Nat) (x : Nat × List Byte × List Byte × Nat) (h : PartHlt) : List Byte :=
  let u := s.unit 0 unit
  let mask := x.2.2.2
  dumpHead x.1 h.count 0 u.declaredAt mask (x.1 == unit) u.hang ++ stateBlock (bitOf mask 16) 1024 x.2.1 ++
    stateBlock (bitOf mask 17) 512 x.2.2.1 ++ zeros 2496 ++
    (List.range h.count).flatMap (fun i =>
      if bitOf mask i then unreadable 4096
      else s.mem.cells.read (winBase + x.1 * 0x1000000 + (h.start + i * h.stride) % 1024 * 4096) 4096)

/-- One tile's record for the module area; a protected partition shows its header only, without the hang (R505). -/
def State.moduleRecord (s : State) (unit : Nat) (x : Nat × List Byte × List Byte × Nat) : List Byte :=
  let u := s.unit 0 unit
  let mask := x.2.2.2
  let hidden := match (s.tile x.1).part with | some p => (s.part p).sec.secMode != 0 | none => false
  dumpHead x.1 0 0 u.declaredAt mask (x.1 == unit) (if hidden then [] else u.hang) ++
    (if hidden then zeros 1536 else stateBlock (bitOf mask 16) 1024 x.2.1 ++ stateBlock (bitOf mask 17) 512 x.2.2.1) ++ zeros 448

/-- A hub unit's record (R505). -/
def State.hubRecord (s : State) (kind unit : Nat) (block : Option (List Byte)) : List Byte :=
  let u := s.unit kind unit
  dumpHead unit 0 kind u.declaredAt (if block.isNone then 2 ^ 16 else 0) true u.hang ++
    stateBlock block.isNone 1024 (block.getD []) ++ zeros 960

/-- Write records in turn into an area of 2^log2 slots from slot `next` on: the state and the next slot. -/
def State.dumpTo (s : State) (p va size log2 next : Nat) (recs : List (List Byte)) : State × Nat :=
  recs.foldl (fun (a : State × Nat) r => (a.1.tryWriteVa p (va + a.2 * size) r, (a.2 + 1) % 2 ^ log2)) (s, next % 2 ^ log2)

/-- An area of device memory translates for writing (R505). -/
def State.areaWritable (s : State) (p va len : Nat) : Bool :=
  match s.resolve p none 0 va len true with
  | .ok _ => true
  | .error _ => false

/-- The partition part of a dump: the state, the records written, the first slot, and whether the area is unusable. -/
def State.dumpPart (s : State) (p : Nat) (recs : List (List Byte)) : State × Nat × Nat × Bool :=
  let h := (s.part p).hlt
  if !h.dumpEn then (s, 0, 0, false)
  else if !s.areaWritable p h.dump (2 ^ h.slots * 69632) then (s, 0, 0, true)
  else
    let x := s.dumpTo p h.dump 69632 h.slots h.next recs
    (x.1.onPart p (fun q => { q with hlt := { q.hlt with next := x.2, written := satTo 16 (q.hlt.written + recs.length) } }),
      recs.length, h.next % 2 ^ h.slots, false)

/-- The module part of a dump. -/
def State.dumpModule (s : State) (recs : List (List Byte)) : State × Nat × Nat :=
  let h := s.health
  if !h.pfDumpEn || !s.areaWritable 0 h.pfDump (2 ^ h.pfSlots * 2048) then (s, 0, 0)
  else
    let x := s.dumpTo 0 h.pfDump 2048 h.pfSlots h.pfNext recs
    ({ x.1 with health := { x.1.health with pfNext := x.2 } }, recs.length, h.pfNext % 2 ^ h.pfSlots)

/-- The dump is written and DUMP_DONE is sent (R505). -/
def State.writeDump (s : State) (kind unit : Nat) (r : DumpRead) : State :=
  let part := if kind = 0 then (s.tile unit).part else none
  let recs := if kind = 0 then r.tiles.map (fun x => s.moduleRecord unit x) else [s.hubRecord kind unit r.block]
  let a := match part with
    | some p => s.dumpPart p (r.tiles.map (fun x => s.tileRecord unit x (s.part p).hlt))
    | none => (s, 0, 0, false)
  let b := a.1.dumpModule recs
  let t := { b.1 with health := { b.1.health with dumps := satTo 16 (b.1.health.dumps + 1) } }
  let bad := if kind = 0 then r.tiles.any (fun x => x.2.2.2 % 2 ^ 18 != 0) else r.block.isNone
  let counts := if part.isSome then (a.2.1, a.2.2.1) else (b.2.1, b.2.2)
  let data := toLe 1 kind ++ toLe 1 unit ++ toLe 1 counts.1 ++ toLe 1 (b2n bad + 2 * b2n a.2.2.2) ++ toLe 2 counts.2
  if kind = 0 then t.raiseTile unit 0x53 data else t.raise 0 0x53 data

/-- DUMP_COMPLETE (R504, R506): the dump of every tile of the engine is written, then the reset is asserted. -/
def execDumpComplete (kind unit : Nat) (r : DumpRead) (s : State) : Host.Outcome State Fault Refusal :=
  .next (if unit ≥ unitCount kind || (s.unit kind unit).recov != .dumping || r.tiles.map Prod.fst != s.dumpTiles kind unit then s
    else (s.writeDump kind unit r).assertReset kind unit)

/-! ### Resets and recoveries (R503, R509, R510, R513) -/

/-- A request through HLT.RESET (R503, R513): a fenced unit other than a tile only with UNFENCE, a fenced tile never. -/
def State.writeHltReset (s : State) (v : Nat) : State :=
  let kind := bitsOf v 10 8
  let unit := bitsOf v 5 0
  if !bitOf v 31 || unit ≥ unitCount kind then s
  else if (s.unit kind unit).fenced then
    (if bitOf v 30 && kind != 0 then s.requestReset kind unit 3 [] false true else s)
  else s.requestReset kind unit 3 [] false false

/-- HLT_RESET_WRITE (R503). -/
def execHltResetWrite (v : Word) (s : State) : Host.Outcome State Fault Refusal :=
  .next (if s.boot.stepEight then s.wakeDeep.writeHltReset v.toNat else s)

/-- A clocked domain is locked again. -/
def State.relock (s : State) (n : Nat) : State :=
  { s with fabric := { s.fabric with locked := s.fabric.locked ||| BitVec.ofNat 26 (1 <<< n) } }

/-- RECOVERY_COMPLETE (R499): a tile recovers with its domain in RUN. -/
def execRecoveryComplete (kind unit : Nat) (r : RecoveryReport) (s : State) : Host.Outcome State Fault Refusal :=
  .next (if unit ≥ unitCount kind || (s.unit kind unit).recov != .recovering ||
      (kind == 0 && (s.dom (domOfTile unit)).st != .run) then s
    else
      let t := s.recovered kind unit r.pass r.lost
      match clockOf kind unit with
      | some n => t.relock n
      | none => t)

/-- The recovery bound of R499 in ns. -/
def recoveryNs (kind unit : Nat) : Nat :=
  match kind with
  | 0 => if (rimPort unit).isSome then 3500000000 else if [8, 16, 24, 32, 40, 48].contains unit then 1400000000 else 1200000000
  | 1 => 400000000
  | 2 => 2800000000
  | 3 => 1500000000
  | 4 => 3300000000
  | _ => 2000000000

/-- The wake bound of a power state in ns (R150). -/
def PState.wakeNs : PState → Nat
  | .run => 0 | .hold => 2000 | .rest => 120000 | .dark => 35000000 | .deep => 9000000000

/-- The partitions that hold a reset unit: the tile's, the port's, or the one that a core is reserved for. -/
def State.holders' (s : State) (kind unit : Nat) : List Nat :=
  match kind with
  | 0 => (s.tile unit).part.toList
  | 1 => (List.range 16).filter (fun p => (s.part p).sec.codecCores.getLsbD unit)
  | 2 => if (s.lp unit).owner < 16 then [(s.lp unit).owner] else []
  | _ => []

/-- RECOVERY_OVERDUE (R509): the unit is fenced with reason 3, and a partition that holds it has a fault (R511). -/
def execRecoveryOverdue (kind unit : Nat) (s : State) : Host.Outcome State Fault Refusal :=
  let u := s.unit kind unit
  let wake := if kind = 0 then (s.dom (domOfTile unit)).st.wakeNs else 0
  .next (if unit ≥ unitCount kind || u.recov != .recovering || s.now < u.resetAt + 2 * (recoveryNs kind unit + wake) then s
    else
      let held := s.holders' kind unit
      let s := s.onUnit kind unit (fun x => { x with recov := .idle, testing := false, cascade := false })
      let s := s.logOpen 14 kind unit (if kind = 0 then s.tilePart unit else 0xFF)
      let s := if u.fenced then s
        else if kind = 0 then (s.onTile unit (fun x => { x with fencePending := none })).fenceTile unit 3
        else s.fenceHub kind unit 3
      held.foldl (fun t p => t.faultPart p) s)

/-- The steward stops (R452, R572): its heartbeats, keep-warm and the monitor's sessions end. -/
def State.stopSteward (s : State) : State :=
  { s with
    sec := { s.sec with steward := false }
    thermal := { s.thermal with keepSuspended := true }
    boot := { s.boot with causes := s.boot.causes &&& 0x17 }
    mon := { s.mon with service := {}, relay := {}, baud := 115200, nextBaud := none, challenge := none } }

/-- The guard restarts the steward (R452). -/
def State.restartSteward (s : State) : State :=
  if s.sec.steward then
    let s := s.stopSteward
    ({ s with sec := { s.sec with restarts := satTo 16 (s.sec.restarts + 1) } }).logOpen 10 0xFF 0 0xFF
  else s

/-- The guard's action when a clocked domain loses lock (R510). -/
def State.lockAction (s : State) (n : Nat) : State :=
  let all := fun (kind : Nat) => (List.range (unitCount kind)).foldl (fun (t : State) u =>
    if (t.unit kind u).fenced then t else t.requestReset kind u 5 [] false false) s
  let one := fun (kind unit : Nat) => if (s.unit kind unit).fenced then s else s.requestReset kind unit 5 [] false false
  if n = 0 then (if s.host.up then s.linkDown else s)
  else if n ≤ 8 then one 2 (n - 1)
  else if n ≤ 10 then one 3 (n - 9)
  else if n ≤ 16 then one 0 (8 * (n - 10))
  else if n = 17 then all 4
  else if n = 18 then all 5
  else if n = 20 then all 1
  else if n = 22 then s.restartSteward
  else if n = 23 then
    let was := s.field.ptpState
    let t := { s with host := { s.host with ptmOffsets := [] }, field := { s.field with offsets := [] } }
    if was = t.field.ptpState then t else t.raise 0 0x91 (toLe 1 t.field.ptpState ++ zeros 7 ++ toLe 8 t.field.clockId)
  else if n = 24 then s.relock 24
  else s.announceReset

/-- CLOCK_LOCK_LOSS (R126, R510). -/
def execClockLockLoss (n : Nat) (s : State) : Host.Outcome State Fault Refusal :=
  .next (if n ≥ 26 then s else
    let bit := BitVec.ofNat 26 (1 <<< n)
    let s := { s with fabric := { s.fabric with locked := s.fabric.locked &&& ~~~bit, lockLoss := s.fabric.lockLoss ||| bit } }
    (s.logOpen 7 0xFF n 0xFF).lockAction n)

/-! ### Continuous self-test (R515 to R517) -/

/-- The test area of a tile, as first address and length (R515). -/
def State.testArea (s : State) (t : Nat) : Nat × Nat :=
  if (s.tile t).st = .idle then (winBase + t * 0x1000000 + 0x3C0000, 0x40000) else (winBase + t * 0x1000000, 0x400000)

/-- A tile may be tested (R516). -/
def State.testable (s : State) (t : Nat) : Bool :=
  t < 64 && (s.unit 0 t).recov == .idle && !(s.unit 0 t).striking && (s.dom (domOfTile t)).st == .run &&
  (match (s.tile t).st with
   | .free | .fenced => true
   | .idle => (s.tile t).items.isEmpty
   | _ => false)

/-- A range of device memory by physical address holds undefined bytes. -/
def State.spoilPa (s : State) (pa len : Nat) : State :=
  let new := (s.mem.cells.read pa len).zipIdx.map (fun b => Config.spoiled (s.fresh + b.2) b.1)
  { s with mem := { s.mem with cells := s.mem.cells.write pa new }, fresh := s.fresh + len }

/-- STRIKER_ROUND_START (R516): on an engine's tile the test area is saved first; on a FREE or FENCED tile the whole scratchpad
holds what the march pattern leaves. -/
def execStrikerRoundStart (t : Nat) (s : State) : Host.Outcome State Fault Refusal :=
  .next (if s.testable t && (s.health.striker || s.thermal.keepWarm || (s.unit 0 t).queued) then
    let a := s.testArea t
    let idle := (s.tile t).st == .idle
    let kept := if idle then some (s.mem.cells.read a.1 a.2) else none
    (if idle then s else s.spoilPa a.1 a.2).onUnit 0 t (fun u => { u with striking := true, queued := false, saved := kept })
    else s)

/-- The test area after a round: an engine's tile has back what was saved. -/
def State.endRound (s : State) (t : Nat) : State :=
  (s.untest t).onUnit 0 t (fun u => { u with striking := false })

/-- The lowest-numbered test of a mask of failed tests, 1 to 6 (R522). -/
def lowestTest (mask : Nat) : Nat := ((List.range 6).find? (fun i => mask.testBit i)).getD 0 + 1

/-- A round passes. -/
def State.roundPassed (s : State) (kind unit : Nat) : State :=
  s.onUnit kind unit (fun u => { u with failRow := 0, passedAt := s.now, overdue := false })

/-- A round or memory test slice fails (R517): SELFTEST_FAIL, then a reset, or a fence at the second in a row. -/
def State.roundFailed (s : State) (kind unit : Nat) (test mask : Nat) : State :=
  let data := toLe 1 kind ++ toLe 1 unit ++ toLe 1 test ++ toLe 1 mask ++ zeros 4 ++ toLe 8 (s.unit kind unit).passedAt
  let s := s.onUnit kind unit (fun u => { u with fails := s.now :: u.fails, failRow := u.failRow + 1 })
  let s := if kind = 0 then s.raiseTile unit 0x57 data else s.raise 0 0x57 data
  if (s.unit kind unit).fenced then s
  else if (s.unit kind unit).failRow ≥ 2 then s.fenceUnit kind unit 2
  else (s.requestReset kind unit 2 [] false false).onUnit kind unit (fun u => { u with queued := kind == 0 })

/-- STRIKER_ROUND_DONE (R515, R517). -/
def execStrikerRoundDone (t failed : Nat) (s : State) : Host.Outcome State Fault Refusal :=
  .next (if t ≥ 64 || !(s.unit 0 t).striking then s
    else
      let s := s.endRound t
      if failed % 64 = 0 then s.roundPassed 0 t else s.roundFailed 0 t (lowestTest failed) (failed % 64))

/-- STRIKER_OVERDUE (R516). -/
def execStrikerOverdue (t : Nat) (s : State) : Host.Outcome State Fault Refusal :=
  .next (if t ≥ 64 || (s.unit 0 t).overdue || s.now < (s.unit 0 t).passedAt + 7 * dayNs then s
    else (s.onUnit 0 t (fun u => { u with overdue := true })).raise 0 0x5A (toLe 1 t))

/-- A slice of a port backs no granule and is not lost (R189, R204). -/
def State.sliceFree (s : State) (i slice : Nat) : Bool :=
  !(s.mem.port i).lost.contains slice &&
  (if i < 16 then slice < 144 && !s.mem.grans.any (fun g => g.slices.contains (i, slice))
   else slice < 360 && !s.mem.bulk.any (fun g => g.slices.contains (i - 16, slice)))

/-- MEMORY_TEST_SLICE (R516, R517): `port` 0 to 15 is MP0 to MP15, 16 to 23 BC0 to BC7. -/
def execMemoryTestSlice (port slice : Nat) (pass : Bool) (s : State) : Host.Outcome State Fault Refusal :=
  let kind := if port < 16 then 4 else 5
  let unit := if port < 16 then port else port - 16
  let u := s.unit kind unit
  .next (if port ≥ 24 || !(s.mem.port port).avail || u.recov != .idle || !s.sliceFree port slice ||
      (match u.testedAt with | some t => decide (s.now < t + 3600000000000) | none => false) then s
    else
      let s := s.onUnit kind unit (fun x => { x with testedAt := some s.now })
      if pass then s.roundPassed kind unit else s.roundFailed kind unit 7 0)

/-! ### Scores and expulsion (R518, R519, R566 to R569) -/

/-- What lies outside every counting window is dropped. -/
def State.pruneHealth (s : State) : State :=
  let young := fun (w : Nat) (l : List Nat) => l.filter (fun t => t + w > s.now)
  let win := Nat.max dayNs (s.health.fenceH * 3600000000000)
  { s with
    health := { s.health with units := s.health.units.map (fun (u : Unit) => { u with
      resets := young win u.resets, fails := young dayNs u.fails, errs := u.errs.filter (fun x => x.1 + dayNs > s.now) }) }
    links := { s.links with ports := s.links.ports.map (fun (q : LinkPort) => { q with replayAt := young dayNs q.replayAt }) }
    field := { s.field with ports := s.field.ports.map (fun (q : FieldPort) => { q with badAt := young dayNs q.badAt }) } }

/-- SCORE_RECOMPUTE (R518). -/
def execScoreRecompute (s : State) : Host.Outcome State Fault Refusal := .next (s.pruneHealth.reviewHealth false)

/-- A write of HLT.EXPEL (R568, R569). -/
def State.writeExpel (s : State) (v : Nat) : State :=
  if bitsOf v 9 0 > 1000 then s
  else
    let s := { s with health := { s.health with expelThresh := bitsOf v 9 0 } }
    if bitOf v 30 && s.expelWhy.isNone then { s with health := { s.health with expelled := false, expelCause := 0 } } else s.checkExpel

/-- EXPEL_CLEAR (R568): CLEAR written with THRESH as it stands. -/
def execExpelClear (s : State) : Host.Outcome State Fault Refusal :=
  .next (if s.boot.stepEight then s.wakeDeep.writeExpel (2 ^ 30 + s.health.expelThresh) else s)

/-! ### Background tasks (R520) -/

/-- CHN.SERVICE.STAGING: an FW_STAGE is incomplete (R498). -/
def State.staging (s : State) : Bool := (s.part 0).fetched.any (fun d => isOp 0x98 d && d.startedAt.isSome)

/-- Wear levelling has been deferred for 24 h (R520). -/
def State.wearDue (s : State) : Bool := s.health.wearAt + dayNs ≤ s.now

/-- FLASH_WEAR_LEVEL (R520): one sector moved and erased, never during FW_STAGE; the `ms` that it took count when it is forced. -/
def execFlashWearLevel (ms : Nat) (s : State) : Host.Outcome State Fault Refusal :=
  .next (if s.staging then s
    else { s with health := { s.health with
      wear := s.health.wear + 1
      wearAt := s.now
      flashMs := if s.wearDue then satTo 16 (s.health.flashMs + ms) else s.health.flashMs } })

/-- The side debug path is in use for a dump (R504). -/
def State.dumping (s : State) : Bool := s.health.units.any (fun u => u.recov == .dumping)

/-- The telemetry sweep has been deferred for 10 s (R520). -/
def State.sweepDue (s : State) : Bool := s.health.telemAt + 10000000000 ≤ s.now

/-- TELEMETRY_SWEEP (R520): it gives way to dumps until it is forced, and at most 200 µs count as forced. -/
def execTelemetrySweep (us : Nat) (s : State) : Host.Outcome State Fault Refusal :=
  .next (if s.dumping && !s.sweepDue then s
    else { s with health := { s.health with
      telemAt := s.now
      telemUs := if s.sweepDue then s.health.telemUs + Nat.min us 200 else s.health.telemUs } })

end Sys2Proof.Machine
end

