-- ==== Sys2Proof/Machine/Mesh.lean ====
section
/-! DEFINITION. The mesh and the memory ports (R177 to R186, R192), memory errors and retired frames (R202 to R204), scrub
and recalibration (R205, R206), and the translation caches (R200, R201, R604). -/

namespace Sys2Proof.Machine

/-! ### Transactions under way (R177, R180, R181, R184, R185) -/

/-- Every transaction that is issued and not answered. -/
def MemSys.outstanding (m : MemSys) : List Txn :=
  m.waiting ++ m.flights.map Flight.txn ++ m.cross.flatMap (fun c => c.inward.map Flight.txn ++ c.outward.map Flight.txn) ++
    m.queued.flatten ++ m.edge.map Prod.fst

/-- The first number, from `n` on, that is not among those used. -/
def firstFree (used : List Nat) : Nat → Nat → Nat
  | 0, n => n
  | fuel + 1, n => if used.contains n then firstFree used fuel (n + 1) else n

/-- The transaction number of a new transaction of a source: the lowest that none of its outstanding ones holds (R177). -/
def MemSys.nextNum (m : MemSys) (src : Option Nat) : Nat :=
  let used := (m.outstanding.filter (fun t => t.src == src)).map Txn.num
  firstFree used used.length 0

/-- A source can issue one more: 4,096 for a tile's mover (R57), 1,024 of hub units at one gate port (R185). -/
def MemSys.mayIssue (m : MemSys) (t : Txn) : Bool :=
  let mine := m.outstanding.filter (fun x => x.src == t.src)
  match t.src, t.gate with
  | some _, _ => mine.length < 4096
  | none, some g => (mine.filter (fun x => x.gate == some g)).length < 1024
  | none, none => true

/-- Flits of what goes on the data plane: a write's data, or a read's response; one place for a request word or an
acknowledgement. -/
def Flight.bytes (f : Flight) : Nat := if (f.txn.op == .write) != f.back then f.txn.len else 1

/-- The entries that a crossing of entries of `size` bytes holds (R125). -/
def entriesOf (size : Nat) (l : List Flight) : Nat := l.foldl (fun a f => a + cdiv f.bytes size) 0

/-- Change crossing `i`: those of the memory ports first, then those of the gate ports. -/
def State.onCross (s : State) (i : Nat) (f : Crossing → Crossing) : State :=
  { s with mem := { s.mem with cross := updAt s.mem.cross i f } }

/-- Crossing `i`. -/
def State.crossing (s : State) (i : Nat) : Crossing := s.mem.cross.getD i {}

/-- It waits where it is, at a router or for room at its destination. -/
def State.holdFlight (s : State) (f : Flight) : State := { s with mem := { s.mem with flights := s.mem.flights ++ [f] } }

/-- A response reaches its source. -/
def State.deliver (s : State) (t : Txn) : State :=
  let s := match t.src with
    | some k => s.progress 0 k
    | none => s
  { s with mem := { s.mem with answered := (t :: s.mem.answered).take 4096 } }

/-- A refusal under R184: MEM_DENIED goes out. -/
def State.denied (s : State) (t : Txn) : State := s.raisePf t.tag 0x43 (toLe 5 t.pa ++ toLe 1 t.tag ++ toLe 1 (srcCode t.src))

/-- The gate port comes before the mesh on this way: from a hub unit, or the response to a tile from the bulk tier. -/
def Flight.gateFirst (f : Flight) : Bool := f.txn.gate.isSome && (f.txn.src.isNone != f.back)

/-- The gate port comes after the mesh on this way. -/
def Flight.gateLast (f : Flight) : Bool := f.txn.gate.isSome && (f.txn.src.isSome != f.back)

/-- The routers in order on the way of a transaction or of its response, which returns by the reverse of its route (R180). -/
def Flight.way (f : Flight) : List Nat := if f.back then f.txn.route.reverse else f.txn.route

/-- A response that leaves its port, bulk channel or window: by its gate port where that comes first, then over the mesh; at its end
it is delivered. A response whose way is held waits (R124, R180, R181). -/
def State.back (s : State) (t : Txn) (rest : List Nat) (crossed : Bool) : State :=
  let f : Flight := { txn := t, rest := rest, back := true }
  let g := t.gate.getD 0
  if f.gateFirst && !crossed && !s.gatePasses g then
    if entriesOf 256 ((s.crossing (16 + g)).outward ++ [f]) ≤ 64 then s.onCross (16 + g) (fun c => { c with outward := c.outward ++ [f] })
    else s.holdFlight f
  else
    let rest := rest.dropWhile s.routerUp
    if !rest.isEmpty then s.holdFlight { f with rest := rest }
    else if f.gateLast && !s.gatePasses g then
      if entriesOf 256 ((s.crossing (16 + g)).inward ++ [f]) ≤ 64 then
        s.onCross (16 + g) (fun c => { c with inward := c.inward ++ [{ f with rest := [] }] })
      else s.holdFlight { f with rest := [] }
    else s.deliver t

/-- The response to a transaction. -/
def State.sendBack (s : State) (t : Txn) : State := s.back t t.route.reverse false

/-- A transaction at its destination: refused under R184, taken into the queue, or held while a memory port's scheduler has 1,024
(R185). -/
def State.arrive (s : State) (t : Txn) : State :=
  if !s.admits t.tag t.pa then (s.denied t).sendBack { t with data := [], refused := true }
  else
    let i := s.queueOf t.pa
    if i < 16 && (s.mem.queued.getD i []).length ≥ 1024 then s.holdFlight { txn := t, rest := [] }
    else { s with mem := { s.mem with queued := updAt s.mem.queued i (fun q => q ++ [t]) } }

/-- A transaction goes on over the mesh from the routers that it has passed, and by its gate port where that comes last (R124,
R181, R185). -/
def State.travel (s : State) (t : Txn) (rest : List Nat) : State :=
  let rest := rest.dropWhile s.routerUp
  let f : Flight := { txn := t, rest := rest }
  let g := t.gate.getD 0
  if !rest.isEmpty then s.holdFlight f
  else if f.gateLast && !s.gatePasses g then
    if entriesOf 256 ((s.crossing (16 + g)).inward ++ [f]) ≤ 64 then s.onCross (16 + g) (fun c => { c with inward := c.inward ++ [f] })
    else s.holdFlight f
  else s.arrive t

/-- A transaction leaves its source, is refused, or waits there (R124, R181, R184, R185). -/
def State.launch (s : State) (t : Txn) : State :=
  let wait := { s with mem := { s.mem with waiting := s.mem.waiting ++ [t] } }
  match s.goes t with
  | .waits => wait
  | .refused => (s.denied t).deliver { t with data := [], refused := true }
  | .reaches _ alt route =>
    let t := { t with alt := alt, route := route }
    let f : Flight := { txn := t, rest := route }
    let g := t.gate.getD 0
    if f.gateFirst && !s.gatePasses g then
      if entriesOf 256 ((s.crossing (16 + g)).outward ++ [f]) ≤ 64 then s.onCross (16 + g) (fun c => { c with outward := c.outward ++ [f] })
      else wait
    else s.travel t route

/-- A transaction or response that waited in the mesh, or in a crossing from which it leaves, goes on. -/
def State.resume (s : State) (f : Flight) : State := if f.back then s.back f.txn f.rest true else s.travel f.txn f.rest

/-- The crossing of gate port g gives up its entries, in order, while it passes them (R124). -/
def State.drainGate (s : State) (g : Nat) : State :=
  if s.gatePasses g then
    let c := s.crossing (16 + g)
    (c.inward ++ c.outward).foldl State.resume (s.onCross (16 + g) (fun _ => {}))
  else s

/-- Everything that waits tries again, in order: in the crossings of the gate ports, in the mesh, at the sources. -/
def State.relaunch (s : State) : State :=
  let s := (List.range 6).foldl State.drainGate s
  let s := s.mem.flights.foldl State.resume { s with mem := { s.mem with flights := [] } }
  s.mem.waiting.foldl State.launch { s with mem := { s.mem with waiting := [] } }

/-! ### Translation caches (R200) -/

/-- The translations that the hub's cache holds. -/
def State.hubCached (s : State) : Nat := s.parts.foldl (fun a q => a + (q.mem.xlat.filter (fun e => e.src.isNone)).length) 0

/-- Put a translation into the cache of its source: 1,024 entries for a tile, 4,096 for the hub; a full cache is emptied
first (DESIGN CHOICE, notes/assumptions/26.md). -/
def State.cacheXlat (s : State) (p : Nat) (e : XlatEntry) : State :=
  let drop := fun (q : Part) => { q with mem := { q.mem with xlat := q.mem.xlat.filter (fun x => x.src != e.src) } }
  let full := match e.src with
    | some _ => (((s.part p).mem.xlat.filter (fun x => x.src == e.src)).length ≥ 1024 : Bool)
    | none => s.hubCached ≥ 4096
  let s := if !full then s
    else match e.src with
      | some _ => s.onPart p drop
      | none => { s with parts := s.parts.map drop }
  s.onPart p (fun q => if q.mem.xlat.contains e then q else { q with mem := { q.mem with xlat := e :: q.mem.xlat } })

/-- The address of a place of a transfer, its dimensions taken from the innermost out (R57). -/
def placeIn (dims : List (Nat × Nat)) (n : Nat) : Nat :=
  match dims with
  | [] => 0
  | (count, stride) :: rest => n % count * stride + placeIn rest (n / count)

/-- The transactions of a transfer as (address, data) (R57). -/
def txnParts (r : TxnReq) : List (Nat × List Byte) :=
  (List.range (r.dims.foldl (fun a d => a * d.1) 1)).map (fun n => (r.addr + placeIn r.dims n, sliceOf r.data (n * r.len) r.len))

/-- A transfer that a mover or hub unit can ask for: transactions of 1 to 32 flits, each within one 4 KiB block, under a tag of
R183; up to three dimensions; virtual addresses only for a partition. -/
def txnOk (r : TxnReq) : Bool :=
  128 ≤ r.len && r.len ≤ 4096 && r.len % 128 == 0 && r.tag ≤ 0x11 && (!r.virt || r.tag < 16) && r.dims.length ≤ 3 &&
    r.dims.all (fun d => 1 ≤ d.1) && r.dims.foldl (fun a d => a * d.1) 1 ≤ 4096 &&
    (txnParts r).all (fun x => x.1 % 4096 + r.len ≤ 4096 && (r.virt || x.1 < 2 ^ 40) && (r.op != .write || x.2.length == r.len)) &&
    (match r.src with | some t => t < 64 | none => true)

/-- The transaction at an address: translated under its partition, with the translation cached (R200), and numbered (R177). -/
def State.translateReq (s : State) (r : TxnReq) (addr : Nat) (data : List Byte) : State × Option Txn :=
  let txn := fun (pa : Nat) =>
    let t : Txn := { src := r.src, tag := r.tag, op := r.op, pa := pa, len := r.len, data := data, issued := s.now,
                     num := s.mem.nextNum r.src }
    { t with gate := s.gateOn t, confined := (match s.wayOf t with | .mesh _ _ _ c => c | _ => false) }
  if !r.virt then (s, some (txn addr))
  else match s.translate r.tag r.src addr (r.op == .write) with
    | .fault c => (s.note r.tag (.xlat c (srcCode r.src) addr (r.op == .write) 0), none)
    | .poison pa => (s.note r.tag (.poison [pa]), none)
    | .page va size pa w =>
      let t := if (s.part r.tag).mem.enable then s.cacheXlat r.tag { src := r.src, va := va, size := size, pa := pa, w := w } else s
      (t, some (txn (pa + (addr - va))))

/-- One transaction of a transfer is issued; `none` once the transfer has ended. A confined-class transfer whose tag is not its
tiles' partition is discarded and logged with the tag, a partition fault (R183, R511). On the port class a tile's transactions
carry its own partition's tag (R24). A source that has as many outstanding as it may waits (R57, R185). -/
def State.issuePart (s : State) (r : TxnReq) (part : Nat × List Byte) : State × Bool :=
  let x := s.translateReq r part.1 part.2
  match x.2 with
  | none => (x.1, false)
  | some t =>
    if !x.1.mem.mayIssue t then (s, false)
    else match t.src with
      | none => (x.1.launch t, true)
      | some a =>
        if (x.1.tile a).part == some t.tag then (x.1.launch t, true)
        else if !t.confined then (s, false)
        else
          let s := x.1.logHealth 6 0 a (x.1.tilePart a) t.tag
          (match (s.tile a).part with
           | some q => s.faultPart q
           | none => s, true)

/-- The transactions of a transfer one after another, to the first that faults, which ends it (R57). -/
def State.issueAll (s : State) (r : TxnReq) : List (Nat × List Byte) → State
  | [] => s
  | x :: xs => if (s.issuePart r x).2 then (s.issuePart r x).1.issueAll r xs else (s.issuePart r x).1

/-- MESH_TRANSACTION_ISSUE (R57, R181). -/
def execMeshTransactionIssue (r : TxnReq) (s : State) : Host.Outcome State Fault Refusal :=
  .next (if txnOk r then s.issueAll r (txnParts r) else s)

/-- AVAILABILITY_MAP_UPDATE (R181). -/
def execAvailabilityMapUpdate (s : State) : Host.Outcome State Fault Refusal :=
  .next (({ s with mem := { s.mem with avail := BitVec.ofNat 64 (maskOf ((List.range 64).filter s.routerUp)) } }).relaunch)

/-! ### Memory errors (R47, R202 to R204) -/

/-- Change the granule that holds an address. -/
def State.onGran (s : State) (pa : Nat) (f : Granule → Granule) : State :=
  match placeOf pa with
  | .stacked g _ => { s with mem := { s.mem with grans := updAt s.mem.grans g f } }
  | .bulk g _ => { s with mem := { s.mem with bulk := updAt s.mem.bulk g f } }
  | _ => s

/-- The granule that holds an address. -/
def State.granOf (s : State) (pa : Nat) : Granule :=
  match placeOf pa with
  | .stacked g _ => s.mem.grans.getD g {}
  | .bulk g _ => s.mem.bulk.getD g {}
  | _ => {}

/-- Change the MEM.ERR counts of the owner of an address. -/
def State.onOwnerMem (s : State) (pa : Nat) (f : PartMem → PartMem) : State :=
  if s.ownerOf pa < 16 then s.onPart (s.ownerOf pa) (fun q => { q with mem := f q.mem }) else s

/-- A frame fails in some words, in a list of retired frames. -/
def addFailing (l : List (Nat × List Nat)) (frame : Nat) (words : List Nat) : List (Nat × List Nat) :=
  if l.any (fun x => x.1 == frame) then
    l.map (fun x => if x.1 = frame then (frame, x.2 ++ words.filter (fun w => !x.2.contains w)) else x)
  else l ++ [(frame, words)]

/-- The frame that holds an address is retired for its failing words (R204), and FRAME_RETIRED is sent. -/
def State.retireFrame (s : State) (pa : Nat) (words : List Nat) : State :=
  let frame := pa / 0x10000
  let was := (s.granOf pa).isRetired frame
  let s := s.onGran pa (fun x => { x with retired := addFailing x.retired frame words })
  if was then s
  else
    (s.onOwnerMem pa (fun m => { m with retired := satTo 8 (m.retired + 1) })).raiseMem 0x41 (frame * 0x10000)

/-- A unit of kind 4 or 5 by the number of its port or channel. -/
def portUnit (i : Nat) : Nat × Nat := if i < 16 then (4, i) else (5, i - 16)

/-- A memory error's health record (R521). -/
def State.logMem (s : State) (i pa : Nat) : State :=
  let o := s.ownerOf pa
  s.logHealth 9 (portUnit i).1 (portUnit i).2 (if o < 16 then o else 0xFF) (pa / 256)

/-- A unit saw corrected or uncorrectable errors (R518). -/
def State.unitErr (s : State) (kind unit corr bad : Nat) : State :=
  s.onUnit kind unit (fun u => { u with errs := (s.now, corr, bad) :: u.errs.filter (fun x => x.1 + dayNs > s.now) })

/-- A word of device memory was corrected (R202, R204), `n` of its quarters where it lies in the bulk tier (R211). -/
def State.wordCorrected (s : State) (i pa n : Nat) : State :=
  let w := wordOf pa
  let s := { s with mem := s.mem.onPort i (fun q => { q with corr := satTo 16 (q.corr + n) }) }
  let s := s.onOwnerMem pa (fun m => { m with corr := satTo 16 (m.corr + 1) })
  let s := s.unitErr (portUnit i).1 (portUnit i).2 1 0
  let seen := (w, s.now) :: s.mem.corrected.filter (fun x => x.1 != w && x.2 + dayNs > s.now)
  let s := { s with mem := { s.mem with corrected := seen } }
  let here := (seen.filter (fun x => x.1 / 0x10000 == w / 0x10000)).map Prod.fst
  if here.length < 4 then s
  else (if (s.granOf w).isRetired (w / 0x10000) then s else s.logMem i w).retireFrame w here

/-- A word of device memory was found uncorrectable (R203): poisoned, reported, and its frame retired (R204). -/
def State.wordLost (s : State) (i pa : Nat) : State :=
  let w := wordOf pa
  let s := { s with mem := (s.mem.poisonWord w).onPort i (fun q => { q with uncorr := satTo 8 (q.uncorr + 1) }) }
  let s := s.onOwnerMem pa (fun m => { m with uncorr := satTo 8 (m.uncorr + 1) })
  let s := s.unitErr (portUnit i).1 (portUnit i).2 0 1
  ((s.raiseMem 0x40 w).logMem i w).retireFrame w [w]

/-- What a decoder makes of a word with some of its stored bits wrong (R47, R194, R202). -/
inductive Verdict where
  /-- No bit is wrong -/
  | clean
  /-- Corrected; in the bulk tier in so many quarters -/
  | corrected (n : Nat)
  /-- Detected as uncorrectable -/
  | uncorrectable
  /-- More is wrong than the manual says what happens with -/
  | beyond
deriving DecidableEq, Repr

/-- How often each of some numbers stands in a list. -/
def tally (l : List Nat) : List Nat := l.eraseDups.map (fun x => l.count x)

/-- The verdict of the Reed-Solomon decoder of stacked DRAM on the symbols with a wrong bit (R202). -/
def verdictRs (symbols : List Nat) : Verdict :=
  match symbols.eraseDups.length with
  | 0 => .clean
  | 1 => .corrected 1
  | 2 | 3 => .uncorrectable
  | _ => .beyond

/-- The verdict of SECDED decoders on the codewords in which bits are wrong, one number for each bit (R47, R194, R202). -/
def verdictSecded (codewords : List Nat) : Verdict :=
  let n := tally codewords
  if n.isEmpty then .clean
  else if n.any (fun k => 3 ≤ k) then .beyond
  else if n.any (fun k => k == 2) then .uncorrectable
  else .corrected n.length

/-- The verdict on the word at `w` of a port, channel or window, where `flips` are the wrong stored bits: of stacked DRAM, 288 bits
for each word of the port in the order of port addresses, 256 of data in 32 symbols and then 32 of check bits in four; of the bulk
tier, the bits of the channel's raw bytes (R194); of a scratchpad, 72 bits for each word, 64 of data and 8 of check bits. -/
def State.verdict (s : State) (w : Nat) (flips : List Nat) : Verdict :=
  match placeOf w with
  | .stacked _ _ =>
    let base := (s.mem.sliceAt w * 0x4000000 + s.mem.sliceOff w) / 32 * 288
    verdictRs ((flips.filter (fun f => base ≤ f && f < base + 288)).map (fun f => (f - base) / 8))
  | .bulk _ _ =>
    let raw := rawOffset (s.mem.dataOff w)
    let check := checkOffset (s.mem.dataOff w)
    verdictSecded (flips.filterMap (fun f =>
      if raw ≤ f / 8 && f / 8 < raw + 64 then some ((f / 8 - raw) / 16)
      else if check ≤ f / 8 && f / 8 < check + 4 then some (f / 8 - check) else none))
  | .window _ o => verdictSecded ((flips.filter (fun f => o / 8 * 72 ≤ f && f < o / 8 * 72 + 72)).map (fun _ => 0))
  | .none => .clean

/-- More of a word is wrong than its code detects for certain: it is found uncorrectable, or it is read as another word; which is
open (notes/assumptions/5.md). -/
def State.beyond (s : State) (w : Nat) (lost : State → State) : State :=
  if s.freeNat % 2 = 0 then lost s.tick
  else
    let s := s.tick
    let new := (s.mem.cells.read w (wordSize w)).zipIdx.map (fun b => Config.spoiled (s.fresh + b.2) b.1)
    { s with mem := { s.mem with cells := s.mem.cells.write w new }, fresh := s.fresh + wordSize w }

/-- The ECC decoder of a port or channel reads the word at `w` (R202, R203); a poisoned word stays what it is. -/
def State.decodeWord (s : State) (i w : Nat) (flips : List Nat) : State :=
  if s.mem.poisoned w then s
  else match s.verdict w flips with
    | .clean => s
    | .corrected n => s.wordCorrected i w (if i < 16 then 1 else n)
    | .uncorrectable => s.wordLost i w
    | .beyond => s.beyond w (fun t => t.wordLost i w)

/-- A word of tile t's scratchpad is found with two wrong bits (R47). -/
def State.scratchLost (s : State) (t w : Nat) : State :=
  let s := (s.onTile t (fun x => { x with spUncorr := satTo 8 (x.spUncorr + 1) })).unitErr 0 t 0 1
  let s := { s with mem := s.mem.poisonWord w }
  s.logHealth 8 0 t (s.tilePart t) (s.tile t).spUncorr

/-- The SECDED decoder of tile t's scratchpad reads the word at `w` (R47): an error is counted, and the count's change logged. -/
def State.decodeScratch (s : State) (t w : Nat) (flips : List Nat) : State :=
  if s.mem.poisoned w then s
  else match s.verdict w flips with
    | .clean => s
    | .corrected _ =>
      let s := (s.onTile t (fun x => { x with spCorr := satTo 16 (x.spCorr + 1) })).unitErr 0 t 1 0
      s.logHealth 8 0 t (s.tilePart t) (s.tile t).spCorr
    | .uncorrectable => s.scratchLost t w
    | .beyond => s.beyond w (fun a => a.scratchLost t w)

/-! ### Accesses (R186) -/

/-- Two transactions touch one 32-byte word. -/
def Txn.meets (a b : Txn) : Bool := a.pa / 32 ≤ (b.pa + b.len - 1) / 32 && b.pa / 32 ≤ (a.pa + a.len - 1) / 32

/-- Carry out a transaction at port, channel or window `i` (R186) and give its response: one whose granule has left its owner
meanwhile is refused (R193); a read meets the decoder in each of its words, and words that cannot be reached are reported once
(R603); data that holds a poisoned word carries the mark (R203); frames without a key move no data (R467). -/
def State.carryOut (s : State) (i : Nat) (t : Txn) (flips : List Nat) : State × Txn :=
  let s := if i < 24 then s.progress (portUnit i).1 (portUnit i).2 else s
  if !s.admits t.tag t.pa then (s.denied t, { t with data := [], refused := true })
  else if t.tag < 16 && s.retiredEpoch t.tag t.pa then (s, { t with data := [] })
  else match t.op with
    | .write => ({ s with mem := s.mem.store t.pa t.data }, t)
    | .read =>
      let ws := wordsOf t.pa t.len
      let s := if i ≥ 24 then ws.foldl (fun (a : State) w => a.decodeScratch (i - 24) w flips) s
        else if (s.mem.port i).avail then ws.foldl (fun (a : State) w => a.decodeWord i w flips) s
        else s.note t.tag (.poison ws)
      (s, { t with data := s.mem.cells.read t.pa t.len, poisoned := ws.any s.mem.poisoned })

/-- Channel `ch` of a port or bulk channel. -/
def State.channel (s : State) (i ch : Nat) : Chan := (s.mem.port i).chans.getD ch {}

/-- The DRAM behind a port or bulk channel carries a transaction now: its clock is locked (R126), it is out of self-refresh (R150),
the channel is recalibrated since (R207), and the memory schedule lets the tag in (R445). -/
def State.dramUp (s : State) (i : Nat) (t : Txn) : Bool :=
  (if i < 16 then s.clockUp hbmClock && s.mem.asleep.isNone else s.clockUp bulkClock && s.mem.bulkAsleep.isNone) &&
    !(s.channel i (s.mem.chanOf t.pa)).cold && s.slotOpen t.tag

/-- The transaction at place `idx` of queue `i` may be taken: no older one touches the same word (R186). -/
def State.takes (s : State) (i idx : Nat) : Option Txn :=
  let q := s.mem.queued.getD i []
  match q[idx]? with
  | some t => if (q.take idx).any (fun x => x.meets t) then none else some t
  | none => none

/-- A transaction leaves queue `i`. -/
def State.dequeue (s : State) (i idx : Nat) : State :=
  { s with mem := { s.mem with queued := updAt s.mem.queued i (fun l => l.eraseIdx idx) } }

/-- The scheduler of memory port `i` gives a transaction to the crossing to its PHY while the fabric side works and the crossing has
room (R124, R125). -/
def State.toPhy (s : State) (i idx : Nat) : State :=
  match s.takes i idx with
  | some t =>
    let f : Flight := { txn := t, rest := [] }
    if s.lit (domOfTile (rimTile i)) && entriesOf 128 ((s.crossing i).inward ++ [f]) ≤ 96 then
      (s.dequeue i idx).onCross i (fun c => { c with inward := c.inward ++ [f] })
    else s
  | none => s

/-- The PHY of memory port `i` carries out the oldest transaction of its crossing where the DRAM does and the response has room
(R124 to R126). -/
def State.atPhy (s : State) (i : Nat) (flips : List Nat) : State :=
  match (s.crossing i).inward with
  | [] => s
  | f :: rest =>
    if s.dramUp i f.txn && entriesOf 128 ((s.crossing i).outward ++ [{ f with back := true }]) ≤ 96 then
      let x := (s.onCross i (fun c => { c with inward := rest })).carryOut i f.txn flips
      x.1.onCross i (fun c => { c with outward := c.outward ++ [{ txn := x.2, rest := [], back := true }] })
    else s

/-- The crossing of memory port `i` gives up its responses, in order, while the fabric side works (R124). -/
def State.fromPhy (s : State) (i : Nat) : State :=
  if s.lit (domOfTile (rimTile i)) then
    (s.crossing i).outward.foldl (fun t f => t.sendBack f.txn) (s.onCross i (fun c => { c with outward := [] }))
  else s

/-- MEMORY_PORT_ACCESS (R186): the transaction at place `idx` of a scheduler, by the crossing of a memory port (R124), at a bulk
channel, or at a scratchpad window that answers (R48). -/
def execMemoryPortAccess (i idx : Nat) (flips : List Nat) (s : State) : Host.Outcome State Fault Refusal :=
  .next (if i < 16 then (((s.toPhy i idx).atPhy i flips).fromPhy i).relaunch
    else match s.takes i idx with
      | none => s
      | some t =>
        if !(if i < 24 then s.dramUp i t else s.windowUp (i - 24)) then s
        else
          let x := (s.dequeue i idx).carryOut i t flips
          (x.1.sendBack x.2).relaunch)

/-! ### Scrub and recalibration (R205 to R207) -/

/-- Change channel `ch` of a port or bulk channel. -/
def State.onChannel (s : State) (i ch : Nat) (f : Chan → Chan) : State :=
  { s with mem := s.mem.onPort i (fun q => { q with chans := updAt q.chans ch f }) }

/-- Words of a channel: 1.5 GiB of 32-byte words, or 45 GiB of 64-byte blocks (R188, R194). -/
def chanWords (i : Nat) : Nat := if i < 16 then 0x3000000 else 0x2D000000

/-- The channel exists and is in service, out of self-refresh (R207). -/
def State.chanUp (s : State) (i ch : Nat) : Bool :=
  i < 24 && (s.mem.port i).avail && decide (ch < (s.mem.port i).chans.length) &&
    (if i < 16 then s.mem.asleep.isNone else s.mem.bulkAsleep.isNone)

/-- Nothing waits for a channel: in its port's scheduler or in the port's crossing. -/
def State.chanIdle (s : State) (i ch : Nat) : Bool :=
  let here := fun (t : Txn) => s.mem.chanOf t.pa == ch
  !(s.mem.queued.getD i []).any here && !((if i < 16 then (s.crossing i).inward else []).any (fun f => here f.txn))

/-- The physical address of the byte at an offset of slice `k` on port or channel `i`, none where the slice backs no granule (R189 to
R191, R195). -/
def MemSys.addrAt (m : MemSys) (i k off : Nat) : Option Nat :=
  let n := off / 0x1000
  if i < 16 then
    match m.grans.findIdx? (fun g => g.slices.contains (i, k)) with
    | none => none
    | some g =>
      match (m.grans.getD g {}).loc with
      | some _ => some (g * granSize + (m.grans.getD g {}).slices.findIdx (fun x => x == (i, k)) * 0x4000000 + off)
      | none =>
        let pa := g * granSize + n * 0x10000 + off % 0x1000
        some (pa + (i ^^^ stackedPort pa) * 0x1000)
  else match m.bulk.findIdx? (fun g => g.slices.contains (i - 16, k)) with
    | none => none
    | some g =>
      let pa := bulkBase + g * granSize + n * 0x8000 + off % 0x1000
      some (pa + ((i - 16) ^^^ bulkChannel pa) * 0x1000)

/-- The physical address of word `n` of a channel: 512 bytes of each six times 512 of a memory port's addresses, or the data of a bulk
channel (R188, R194). -/
def MemSys.wordAt (m : MemSys) (i ch n : Nat) : Option Nat :=
  if i < 16 then
    let a := (n / 16 * 6 + ch) * 512 + n % 16 * 32
    m.addrAt i (a / 0x4000000) (a % 0x4000000)
  else m.addrAt i (n * 64 / 0x8000000) (n * 64 % 0x8000000)

/-- The scrub interval in ns (R205). -/
def MemSys.scrubNs (m : MemSys) : Nat := m.scrubH * 3600000000000

/-- The scrub lag of a channel in ns: how far its words done trail an even pace (R205). -/
def MemSys.lagNs (m : MemSys) (now i : Nat) (c : Chan) : Nat := (now - c.scrubFrom) - c.scrubDone * m.scrubNs / chanWords i

/-- The pace of scrub from now on is that of `h` hours; each channel keeps the lag that it has (R205, R210). -/
def MemSys.repace (m : MemSys) (now h : Nat) : MemSys :=
  let move := fun (asleep : Option Nat) (i : Nat) (q : MemPort) =>
    let t := asleep.getD now
    { q with chans := q.chans.map (fun c => { c with scrubFrom := t - m.lagNs t i c, scrubDone := 0 }) }
  { m with
    scrubH := h
    ports := m.ports.zipIdx.map (fun (q : MemPort × Nat) => move m.asleep q.2 q.1)
    bchans := m.bchans.zipIdx.map (fun (q : MemPort × Nat) => move m.bulkAsleep (16 + q.2) q.1) }

/-- The same in minutes. -/
def MemSys.lagMin (m : MemSys) (now i : Nat) (c : Chan) : Nat := m.lagNs now i c / 60000000000

/-- SCRUB_STEP (R205): scrub reads the next word of a channel, in an idle beat or a forced slice, and writes back what it finds
corrected. -/
def execScrubStep (i ch : Nat) (flips : List Nat) (s : State) : Host.Outcome State Fault Refusal :=
  let c := s.channel i ch
  .next (if !s.chanUp i ch || (!s.chanIdle i ch && !c.scrubForced) then s
    else
      let s := match s.mem.wordAt i ch c.scrubPos with
        | some pa => s.decodeWord i pa flips
        | none => s
      s.onChannel i ch (fun c => { c with scrubPos := (c.scrubPos + 1) % chanWords i, scrubDone := c.scrubDone + 1 }))

/-- ROUST_FORCED for a task of a port or channel (R208). -/
def State.roust (s : State) (i task : Nat) : State :=
  s.raise 0 0x44 (toLe 1 (b2n (decide (16 ≤ i))) ++ toLe 1 (portUnit i).2 ++ toLe 1 task)

/-- Forced time of a port or channel. -/
def State.forcedUs (s : State) (i us : Nat) : State :=
  { s with mem := s.mem.onPort i (fun q => { q with forcedUs := satTo 32 (q.forcedUs + us) }) }

/-- The µs of forced scrub slices taken in the 10 ms window that `now` lies in. -/
def Chan.forcedIn (c : Chan) (now : Nat) : Nat := if c.scrubWin.1 = now / 10000000 then c.scrubWin.2 else 0

/-- SCRUB_FORCED_SLICE (R205): the lag passes 6 h, a slice is taken, at most 200 µs in every 10 ms, or the lag is 1 h or less. -/
def execScrubForcedSlice (i ch us : Nat) (s : State) : Host.Outcome State Fault Refusal :=
  let c := s.channel i ch
  .next (if !s.chanUp i ch || !s.slotOpen 0x11 || c.forcedIn s.now + us > 200 then s
    else
      let lag := s.mem.lagNs s.now i c
      let on := if lag > 6 * 3600000000000 then true else if lag ≤ 3600000000000 then false else c.scrubForced
      let win := if on then (s.now / 10000000, c.forcedIn s.now + us) else c.scrubWin
      let s := s.onChannel i ch (fun x => { x with scrubForced := on, scrubWin := win })
      let s := if on && !c.scrubForced then s.roust i 0 else s
      if on then s.forcedUs i us else s)

/-- The temperature of the stack behind port channel `ch` of port `i` (R187). -/
def State.chanTemp (s : State) (i ch : Nat) : Int := (s.thermal.stackSpots.getD (stackChan i ch).1 {}).ctl

/-- A recalibration is done. -/
def Chan.calibrated (c : Chan) (now : Nat) (temp : Int) : Chan :=
  { c with recalDue := none, recalForced := false, recalSlices := 0, lastRecal := now, lastTemp := temp, lastSlice := none, cold := false }

/-- The channel has moved 10 K since its last recalibration: by its stack's temperature, or by what a bulk channel's devices report
(R206). -/
def State.moved10 (s : State) (i ch : Nat) (moved : Int) : Bool :=
  let d := if i < 16 then s.chanTemp i ch - (s.channel i ch).lastTemp else moved
  d ≥ 100 || d ≤ -100

/-- RECAL_DUE (R206, R207): by period, by a move of 10 K since the last one, or on leaving self-refresh; it runs while nothing waits
for the channel, or before the channel carries traffic again. -/
def execRecalDue (i ch : Nat) (moved : Int) (s : State) : Host.Outcome State Fault Refusal :=
  let c := s.channel i ch
  let due := c.recalDue.isSome || s.now ≥ c.lastRecal + s.mem.recalS * 1000000000 || s.moved10 i ch moved || c.cold
  .next (if !s.chanUp i ch || !due then s
    else if s.chanIdle i ch || c.cold then (s.onChannel i ch (fun c => c.calibrated s.now (s.chanTemp i ch))).relaunch
    else s.onChannel i ch (fun c => { c with recalDue := some (c.recalDue.getD s.now) }))

/-- RECAL_FORCED_SLICE (R206): a recalibration due for more than 30 min takes 1 µs of its channel, once in every 100 ms; sixteen
complete it. -/
def execRecalForcedSlice (i ch : Nat) (s : State) : Host.Outcome State Fault Refusal :=
  let c := s.channel i ch
  .next (match c.recalDue with
    | none => s
    | some t =>
      if !s.chanUp i ch || !s.slotOpen 0x11 || s.now ≤ t + 1800000000000 || (match c.lastSlice with | some u => s.now < u + 100000000 | none => false) then s
      else
        let s := (if c.recalForced then s else s.roust i 1).forcedUs i 1
        s.onChannel i ch (fun c => if c.recalSlices + 1 ≥ 16 then c.calibrated s.now (s.chanTemp i ch)
          else { c with recalForced := true, recalSlices := c.recalSlices + 1, lastSlice := some s.now }))

/-! ### Invalidation and the table root (R201, R209, R604) -/

/-- INVAL written to MEM.XLAT_CTRL: the invalidation is under way (R201). -/
def State.startInval (s : State) (p : Nat) : State := s.onPart p (fun q => { q with mem := { q.mem with busy := true } })

/-- XLAT_INVALIDATE (R201): the write of INVAL, or the end of an invalidation under way. -/
def execXlatInvalidate (p : Nat) (s : State) : Host.Outcome State Fault Refusal :=
  .next (if s.regsLive p then (s.dropXlat p).onPart p (fun q => { q with mem := { q.mem with busy := false } }) else s)

/-- A write of MEM.PT_ROOT_LO: ignored while RUNNING; a change of ENABLE discards the cached translations (R209, R604). -/
def State.writePtRootLo (s : State) (p v : Nat) : State :=
  if (s.part p).sec.st = .running then s
  else
    let on := bitOf v 0
    let s := if on != (s.part p).mem.enable then s.dropXlat p else s
    s.onPart p (fun q => { q with mem := { q.mem with root := q.mem.root / 2 ^ 32 * 2 ^ 32 + bitsOf v 31 12 * 4096, enable := on } })

/-- A write of MEM.PT_ROOT_HI (R209). -/
def State.writePtRootHi (s : State) (p v : Nat) : State :=
  if (s.part p).sec.st = .running then s
  else s.onPart p (fun q => { q with mem := { q.mem with root := q.mem.root % 2 ^ 32 + bitsOf v 7 0 * 2 ^ 32 } })

/-- PT_ROOT_WRITE (R604). -/
def execPtRootWrite (p : Nat) (v : Word) (s : State) : Host.Outcome State Fault Refusal :=
  .next (if s.regsLive p then s.wakeDeep.writePtRootLo p v.toNat else s)

end Sys2Proof.Machine
end

