-- ==== Sys2Proof/Machine/Engines.lean ====
section
/-! DEFINITION. Engines and tiles (R62 to R66, R285, R286): configuring and releasing an engine, the load of its image, work
items, and the host's fence and unfence of a tile (R512 to R514). -/

namespace Sys2Proof.Machine

/-! ### Shared by the administrative commands -/

/-- A descriptor that names a partition in reset is refused (R442). -/
def State.named (s : State) (p : Nat) : Option Fail := if (s.part p).sec.resetting then some (.status stIllegalState 0) else none

/-- What a host may not do to a frozen partition (R461). -/
def State.frozenBars (s : State) (p : Nat) : Option Fail := if (s.part p).sec.frozen then some (.status stAccessDenied 0xF) else none

/-! ### Configuring (R63, R64, R285, R286) -/

/-- Tile t can join an engine of Pp (R286). -/
def State.tileFits (s : State) (p t : Nat) : Bool := (s.tile t).st == .free && (s.tile t).part == some p

/-- The conditions of R286 on the tiles, release and image of an engine. -/
def State.engineBars (s : State) (p : Nat) (e : EngSpec) : Option Fail :=
  match e.tiles.find? (fun t => !s.tileFits p t) with
  | some t => some (.status stIllegalState t)
  | none =>
    if (s.images e.release).any (fun i => i.num == e.image) then none else some (.status stIllegalState 0xFFFFFFFF)

/-- Insert an engine by its index. -/
def insertEngine (e : Engine) : List Engine → List Engine
  | [] => [e]
  | x :: xs => if e.idx < x.idx then e :: x :: xs else x :: insertEngine e xs

/-- An engine's configuration starts: its tiles load its image (R63), in the order of R64. A tile shows its engine while it loads
(DESIGN CHOICE, notes/assumptions/56.md). -/
def State.loadEngine (s : State) (p : Nat) (e : EngSpec) (by_ : Option (Nat × Nat)) : State :=
  let x : Engine := { idx := e.idx, tiles := e.tiles, elastic := e.elastic, image := e.image, release := e.release,
                      defTimeout := e.defTimeout, loadedBy := by_ }
  let s := (s.onPart p (fun q => { q with engines := insertEngine x q.engines })).queueLoad p e.idx
  e.tiles.foldl (fun t i => t.onTile i (fun y => { y with st := .loading, engine := some e.idx })) s

/-- The engine entry of an ENGINE_CONFIG. -/
def Desc.engineEntry (d : Desc) : EngSpec :=
  { idx := d.fld 17 1, elastic := bitOf (d.fld 18 1) 0, image := d.fld 19 1, release := d.fld 20 3,
    tiles := setBits 64 (d.fld 24 8), defTimeout := d.fld 32 4 }

/-- Check 6 of ENGINE_CONFIG (R286, R442, R461). -/
def State.engineConfigCheck (s : State) (_ : Nat) (d : Desc) : Option Fail :=
  let p := d.fld 16 1
  let st := (s.part p).sec.st
  s.frozenBars p <|> s.named p <|>
    (if (st != .admitted && st != .running) || (s.engine? p (d.fld 17 1)).isSome then some (.status stIllegalState 0) else none) <|>
    s.engineBars p d.engineEntry

/-- ENGINE_CONFIG (R63): it completes when its last tile is loaded. -/
def execEngineConfig (d : DescRef) (s : State) : Host.Outcome State Fault Refusal :=
  .next (s.startDesc d (isOp 0x94) State.engineConfigCheck
    (fun t p x => t.loadEngine (x.fld 16 1) x.engineEntry (some (p, x.num))))

/-! ### The module identity (R454) -/

/-- The compound device identifier, over the unique device secret and the ROM digest. -/
def deviceId : BitVec 384 := Config.compound Config.deviceSecret ((List.range 48).map Config.romDigest)

/-- The DeviceID private key. -/
def deviceKey : BitVec 384 := Config.privateKey 0 deviceId

/-- The binding private key. -/
def bindingKey : BitVec 384 := Config.privateKey 1 deviceId

/-- The DeviceID certificate, signed by Staund's manufacturing authority; in flash. -/
def deviceCert : List Byte := Config.certificate Config.authority (Config.publicKey deviceKey)

/-- The binding certificate, signed by the DeviceID key; in flash. -/
def bindingCert : List Byte := Config.certificate deviceKey (Config.publicKey bindingKey)

/-- The chain of a certificate slot: 0 DeviceID to Alias, 1 DeviceID to binding (R455). -/
def State.chainOf (s : State) (slot : Nat) : List Byte := deviceCert ++ (if slot = 0 then s.boot.aliasCert else bindingCert)

/-- A SHA-384 digest as bytes. -/
def shaOf (b : List Byte) : List Byte := toLe 48 (Config.sha384 b).toNat

/-! ### The end of a load (R63) -/

/-- An engine is taken off a partition: its tiles are FREE, its scratchpads kept; TILE.UCODE shows that none is loaded (DESIGN CHOICE,
notes/assumptions/57.md). -/
def State.dropEngine (s : State) (p i : Nat) : State :=
  let tiles := (List.range 64).filter (fun t => (s.tile t).part == some p && (s.tile t).engine == some i)
  let s := tiles.foldl (fun (t : State) k => ((t.settleTile k).onTile k (fun x => { x with
    st := if x.st = .fenced || x.st = .resetting then x.st else .free, engine := none, items := [], release := 0,
    image := 0 })).settleFence k) s
  s.onPart p (fun q => { q with
    engines := q.engines.filter (fun e => e.idx != i)
    hlt := { q.hlt with degraded := q.hlt.degraded &&& ~~~(BitVec.ofNat 64 (1 <<< i)) } })

/-- What measurement 16 + p covers (R456): the specification, VD_MASK, each owned granule with its mode and port, PWR.FIXED and
the load log. -/
def State.coveredBy (s : State) (p : Nat) : List Byte :=
  let q := s.part p
  let gran := fun (base : Nat) (l : List Granule) => l.zipIdx.flatMap (fun (x : Granule × Nat) =>
    if x.1.owner = p then toLe 2 (base + x.2) ++ toLe 1 (b2n x.1.loc.isSome) ++ toLe 1 (x.1.loc.getD 0) else [])
  q.sec.spec ++ toLe 2 q.sec.vdMask.toNat ++ gran 0 s.mem.grans ++ gran 0x8000 s.mem.bulk ++
    toLe 4 (q.pwr.vcode + b2n q.pwr.fixed * 2 ^ 31) ++
    q.sec.loads.flatMap (fun l => toLe 1 l.subop ++ l.keyId ++ toLe 5 l.destPa ++ toLe 8 l.len ++ toLe 4 l.chunks)

/-- Measurement 16 + p (R456). -/
def State.measured (s : State) (p : Nat) : List Byte := shaOf (s.coveredBy p)

/-- Admission into the trusted domain holds (R457). -/
def State.admissible (s : State) (p : Nat) : Bool :=
  let x := (s.part p).sec
  match x.secMode with
  | 0 => true
  | 1 => p != 0 && x.tdi == .run
  | _ => p != 0 && x.session && x.lastMeas == some (s.measured p)

/-- The partition is ADMITTED (R441): frozen in modes 1 and 2, and the first such admission seals the module (R453). -/
def State.admitPart (s : State) (p : Nat) : State :=
  let safe := (s.part p).sec.secMode != 0
  let s := s.onSec p (fun x => { x with st := .admitted, frozen := safe })
  if safe && !s.sec.sealed then { s with sec := { s.sec with sealed := true, auto := true } } else s

/-- Every engine that a PART_STATE ADMIT was loading is undone. -/
def State.undoAdmit (s : State) (p : Nat) : State :=
  ((s.part p).engines.map Engine.idx).foldl (fun t i => t.dropEngine p i) s

/-- The command that configured an engine goes on: an ENGINE_CONFIG completes; an ADMIT completes with its last engine, with
the state that this gives (R441). -/
def State.loadedFor (s : State) (p : Nat) (by_ : Option (Nat × Nat)) : State :=
  match by_ with
  | none => s
  | some (o, num) =>
    match s.desc? o num with
    | none => s
    | some d =>
      if d.op = 0x91 then
        if (s.part p).engines.any (fun e => e.loadedBy.isSome) then s
        else if s.admissible p then (s.admitPart p).complete o d {}
        else (s.undoAdmit p).complete o d { status := stNotAdmitted }
      else s.complete o d {}

/-- The load of an engine failed its digest (R63): the configuration is undone and its command fails. -/
def State.loadFailed (s : State) (p : Nat) (e : Engine) : State :=
  match e.loadedBy with
  | none => s.dropEngine p e.idx
  | some (o, num) =>
    match s.desc? o num with
    | none => s.dropEngine p e.idx
    | some d => (if d.op = 0x91 then s.undoAdmit p else s.dropEngine p e.idx).complete o d { status := stDigestMismatch }

/-- ENGINE_LOAD_COMPLETE (R63, R64): the load whose turn it is ends: the loading tiles of the engine join it, or the configuration is
undone. -/
def execEngineLoadComplete (p i : Nat) (digestOk : Bool) (s : State) : Host.Outcome State Fault Refusal :=
  .next (match s.engine? p i with
    | none => s
    | some e =>
      let tiles := e.tiles.filter (fun t => (s.tile t).st == .loading && (s.tile t).engine == some i && (s.tile t).part == some p)
      if tiles.isEmpty || s.loads.head? != some (p, i) then s
      else if !digestOk then s.loadFailed p e
      else
        let s := s.onPart p (fun q => { q with engines := q.engines.map (fun (x : Engine) =>
          if x.idx == i then { x with loadedBy := none } else x) })
        let s := tiles.foldl (fun (t : State) k => (t.onTile k (fun x => { x with st := .idle, release := e.release, image := e.image })).settleFence k) s
        s.loadedFor p e.loadedBy)

/-! ### Releasing (R63, R286) -/

/-- Check 6 of ENGINE_RELEASE. -/
def State.engineReleaseCheck (s : State) (_ : Nat) (d : Desc) : Option Fail :=
  let p := d.fld 16 1
  let i := d.fld 17 1
  s.frozenBars p <|> s.named p <|>
    (match s.engine? p i with
     | none => some (.status stIllegalState 0)
     | some e =>
       if e.tiles.all (fun t => (s.tile t).engine != some i || (s.tile t).part != some p || (s.tile t).st == .idle ||
           (s.tile t).st == .fenced) && (s.onEngine p i).isEmpty then none
       else some (.status stIllegalState 0))

/-- ENGINE_RELEASE (R63): its tiles are FREE and keep their scratchpads (R49); a degraded engine is repaired (R513). -/
def execEngineRelease (d : DescRef) (s : State) : Host.Outcome State Fault Refusal :=
  .next (s.startDesc d (isOp 0x95) State.engineReleaseCheck
    (fun t p x => ((t.dropEngine (x.fld 16 1) (x.fld 17 1)).reviewHealth false).complete p x {}))

/-! ### Work items (R62, R63, R66, R111, R118) -/

/-- WORK_ITEM_COMPLETE (R63, R118, R251): the item in progress on tile t is done, and what it took goes to its descriptor; the tile
takes the next, or is IDLE; a fence that waits ends its queue (R514). -/
def execWorkItemComplete (t : Nat) (s : State) : Host.Outcome State Fault Refusal :=
  let x := s.tile t
  .next (if x.items.isEmpty || x.st != .active || (s.dom (domOfTile t)).st != .run then s
    else (s.chargeItem t).leftItems t (if x.fencePending.isSome then [] else s.nextFirst (x.items.drop 1)))

/-! ### The host's fence and unfence (R286, R512 to R514) -/

/-- TILE_FENCE (R514): the fence takes effect at once or where R514 says; the command completes. -/
def execTileFence (d : DescRef) (s : State) : Host.Outcome State Fault Refusal :=
  .next (s.startDesc d (fun x => isOp 0x96 x && x.fld 17 1 != 0)
    (fun t _ x => if (t.tile (x.fld 16 1)).st == .fenced then some (.status stIllegalState 0) else none)
    (fun t p x => (t.fenceUnit 0 (x.fld 16 1) 4).complete p x {}))

/-- TILE_UNFENCE (R513): a striker round, whose failing tests `failed` names, decides. -/
def execTileUnfence (d : DescRef) (failed : Nat) (s : State) : Host.Outcome State Fault Refusal :=
  .next (s.startDesc d (fun x => isOp 0x96 x && x.fld 17 1 == 0)
    (fun t _ x => if (t.tile (x.fld 16 1)).st != .fenced then some (.status stIllegalState 0) else none)
    (fun t p x =>
      let k := x.fld 16 1
      if failed % 64 = 0 then ((t.roundPassed 0 k).unfence 0 k).complete p x {}
      else (t.roundFailed 0 k (lowestTest failed) (failed % 64)).complete p x { status := stNotAdmitted }))

end Sys2Proof.Machine
end

