-- ==== Sys2Proof/Machine/Parts.lean ====
section
/-! DEFINITION. Partitions (R438 to R446): the specification and PART_CONFIG, the partition state machine (R441, R442), grants
and releases of granules (R189, R193, R204), and the loss of admission (R462). -/

namespace Sys2Proof.Machine

/-! ### The specification (R439, R440) -/

/-- Some domains form a rectangle of whole domains (R21, R286); none do not. -/
def isRect (mask : Nat) : Bool :=
  let ds := setBits 16 mask
  match ds with
  | [] => false
  | d :: _ =>
    let rows := ds.map (· / 4)
    let cols := ds.map (· % 4)
    let lo := fun (l : List Nat) (a : Nat) => l.foldl Nat.min a
    let hi := fun (l : List Nat) (a : Nat) => l.foldl Nat.max a
    (hi rows (d / 4) - lo rows (d / 4) + 1) * (hi cols (d % 4) - lo cols (d % 4) + 1) == ds.length

/-- The tiles of a mask of domains. -/
def maskTiles (mask : Nat) : List Nat := (List.range 64).filter (fun t => mask.testBit (domOfTile t))

/-- The engine entry at byte 64 + 24e of a specification (R439). -/
def specEngine (b : List Byte) (e : Nat) : EngSpec :=
  let r := sliceOf b (64 + 24 * e) 24
  { idx := byteAt r 0, elastic := bitOf (byteAt r 1) 0, image := byteAt r 2, release := fieldAt r 4 3,
    tiles := setBits 64 (fieldAt r 8 8), defTimeout := fieldAt r 16 4 }

/-- The engine entries of a specification. -/
def specEngines (b : List Byte) : List EngSpec := (List.range (Nat.min (byteAt b 12) 16)).map (specEngine b)

/-- The offending bytes of an engine entry (R439, R440). -/
def entryBad (b : List Byte) (mask e : Nat) : List (Bool × Nat) :=
  let o := 64 + 24 * e
  let x := specEngine b e
  let before := (specEngines b).take e
  chk [(x.idx > 63 || before.any (fun y => y.idx == x.idx), o), (bitsOf (byteAt b (o + 1)) 7 1 != 0, o + 1),
    (x.tiles.isEmpty || x.tiles.any (fun t => !mask.testBit (domOfTile t) || before.any (fun y => y.tiles.contains t)), o + 8)] ++
  resv b (o + 3) 1 ++ resv b (o + 7) 1 ++ resv b (o + 20) 4

/-- The rectangle holds a memory port, and a gate port (R440). -/
def sealable (mask : Nat) : Bool :=
  (maskTiles mask).any (fun t => (rimPort t).isSome) && (maskTiles mask).any (fun t => [8, 16, 24, 32, 40, 48].contains t)

/-- The offending bytes of a specification for Pp with a VD_MASK (R439, R440). -/
def specBad (b : List Byte) (p mask : Nat) : List (Bool × Nat) :=
  let mode := byteAt b 4
  let n := byteAt b 12
  chk [(fieldAt b 0 4 != 1, 0), (mode > 2 || (p == 0 && mode != 0), 4),
    (byteAt b 5 > 1 || (byteAt b 5 == 1 && !sealable mask), 5), (byteAt b 6 == 0, 6), (n > 16, 12)] ++
  resv b 13 3 ++ resv b 32 32 ++ (List.range (Nat.min n 16)).flatMap (entryBad b mask)

/-- The trust state that a specification gives, with a new partition key and a new memory key (R440). -/
def PartSec.configured (x : PartSec) (b : List Byte) (mask : Nat) (pkey mkey : BitVec 256) : PartSec :=
  { st := .configured, vdMask := BitVec.ofNat 16 mask, spec := b, secMode := byteAt b 4, meshSeal := byteAt b 5 == 1,
    codecWeight := byteAt b 6, codecCores := BitVec.ofNat 8 (byteAt b 7), crcUnits := BitVec.ofNat 16 (fieldAt b 8 2),
    hostMovers := BitVec.ofNat 8 (byteAt b 10), linkPorts := BitVec.ofNat 8 (byteAt b 11),
    channels := BitVec.ofNat 64 (fieldAt b 16 8), memSlots := BitVec.ofNat 64 (fieldAt b 24 8), engSpecs := specEngines b,
    partKey := pkey.truncate 128, curKey := some mkey, tdi := if byteAt b 4 = 1 then .unlocked else .none,
    session := x.session, handshake := x.handshake, heartbeatAt := x.heartbeatAt, lastMeas := x.lastMeas,
    sealGen := x.sealGen, sealKey := x.sealKey, openKey := x.openKey, openOld := x.openOld, ideKeys := x.ideKeys, doeReply := x.doeReply }

/-! ### PART_CONFIG (R286, R440, R446) -/

/-- The trust states of the configured partitions other than Pp. -/
def State.otherSecs (s : State) (p : Nat) : List PartSec :=
  ((List.range 16).filter (fun q => q != p && (s.part q).sec.st != .unconfigured)).map (fun q => (s.part q).sec)

/-- A resource of `x` is held by one of the others (R440). -/
def PartSec.clashes (x : PartSec) (os : List PartSec) : Bool :=
  os.any (fun o => (x.codecCores &&& o.codecCores != 0) || (x.crcUnits &&& o.crcUnits != 0) ||
    (x.hostMovers &&& o.hostMovers != 0) || (x.linkPorts &&& o.linkPorts != 0) || (x.channels &&& o.channels != 0) ||
    (x.memSlots &&& o.memSlots != 0))

/-- With `x` configured, no codec core, CRC unit or host mover would stay unreserved, or fewer than 8 slots (R440). -/
def PartSec.exhausts (x : PartSec) (os : List PartSec) : Bool :=
  os.foldl (fun a o => a ||| o.codecCores) x.codecCores == BitVec.allOnes 8 ||
  os.foldl (fun a o => a ||| o.crcUnits) x.crcUnits == BitVec.allOnes 16 ||
  os.foldl (fun a o => a ||| o.hostMovers) x.hostMovers == BitVec.allOnes 8 ||
  (setBits 64 (os.foldl (fun a o => a ||| o.memSlots) x.memSlots).toNat).length > 56

/-- The memory ports that back a partition's granules. -/
def State.portsUsed (s : State) (q : Nat) : List Nat :=
  (List.range 16).filter (fun i => s.mem.grans.any (fun g => g.owner == q && g.slices.any (fun x => x.1 == i)))

/-- Both orders from a to b cross some tiles. -/
def bothCross (rect : List Nat) (a b : Nat) : Bool :=
  (routeXY a b).any rect.contains && (routeYX a b).any rect.contains

/-- R446 refuses the seal of a rectangle: a tile or hub unit of another configured partition would have no order to a port
that the partition uses. -/
def State.sealRefused (s : State) (p mask : Nat) : Bool :=
  let rect := maskTiles mask
  ((List.range 16).filter (fun q => q != p && (s.part q).sec.st != .unconfigured)).any (fun q =>
    (s.portsUsed q).any (fun i =>
      (s.tilesOf q).any (fun t => bothCross rect t (rimTile i)) ||
      (match s.hubGate q i with | some g => bothCross rect g (rimTile i) | none => false)) ||
    (s.tilesOf q).any (fun t => match s.gateFor q (gateRow (t / 8)) with | some g => bothCross rect t g | none => false))

/-- The specification as the guard reads it (check 7 of R257): its header, then its entries. -/
def State.readSpec (s : State) (p : Nat) (d : Desc) : Except Fail (List Byte) := do
  let h ← s.readVa p none 0 (d.fld 20 6) 64
  s.readVa p none 0 (d.fld 20 6) (64 + 24 * Nat.min (byteAt h 12) 16)

/-- Checks 6 and 7 of PART_CONFIG (R286, R440). -/
def State.partConfigCheck (s : State) (o : Nat) (d : Desc) : Option Fail :=
  let p := d.fld 16 1
  let mask := d.fld 18 2
  let taken := (List.range 16).any (fun q => (s.part q).sec.st != .unconfigured && ((s.part q).sec.vdMask.toNat &&& mask) != 0)
  if (s.part p).sec.st != .unconfigured || taken || !isRect mask then some (.status stIllegalState 0)
  else match s.readSpec o d with
    | .error f => some f
    | .ok b =>
      match firstBad (specBad b p mask) with
      | some off => some (badInBlock off)
      | none =>
        let x := PartSec.configured {} b mask 0 0
        let os := s.otherSecs p
        if x.clashes os || x.exhausts os || (s.links.pairEn && x.linkPorts.getLsbD s.links.pairPort) ||
            (x.meshSeal && s.sealRefused p mask) then some (.status stNotAdmitted 0)
        else none

/-- A tile joins Pp: zeroed, its counters latched (R49, R116). -/
def State.joinTile (s : State) (p t : Nat) : State :=
  ((s.settleTile t).zeroTile t).onTile t (fun x => { x with
    part := some p, engine := none, base := (x.pace, x.beats, x.work), contPart := false, joined := true })

/-- A tile leaves its partition: zeroed (R49). -/
def State.leaveTile (s : State) (t : Nat) : State :=
  ((s.settleTile t).zeroTile t).onTile t (fun x => { x with part := none, engine := none, items := [], base := (0, 0, 0), joined := false })

/-- What of a partition is kept when it is configured or unconfigured: P0 keeps the rings that carry its admin ring, the
registers of scope C return to reset in either case (R583). -/
def Part.fresh (q : Part) (p : Nat) (x : PartSec) : Part :=
  if p = 0 then { q with sec := x, pwr := {}, mem := { q.mem with corr := 0, uncorr := 0, retired := 0 },
                         hlt := { q.hlt with written := 0 }, counters := List.replicate 256 0, groups := List.replicate 16 none,
                         journal := [], kv := [], engines := [], rings := [] }
  else { sec := x, host := { nextNum := q.host.nextNum }, fetched := q.fetched }

/-- The granted link ports have an owner (R379). -/
def State.ownLinks (s : State) (mask : BitVec 8) (owner : Nat) : State :=
  { s with links := { s.links with ports := s.links.ports.zipIdx.map (fun (x : LinkPort × Nat) =>
      if mask.getLsbD x.2 then { x.1 with owner := owner } else x.1) } }

/-- PART_CONFIG takes effect (R440). -/
def State.configure (s : State) (p mask : Nat) (b : List Byte) : State :=
  let pkey := s.random
  let mkey := s.tick.random
  let s := (s.tick.tick).onPart p (fun q => q.fresh p (q.sec.configured b mask pkey mkey))
  let s := (maskTiles mask).foldl (fun t k => t.joinTile p k) s
  let s := (setBits 16 mask).foldl (fun t k => t.onDom k (fun d => { d with wantSt := .run })) s
  (s.ownLinks (s.part p).sec.linkPorts p).postPresence p

/-- PART_CONFIG (R440). -/
def execPartConfig (d : DescRef) (s : State) : Host.Outcome State Fault Refusal :=
  .next (s.startDesc d (isOp 0x90) State.partConfigCheck (fun t p x =>
    match t.readSpec p x with
    | .error f => t.failDesc p x f
    | .ok b => (t.configure (x.fld 16 1) (x.fld 18 2) b).complete p x {}))

/-! ### PART_STATE (R286, R441, R442) -/

/-- A PART_STATE with an ACTION of the row; one outside the map is any row's. -/
def isAction (a : Nat) (d : Desc) : Bool := isOp 0x91 d && (d.fld 17 1 == a || d.fld 17 1 == 0 || d.fld 17 1 > 5)

/-- Check 6 of a PART_STATE that is legal in one state. -/
def State.actionCheck (s : State) (st : PartSt) (d : Desc) : Option Fail :=
  let p := d.fld 16 1
  s.named p <|> (if (s.part p).sec.st != st then some (.status stIllegalState 0) else none)

/-- Check 6 of ADMIT (R286, R441, R457): a failed load would end it with the load's STATUS. -/
def State.admitCheck (s : State) (_ : Nat) (d : Desc) : Option Fail :=
  let p := d.fld 16 1
  s.actionCheck .configured d <|>
    (if !(s.part p).engines.isEmpty then some (.status stIllegalState 0)
     else if !s.admissible p then some (.status stNotAdmitted 0) else none) <|>
    (s.part p).sec.engSpecs.findSome? (fun e => s.engineBars p e)

/-- PART_STATE_ADMIT (R441, R457): the specification's engines are loaded, and the partition is ADMITTED with the last. -/
def execPartStateAdmit (d : DescRef) (s : State) : Host.Outcome State Fault Refusal :=
  .next (s.startDesc d (isAction 1) State.admitCheck (fun t p x =>
    let k := x.fld 16 1
    let es := (t.part k).sec.engSpecs
    if es.isEmpty then (t.admitPart k).complete p x {}
    else es.foldl (fun (a : State) e => a.loadEngine k e (some (p, x.num))) t))

/-- PART_STATE_RUN (R441); rate samples start anew, the first at once (R114; DESIGN CHOICE, notes/assumptions/23.md: within one period). -/
def execPartStateRun (d : DescRef) (s : State) : Host.Outcome State Fault Refusal :=
  .next (s.startDesc d (isAction 2) (fun t _ x => t.actionCheck .admitted x) (fun t p x =>
    let k := x.fld 16 1
    let t := (t.onSec k (fun y => { y with st := .running })).onPart k (fun q =>
      { q with rate := { q.rate with first := true, next := if q.rate.enable then some t.now else none } })
    t.complete p x {}))

/-- QUIESCE takes effect (R441): acts stop after their run or cycle, the channels close. -/
def State.quiesce (s : State) (p : Nat) : State :=
  let s := s.onSec p (fun x => { x with st := .quiescing })
  let s := (List.range 64).foldl (fun t n => if (t.act p n).st = .free then t else t.stopAct p n false) s
  s.closeChans p stCancelled

/-- PART_STATE_QUIESCE (R441). -/
def execPartStateQuiesce (d : DescRef) (s : State) : Host.Outcome State Fault Refusal :=
  .next (s.startDesc d (isAction 3) (fun t _ x => t.actionCheck .running x)
    (fun t p x => (t.quiesce (x.fld 16 1)).complete p x {}))

/-- QUIESCE_DONE (R441): nothing fetched is left, the administrative commands of P0 apart, and every act slot is FREE. -/
def execQuiesceDone (p : Nat) (s : State) : Host.Outcome State Fault Refusal :=
  let q := s.part p
  .next (if q.sec.st = .quiescing && q.fetched.all (fun d => isAdmin d.op) && q.acts.all (fun a => a.st == .free) then
    (s.onSec p (fun x => { x with st := .admitted })).raiseBoth p 0x63 (toLe 1 PartSt.admitted.code)
  else s)

/-- The administrative commands under way that configure engines of Pp end with its reset (R442). -/
def State.endNaming (s : State) (p : Nat) : State :=
  s.endEach 0 ((s.part 0).fetched.filter (fun d => d.startedAt.isSome && d.fld 16 1 == p && (d.op == 0x94 || isAction 1 d)))
    { status := stPartitionReset }

/-- A partition reset begins (R442, R584). -/
def State.beginReset (s : State) (p : Nat) : State :=
  let s := if p = 0 then s else s.endNaming p
  (s.resetPart p).onSec p (fun x => { x with resetting := true })

/-- A partition reset is complete: every RESET of the partition completes (R442). -/
def State.endReset (s : State) (p : Nat) : State :=
  let s := s.onSec p (fun x => { x with resetting := false })
  s.batched 0 (fun u =>
    ((s.part 0).fetched.filter (fun d => isOp 0x91 d && d.fld 17 1 == 4 && d.fld 16 1 == p && d.startedAt.isSome)).foldl
      (fun (t : State) d => t.complete 0 d {}) u)

/-- PART_STATE_RESET (R442). -/
def execPartStateReset (d : DescRef) (s : State) : Host.Outcome State Fault Refusal :=
  .next (match s.desc? d.part d.num with
    | none => s
    | some x =>
      let p := x.fld 16 1
      if isAction 4 x && x.startedAt.isSome then (if d.startOnly then s else s.endReset p)
      else s.startDesc d (isAction 4)
        (fun t _ y => if (t.part (y.fld 16 1)).sec.st == .unconfigured then some (.status stIllegalState 0) else none)
        (fun t _ y =>
          let k := y.fld 16 1
          let t := if (t.part k).sec.resetting then t else t.beginReset k
          if d.startOnly && k != 0 then t else t.endReset k))

/-- FUNCTION_LEVEL_RESET (R221, R443): a partition reset, or for an unconfigured partition a reset of its page; the function's own
configuration registers return to reset. -/
def execFunctionLevelReset (p : Nat) (s : State) : Host.Outcome State Fault Refusal :=
  let t := { s with host := { s.host with cfg := updAt s.host.cfg p (fun _ => {}) } }
  .next (if !s.hasFn p || !s.host.up || (s.part p).sec.resetting then s
    else if (s.part p).sec.st = .unconfigured then t.resetPage p
    else (t.beginReset p).endReset p)

/-! ### Granules (R189, R193, R204, R446) -/

/-- A granule by its number in MEM_GRANT: 0 to 143, or 0x8000 + b. -/
def State.gran (s : State) (g : Nat) : Granule := if g < 0x8000 then s.mem.grans.getD g {} else s.mem.bulk.getD (g - 0x8000) {}

/-- Change a granule. -/
def State.onGranule (s : State) (g : Nat) (f : Granule → Granule) : State :=
  if g < 0x8000 then { s with mem := { s.mem with grans := updAt s.mem.grans g f } }
  else { s with mem := { s.mem with bulk := updAt s.mem.bulk (g - 0x8000) f } }

/-- The first physical address of a granule (R189, R195). -/
def granBase (g : Nat) : Nat := if g < 0x8000 then g * granSize else bulkBase + (g - 0x8000) * granSize

/-- Zero a granule through its backing (R193). -/
def State.zeroGranule (s : State) (g : Nat) : State := { s with mem := s.mem.zero (granBase g) (granBase g + granSize) }

/-- The first `n` free slices of a port or channel in service, ascending; none if there are fewer (R189, R603). -/
def State.takeSlices (s : State) (i n : Nat) : Option (List Nat) :=
  if !(s.mem.port i).avail then none
  else
    let l := ((List.range (if i < 16 then 144 else 360)).filter (s.sliceFree i)).take n
    if l.length = n then some l else none

/-- One slice on each of some ports or channels. -/
def State.oneEach (s : State) : List Nat → Option (List (Nat × Nat))
  | [] => some []
  | i :: is =>
    match s.takeSlices i 1, s.oneEach is with
    | some (x :: _), some rest => some ((if i < 16 then i else i - 16, x) :: rest)
    | _, _ => none

/-- The slices that back a granule in a mode (R189, R195). -/
def State.backing (s : State) (g mode port : Nat) : Option (List (Nat × Nat)) :=
  if g ≥ 0x8000 then s.oneEach ((List.range 8).map (16 + ·))
  else if mode = 0 then s.oneEach (List.range 16)
  else (s.takeSlices port 16).map (fun l => l.map (fun x => (port, x)))

/-- A granule joins an owner: backed and zeroed (R189, R193). -/
def State.grantOne (s : State) (owner mode port : Nat) (g : Nat) : Option State :=
  (s.backing g mode port).map (fun sl =>
    (s.onGranule g (fun x => { x with owner := owner, loc := if mode = 1 then some port else none, slices := sl })).zeroGranule g)

/-- Granules join an owner in turn, if the free slices back them all. -/
def State.grantAll (s : State) (owner mode port : Nat) : List Nat → Option State
  | [] => some s
  | g :: gs => match s.grantOne owner mode port g with | some t => t.grantAll owner mode port gs | none => none

/-- R446 refuses a grant: to a sealed partition, stacked granules that are not port-local on its own rim tiles; to another,
interleaved ones while a seal stands, or ones on a port inside a sealed rectangle. -/
def State.sealBars (s : State) (owner first mode port : Nat) : Bool :=
  first < 0x8000 && owner < 16 &&
  (if (s.part owner).sec.meshSeal then mode == 0 || (s.tile (rimTile port)).part != some owner
   else (List.range 16).any (fun q => q != owner && (s.part q).sec.meshSeal && (s.part q).sec.st != .unconfigured &&
     (mode == 0 || (s.tile (rimTile port)).part == some q)))

/-- The granules that a MEM_GRANT or MEM_RELEASE names (R285). -/
def Desc.granules (d : Desc) : List Nat := (List.range (d.fld 22 2)).map (fun k => d.fld 20 2 + k)

/-- Check 6 of MEM_GRANT (R189, R286, R446, R461). -/
def State.memGrantCheck (s : State) (_ : Nat) (d : Desc) : Option Fail :=
  let o := d.fld 16 1
  let mode := d.fld 17 1
  (if o < 16 then s.frozenBars o <|> s.named o else none) <|>
    (if (o < 16 && (s.part o).sec.st == .unconfigured) || d.granules.any (fun g => (s.gran g).owner != 0x1F) then
       some (.status stIllegalState 0)
     else if s.sealBars o (d.fld 20 2) mode (d.fld 18 1) || (s.grantAll o mode (d.fld 18 1) d.granules).isNone then
       some (.status stNotAdmitted 0)
     else none)

/-- MEM_GRANT (R189): it completes after the zeroing. -/
def execMemGrant (d : DescRef) (s : State) : Host.Outcome State Fault Refusal :=
  .next (s.startDesc d (isOp 0x92) State.memGrantCheck (fun t p x =>
    ((t.grantAll (x.fld 16 1) (x.fld 17 1) (x.fld 18 1) x.granules).getD t).complete p x {}))

/-- The slices of granule g that hold failing rows: those of its failing words, and those on a port or channel that went out of
service (R204, R603). -/
def State.failingSlices (s : State) (g : Nat) : List (Nat × Nat) :=
  let x := s.gran g
  let port := fun (i : Nat) => if g < 0x8000 then i else 16 + i
  x.slices.filter (fun y => x.gone.contains y.1 ||
    x.retired.any (fun r => r.2.any (fun w => s.mem.portOf w == some (port y.1) && s.mem.sliceAt w == y.2)))

/-- The repair and test of a slice with failing rows (R204): whether the device still has a repair for them is open; without one the
slice is lost. -/
def State.repairSlice (s : State) (g : Nat) (x : Nat × Nat) : State :=
  let i := if g < 0x8000 then x.1 else 16 + x.1
  let t := s.tick
  if s.freeNat % 2 = 0 then t
  else ({ t with mem := t.mem.onPort i (fun q => if q.lost.contains x.2 then q else { q with lost := q.lost ++ [x.2] }) }).raise 0 0x42
    (toLe 1 (b2n (decide (0x8000 ≤ g))) ++ toLe 1 x.1 ++ toLe 2 x.2)

/-- A granule returns to the free pool: zeroed, its retired frames repaired and tested (R193, R204). -/
def State.freeGranule (s : State) (g : Nat) : State :=
  let s := s.zeroGranule g
  let s := (s.failingSlices g).foldl (fun (t : State) x => t.repairSlice g x) s
  let s := { s with mem := { s.mem with corrected := s.mem.corrected.filter (fun x =>
    x.1 < granBase g || granBase g + granSize ≤ x.1) } }
  s.onGranule g (fun _ => {})

/-- Pages of a partition's retired or old key epoch go with their granule (R467). -/
def dropFrames (lo hi : Nat) (l : List (Nat × Nat)) : List (Nat × Nat) :=
  l.flatMap (fun r =>
    (if r.1 < lo then [(r.1, Nat.min r.2 (lo - r.1))] else []) ++
    (if r.1 + r.2 > hi then [(Nat.max r.1 hi, r.1 + r.2 - Nat.max r.1 hi)] else []))

/-- A granule leaves its owner (R193). -/
def State.releaseGranule (s : State) (g : Nat) : State :=
  let o := (s.gran g).owner
  let lo := granBase g / 0x10000
  let s := if o < 16 then s.onSec o (fun x => { x with
      oldFrames := dropFrames lo (lo + 0x4000) x.oldFrames, retiredFrames := dropFrames lo (lo + 0x4000) x.retiredFrames }) else s
  s.freeGranule g

/-- Check 6 of MEM_RELEASE (R286, R461). -/
def State.memReleaseCheck (s : State) (_ : Nat) (d : Desc) : Option Fail :=
  let o := d.fld 16 1
  (if o < 16 then s.frozenBars o <|> s.named o else none) <|>
    (if (o < 16 && (s.part o).sec.st == .running) || d.granules.any (fun g => (s.gran g).owner != o) then
       some (.status stIllegalState 0)
     else none)

/-- MEM_RELEASE (R193). -/
def execMemRelease (d : DescRef) (s : State) : Host.Outcome State Fault Refusal :=
  .next (s.startDesc d (isOp 0x93) State.memReleaseCheck (fun t p x =>
    (x.granules.foldl (fun (a : State) g => a.releaseGranule g) t).complete p x {}))

/-- Every granule that a tag owns. -/
def State.ownedGranules (s : State) (o : Nat) : List Nat :=
  (List.range 144).filter (fun g => (s.gran g).owner == o) ++
    ((List.range 360).map (0x8000 + ·)).filter (fun g => (s.gran g).owner == o)

/-- UNCONFIGURE takes effect (R441). -/
def State.unconfigure (s : State) (p : Nat) : State :=
  let s := if p = 0 then s else s.endNaming p
  let s := (s.ownedGranules p).foldl (fun (t : State) g => t.freeGranule g) s
  let s := (s.tilesOf p).foldl (fun (t : State) k => (t.freeTile k).leaveTile k) s
  let s := s.ownLinks (s.part p).sec.linkPorts 0x1F
  let s := (s.domsOf p).foldl (fun (t : State) k => t.onDom k (fun d => { d with wantSt := .dark, wantCode := 0x48 })) s
  (s.onPart p (fun q => q.fresh p { session := q.sec.session, handshake := q.sec.handshake, heartbeatAt := q.sec.heartbeatAt,
                                    lastMeas := q.sec.lastMeas, sealGen := q.sec.sealGen, sealKey := q.sec.sealKey, openKey := q.sec.openKey, openOld := q.sec.openOld,
                                    ideKeys := q.sec.ideKeys, doeReply := q.sec.doeReply })).postPresence p

/-- PART_STATE_UNCONFIGURE (R441). -/
def execPartStateUnconfigure (d : DescRef) (s : State) : Host.Outcome State Fault Refusal :=
  .next (s.startDesc d (isAction 5) (fun t _ x => t.actionCheck .configured x)
    (fun t p x => (t.unconfigure (x.fld 16 1)).complete p x {}))

/-! ### The loss of admission (R462) -/

/-- The partition's keys are erased: both memory key slots and every content slot. -/
def PartSec.erased (x : PartSec) : PartSec :=
  { x with st := .faulted, curKey := none, prevKey := none, content := List.replicate 8 none }

/-- Admission is lost (R441, R462): the keys go first, then the descriptors finish. `why` is 1 for the interface, 2 for the
session. -/
def State.loseAdmission (s : State) (p why : Nat) : State :=
  match (s.part p).sec.st with
  | .admitted | .running | .quiescing =>
    (((s.onSec p PartSec.erased).raiseBoth p 0x62 (toLe 1 why)).endAll p stPartitionReset).checkExpel
  | _ => s

/-- The condition of its mode no longer holds for a partition in the trusted domain (R462). -/
def State.admissionGone (s : State) (p : Nat) : Option Nat :=
  let x := (s.part p).sec
  if x.secMode = 1 && x.tdi != .run then some 1 else if x.secMode = 2 && !x.session then some 2 else none

/-- ADMISSION_LOST (R462). -/
def execAdmissionLost (p : Nat) (s : State) : Host.Outcome State Fault Refusal :=
  .next (match s.admissionGone p with
    | some w => s.loseAdmission p w
    | none => s)

end Sys2Proof.Machine
end

