-- ==== Sys2Proof/Machine/Firmware.lean ====
section
/-! DEFINITION. Firmware packages (R492 to R496): staging and activation. -/

namespace Sys2Proof.Machine

/-! ### Targets and slots -/

/-- A firmware target. -/
def State.fwTarget (s : State) (t : Nat) : FwTarget := s.boot.fw.getD t {}

/-- Change a firmware target. -/
def State.onFw (s : State) (t : Nat) (f : FwTarget → FwTarget) : State :=
  { s with boot := { s.boot with fw := updAt s.boot.fw t f } }

/-- The slot of the active bank (R492). -/
def FwTarget.active (t : FwTarget) : FwSlot := if t.activeB then t.b else t.a

/-- The slot of the inactive bank (R492). -/
def FwTarget.other (t : FwTarget) : FwSlot := if t.activeB then t.a else t.b

/-- Change the slot of the inactive bank. -/
def FwTarget.onOther (t : FwTarget) (f : FwSlot → FwSlot) : FwTarget :=
  if t.activeB then { t with a := f t.a } else { t with b := f t.b }

/-- A slot holds a package that passes the checks against the present fused counter (R492, R496). -/
def FwTarget.good (t : FwTarget) (x : FwSlot) : Bool := x.valid && decide (t.fuse ≤ x.svn)

/-- The other bank becomes the active one (R494, R495). -/
def FwTarget.switched (t : FwTarget) : FwTarget :=
  let now := fun (x : FwSlot) => { x with staged := false, previous := false }
  let was := fun (x : FwSlot) => { x with staged := false, previous := true }
  { t with a := if t.activeB then now t.a else was t.a, b := if t.activeB then was t.b else now t.b,
           activeB := !t.activeB, reached := false }

/-- The guard raises a target's fused counter as a staging of it starts (R496). -/
def FwTarget.fused (t : FwTarget) : FwTarget :=
  if t.reached then { t with fuse := Nat.min 64 (Nat.max t.fuse t.active.svn) } else t

/-- The target of FW_STAGE and FW_ACTIVATE. -/
def Desc.target (d : Desc) : Nat := d.fld 16 1

/-- The offending bytes of a package header (R12, R493). -/
def fwHeadBad (target : Nat) (h : List Byte) : List (Bool × Nat) :=
  chk [(byteAt h 5 > 64, 5), (target == 0 && fieldAt h 12 4 > 0x40000, 12)] ++ resv h 6 2 ++ resv h 160 352

/-- What refuses a package without side effects (R493): its header, once the command has read it. -/
def fwBad (r : HostRead) (d : Desc) : Option Fail :=
  match r with
  | .data b =>
    if b.length != d.fld 32 4 then none
    else if d.fld 32 4 != 512 + fieldAt b 12 4 then some (badAt 32)
    else (firstBad (fwHeadBad d.target b)).map badInBlock
  | _ => none

/-- Check 6 of FW_STAGE, and what its header gives (R493). -/
def State.fwStageCheck (s : State) (r : HostRead) (d : Desc) : Option Fail :=
  let slot := (s.fwTarget d.target).other
  if s.staging || (d.target = 2 && slot.valid && s.parts.any (fun q => q.engines.any (fun e => e.release == slot.version))) then
    some (.status stBusy 0)
  else fwBad r d

/-- The slot of a target becomes invalid, and its counter is raised (R493, R496). -/
def State.fwOpen (s : State) (d : Desc) : State :=
  s.onFw d.target (fun t => (t.fused).onOther (fun x => { x with valid := false, staged := false, previous := false }))

/-- The slot that a package of these bytes fills (R493). -/
def fwSlotOf (b : List Byte) : FwSlot :=
  { valid := true, version := if byteAt b 4 = 2 then fieldAt b 8 3 else fieldAt b 8 4, svn := byteAt b 5
    digest := sliceOf b 16 48, images := (Config.manifest (b.drop 512)).map (fun i => { num := i.1, opcodes := i.2.1, role := i.2.2 }), staged := true }

/-- FW_STAGE runs: the checks of R493 on the package, and the slot valid when all pass. -/
def State.fwStage (s : State) (r : HostRead) (d : Desc) : Except Fail (State × Done) :=
  match hostFail (s.hostGives r), r with
  | some f, _ => .error f
  | none, .data b =>
    if byteAt b 4 != d.target || fieldAt b 0 4 != 0x46575A38 || !Config.signedByStaund (b.take 64) (sliceOf b 64 96) ||
        byteAt b 5 < (s.fwTarget d.target).fuse then
      .ok (s, { status := stAccessDenied, result := 0xF })
    else if shaOf (b.drop 512) != sliceOf b 16 48 then .ok (s, { status := stCrcMismatch })
    else
      let bank := b2n (!(s.fwTarget d.target).activeB)
      let s := s.onFw d.target (fun t => t.onOther (fun _ => fwSlotOf b))
      .ok (s.raise 0 0x81 (toLe 1 d.target ++ toLe 1 bank ++ zeros 2 ++ toLe 4 (fieldAt b 8 4)), { result := fieldAt b 8 4 })
  | none, _ => .ok (s, {})

/-- The command has the whole package, or knows that it cannot read it. -/
def fwWhole (r : HostRead) (len : Nat) : Bool :=
  match r with
  | .data b => b.length == len
  | .sealed _ => false
  | _ => true

/-- FW_STAGE (R493): without the package's LEN bytes it only starts. -/
def execFwStage (d : DescRef) (k : HostRead) (s : State) : Host.Outcome State Fault Refusal :=
  let len := match s.desc? d.part d.num with | some x => x.fld 32 4 | none => 0
  let c : Course := {
    check := fun t _ x => t.fwStageCheck k x
    opens := fun t _ x => t.fwOpen x
    run := fun t _ x => t.fwStage k x }
  let r := { d with startOnly := d.startOnly || !(fwWhole k len || !s.host.up) }
  let reads := !r.startOnly && (match s.desc? d.part d.num with
    | some x => isOp 0x98 x && s.reaches c d.part x
    | none => false)
  let t := s.runDesc r (isOp 0x98) c
  .next (if reads then t.noteHostRead d.part k else t)

/-- Check 6 of FW_ACTIVATE (R494). -/
def State.fwActivateCheck (s : State) (_ : Nat) (d : Desc) : Option Fail :=
  let t := s.fwTarget d.target
  let x := t.other
  if t.good x && (if d.fld 17 1 = 0 then x.staged else x.previous) then none else some (.status stIllegalState 0)

/-- FW_ACTIVATE (R494): a steward's change restarts the steward. -/
def execFwActivate (d : DescRef) (s : State) : Host.Outcome State Fault Refusal :=
  .next (s.startDesc d (isOp 0x99) State.fwActivateCheck (fun t p x =>
    let k := x.target
    let t := t.onFw k FwTarget.switched
    let f := t.fwTarget k
    let t := t.raise 0 0x82 (toLe 1 k ++ toLe 1 (b2n f.activeB) ++ toLe 1 (x.fld 17 1) ++ zeros 1 ++ toLe 4 f.active.version)
    let t := if k = 1 then t.restartSteward else t
    t.complete p x { result := f.active.version }))

end Sys2Proof.Machine
end

