-- ==== Sys2Proof/Machine/Collective.lean ====
section
/-! DEFINITION. Collective groups and the collectives (R380 to R387). -/

namespace Sys2Proof.Machine

/-! ### GROUP_SET -/

/-- The offending bytes of a group table (R380). -/
def groupBad (t : List Byte) : List (Bool × Nat) :=
  let n := byteAt t 4
  let up := byteAt t 6
  let dn := byteAt t 7
  chk [(fieldAt t 0 4 != 1, 0), (n == 0 || n > 64, 4), (byteAt t 5 ≥ n, 5), (if n = 1 then up != 0xFF else up > 7, 6),
    (if n = 1 then dn != 0xFF else dn > 7 || (n > 2 && dn == up), 7)] ++ resv t 32 32

/-- The group of a table. -/
def Group.ofBytes (t : List Byte) : Group :=
  let port := fun (x : Nat) => if x = 0xFF then none else some x
  { n := byteAt t 4, rank := byteAt t 5, up := port (byteAt t 6), down := port (byteAt t 7), gid := fieldAt t 8 8,
    serialUp := fieldAt t 16 8, serialDown := fieldAt t 24 8 }

/-- The incomplete collectives of group g of Pp that have started, in the order in which they started (R381). -/
def State.inGroup (s : State) (p g : Nat) : List Desc :=
  (s.part p).fetched.filter (fun d => isColl d.op && d.fld 24 1 == g && d.startedAt.isSome)

/-- The checks of GROUP_SET (R380). -/
def State.groupCheck (s : State) (p : Nat) (d : Desc) : Option Fail :=
  if !(s.inGroup p (d.fld 16 1)).isEmpty then some (.status stIllegalState 0)
  else match s.readVa p none 0 (d.fld 20 6) 64 with
    | .error f => some f
    | .ok t =>
      match firstBad (groupBad t) with
      | some o => some (badInBlock o)
      | none =>
        if (Group.ofBytes t).ports.any (fun n => (s.lp n).owner != p) then some (.status stAccessDenied 0xF) else none

/-- GROUP_SET (R380). -/
def execGroupSet (d : DescRef) (s : State) : Host.Outcome State Fault Refusal :=
  .next (s.runDesc d (isOp 0x6F) {
    check := State.groupCheck
    run := fun t p x => do
      let b ← t.readVa p none 0 (x.fld 20 6) 64
      okDone (t.onPart p (fun q => { q with groups := updAt q.groups (x.fld 16 1) (fun _ => some (Group.ofBytes b)) })) })

/-! ### The ring (R381, R382) -/

/-- A collective may take part in the ring (R381). -/
def State.ringOk (s : State) (g : Group) (seq : Nat) : Bool :=
  let up := fun (port : Option Nat) (serial : Nat) => match port with
    | some n => (s.lp n).st == .up && (s.lp n).peer == serial
    | none => true
  up g.up g.serialUp && up g.down g.serialDown && (match g.lastSeq with | some l => decide (seq > l) | none => true)

/-- The collective that takes part in the ring of a group, while it is incomplete. -/
def State.ringHolder (s : State) (p : Nat) (g : Group) : Option Nat :=
  match g.cur with
  | some n => if (s.desc? p n).isSome then some n else none
  | none => none

/-- The collective takes its place in the ring. -/
def State.enterRing (s : State) (p : Nat) (d : Desc) : State :=
  s.onPart p (fun q => { q with groups := updAt q.groups (d.fld 24 1) (Option.map (fun (g : Group) =>
    { g with cur := some d.num, lastSeq := some (d.fld 28 4) })) })

/-- Elements of a record. -/
def TRec.count (r : TRec) : Nat := r.batch * r.rows * r.cols

/-- A collective that reduces (R384). -/
def Desc.reduces (d : Desc) : Bool := d.op ≤ 0x61

/-- Send formats of the reductions (R384). -/
def reduceFmts (op : Nat) : List Nat := [0x0F, 0x0E, 0x0C, 0x0D, 0x04, 0x05] ++ (if op = 0 then [0x10] else [])

/-- Receive elements (R383). -/
def recvCount (op e n : Nat) : Nat :=
  match op with | 0x61 => e / n | 0x62 => n * e | _ => e

/-- The checks of a collective's records in a group of `n` ranks (R383, R384). -/
def collBlockBad (d : Desc) (n : Nat) (bl : List Byte) : List (Bool × Nat) :=
  let x := slotRec bl 0
  let y := slotRec bl 1
  let red := d.reduces
  let mx := red && isMx y.fmt
  let split := d.op == 0x61 || d.op == 0x63
  blockBad bl [need (if red then reduceFmts (d.fld 25 1) else allFmts.filter (fun f => !isMx f)),
    need (if red then arrayOut (x.fmt == 0x10) else [x.fmt]),
    ((needIf mx [0x11]).shape y.rows (y.cols / 32)).batches [y.batch]] ++
  chk [(split && x.count % n != 0, 8), (y.count != recvCount d.op x.count n, 40), (mx && y.cols % 32 != 0, 44)]

/-- Check 6 of a collective (R280, R381): its group is set and, when no other collective of the group is before it, it
may take part in the ring. -/
def State.collState (s : State) (p : Nat) (d : Desc) : Option Fail :=
  match s.group? p (d.fld 24 1) with
  | none => some (.status stIllegalState 0)
  | some g =>
    if (s.inGroup p (d.fld 24 1)).isEmpty && !s.ringOk g (d.fld 28 4) then some (.status stIllegalState 0) else none

/-- Checks 6 and 7 of a collective. -/
def State.collCheck (s : State) (p : Nat) (d : Desc) : Option Fail :=
  match s.collState p d, s.group? p (d.fld 24 1) with
  | some f, _ => some f
  | none, none => none
  | none, some g =>
    match s.paramBlock p d with
    | .error f => some f
    | .ok b =>
      match firstBad (collBlockBad d g.n b) with
      | some o => some (badInBlock o)
      | none => if d.op == 0x64 && d.fld 26 1 ≥ g.n then some (badAt 26) else s.digestReach p d

/-- The roll call of a rank (R382). -/
def rollCall (d : Desc) (g : Group) (x y : TRec) : List Nat :=
  [g.gid, d.fld 28 4, d.op, d.fld 25 1, d.fld 26 1, b2n (bitOf (d.fld 23 1) 0), b2n (bitOf (d.fld 23 1) 1), d.fld 32 8, x.fmt,
   y.fmt, x.count]

/-- Every other rank of the group has sent its message. -/
def peersAll (g : Group) (peers : List RankMsg) : Bool :=
  peers.length + 1 == g.n && (List.range g.n).all (fun r => r == g.rank || peers.any (fun m => m.rank == r))

/-- The lowest rank whose roll call differs from this one's. -/
def rollDiffers (peers : List RankMsg) (mine : List Nat) (n : Nat) : Option Nat :=
  (List.range n).find? (fun r => peers.any (fun m => m.rank == r && m.roll != mine))

/-! ### The data (R383 to R385) -/

/-- The elements of a tensor in row-major logical order, batch outermost (R92). -/
def Tensor.sequence (t : Tensor) : List Nat :=
  (List.range t.shape.batch).flatMap (fun b => (List.range t.shape.rows).flatMap (fun r =>
    (List.range t.shape.cols).map (fun c => t.elem b r c)))

/-- The elements of each rank's send tensor, by rank. -/
def rankSeqs (g : Group) (peers : List RankMsg) (fmt e : Nat) (mine : List Nat) : List (List Nat) :=
  (List.range g.n).map (fun r =>
    match peers.find? (fun m => m.rank == r) with
    | some m => (List.range e).map (fun i => rowElem m.data (elemBits fmt) i)
    | none => mine)

/-- The element `i` of every rank, in rank order. -/
def column (xs : List (List Nat)) (i : Nat) : List Nat := xs.map (fun l => l.getD i 0)

/-- A tensor whose elements are given in logical order. -/
def TRec.ofSeq (r : TRec) (es : Nat → Nat) : Tensor := r.build (fun b i j => es ((b * r.rows + i) * r.cols + j))

/-- The reduction of one element over the ranks in rank order (R384): the value, the ACC160 record and the flags. -/
def reduceElem (fmt op : Nat) (acc : Bool) (xs : List Nat) : Num × Nat × Acc :=
  let fold := fun (f : F32 → F32 → F32) (l : List F32) => match l with | [] => f32Zero | a :: r => r.foldl f a
  let ints := xs.map (sext 32)
  if fmt = 0x10 then
    let an := sext 16 (bitsOf (xs.headD 0) 191 176)
    let a := xs.foldl (fun (t : Acc) x => t.preload an x) {}
    if acc then let r := a.record an; (.nan, r.1, r.2) else let r := a.value an; (r.1, 0, r.2)
  else if fmt = 0x0F then
    let v := match op with
      | 0 => ints.foldl (· + ·) 0
      | 1 => ints.foldl (fun a b => if a < b then b else a) (ints.headD 0)
      | _ => ints.foldl (fun a b => if b < a then b else a) (ints.headD 0)
    (.ofInt v, 0, {})
  else
    let nums := xs.map (elemNum fmt)
    let fs := nums.map Num.f32
    let f := match op with | 0 => fAdd | 1 => fMax | _ => fMin
    ((fold f fs).num, 0, { specialIn := nums.any (fun x => x.special) })

/-- The reserved field of an ACC160 record of the send tensor (R85): the data fault. -/
def accFault (fmt : Nat) (mine : List Nat) : Option Fail :=
  if fmt = 0x10 then (mine.findSome? accReserved).map (badData 0) else none

/-- Write a reduction's receive tensor, which starts at element `base` of the full sequence (R384). -/
def State.runReduction (s : State) (p : Nat) (d : Desc) (bl : List Byte) (fmt base : Nat) (xs : List (List Nat)) :
    Except Fail (State × Done) :=
  let y := slotRec bl 1
  let cells := gridOf y.batch y.rows y.cols (fun b i j =>
    reduceElem fmt (d.fld 25 1) (y.fmt == 0x10) (column xs (base + (b * y.rows + i) * y.cols + j)))
  let flags := flagIf (cells.some_ (fun x => x.2.2.low)) cfWindowLow ||| flagIf (cells.some_ (fun x => x.2.2.high)) cfWindowHigh |||
    flagIf (cells.some_ (fun x => x.2.2.specialIn)) cfSpecialIn
  if y.fmt = 0x10 then
    s.putOuts p d [(1, y.build (fun b i j => (cells.at_ (.nan, 0, {}) b i j).2.1))] { cflags := flags }
  else
    let k : Conv := { sr := bitOf (d.fld 23 1) 0, seed := d.fld 32 8, sat := bitOf (d.fld 23 1) 1, axis := false, base := base }
    let o := k.run y.fmt 0 y.batch y.rows y.cols (fun _ _ => 0) (gridOf y.batch y.rows y.cols (fun b i j =>
      (cells.at_ (.nan, 0, {}) b i j).1))
    s.putOuts p d ((1, y.ofGrid o.elems) :: (if isMx y.fmt then [(2, (slotRec bl 2).ofGrid o.scales)] else []))
      { cflags := flags ||| flagIf o.above cfOutRange }

/-- The elements that a moving collective gives this rank (R383). -/
def movedElem (op root n rank e : Nat) (xs : List (List Nat)) (i : Nat) : Nat :=
  let at2 := fun (r j : Nat) => (xs.getD r []).getD j 0
  match op with
  | 0x62 => at2 (i / e) (i % e)
  | 0x63 => at2 (i / (e / n)) (rank * (e / n) + i % (e / n))
  | _ => at2 root i

/-- A collective in the ring, with the messages of the other ranks (R382 to R385). -/
def State.runColl (peers : List RankMsg) (s : State) (p : Nat) (d : Desc) : Except Fail (State × Done) := do
  match s.group? p (d.fld 24 1) with
  | none => .error (.status stIllegalState 0)
  | some g =>
    let holds := s.ringHolder p g == some d.num
    if !holds && !s.ringOk g (d.fld 28 4) then .ok (s, { status := stIllegalState })
    else
      let s := if holds then s else s.enterRing p d
      let bl ← s.paramBlock p d
      let x := slotRec bl 0
      match rollDiffers peers (rollCall d g x (slotRec bl 1)) g.n with
      | some r => .ok (s, { status := stIllegalState, result := r })
      | none =>
        let t ← s.slotTensor p d bl 0
        let mine := t.sequence
        match accFault x.fmt mine with
        | some f => .error f
        | none =>
          let xs := rankSeqs g peers x.fmt x.count mine
          if d.reduces then s.runReduction p d bl x.fmt (if d.op = 0x61 then g.rank * (x.count / g.n) else 0) xs
          else s.putOuts p d [(1, (slotRec bl 1).ofSeq (movedElem d.op (d.fld 26 1) g.n g.rank x.count xs))] {}

/-- The command brings a collective to its end: every other rank's message is there, and no collective of the group that
started before it is incomplete (R381). -/
def State.collEnds (s : State) (r : DescRef) (peers : List RankMsg) : Bool :=
  match s.desc? r.part r.num with
  | none => false
  | some d =>
    match s.group? r.part (d.fld 24 1) with
    | none => true
    | some g => peersAll g peers && ((s.inGroup r.part (d.fld 24 1)).takeWhile (fun e => e.num != d.num)).all (fun e =>
        match e.startedAt, d.startedAt with | some a, some b => decide (b < a) | some _, none => false | none, _ => true)

/-- The course of a collective row. -/
def State.collective (s : State) (r : DescRef) (op : Nat) (peers : List RankMsg) : State :=
  s.runDesc { r with startOnly := r.startOnly || !s.collEnds r peers } (isOp op) {
    check := State.collCheck
    opens := fun t p d => match t.group? p (d.fld 24 1) with
      | some g => if (t.ringHolder p g).isNone && t.ringOk g (d.fld 28 4) then t.enterRing p d else t
      | none => t
    run := State.runColl peers }

/-- ALL_REDUCE (R383, R384). -/
def execAllReduce (d : DescRef) (peers : List RankMsg) (s : State) : Host.Outcome State Fault Refusal :=
  .next (s.collective d 0x60 peers)

/-- REDUCE_SCATTER (R383, R384). -/
def execReduceScatter (d : DescRef) (peers : List RankMsg) (s : State) : Host.Outcome State Fault Refusal :=
  .next (s.collective d 0x61 peers)

/-- ALL_GATHER (R383). -/
def execAllGather (d : DescRef) (peers : List RankMsg) (s : State) : Host.Outcome State Fault Refusal :=
  .next (s.collective d 0x62 peers)

/-- ALL_TO_ALL (R383). -/
def execAllToAll (d : DescRef) (peers : List RankMsg) (s : State) : Host.Outcome State Fault Refusal :=
  .next (s.collective d 0x63 peers)

/-- BROADCAST (R383). -/
def execBroadcast (d : DescRef) (peers : List RankMsg) (s : State) : Host.Outcome State Fault Refusal :=
  .next (s.collective d 0x64 peers)

end Sys2Proof.Machine
end

