-- ==== Sys2Proof/Machine/Cyclic.lean ====
section
/-! DEFINITION. Cyclic acts and module pairs (18_cyclic_acts_and_module_pairs.md): the cycle's snapshot, lanes, comparison
and publication (R525 to R534), the failure of an act (R532, R539), claims and roles (R535 to R538), saved state (R540,
R541) and the warm copies (R543 to R545). -/

namespace Sys2Proof.Machine

namespace Cyclic

/-- T_k (R525). -/
def start (c : Cyclic) (k : Nat) : Nat := k * c.periodUs * 1000

/-- D_k (R525). -/
def deadline (c : Cyclic) (k : Nat) : Nat := c.start k + c.publishUs * 1000

/-- The lanes of the act. -/
def lanes (c : Cyclic) : List Nat := if c.twin then [0, 1] else [0]

/-- The entries of a kind. -/
def entries (c : Cyclic) (kind : Nat) : List Region := c.regions.filter (fun r => r.kind == kind)

/-- One cycle is over, run or skipped (R525). -/
def counted (c : Cyclic) : Cyclic := { c with next := c.next + 1, left := c.left.map (fun n => n - 1) }

end Cyclic

/-- A lane's region (R526). -/
def Region.at_ (r : Region) (lane : Nat) : Nat := if lane = 0 then r.va0 else r.va1

/-- Change the cyclic act of a slot. -/
def State.onCyc (s : State) (p n : Nat) (f : Cyclic → Cyclic) : State := s.onAct p n (fun a => { a with cyc := a.cyc.map f })

/-- An act event (R547). -/
def State.actEvent (s : State) (p n code b1 k : Nat) : State := s.raiseBoth p code (toLe 1 n ++ toLe 1 b1 ++ zeros 6 ++ toLe 8 k)

/-- An act event that is sent on its first cause after 1 s without one (R547). -/
def firstIn (now : Nat) (last : Option Nat) : Bool := match last with | some t => decide (t + 1000000000 ≤ now) | none => true

/-- A late, skipped or refused cycle is counted; CYCLE_LATE with `why` 1 late, 2 skipped (R529, R547). -/
def State.countLate (s : State) (p n why k : Nat) : State :=
  match (s.act p n).cyc with
  | none => s
  | some c =>
    let quiet := !firstIn s.now c.evAt.1
    let t := s.onCyc p n (fun x => { x with lates := satTo 8 (x.lates + 1), evAt := (some s.now, x.evAt.2) })
    if quiet then t else t.actEvent p n 0x70 why k

/-! ### The gate and the failure of an act (R532, R536, R539) -/

/-- The publication gate is open (R536). -/
def Pair.gate (x : Pair) : Bool := x.own && !x.partner

/-- The chain position of the module (R479). -/
def State.position (s : State) : Nat := (s.boot.dynAddr.getD 8) - 8

/-- The paired acts of the pair's partition, by slot. -/
def State.pairedSlots (s : State) : List Nat :=
  (List.range 64).filter (fun n => match (s.act s.pair.part n).cyc with | some c => c.paired | none => false)

/-- Every lane of the paired acts ends: cycles are idle outside ACTIVE (R538). -/
def State.idlePaired (s : State) : State :=
  s.pairedSlots.foldl (fun (t : State) n =>
    (t.endActDescs t.pair.part n stCancelled).onCyc t.pair.part n (fun c => { c with
      running := none, owed := none, late := false, retried := false, holding := false, loading := false })) s

/-- The active declares failure (R539): ACT_FAILED, the HEALTH cause, FAILED, and the own line deasserted. -/
def State.failPair (s : State) (n cause k : Nat) : State :=
  if s.pair.role = .active then
    let s := (s.actEvent s.pair.part n 0x72 cause k).alert 2
    ({ s with pair := { s.pair with role := .failed, own := false, failCause := cause } }).idlePaired
  else s

/-- The tiles of the engines that the lanes of an act run on. -/
def State.laneTiles (s : State) (p n : Nat) (c : Cyclic) : List Nat :=
  (c.lanes.flatMap (fun l =>
    match s.readAct p (if l = 0 then (s.act p n).va else c.lane1) true (l == 1) with
    | .ok ds => (laneEngines ds).eraseDups
    | .error _ => [])).flatMap (fun e =>
      match s.engine? p e with
      | some x => s.liveTiles x
      | none => [])

/-- An act fails by mismatch (R532): a striker round is queued for the tiles of its lanes. -/
def State.failAct (s : State) (p n k : Nat) : State :=
  match (s.act p n).cyc with
  | none => s
  | some c =>
    let s := (s.laneTiles p n c).foldl (fun (t : State) i => t.onUnit 0 i (fun u => { u with queued := true })) s
    if c.paired then s.failPair n 1 k
    else (s.actEvent p n 0x72 1 k).freeAct p n ((s.act p n).cycles % 2 ^ 32)

/-- The sudden stop ends every cyclic act (R169, R539): a paired active declares failure with cause 3, other acts stop at
once. -/
def State.stopCyclic (s : State) : State :=
  let s := match s.pairedSlots with
    | n :: _ => s.failPair n 3 (match (s.act s.pair.part n).cyc with | some c => (c.running.getD c.next) | none => 0)
    | [] => s
  (List.range 16).foldl (fun (t : State) p => (List.range 64).foldl (fun (t : State) n =>
    match (t.act p n).cyc with
    | some c => if c.paired then t else t.stopAct p n true
    | none => t) t) s

/-! ### The snapshot (R528) -/

/-- The record of a channel's latest released unit and its payload. -/
def State.latestUnit (s : State) (ch : Nat) : List Byte :=
  let i := s.writeIdx ch
  if i = 0 then []
  else
    let r := s.unitRecord ch (i - 1)
    r ++ s.peekVa (s.chan ch).part ((s.chan ch).fld 64 6 + fieldAt r 12 4) (Nat.min (fieldAt r 16 4) ((s.chan ch).fld 72 4))

/-- Bytes cut or filled with zeros to a length. -/
def padTo (bs : List Byte) (len : Nat) : List Byte := bs.take len ++ zeros (len - bs.length)

/-- Write one region entry's input into every lane. -/
def State.toLanes (s : State) (p : Nat) (c : Cyclic) (r : Region) (bs : List Byte) : State :=
  c.lanes.foldl (fun (t : State) l => t.tryWriteVa p (r.at_ l) bs) s

/-- The state of every lane is copied to its spare copy, or back from it (R528, R531). -/
def State.copyState (s : State) (p : Nat) (c : Cyclic) (back : Bool) : State :=
  (c.entries 4).foldl (fun (t : State) r => c.lanes.foldl (fun (t : State) l =>
    let a := r.at_ l
    if back then t.tryWriteVa p a (t.peekVa p (a + r.len) r.len) else t.tryWriteVa p (a + r.len) (t.peekVa p a r.len)) t) s

/-- The snapshot of a cycle. -/
def State.snapshot (s : State) (p : Nat) (c : Cyclic) : State :=
  let s := (c.entries 1).foldl (fun (t : State) r => t.toLanes p c r (t.peekVa p r.src r.len)) s
  let s := (c.entries 2).foldl (fun (t : State) r => t.toLanes p c r (padTo (t.latestUnit r.chan) r.len)) s
  s.copyState p c false

/-- Both lanes start: the act's descriptors are read again (R263). -/
def State.startLanes (s : State) (p n : Nat) (c : Cyclic) : State :=
  let a := s.act p n
  let d : Desc := { num := a.runNum, bytes := zeros 64, sq := 0, slot := 0, cq := 0 }
  let s := s.onAct p n (fun x => { x with outs := [] })
  c.lanes.foldl (fun (t : State) l =>
    match t.readAct p (if l = 0 then a.va else c.lane1) true (l == 1) with
    | .ok ds => t.addLane p n l d ds
    | .error _ => t) s

/-- The act is done with a cycle: a stop, or the last of CYCLES, frees the slot (R266). -/
def State.endCycle (s : State) (p n : Nat) : State :=
  let a := s.act p n
  match a.cyc with
  | some c => if c.running.isNone && c.owed.isNone && (a.st = .stopping || c.left == some 0) then s.freeCyclic p n else s
  | none => s

/-! ### Publication (R533, R534) -/

/-- The outcome of a publication (R534, R536). -/
inductive Issue | issued | refused | abandoned
deriving DecidableEq, Repr

/-- The 64-byte header of an image slot (R533); SEQ stands first. -/
def State.imageHeader (s : State) (c : Cyclic) (seq k : Nat) (held : Bool) (img : Nat × List Byte × Nat × List Byte) : List Byte :=
  let rollback := k = 0 || img.2.2.1 != k - 1
  let flags := b2n held + 2 * b2n c.takeover + 4 * b2n rollback + 8 * b2n (c.paired && s.pair.warm)
  toLe 4 seq ++ toLe 1 flags ++ toLe 1 (s.position % 64) ++ zeros 2 ++ toLe 4 img.2.2.2.length ++ zeros 4 ++ toLe 8 k ++
    toLe 8 img.1 ++ toLe 8 img.2.2.1 ++ toLe 8 Config.serial.toNat ++ padTo img.2.1 16

/-- Cycle k is published with an image: (SOURCE_CYCLE, DIGEST, STATE_FROM, payload) (R533, R534, R536). -/
def State.publish (s : State) (p n k : Nat) (held : Bool) (img : Nat × List Byte × Nat × List Byte) : State × Issue :=
  match (s.act p n).cyc with
  | none => (s, .abandoned)
  | some c =>
    let portUp := match c.chan with | some ch => (s.fp (s.chan ch).port).up | none => true
    if c.paired && !s.pair.gate then (s, .abandoned)
    else
      let seq := if k % 2 = 0 then c.seqs.1 else c.seqs.2
      let at_ := c.outAddr + k % 2 * c.outLen
      let wrote := c.outAddr != 0 && s.host.up
      let t := if wrote then
          (s.hostWriteAs p at_ (toLe 4 (seq + 1))).putRegion p n at_ (s.imageHeader c (seq + 2) k held img ++ img.2.2.2)
        else s
      let t := match c.chan with
        | some ch => (t.onChan ch (fun x => { x with sendSeq := k % 2 ^ 32 })).sendSensor ch (1 + 2 * b2n held) (c.start img.1)
            (img.2.2.2.length % 2 ^ 16) 0x14 1 img.2.2.2
        | none => t
      let next := (seq + 2) % 2 ^ 32
      let t := t.onCyc p n (fun x => { x with
        seqs := if !wrote then x.seqs else if k % 2 = 0 then (next, x.seqs.2) else (x.seqs.1, next)
        pubCycle := k, takeover := false, image := some img })
      (t, if s.host.up && portUp then .issued else .refused)

/-- A publication did not go out (R534, R539). -/
def State.afterIssue (s : State) (p n k : Nat) (i : Issue) : State :=
  match i, (s.act p n).cyc with
  | .refused, some c => if c.paired then s.failPair n 4 k else s.onCyc p n (fun x => { x with lates := satTo 8 (x.lates + 1) })
  | _, _ => s

/-- What a HELD publication shows while no slot is whole: the spec gives no bytes, so they are free (R533). -/
def State.noImage (s : State) (c : Cyclic) : Nat × List Byte × Nat × List Byte :=
  let at_ := fun (i n : Nat) => (List.range n).map (fun j => Config.freeByte (s.fresh + i + j))
  (fieldAt (at_ 0 8) 0 8, at_ 8 16, fieldAt (at_ 24 8) 0 8, at_ 32 (regionLen c.regions [3]))

/-- A HELD publication of cycle k: the newest whole slot's payload (R533). -/
def State.publishHeld (s : State) (p n k : Nat) : State :=
  match (s.act p n).cyc with
  | none => s
  | some c =>
    let img := c.image.getD (s.noImage c)
    let s := if c.image.isSome then s else { s with fresh := s.fresh + 32 + regionLen c.regions [3] }
    let x := s.publish p n k true img
    x.1.afterIssue p n k x.2

/-- The first cycle that is not skipped: none whose T_k a forward step of module time passed, nor any whose whole period has passed
(R525). -/
def Cyclic.unskipped (c : Cyclic) (s : State) : Nat :=
  let step := match s.host.stepAt with
    | some t => if c.start c.next ≤ t then t / (c.periodUs * 1000) + 1 else 0
    | none => 0
  Nat.max step (s.now / (c.periodUs * 1000))

/-- CYCLE_START (R525, R528, R529): the next cycle's T_k has come. Cycles whose start a step of module time has passed are skipped,
with one HELD publication. -/
def execCycleStart (p n : Nat) (s : State) : Host.Outcome State Fault Refusal :=
  let a := s.act p n
  .next (match a.cyc with
    | none => s
    | some c =>
      if a.st != .scheduled || s.now < c.start c.next || c.left == some 0 || c.periodUs = 0 then s
      else
        let idle := c.paired && s.pair.role != .active
        let newest := c.unskipped s
        if idle then ((s.onCyc p n (fun x => { x.counted with last := 5 }))).endCycle p n
        else if c.loading then (s.onCyc p n Cyclic.counted).endCycle p n
        else if c.running.isSome then
          (((s.onCyc p n (fun x => { x.counted with last := 4 })).countLate p n 2 c.next).endCycle p n)
        else if c.next < newest then
          let passed := (List.range (newest - c.next)).map (fun i => c.next + i)
          let t := passed.foldl (fun (t : State) k => (t.onCyc p n (fun x => { x.counted with last := 4 })).countLate p n 2 k) s
          (t.publishHeld p n (newest - 1)).endCycle p n
        else
          let k := c.next
          let t := (s.snapshot p c).startLanes p n c
          (t.onAct p n (fun x => { x with cycles := x.cycles + 1 })).onCyc p n (fun x => { x.counted with
            running := some k, owed := some k, late := false, retried := false, holding := false }))

/-! ### The comparison (R530, R531, R540, R544) -/

/-- The regions that a lane digest covers, none where one cannot be read (R530). -/
def State.laneRegions (s : State) (p : Nat) (c : Cyclic) (lane : Nat) : Option (List (List Byte)) :=
  (c.entries 3 ++ c.entries 4).mapM (fun r => match s.readVa p none 0 (r.at_ lane) r.len with
    | .ok bs => some bs
    | .error _ => none)

/-- Every act descriptor of every lane completed well, with equal CFLAGS (R530). -/
def ActSlot.lanesGood (a : ActSlot) (c : Cyclic) : Bool :=
  a.outs.length == a.count * c.lanes.length && a.outs.all (fun o => statusGood o.status) &&
  a.outs.all (fun o => a.outs.all (fun q => o.idx != q.idx || o.cflags == q.cflags))

/-- The lane digest, where the lanes match (R530). -/
def State.matched (s : State) (p n : Nat) (c : Cyclic) : Option (List Byte) :=
  if !(s.act p n).lanesGood c then none
  else match c.lanes.mapM (s.laneRegions p c) with
    | some (r :: rs) => if rs.all (fun x => digestOf x == digestOf r) then some (digestOf r) else none
    | _ => none

/-- Lane 0's state entries, in entry order. -/
def State.stateBytes (s : State) (p : Nat) (c : Cyclic) : List Byte := (c.entries 4).flatMap (fun r => s.peekVa p r.va0 r.len)

/-- The bytes of a save slot (R540); DIGEST is that of R59 over STATE, which R541 checks. -/
def saveSlot (k : Nat) (st : List Byte) : List Byte :=
  let h := toLe 4 0x53415645 ++ toLe 4 st.length ++ toLe 8 k ++ toLe 8 Config.serial.toNat ++ regionDigest st ++ zeros 16
  h ++ crc64.bytes h ++ st ++ crc64.bytes st

/-- The active saves state after a fresh publication of cycle k (R540); without a CRC context or a host link the save
fails. -/
def State.saveState (s : State) (p n k : Nat) (c : Cyclic) : State :=
  if !c.paired || s.pair.role != .active || !s.pair.gate || c.saveN = 0 || c.sharedAddr = 0 || k % c.saveN != 0 then s
  else if !s.host.up || (s.crcPick p 0xFF).isNone then s.actEvent p n 0x77 0 k
  else
    let b := saveSlot k (s.stateBytes p c)
    let at_ := c.sharedAddr + k / c.saveN % 2 * (c.sharedLen / 2)
    (s.hostWriteAs p (at_ + 64) (b.drop 64)).hostWriteAs p at_ (b.take 64)

/-- The message of a state copy: slot, LEN, cycle and digest, then the state (R544). -/
def copyMessage (n k : Nat) (st : List Byte) : List Byte :=
  toLe 1 n ++ zeros 3 ++ toLe 4 st.length ++ toLe 8 k ++ regionDigest st ++ st

/-- In warm mode the active sends a state copy on the pair link (R544). -/
def State.sendCopy (s : State) (p n k : Nat) (c : Cyclic) : State :=
  if c.paired && s.pair.warm && s.pair.gate && s.pairLink then s.linkSend s.links.pairPort 1 (copyMessage n k (s.stateBytes p c))
  else s

/-- The lanes of cycle k match: published FRESH in time, or kept without outputs when late (R529). -/
def State.laneMatch (s : State) (p n k : Nat) (c : Cyclic) (dig : List Byte) : State :=
  let done := fun (x : Cyclic) => { x with
    running := none, matched := x.matched + 1, stateFrom := some k, miss := x.miss && decide (x.matched + 1 < 1000) }
  if c.owed.isNone then (s.onCyc p n done).endCycle p n
  else
    let payload := (c.entries 3).flatMap (fun r => s.peekVa p r.va0 r.len)
    let x := s.publish p n k false (k, dig, c.stateFrom.getD (2 ^ 64 - 1), payload)
    let fresh := x.2 == .issued
    let t := x.1.onCyc p n (fun y => { done y with owed := none, last := 1, fresh := if fresh then satTo 32 (y.fresh + 1) else y.fresh })
    let t := if fresh then (t.saveState p n k c).sendCopy p n k c else t
    (t.afterIssue p n k x.2).endCycle p n

/-- The lanes of cycle k do not match: one retry in time, a failure at the second mismatch (R531). -/
def State.laneMismatch (s : State) (p n k : Nat) (c : Cyclic) : State :=
  let quiet := !firstIn s.now c.evAt.2
  let s := s.onCyc p n (fun x => { x with mismatches := satTo 8 (x.mismatches + 1), matched := 0, evAt := (x.evAt.1, some s.now) })
  let s := if quiet then s else s.actEvent p n 0x71 (if c.retried then 2 else 1) k
  if c.miss then s.failAct p n k
  else
    let s := (s.copyState p c true).onCyc p n (fun x => { x with miss := true })
    if c.owed.isSome && s.now ≤ c.deadline k then (s.startLanes p n c).onCyc p n (fun x => { x with retried := true })
    else (s.onCyc p n (fun x => { x with running := none, retried := true })).endCycle p n

/-- LANE_COMPLETE (R530, R531): every lane of the cycle is done. -/
def execLaneComplete (p n : Nat) (s : State) : Host.Outcome State Fault Refusal :=
  .next (match (s.act p n).cyc with
    | none => s
    | some c =>
      match c.running with
      | none => s
      | some k =>
        if !(s.actDescs p n).isEmpty then s
        else match s.matched p n c with
          | some dig => s.laneMatch p n k c dig
          | none => s.laneMismatch p n k c)

/-- CYCLE_DEADLINE (R529, R539, R541): a cycle owed its publication is HELD; after a claim, so is each deadline before the first
cycle run. -/
def execCycleDeadline (p n : Nat) (s : State) : Host.Outcome State Fault Refusal :=
  .next (match (s.act p n).cyc with
    | none => s
    | some c =>
      match c.owed with
      | some k =>
        if s.now < c.deadline k then s
        else
          let out := if c.retried then 3 else 2
          let t := (s.publishHeld p n k).onCyc p n (fun x => { x with owed := none, last := out, late := true })
          let t := if c.running.isSome || out = 2 then t.countLate p n 1 k else t
          (if c.paired && (c.running.isSome || out = 2) then t.failPair n 2 k else t).endCycle p n
      | none =>
        let k := (s.now - c.publishUs * 1000) / (c.periodUs * 1000)
        if c.holding && s.pair.role == .active && s.now ≥ c.publishUs * 1000 && c.periodUs != 0 && k > c.pubCycle then
          (s.onCyc p n (fun x => { x with last := 6 })).publishHeld p n k
        else s)

/-! ### Roles and claims (R535 to R538) -/

/-- A write of PAIR.CFG (R538, R543, R549). -/
def State.writePairCfg (s : State) (v : Nat) : State :=
  if s.sec.sealed then s
  else
    let on := bitOf v 31
    let was := s.pair.enable
    let s := { s with pair := { s.pair with enable := on, warm := bitOf v 30, part := bitsOf v 19 16 } }
    if on && !was then
      let t := { s with pair := { s.pair with role := .standby } }
      if s.pair.warm && !s.links.pairEn then t.pairEvent 0x78 (toLe 1 2) else t
    else if was && !on then ({ s with pair := { s.pair with role := .off, own := false } }).idlePaired
    else s

/-- PAIR_CFG_WRITE (R538). -/
def execPairCfgWrite (v : Word) (s : State) : Host.Outcome State Fault Refusal :=
  .next (if s.boot.stepEight then s.wakeDeep.writePairCfg v.toNat else s)

/-- The member is ready to claim (R535, R536, R537). -/
def State.readyToClaim (s : State) : Bool :=
  s.pair.enable && s.pair.role == .standby && s.host.up && s.boot.dynAddr.isSome && !s.sameParity &&
  (s.boot.st == .ready || s.boot.st == .degraded || s.boot.st == .curtain) &&
  s.pairedSlots.all (fun n => (s.act s.pair.part n).st == .scheduled &&
    (match (s.act s.pair.part n).cyc with
     | some c => (match c.chan with | some ch => (s.fp (s.chan ch).port).up | none => true)
     | none => true))

/-- CLAIM_START (R537): the command comes when the partner line has been deasserted for 2 ms. -/
def execClaimStart (s : State) : Host.Outcome State Fault Refusal :=
  .next (if s.readyToClaim && s.now ≥ s.pair.notBefore then
    { s with pair := { s.pair with partner := false, role := .claiming, own := true, claimAt := s.now } }
  else s)

/-- A paired act after a claim (R541): it waits for its state, then for the next T_k. -/
def Cyclic.claimed (c : Cyclic) : Cyclic :=
  { c with running := none, owed := none, late := false, retried := false, takeover := true, holding := true, loading := true
           stateFrom := none, copying := none }

/-- The first cycle that starts after a moment. -/
def Cyclic.firstAfter (c : Cyclic) (now : Nat) : Nat := Nat.max c.next (if c.periodUs = 0 then 0 else now / (c.periodUs * 1000) + 1)

/-- CLAIM_CHECK (R537, R538). -/
def execClaimCheck (s : State) : Host.Outcome State Fault Refusal :=
  .next (if s.pair.role != .claiming || s.now < s.pair.claimAt + 100000 then s
    else if s.pair.partner then
      ({ s with pair := { s.pair with role := .standby, own := false, collisions := satTo 16 (s.pair.collisions + 1),
                                      notBefore := s.now + (if s.position % 2 = 0 then 2000000 else 6000000) } }).pairEvent 0x75 (toLe 1 1)
    else
      let s := { s with pair := { s.pair with role := .active, takeovers := satTo 16 (s.pair.takeovers + 1) } }
      let s := s.pairedSlots.foldl (fun (t : State) n => t.onCyc t.pair.part n Cyclic.claimed) s
      let first := match s.pairedSlots with
        | n :: _ => (match (s.act s.pair.part n).cyc with | some c => c.firstAfter s.now | none => 0)
        | [] => 0
      s.pairEvent 0x73 (toLe 1 (if s.pair.partnerSeen then 2 else 1) ++ zeros 7 ++ toLe 8 first))

/-- PARTNER_LINE_ASSERT (R536, R538): the gate closes; an active stands down with PAIR_COLLISION. -/
def execPartnerLineAssert (s : State) : Host.Outcome State Fault Refusal :=
  let s := { s with pair := { s.pair with partner := true, partnerSeen := true } }
  .next (if s.pair.role = .active then
    let s := ({ s with pair := { s.pair with role := .standby, own := false, collisions := satTo 16 (s.pair.collisions + 1) } }).idlePaired
    (s.pairEvent 0x75 (toLe 1 2)).pairEvent 0x74 (toLe 1 2)
  else s)

/-- FAILED goes to STANDBY at REARM (R538). -/
def State.rearmPair (s : State) : State :=
  if s.pair.role = .failed then { s with pair := { s.pair with role := .standby } } else s

/-- PAIR_REARM (R538). -/
def execPairRearm (s : State) : Host.Outcome State Fault Refusal := .next (if s.boot.stepEight then s.wakeDeep.rearmPair else s)

/-- The active hands its role to the partner (R538). -/
def State.handOver (s : State) : State := if s.pair.role = .active then (s.standDown 1).idlePaired else s

/-- PAIR_HANDOVER (R538). -/
def execPairHandover (s : State) : Host.Outcome State Fault Refusal := .next (if s.boot.stepEight then s.wakeDeep.handOver else s)

/-- A write of PAIR.CTRL (R549). -/
def State.writePairCtrl (s : State) (v : Nat) : State :=
  let s := if bitOf v 31 then s.rearmPair else s
  if bitOf v 30 then s.handOver else s

/-! ### The state after a claim (R541, R545) -/

/-- The bytes that a read of host memory gave. -/
def readBytes : HostRead → Option (List Byte)
  | .data b => some b
  | _ => none

/-- A save slot that passes HCHECK, RCHECK and its digest, as (cycle, state) (R541). -/
def saveOk (len : Nat) (r : HostRead) : Option (Nat × List Byte) :=
  match readBytes r with
  | none => none
  | some b =>
    let st := sliceOf b 64 (fieldAt b 4 4)
    if fieldAt b 0 4 == 0x53415645 && fieldAt b 4 4 == len && sliceOf b 56 8 == crc64.bytes (sliceOf b 0 56) &&
        st.length == len && sliceOf b (64 + len) 8 == crc64.bytes st && sliceOf b 24 16 == regionDigest st then
      some (fieldAt b 8 8, st) else none

/-- The newer of two save slots that pass. -/
def newerSave (a b : Option (Nat × List Byte)) : Option (Nat × List Byte) :=
  match a, b with
  | some x, some y => if x.1 < y.1 then b else a
  | some _, none => a
  | none, _ => b

/-- Lay a state out over the state regions of lanes: in the regions, or in their spare copies. -/
def State.layState (s : State) (p : Nat) (lanes : List Nat) (spare : Bool) : List Region → List Byte → State
  | [], _ => s
  | r :: rs, bs =>
    (lanes.foldl (fun (t : State) l => t.tryWriteVa p (r.at_ l + (if spare then r.len else 0)) (bs.take r.len)) s).layState p lanes spare rs
      (bs.drop r.len)

/-- The newest whole image slot as a host read gave it: its CYCLE and what a HELD payload copies (R533). -/
def imageOf (r : HostRead) : Option (Nat × Nat × List Byte × Nat × List Byte) :=
  match readBytes r with
  | some b => if b.length ≥ 64 && fieldAt b 0 4 % 2 = 0 then
      some (fieldAt b 16 8, fieldAt b 24 8, sliceOf b 48 16, fieldAt b 32 8, sliceOf b 64 (fieldAt b 8 4)) else none
  | none => none

/-- STATE_LOADED (R541, R545): the HELD publication with TAKEOVER, then the state of the warm copy or of the newer save
slot, or the state as it stands. `a` and `b` are the save slots as read, `img` the newest whole image slot; a read that fails is counted
(R215). -/
def execStateLoaded (n : Nat) (a b img : HostRead) (s : State) : Host.Outcome State Fault Refusal :=
  let p := s.pair.part
  let a := s.hostGives a
  let b := s.hostGives b
  let img := s.hostGives img
  .next (match (s.act p n).cyc with
    | none => s
    | some c =>
      if !c.loading || !c.paired || s.pair.role != .active then s
      else
        let s := ([a, b, img] : List HostRead).foldl (fun (t : State) r => if readFails r then t.countRdErr p else t) s
        let s := match imageOf img with
          | some i => s.onCyc p n (fun x => { x with image := some i.2, pubCycle := i.1 })
          | none => s
        let past := if s.now < c.publishUs * 1000 || c.periodUs = 0 then 0 else (s.now - c.publishUs * 1000) / (c.periodUs * 1000)
        let k := match (s.act p n).cyc with | some x => Nat.max (x.pubCycle + 1) past | none => past
        let s := s.publishHeld p n k
        let len := regionLen c.regions [4]
        let src := if s.pair.warm && c.warm.isSome then
            some (1, c.warm.getD 0, (c.entries 4).flatMap (fun r => s.peekVa p (r.va0 + r.len) r.len))
          else (newerSave (saveOk len a) (saveOk len b)).map (fun x => (0, x.1, x.2))
        let s := match src with
          | some x => s.layState p c.lanes false (c.entries 4) x.2.2
          | none => s
        let s := s.onCyc p n (fun x => { x with loading := false, miss := false, stateFrom := src.map (fun y => y.2.1), next := x.firstAfter s.now })
        match src with
        | some x => s.actEvent p n 0x76 x.1 x.2.1
        | none => s.actEvent p n 0x76 2 (2 ^ 64 - 1))

/-! ### Warm copies (R544) -/

/-- More bytes of a state copy: into the spare copies of lane 1. -/
def State.takeCopy (s : State) (p n : Nat) (c : Cyclic) (bs : List Byte) (fin : Bool) : State :=
  match c.copying with
  | none => s
  | some (k, len, dig, got) =>
    let st := got ++ bs
    let s := s.layState p [1] true (c.entries 4) st
    if !fin then s.onCyc p n (fun x => { x with copying := some (k, len, dig, st) })
    else
      let ok := st.length == len && len == regionLen c.regions [4] && regionDigest st == dig
      let s := if ok then s.layState p [0] true (c.entries 4) st else s
      s.onCyc p n (fun x => { x with copying := none, warm := if ok then some k else x.warm })

/-- STATE_COPY_RECEIVE (R544): a part of a state copy; `start` with the header, `fin` with the last byte. A copy that is not whole
when the next one begins is abandoned. -/
def execStateCopyReceive (m : List Byte) (start fin : Bool) (s : State) : Host.Outcome State Fault Refusal :=
  let p := s.pair.part
  let n := if start then byteAt m 0 else (s.pairedSlots.find? (fun n => match (s.act p n).cyc with
    | some c => c.copying.isSome | none => false)).getD 64
  .next (if !s.pair.warm || s.pair.role == .active then s
    else match (s.act p n).cyc with
      | none => s
      | some c =>
        if !c.paired || (start && m.length < 32) then s
        else if start then
          let s := if c.copying.isSome then { s with pair := { s.pair with copiesLost := s.pair.copiesLost + 1 } } else s
          let s := s.onCyc p n (fun x => { x with copying := some (fieldAt m 8 8, fieldAt m 4 4, sliceOf m 16 16, []) })
          s.takeCopy p n { c with copying := some (fieldAt m 8 8, fieldAt m 4 4, sliceOf m 16 16, []) } (m.drop 32) fin
        else s.takeCopy p n c m fin)

end Sys2Proof.Machine
end

