-- ==== Sys2Proof/Machine/Rates.lean ====
section
/-! DEFINITION. Rate samples and their control (R113 to R118, R127), and the passing of a descriptor's TIMEOUT (R253). -/

namespace Sys2Proof.Machine

/-! ### Rate pages (R113 to R117, R127) -/

/-- The rate control of a page: of the module (none) or of a partition. -/
def State.rateOf (s : State) : Option Nat → RateCtl
  | none => s.fabric.rate
  | some p => (s.part p).rate

/-- Change the rate control of a page. -/
def State.onRate (s : State) (page : Option Nat) (f : RateCtl → RateCtl) : State :=
  match page with
  | none => { s with fabric := { s.fabric with rate := f s.fabric.rate } }
  | some p => s.onPart p (fun q => { q with rate := f q.rate })

/-- Samples of a page can be taken: a partition page needs its partition RUNNING (R114). -/
def State.sampling (s : State) : Option Nat → Bool
  | none => true
  | some p => (s.part p).sec.st == .running

/-- A write of FAB.RATE_CTRL or FAB.MOD_RATE_CTRL (R114, R127). ENABLE = 1 with a PERIOD out of range is ignored whole. The
first sample is due one period after the write that set ENABLE. -/
def State.writeRateCtrl (s : State) (page : Option Nat) (v : Nat) : State :=
  let en := bitOf v 31
  let per := bitsOf v 16 0
  if en && (per < 10 || per > 100000) then s
  else
    let live := s.sampling page
    s.onRate page (fun r =>
      if !en then { r with enable := false, period := per, next := none }
      else if r.enable then { r with period := per }
      else { r with enable := true, period := per, first := true, next := if live then some (s.now + per * 10000) else none })

/-- A write of the base of a rate page (R127). -/
def State.writeRateBase (s : State) (page : Option Nat) (hi : Bool) (v : Nat) : State :=
  s.onRate page (fun r => { r with base := if hi then r.base % 2 ^ 32 + v * 2 ^ 32 else r.base / 2 ^ 32 * 2 ^ 32 + v / 0x1000 * 0x1000 })

/-- FAB_RATE_CTRL_WRITE (R114): the page of a resetting partition takes no writes (R584). -/
def execFabRateCtrlWrite (page : Option Nat) (v : Word) (s : State) : Host.Outcome State Fault Refusal :=
  .next (if s.boot.stepEight && (match page with | none => true | some p => p < 16 && !(s.part p).sec.resetting) then
      s.wakeDeep.writeRateCtrl page v.toNat
    else s)

/-- The tiles of a rate page (R114). -/
def State.rateTiles (s : State) : Option Nat → List Nat
  | none => List.range 64
  | some p => s.tilesOf p

/-- A counter as a holding register copies it: within 1 of the count at the pulse, which is timing and free (R34, R113), and not below
what the counter was latched at when the tile joined. -/
def copied (base v : BitVec 64) (free : Nat) : BitVec 64 :=
  match free % 3 with
  | 0 => v
  | 1 => v + 1
  | _ => if v = base then v else v - 1

/-- The latch pulse reaches tile t: its counters are copied into its holding registers (R113). -/
def State.latchTile (s : State) (t : Nat) : State :=
  let s := s.settleTile t
  let f := Config.freeNat
  { s with fresh := s.fresh + 3 }.onTile t (fun x => { x with
    held := (copied x.base.1 x.pace (f s.fresh), copied x.base.2.1 x.beats (f (s.fresh + 1)), copied x.base.2.2 x.work (f (s.fresh + 2))) })

/-- The entry of tile t in a rate page (R115, R116). -/
def State.rateEntry (s : State) (page : Option Nat) (first : Bool) (t : Nat) : List Byte :=
  let x := s.tile t
  let own := page.isSome
  let cont := !first && (if own then x.contPart else x.contMod)
  let less := fun (a b : BitVec 64) => toLe 8 (if own then a - b else a).toNat
  toLe 1 t ++ toLe 1 (s.dom (domOfTile t)).st.code ++ toLe 1 (b2n cont + 2 * b2n (own && !first && x.joined)) ++ zeros 5 ++
    less x.held.1 x.base.1 ++ less x.held.2.1 x.base.2.1 ++ less x.held.2.2 x.base.2.2 ++ zeros 16

/-- The next sample judges CONT and JOINED from here on (R115). -/
def State.markSampled (s : State) (page : Option Nat) (t : Nat) : State :=
  let st := (s.dom (domOfTile t)).st
  let up := st == .run || st == .hold || st == .rest
  s.onTile t (fun x => if page.isSome then { x with contPart := up, joined := false } else { x with contMod := up })

/-- Write a rate page in the order of R117: SEQ odd, the page, SEQ even. -/
def State.writeRatePage (s : State) (page : Option Nat) : State :=
  let r := s.rateOf page
  let ts := s.rateTiles page
  let odd := (r.seq + 1) % 2 ^ 32
  let even := (r.seq + 2) % 2 ^ 32
  let body := zeros 4 ++ toLe 8 s.now ++ toLe 8 (if r.first then 0 else r.prevTime) ++ toLe 2 ts.length ++ zeros 38 ++
    ts.flatMap (fun t => s.rateEntry page r.first t)
  let p := page.getD 0
  let s := ((s.hostWriteAs p r.base (toLe 4 odd)).hostWriteAs p (r.base + 4) body).hostWriteAs p r.base (toLe 4 even)
  let s := ts.foldl (fun (a : State) t => a.markSampled page t) s
  s.onRate page (fun r => { r with seq := even, first := false, prevTime := s.now, next := some (s.now + r.period * 10000) })

/-- RATE_SAMPLE (R113, R114): the sample of a page is due: the counters of every tile are latched, and the page is written. -/
def execRateSample (page : Option Nat) (s : State) : Host.Outcome State Fault Refusal :=
  let r := s.rateOf page
  .next (if r.enable && s.sampling page && (match r.next with | some t => decide (t ≤ s.now) | none => false) then
      ((List.range 64).foldl State.latchTile s).writeRatePage page
    else s)

/-! ### TIMEOUT (R253) -/

/-- The limit of a descriptor in ms, none for no limit (R253). -/
def State.limitOf (s : State) (p : Nat) (d : Desc) : Option Nat :=
  if d.timeout != 0 then some d.timeout
  else if d.engineRun then
    match s.engine? p d.engine with
    | some e => some (if e.defTimeout = 0 then 10000 else e.defTimeout)
    | none => some 10000
  else if d.op = 0x01 || d.op = 0x02 || d.op = 0x04 || d.op = 0x05 then none
  else some 60000

/-- The limit of a started descriptor has passed. -/
def State.overdue (s : State) (p : Nat) (d : Desc) : Bool :=
  match d.startedAt, s.limitOf p d with
  | some t, some ms => decide (t + ms * 1000000 ≤ s.now)
  | _, _ => false

/-- An administrative command that the timeout ends leaves nothing half done: the engines it was loading are undone, a reset
goes to its end (R441, R442). -/
def State.endAdmin (s : State) (p : Nat) (d : Desc) : State :=
  let k := d.fld 16 1
  let s := s.complete p d { status := stTimeout }
  if d.op = 0x94 then s.dropEngine k (d.fld 17 1)
  else if isAction 1 d then s.undoAdmit k
  else if isAction 4 d && (s.part k).sec.resetting then s.endReset k
  else s

/-- A started descriptor ends with TIMEOUT. A once-run ACT_RUN stops its act as ACT_STOP with NOW = 1 does (R265). -/
def State.timeOut (s : State) (p : Nat) (d : Desc) : State :=
  if d.op = 0x06 then (s.onAct p (d.fld 16 1) (fun a => { a with timedOut := true })).stopAct p (d.fld 16 1) true
  else if isAdmin d.op then s.endAdmin p d
  else s.endEarly p d.num { status := stTimeout }

/-- DESCRIPTOR_TIMEOUT (R253). -/
def execDescriptorTimeout (d : DescRef) (s : State) : Host.Outcome State Fault Refusal :=
  .next (match s.desc? d.part d.num with
    | none => s
    | some x => if s.overdue d.part x then s.timeOut d.part x else s)

end Sys2Proof.Machine
end

