-- ==== Sys2Proof/Machine/Resolve.lean ====
section
/-! DEFINITION. The power states of domains, the steward's requests with state selection's and keep-warm's part in them, and the
resolution of precedence (R26 to R30, R139 to R151, R163, R172, R182). -/

namespace Sys2Proof.Machine

/-! ### Power states of domains (R65, R143, R150, R151) -/

/-- The domain holds a memory port or a gate port (R151). -/
def holdsPort (k : Nat) : Bool := [0, 1, 2, 3, 4, 8, 12, 13, 14, 15].contains k

/-- A state is at least as deep as another (R150). -/
def PState.atLeast (a b : PState) : Bool := decide (b.code ≤ a.code)

/-- The deeper of two states. -/
def PState.deeper (a b : PState) : PState := if a.atLeast b then a else b

/-- The shallower of two states. -/
def PState.shallower (a b : PState) : PState := if a.atLeast b then b else a

/-- The regulator voltage of a state and a code, in steps of 2.5 mV: 0.55 V in REST, off in DARK and DEEP (R139, R143). -/
def voltOf (st : PState) (code : Nat) : Nat :=
  match st with
  | .run | .hold => 248 + code
  | .rest => 220
  | .dark | .deep => 0

/-- A domain is told to take a state at a code. -/
def Domain.aim (d : Domain) (st : PState) (code : Nat) : Domain :=
  { d with target := st, code := code, setVolt := voltOf st code }

/-- A trip holds the domain in HOLD (R164). -/
def Domain.trip (d : Domain) : Bool := d.tripped || d.auxTrip

/-- The deepest state that what stands against a domain asks for: a fault of its regulator, a move to REST under R149, a
trip (R141, R149, R164). -/
def Domain.floor (d : Domain) : PState :=
  if d.railFault then .dark else if d.shedRest then .rest else if d.trip then .hold else .run

/-- Some of the module is asleep as a whole: module DARK or DEEP, reached or under way. -/
def State.moduleAsleep (s : State) : Bool := s.allDoms (fun d => d.target.atLeast .dark)

/-- The fixed-rate partitions that hold a pinned voltage: in ADMITTED, RUNNING or QUIESCING (R29, R153). -/
def State.fixedRate (s : State) (p : Nat) : Bool :=
  (s.part p).pwr.fixed &&
  (match (s.part p).sec.st with
   | .admitted | .running | .quiescing => true
   | _ => false)

/-- The domain belongs to a fixed-rate partition. -/
def State.domFixed (s : State) (k : Nat) : Option Nat := (s.domOwner k).filter s.fixedRate

/-- Write the presence words of the partitions that hold a domain of a list (R231). -/
def State.postDoms (s : State) (ks : List Nat) : State :=
  ((List.range 16).filter (fun p => ks.any (fun k => (s.part p).sec.vdMask.getLsbD k))).foldl (fun (t : State) p => t.postPresence p) s

/-- The scratchpads of a domain's tiles are lost: they read as zero after wake (R48). -/
def State.loseScratch (s : State) (k : Nat) : State := (tilesOfDom k).foldl (fun (t : State) i => t.zeroTile i) s

/-- Scrub starts over on a channel (R207). -/
def Chan.restarted (c : Chan) (now : Nat) : Chan := { c with scrubPos := 0, scrubFrom := now, scrubDone := 0, scrubForced := false }

/-- Stacked DRAM is lost: it reads as zero, and its scrub starts over (R154, R207). -/
def State.loseStacked (s : State) : State :=
  { s with mem := { s.mem.zero 0 (144 * granSize) with
      ports := s.mem.ports.map (fun (q : MemPort) =>
        { q with stale := [], healed := [], chans := q.chans.map (fun (c : Chan) => c.restarted s.now) }) } }

/-- The module leaves DEEP: what stacked DRAM held is gone, and so are the KV pages in it (R154, R332). -/
def State.leaveDeep (s : State) : State :=
  (List.range 16).foldl (fun (t : State) p => t.kvWake p (s.kvInDram p)) s.loseStacked

/-- A channel that left self-refresh after `ns`: scrub goes on where it stood, and it recalibrates before it carries traffic (R207). -/
def Chan.woken (c : Chan) (ns : Nat) : Chan := { c with cold := true, scrubFrom := c.scrubFrom + ns }

/-- DRAM of some ports leaves self-refresh, in which it was since `at_`. -/
def MemPort.woken (q : MemPort) (ns : Nat) : MemPort := { q with chans := q.chans.map (fun (c : Chan) => c.woken ns) }

/-- Self-refresh follows the domains: stacked DRAM while all are in DARK or DEEP, the bulk tier while all are in DEEP (R150, R207). -/
def State.followSleep (s : State) : State :=
  let dark := s.allDoms (fun d => d.st.atLeast .dark)
  let deep := s.moduleDeep
  let m := s.mem
  let m := match m.asleep with
    | some t => if dark then m else { m with asleep := none, ports := m.ports.map (fun (q : MemPort) => q.woken (s.now - t)) }
    | none => if dark then { m with asleep := some s.now } else m
  let m := match m.bulkAsleep with
    | some t => if deep then m else { m with bulkAsleep := none, bchans := m.bchans.map (fun (q : MemPort) => q.woken (s.now - t)) }
    | none => if deep then { m with bulkAsleep := some s.now } else m
  { s with mem := m }

/-- A domain's state as its tiles and the module see it. -/
def State.enterState (s : State) (k : Nat) (st : PState) : State :=
  let s := s.settleDom k
  let s := if s.moduleDeep && st != .deep then s.leaveDeep else s
  let off := st == .dark || st == .deep
  let s := if off && !((s.dom k).st == .dark || (s.dom k).st == .deep) then s.loseScratch k else s
  let s := if off then (tilesOfDom k).foldl (fun (t : State) i => t.onTile i (fun x => { x with contPart := false, contMod := false })) s else s
  let s := if st == .run then (tilesOfDom k).foldl (fun (t : State) i => t.progress 0 i) s else s
  let s := s.onDom k (fun d => { d with st := st, volt := if off then 0 else d.volt })
  let s := { s with power := { s.power with deepRead := if s.moduleDeep then true else if st == PState.run then false else s.power.deepRead } }
  s.followSleep.postDoms [k]

/-- Every domain is told to take a state at least as deep as `st`. -/
def State.sinkAll (s : State) (st : PState) : State :=
  (List.range 16).foldl (fun (t : State) k => t.onDom k (fun d => if d.target.atLeast st then d else d.aim st d.code)) s

/-! ### Powers (R26, R29, R129, R163) -/

/-- What a domain is to do: its state and its voltage code. -/
abbrev Aim := PState × Nat

/-- The power of a domain at an aim, as the power controller reports it. -/
def domWatts (r : PowerReport) (k : Nat) (a : Aim) : Nat :=
  let d := r.doms.getD k { atCode := [], hold := 0, rest := 0 }
  match a.1 with
  | .run => d.atCode.getD (Nat.min a.2 120) 0
  | .hold => d.hold
  | .rest => d.rest
  | .dark | .deep => 0

/-- Input power under a plan: hub and memory, and every domain. -/
def powerOf (r : PowerReport) (plan : List Aim) : Nat :=
  plan.zipIdx.foldl (fun (a : Nat) (x : Aim × Nat) => a + domWatts r x.2 x.1) r.hub

/-- The module states in which the domains are powered (R139, R487, step 5). -/
def ModSt.live : ModSt → Bool
  | .train | .selftest | .ready | .degraded | .curtain | .safe => true
  | _ => false

/-- The shed budget in force while SHED# is asserted (R146). -/
def Power.shedBudget (w : Power) : Nat := Nat.max 400 (Nat.min 1600 (w.shedW.getD w.shedDefault))

/-- The module's limits at levels 1 to 4, as (level, watts) (R26, R30, R168). -/
def State.limits (s : State) : List (Nat × Nat) :=
  let level3 := (if s.power.shed then [s.power.shedBudget] else []) ++ (if s.power.curtainOn then [s.power.curtainW] else [])
  [(1, 1600)] ++ (if s.thermal.predicted then [(2, s.thermal.allowW)] else []) ++
    level3.map (fun w => (3, w)) ++ [(4, s.power.capW)]

/-- The room that levels 1 to 4 leave. -/
def State.room (s : State) : Nat := s.limits.foldl (fun a x => Nat.min a x.2) 1600

/-- The highest level whose limit is the room. -/
def State.roomLevel (s : State) : Nat := ((s.limits.find? (fun x => x.2 == s.room)).map Prod.fst).getD 0

/-- The highest voltage code whose power fits the predictor cap, none when no code does (R163). -/
def State.capCodeOf (s : State) (r : PowerReport) (k : Nat) : Option Nat :=
  if !s.thermal.predicted then some 120
  else ((List.range 121).reverse).find? (fun c => domWatts r k (.run, c) ≤ (s.dom k).capW)

/-- The predictor cap of a domain does not let it run at a code. -/
def Domain.capped (d : Domain) (code : Nat) : Bool := match d.capCode with | some c => decide (c < code) | none => true

/-- The powers that PWR shows, of the last report, and the codes that fit the caps (R156, R163). -/
def State.notePower (s : State) : State :=
  let r := s.power.report
  { s with power := { s.power with
      busDv := satTo 16 r.busDv, powerDw := satTo 16 r.inputDw, nodeDv := satTo 16 r.nodeDv
      doms := s.power.doms.zipIdx.map (fun (x : Domain × Nat) => { x.1 with
        powerW := satTo 12 (domWatts r x.2 (x.1.st, x.1.code)), capCode := s.capCodeOf r x.2 }) } }

/-! ### Levels 7 and 6: what the steward asks for (R30, R151, R152, R172, R182, R452) -/

/-- A tile of the domain recovers or is under test, so the domain is needed in RUN (R499, R515). -/
def State.neededInRun (s : State) (k : Nat) : Bool :=
  (tilesOfDom k).any (fun t => (s.unit 0 t).recov != .idle || (s.unit 0 t).striking)

/-- State selection has chosen DARK or DEEP for the whole module (R151). -/
def State.moduleWant (s : State) : Bool :=
  s.allDoms (fun x => x.wantSt.atLeast .dark) && (List.range 16).any (fun i => (s.domOwner i).isSome) &&
    (List.range 16).all (fun k => !s.neededInRun k)

/-- The pairs of R182, as tiles: a tile of a configured partition with each memory port and gate port that the partition uses, and
the gate port of its hub traffic with each of those memory ports. -/
def State.pairsUsed (s : State) : List (Nat × Nat × Nat) :=
  ((List.range 16).filter (fun q => (s.part q).sec.st != .unconfigured)).flatMap (fun q =>
    let ports := s.portsUsed q
    (s.tilesOf q).flatMap (fun t => (ports.map (fun i => (q, t, rimTile i))) ++ ((s.gateFor q (gateRow (t / 8))).map (fun g => (q, t, g))).toList) ++
      ports.flatMap (fun i => ((s.hubGate q i).map (fun g => (q, g, rimTile i))).toList))

/-- A pair of tiles has an order that no domain of a list in DARK, and no seal, takes from it (R181, R182, R446). -/
def State.linked (s : State) (dark : List Nat) (x : Nat × Nat × Nat) : Bool :=
  let free := fun (l : List Nat) => !l.any (fun t => dark.contains (domOfTile t)) && s.avoids x.1 l
  free (routeXY x.2.1 x.2.2) || free (routeYX x.2.1 x.2.2)

/-- DARK for domain k, beside the domains already in the list, leaves a pair with an endpoint outside DARK without an order
(R182). -/
def State.isolates (s : State) (dark : List Nat) (k : Nat) : Bool :=
  s.pairsUsed.any (fun x => !(k :: dark).contains (domOfTile x.2.1) && s.linked dark x && !s.linked (k :: dark) x)

/-- Which of some domains may go to DARK, taken in order (R182). -/
def State.mayDarken (s : State) : List Nat → List Nat → List Nat
  | dark, [] => dark
  | dark, k :: ks => if s.isolates dark k then s.mayDarken dark ks else s.mayDarken (k :: dark) ks

/-- What state selection asks of a domain before R182: an own domain as the steward asks, no port-holding domain deeper than REST
alone; one in no partition in DARK, or REST where it holds a port (R151). Start-up has every domain in RUN (R487, step 5). -/
def State.chosen (s : State) (k : Nat) : PState :=
  let d := s.dom k
  if s.boot.st == .train || s.boot.st == .selftest || (s.neededInRun k && !s.moduleWant) then .run
  else if s.moduleWant then d.wantSt
  else match s.domOwner k with
    | some _ => if d.wantSt.atLeast .dark then (if holdsPort k then .rest else .dark) else d.wantSt
    | none => if holdsPort k then .rest else .dark

/-- What state selection asks of every domain, with REST in place of a DARK that R182 refuses. -/
def State.selected (s : State) : List PState :=
  let l := (List.range 16).map s.chosen
  if s.moduleWant then l
  else
    let ok := s.mayDarken [] ((List.range 16).filter (fun k => (l.getD k .run).atLeast .dark))
    l.zipIdx.map (fun x => if x.1.atLeast .dark && !ok.contains x.2 then .rest else x.1)

/-- The states from one to HOLD, each shallower than the one before. -/
def shallowing (st : PState) : List PState := (([.deep, .dark, .rest, .hold] : List PState).dropWhile (· ≠ st))

/-- Every tile of a domain is at most 5 K above the floor, so that self-test may warm it (R172). -/
def State.coolTiles (s : State) (k : Nat) : Bool :=
  (tilesOfDom k).all (fun t => decide ((s.thermal.tiles.getD t {}).ctl ≤ 10 * ((s.thermal.floorC : Int) + 5)))

/-- Keep-warm (R172): the shallowest of the steps that holds the floor, by the steward's prediction, which is open
(notes/assumptions/62.md), for a domain none of whose tiles is ACTIVE; and whether self-test warms its idle tiles. -/
def State.keptWarm (s : State) (k : Nat) (st : PState) : PState × Bool :=
  if !s.thermal.keepWarm || s.thermal.keepSuspended || st == .run || (tilesOfDom k).any (fun t => (s.tile t).st == .active) then (st, false)
  else match (shallowing st).find? (fun x => decide ((s.thermal.floorC : Int) ≤ Config.warmth s.fresh k x.code)) with
    | some x => (x, false)
    | none => if s.coolTiles k then (.run, true) else (.hold, false)

/-- The steward's requests for every domain with keep-warm's (R26, levels 6 and 7); while it restarts all stay as set (R452). -/
def State.requests (s : State) : List (Aim × Bool) :=
  if !s.sec.steward then s.power.doms.map (fun d => ((d.target, d.code), d.warming))
  else s.selected.zipIdx.map (fun x =>
    let y := s.keptWarm x.2 x.1
    ((y.1, (s.dom x.2).wantCode), y.2))

/-! ### Levels 1 to 5 as clamps (R27, R29) -/

/-- A level-1 or level-2 limit on a fixed-rate partition's own domains pauses it directly (R29). -/
def State.ownLimit (s : State) (p : Nat) : Bool :=
  s.thermal.emergency || (s.domsOf p).any (fun k => (s.dom k).trip || (s.dom k).railFault || (s.dom k).capped (s.part p).pwr.vcode)

/-- Pause a fixed-rate partition (R29, R148). -/
def State.pausePart (s : State) (p : Nat) : State :=
  if (s.part p).pwr.paused then s
  else
    let s := s.onPart p (fun q => { q with pwr := { q.pwr with paused := true, pauses := satTo 8 (q.pwr.pauses + 1), fitSince := none } })
    (s.raiseBoth p 0x27 []).postPresence p

/-- Something waits to resume: no other domain is raised meanwhile (R30, R149). -/
def State.waitsToResume (s : State) : Bool :=
  (List.range 16).any (fun p => (s.part p).pwr.paused && !s.ownLimit p) || s.power.doms.any (fun d => d.shedRest)

/-- Level 5: a fixed-rate partition's domain runs at its pinned voltage and goes no deeper than HOLD (R153). -/
def State.pinned (s : State) (k : Nat) (a : Aim) : Aim :=
  match s.domFixed k with
  | some p => (if a.1.atLeast .rest then .hold else a.1, (s.part p).pwr.vcode)
  | none => a

/-- Every domain goes down: to HOLD first, and off once all are there (R133, R169). -/
def State.goingDown (s : State) : PState := if s.allDoms (fun d => d.st.atLeast .hold) then .dark else .hold

/-- A request clamped by level 5, by what levels 1 and 2 and the pauses ask of the domain (R29, R133, R141, R164, R169), and by what waits to
resume (R30). -/
def State.clampOne (s : State) (k : Nat) (want : Aim) : Aim :=
  let d := s.dom k
  let a := s.pinned k want
  let st := a.1.deeper d.floor
  let st := if s.thermal.emergency || s.power.shutdown then st.deeper s.goingDown else st
  let st := if s.boot.st == .safe && s.boot.safeCause == 2 then st.deeper .dark else st
  match s.domFixed k with
  | some p => (if (s.part p).pwr.paused then st.deeper .hold else st, a.2)
  | none =>
    let code := match d.capCode with | some c => Nat.min c a.2 | none => 0
    let st := if d.capCode.isNone then st.deeper .hold else st
    if s.waitsToResume && st = .run then (if d.target = .run then (.run, Nat.min code d.code) else (.hold, Nat.min code d.code))
    else (st, code)

/-- The other domains' voltage held to a code (R29). -/
def lowerTo (others : List Nat) (c : Nat) (plan : List Aim) : List Aim :=
  plan.zipIdx.map (fun (x : Aim × Nat) => if others.contains x.2 then (x.1.1, Nat.min x.1.2 c) else x.1)

/-- Listed domains take a state. -/
def moveTo (ks : List Nat) (st : PState) (plan : List Aim) : List Aim :=
  plan.zipIdx.map (fun (x : Aim × Nat) => if ks.contains x.2 then (x.1.1.deeper st, x.1.2) else x.1)

/-- The highest code at or below `c` at which the plan fits, if there is one. -/
def fitCode (r : PowerReport) (room : Nat) (others : List Nat) (plan : List Aim) : Nat → Option Nat
  | 0 => if powerOf r (lowerTo others 0 plan) ≤ room then some 0 else none
  | c + 1 => if powerOf r (lowerTo others (c + 1) plan) ≤ room then some (c + 1) else fitCode r room others plan c

/-- Pause running fixed-rate partitions, in the order given, until the plan fits. -/
def State.pauseFor (s : State) (r : PowerReport) (room : Nat) (plan : List Aim) : List Nat → State × List Aim
  | [] => (s, plan)
  | p :: ps =>
    if powerOf r plan ≤ room then (s, plan)
    else if (s.part p).pwr.paused then s.pauseFor r room plan ps
    else (s.pausePart p).pauseFor r room (moveTo (s.domsOf p) .hold plan) ps

/-- Move domains to REST, in the order given, until the plan fits (R149). -/
def restFor (r : PowerReport) (room : Nat) (plan : List Aim) : List Nat → List Nat × List Aim
  | [] => ([], plan)
  | k :: ks =>
    if powerOf r plan ≤ room then ([], plan)
    else if (plan.getD k (.dark, 0)).1 != .hold then restFor r room plan ks
    else
      let x := restFor r room (moveTo [k] .rest plan) ks
      (k :: x.1, x.2)

/-- The domains that belong to no fixed-rate partition and then those that do, highest number first (R149). -/
def State.restOrder (s : State) : List Nat :=
  let down := (List.range 16).reverse
  down.filter (fun k => (s.domFixed k).isNone) ++ down.filter (fun k => (s.domFixed k).isSome)

/-- The plan is brought within the room, in the order of R29 and R149. -/
def State.lowerPlan (s : State) (r : PowerReport) (plan : List Aim) : State × List Aim :=
  let room := s.room
  if powerOf r plan ≤ room then (s, plan)
  else
    let others := (List.range 16).filter (fun k => (s.domFixed k).isNone && (plan.getD k (.dark, 0)).1 == .run)
    match fitCode r room others plan 120 with
    | some c => (s, lowerTo others c plan)
    | none =>
      let plan := moveTo others .hold (lowerTo others 0 plan)
      let x := s.pauseFor r room plan ((List.range 16).reverse.filter s.fixedRate)
      let y := restFor r room x.2 s.restOrder
      (y.1.foldl (fun (t : State) k => t.onDom k (fun d => { d with shedRest := true })) x.1, y.2)

/-- The plan in which every domain of no fixed-rate partition is lowered to 0.62 V and HOLD (R29). -/
def State.lowestPlan (s : State) (plan : List Aim) : List Aim :=
  let others := (List.range 16).filter (fun k => (s.domFixed k).isNone)
  moveTo others .hold (lowerTo others 0 plan)

/-- Domains moved to REST return one after another, in the reverse of the order in which they went, each once the others lowered leave
it room in HOLD (R29, R149). -/
def State.returnRest (s : State) (r : PowerReport) (want : List Aim) : List Nat → State
  | [] => s
  | k :: ks =>
    if !(s.dom k).shedRest then s.returnRest r want ks
    else
      let t := s.onDom k (fun d => { d with shedRest := false })
      let plan := t.lowestPlan ((List.range 16).map (fun i =>
        let a := t.clampOne i (want.getD i (.dark, 0))
        if i = k then (a.1.deeper .hold, a.2) else a))
      if powerOf r plan ≤ s.room then t.returnRest r want ks else s

/-- The level that changed a domain's request, 0 where the request stands or no level did (R27). -/
def State.clampLevel (s : State) (k : Nat) (want got : Aim) : Nat :=
  let d := s.dom k
  if want = got || d.railFault || s.power.shutdown then 0
  else if d.trip || (want.1 == .run && d.capped want.2) then 1
  else if s.thermal.emergency then 2
  else if got = s.pinned k want then 5
  else s.roomLevel

/-- A clamp of a steward's request: CLAMP, and a health record that names it (R27). -/
def State.noteClamp (s : State) (k level : Nat) : State :=
  let t := s.onDom k (fun d => { d with clamp := level })
  if level = 0 || level = (s.dom k).clamp then t
  else (t.raise 0 0x29 (toLe 1 level ++ toLe 1 k)).logHealth 1 0xFF k 0xFF (level + 256 * k)

/-- Whether a paused partition fits all limits at its pinned voltage, with the others lowered for it, and since when (R29). -/
def State.noteFit (s : State) (r : PowerReport) (plan : List Aim) (p : Nat) : State :=
  if !(s.part p).pwr.paused then s
  else
    let test := (s.domsOf p).foldl (fun (l : List Aim) k => updAt l k (fun _ => (.run, (s.part p).pwr.vcode))) (s.lowestPlan plan)
    let fits := !s.ownLimit p && !s.power.shutdown && powerOf r test ≤ s.room
    s.onPart p (fun q => { q with pwr := { q.pwr with
      fitSince := if fits then some (q.pwr.fitSince.getD s.now) else none } })

/-- Carry a plan out: the targets, the clamps, and the caps that bind on a domain asked to run (R27, R176). -/
def State.carry (s : State) (want plan : List Aim) (warm : List Bool) : State :=
  (List.range 16).foldl (fun (t : State) k =>
    let w := want.getD k (.dark, 0)
    let a := plan.getD k (.dark, 0)
    (t.noteClamp k (s.clampLevel k w a)).onDom k (fun d => { d.aim a.1 a.2 with
      capBind := w.1 == .run && d.capped (s.pinned k w).2, warming := warm.getD k false && a.1 == .run })) s

/-- The highest level that bound, for PWR.ROOM.BINDING (R156): 1 a trip or a cap, 2 an emergency, the level of the room where it
lowered the plan, 5 a pinned voltage. -/
def State.bindingOf (s : State) (lowered : Bool) (want : List Aim) : Nat :=
  if s.power.doms.any (fun d => d.trip || d.capBind) then 1
  else if s.thermal.emergency then 2
  else if lowered || s.waitsToResume then s.roomLevel
  else if want.zipIdx.any (fun x => s.pinned x.2 x.1 != x.1) then 5 else 0

/-- All levels are resolved (R26 to R30): with the last powers reported, periodically and on every change at levels 1 to 4. -/
def State.resolveLevels (s : State) : State :=
  if !s.boot.st.live then s
  else
    let s := s.notePower
    let r := s.power.report
    let s := ((List.range 16).filter (fun p => s.fixedRate p && s.ownLimit p)).foldl (fun (t : State) p => t.pausePart p) s
    let asked := s.requests
    let want := asked.map Prod.fst
    let s := s.returnRest r want s.restOrder.reverse
    let first := (List.range 16).map (fun k => s.clampOne k (want.getD k (.dark, 0)))
    let x := s.lowerPlan r first
    let t := x.1.carry want x.2 (asked.map Prod.snd)
    let yields := want.zipIdx.any (fun w => !(s.selected.getD w.2 .run == w.1.1) && (x.2.getD w.2 (.dark, 0)).1 != w.1.1)
    let t := { t with
      power := { t.power with roomW := t.room, binding := t.bindingOf (x.2 != first) want }
      thermal := { t.thermal with keepYield := s.sec.steward && yields } }
    ((List.range 16).foldl (fun (a : State) p => a.noteFit r x.2 p) t).tick

/-- The steward asks for a state for a domain: a clamp of it is logged anew (R27). -/
def State.wantDom (s : State) (st : PState) (k : Nat) : State := s.onDom k (fun d => { d with wantSt := st, clamp := 0 })

end Sys2Proof.Machine
end

