-- ==== Sys2Proof/Machine/Power.lean ====
section
/-! DEFINITION. Power entry and power management (05_power.md): rails, the curtain protocol and orderly shutdown, the input
switch, the power-quality log, rail faults, the shed budget, the commands of the resolution (R26 to R30), state selection and
wakes (R128 to R157). -/

namespace Sys2Proof.Machine

/-! ### Rails (R139, R140) -/

/-- A domain's regulator gives no voltage. -/
def State.coreOff (s : State) : Bool := s.allDoms (fun d => d.volt == 0)

/-- Module DEEP stands: every domain is in DEEP and stays there. -/
def State.staysDeep (s : State) : Bool := s.allDoms (fun d => d.st == .deep && d.target == .deep)

/-- A rail, by its place in Power.rails, is to be on (R139): AON outside OFF and PRECHARGE; the others once the ROM has booted the
guard, until shutdown; in DEEP only AON, IB48 and the bulk tier's. -/
def State.railWanted (s : State) (i : Nat) : Bool :=
  match s.boot.st with
  | .off | .precharge => false
  | .guardBoot => i == 0 || s.boot.guardAt.isSome
  | _ => i == 0 || (!s.power.shutdown && (!s.staysDeep || i == 1 || (5 ≤ i && i ≤ 8)))

/-- A rail moves one step up. -/
def RailSt.up : RailSt → RailSt
  | .off => .moving
  | .moving | .good => .good

/-- A rail moves one step down. -/
def RailSt.down : RailSt → RailSt
  | .good => .moving
  | .moving | .off => .off

/-- One step of the power-up or power-down order (R140): down in reverse, once the domains are off; up in order, each rail after the
one before is in regulation (notes/assumptions/61.md). -/
def State.railTick (s : State) : State :=
  let st := fun (i : Nat) => s.power.rails.getD i .off
  match (List.range 12).reverse.find? (fun i => !s.railWanted i && st i != .off) with
  | some i => if s.coreOff then { s with power := { s.power with rails := updAt s.power.rails i RailSt.down } } else s
  | none =>
    match (List.range 12).find? (fun i => s.railWanted i && st i != .good) with
    | some i => { s with power := { s.power with rails := updAt s.power.rails i RailSt.up } }
    | none => s

/-- Every rail that feeds the domains is in regulation. -/
def Power.railsGood (w : Power) : Bool := w.rails.all (fun r => r == .good)

/-- The codewords that a link port in UP has received: how many of them FEC corrected or could not correct is free (R391). -/
def LinkPort.codewords (p : LinkPort) (draw : Nat → Nat) : LinkPort :=
  if p.st == .up then { p with fecCorr := satTo 32 (p.fecCorr + draw 0), fecUncorr := satTo 16 (p.fecUncorr + draw 1) } else p

/-- The codewords of every link port (R391). -/
def State.codewords (s : State) : State :=
  if s.links.ports.any (fun p => p.st == .up) then
    ({ s with links := { s.links with ports := s.links.ports.zipIdx.map (fun (x : LinkPort × Nat) =>
        x.1.codewords (fun i => Config.freeNat (s.fresh + 2 * x.2 + i))) } }).tick
  else s

/-- Module time moves on by 1 ns with no command waiting (notes/assumptions/2.md), but for what is slewed (R217); a rail that is on its
way moves on, and the link ports receive codewords. -/
def State.passTime (s : State) : State := s.slewed.railTick.codewords

/-- DOMAIN_STATE_REACHED (R110, R133, R150, R169): entry to or wake from a state is complete; the fabric works from 0.55 V on, while the
voltage still rises. A module that goes down goes on once all are in HOLD. -/
def execDomainStateReached (k : Nat) (s : State) : Host.Outcome State Fault Refusal :=
  let d := s.dom k
  let there := match d.target with
    | .run | .hold => decide (220 ≤ d.volt)
    | .rest => d.volt == 220
    | .dark | .deep => true
  .next (if k ≥ 16 || d.st = d.target || !there then s
    else
      let t := s.enterState k d.target
      if t.thermal.emergency || t.power.shutdown then t.resolveLevels else t)

/-- VOLTAGE_STEP (R109, R140, R143): one step of 2.5 mV toward the set voltage; a regulator that starts, with every other rail in
regulation, takes 0.55 V first, and one that is switched off is at 0. -/
def execVoltageStep (k : Nat) (s : State) : Host.Outcome State Fault Refusal :=
  let start := s.power.railsGood
  .next ((s.settleDom k).onDom k (fun d =>
    if d.volt = d.setVolt then d
    else if d.setVolt = 0 then { d with volt := 0 }
    else if d.volt = 0 then { d with volt := if start then 220 else 0 }
    else { d with volt := if d.volt < d.setVolt then d.volt + 1 else d.volt - 1 }))

/-! ### The power-quality log (R137, R138) -/

/-- The family of a record's condition: a sag and an interruption are one record (R137). -/
def PqType.family : PqType → Nat
  | .sag | .interruption => 0 | .swell => 1 | .transient => 2

/-- Mark the open power-quality records that caused the module to be short of input: sags and interruptions, and the swell for which the
input switch is open (R138). -/
def Power.mark (w : Power) (f : PqRec → PqRec) : Power :=
  { w with pqOpen := w.pqOpen.map (fun r => if r.kind.family = 0 || (r.kind == .swell && w.overvolt) then f r else r) }

/-- The 32 bytes of a power-quality record (R138). -/
def PqRec.bytes (r : PqRec) : List Byte :=
  toLe 1 r.kind.code ++ toLe 1 (b2n r.curtain + 2 * b2n r.switch + 4 * b2n r.shutdown) ++ toLe 2 r.extreme ++ toLe 2 r.prior ++
    toLe 2 r.nodeMin ++ toLe 8 r.start ++ toLe 8 r.duration ++ zeros 8

/-- PWR.PQ_COUNT counts a closed record (R156). -/
def countPq (c : Nat × Nat × Nat × Nat) : PqType → Nat × Nat × Nat × Nat
  | .sag => (satTo 8 (c.1 + 1), c.2.1, c.2.2.1, c.2.2.2)
  | .swell => (c.1, satTo 8 (c.2.1 + 1), c.2.2.1, c.2.2.2)
  | .interruption => (c.1, c.2.1, satTo 8 (c.2.2.1 + 1), c.2.2.2)
  | .transient => (c.1, c.2.1, c.2.2.1, satTo 8 (c.2.2.2 + 1))

/-- A record closes (R137, R242): it joins the ring of 1,024 and goes out with START as its time. -/
def State.closePq (s : State) (r : PqRec) : State :=
  let ring := s.power.pqRing ++ [r]
  let s := { s with power := { s.power with
    pqOpen := s.power.pqOpen.filter (fun x => x.kind.family != r.kind.family)
    pqRing := if ring.length > 1024 then ring.drop 1 else ring
    pqCount := countPq s.power.pqCount r.kind } }
  s.raiseAt 0 0x20 0 r.start (r.bytes.take 8 ++ toLe 8 r.duration)

/-- The records still open when the module goes down are closed, so that the ring written to flash holds them
(notes/assumptions/61.md). -/
def State.closeAllPq (s : State) : State :=
  s.power.pqOpen.foldl (fun (t : State) r => t.closePq { r with duration := s.now - r.start }) s

/-- A measurement meets its type's condition (R137); times in ns. -/
def pqOpens (m : PqMeasure) : Bool :=
  match m.kind with
  | .sag => m.extreme < 2600 && m.lasted ≥ 50000
  | .swell => m.extreme > 4100 && m.lasted ≥ 50000
  | .interruption => m.extreme < 500 && m.lasted ≥ 50000
  | .transient => (m.extreme > m.prior + 400 || m.extreme + 400 < m.prior) && m.lasted < 50000

/-- A record takes a later measurement of its condition; a sag below 50 V becomes an interruption (R137). -/
def PqRec.extend (r : PqRec) (m : PqMeasure) : PqRec :=
  let high := r.kind == .swell || (r.kind == .transient && r.extreme ≥ r.prior)
  let e := if high then Nat.max r.extreme m.extreme else Nat.min r.extreme m.extreme
  { r with extreme := e, nodeMin := Nat.min r.nodeMin m.nodeMin, kind := if r.kind = .sag && e < 500 then .interruption else r.kind }

/-- A new record of a condition; SWITCH shows a switch that opened under R135 since the condition began (R138). -/
def State.newPq (s : State) (m : PqMeasure) : PqRec :=
  let start := s.now - m.lasted
  { kind := m.kind, extreme := m.extreme, prior := m.prior, nodeMin := m.nodeMin, start := start
    switch := m.kind == .swell && (match s.power.overAt with | some t => decide (start ≤ t) | none => false) }

/-- PQ_RECORD_OPEN (R137). -/
def execPqRecordOpen (m : PqMeasure) (s : State) : Host.Outcome State Fault Refusal :=
  let same := fun (r : PqRec) => r.kind.family == m.kind.family
  .next (if s.boot.st = .off || !pqOpens m then s
    else if s.power.pqOpen.any same then
      { s with power := { s.power with pqOpen := s.power.pqOpen.map (fun r => if same r then r.extend m else r) } }
    else { s with power := { s.power with pqOpen := s.power.pqOpen ++ [s.newPq m] } })

/-- PQ_RECORD_CLOSE (R137, R242): its condition has been absent for 1 ms. -/
def execPqRecordClose (m : PqMeasure) (s : State) : Host.Outcome State Fault Refusal :=
  .next (match s.power.pqOpen.find? (fun r => r.kind.family == m.kind.family) with
    | none => s
    | some r => if m.absent < 1000000 then s else s.closePq { r.extend m with duration := m.lasted })

/-! ### The curtain protocol and orderly shutdown (R131 to R134, R142) -/

/-- CURTAIN_ENTER (R131, R135): an open switch of R135 counts as a connector below 230 V. -/
def execCurtainEnter (dv us : Nat) (s : State) : Host.Outcome State Fault Refusal :=
  .next (match s.boot.st with
    | .ready | .degraded =>
      if s.power.shutdown || !(dv < 2600 || s.power.overvolt) || us ≤ 2000 then s
      else
        let live := s.livePartitions
        let s := s.setModule .curtain
        let s := { s with power := { s.power.mark (fun r => { r with curtain := true }) with curtainOn := true, curtainParts := live } }
        ((s.raiseLive 0x21 []).raiseLive 0x23 []).resolveLevels
    | _ => s)

/-- An event to the rings that received CURTAIN_ENTER (R133). -/
def State.raiseCurtain (s : State) (code : Nat) : State :=
  (0 :: s.power.curtainParts.filter (· ≠ 0)).foldl (fun (t : State) p => t.raise p code []) s

/-- CURTAIN_EXIT (R133): the curtain budget is removed. A sudden stop in CURTAIN took the module to SAFE: there the budget goes by the same
condition, and SAFE stays (notes/assumptions/58.md). -/
def execCurtainExit (dv ms : Nat) (s : State) : Host.Outcome State Fault Refusal :=
  .next (if s.power.curtainOn && !s.power.shutdown && !s.power.overvolt && dv ≥ 2700 && ms ≥ 100 then
    let s := if s.boot.st = .curtain then s.setModule s.calm else s
    (({ s with power := { s.power with curtainOn := false } }).raiseCurtain 0x22).resolveLevels
  else s)

/-- Commands in flight at shutdown never complete (R133): nothing that was fetched or scheduled goes on. -/
def Part.stopped (q : Part) : Part :=
  { q with fetched := [], acts := List.replicate 64 {}, resolved := [], running := [] }

/-- The sequence of R133 begins: SHUTDOWN_IMMINENT, the end of admission, HOLD, the logs, and the link; the rails follow in the order of
R140. A start-up that is not complete goes OFF with its rails (R134). -/
def State.orderlyShutdown (s : State) : State :=
  match s.boot.st with
  | .ready | .degraded | .curtain | .safe =>
    if s.power.shutdown then s
    else
      let s := if s.boot.st = .curtain then s.raiseCurtain 0x24 else s.raiseLive 0x24 []
      let s := { s with power := { s.power.mark (fun r => { r with shutdown := true }) with shutdown := true } }
      let s := { s with parts := s.parts.map Part.stopped }.closeAllPq
      (if s.host.up then s.linkDown else s).resolveLevels
  | .off => s
  | .precharge | .guardBoot | .stewardBoot | .train | .selftest => s.closeAllPq.goOff

/-- ORDERLY_SHUTDOWN (R133, R134, R135). -/
def execOrderlyShutdown (dv ms nodeDv : Nat) (s : State) : Host.Outcome State Fault Refusal :=
  .next (if ((dv < 2300 || s.power.overvolt) && ms ≥ 16) || nodeDv ≤ 2150 then s.orderlyShutdown else s)

/-- SHUTDOWN_COMPLETE (R133, step 5): the domains and the rails are off in the order of R140; AON goes last, as OFF begins. -/
def execShutdownComplete (s : State) : Host.Outcome State Fault Refusal :=
  .next (if s.power.shutdown && s.boot.st != .off && s.coreOff && (s.power.rails.drop 1).all (fun r => r == .off) then s.goOff else s)

/-- PRECHARGE_START (R134): the command comes with PRECHG asserted; BOOT_MS counts from here (R487). -/
def execPrechargeStart (dv ms : Nat) (s : State) : Host.Outcome State Fault Refusal :=
  .next (if s.boot.st = .off && dv ≥ 2700 && ms ≥ 1000 then
    ({ s with power := { s.power with prechg := true }, boot := { s.boot with busPowerAt := s.now - ms * 1000000 } }).setModule .precharge
  else s)

/-- PRECHG_DEASSERT (R142, R588): the input switch opens, and the module shuts down from hold-up. -/
def execPrechgDeassert (us : Nat) (s : State) : Host.Outcome State Fault Refusal :=
  .next (if us < 50 then s
    else ({ s with power := { s.power with prechg := false, switchOn := false } }).orderlyShutdown)

/-- The connector lies below the input node: the input switch opens, and the converter runs from the stored energy (R129). -/
def Power.backOff (w : Power) (dv nodeDv : Nat) : Power := { w with switchOn := w.switchOn && decide (nodeDv ≤ dv) }

/-- INPUT_SWITCH_OPEN (R129, R135). -/
def execInputSwitchOpen (dv nodeDv ms : Nat) (s : State) : Host.Outcome State Fault Refusal :=
  .next (if s.power.switchOn && (dv > 4500 || (dv > 4100 && ms > 100)) then
    { s with power := { s.power with
      switchOn := false, overvolt := true, overAt := some s.now
      pqOpen := s.power.pqOpen.map (fun r => if r.kind = .swell then { r with switch := true } else r) } }
  else { s with power := s.power.backOff dv nodeDv })

/-- INPUT_SWITCH_CLOSE (R129, R135): an overvoltage has been gone for 1 ms, or the connector has come back to the node's voltage
(notes/assumptions/64.md). -/
def execInputSwitchClose (dv ms nodeDv : Nat) (s : State) : Host.Outcome State Fault Refusal :=
  let w := s.power
  .next (if !w.switchOn && w.prechg && !w.shutdown && s.boot.st != .off && s.boot.st != .precharge && nodeDv ≤ dv &&
      dv ≤ 4100 && (!w.overvolt || ms ≥ 1) then
    { s with power := { w with switchOn := true, overvolt := false } }
  else if w.overvolt && dv ≤ 4100 && ms ≥ 1 then { s with power := { w with overvolt := false } }
  else s)

/-! ### Rail faults (R141) -/

/-- The memory ports of a domain (R21). -/
def domPorts (k : Nat) : List Nat := if k < 4 then [2 * k, 2 * k + 1] else if 12 ≤ k then [2 * k - 16, 2 * k - 15] else []

/-- A core regulator has faulted: the domain is DARK until the next start-up, the engines that use it are reset, and its
ports are out of service. -/
def State.railOff (s : State) (k : Nat) : State :=
  let s := s.onDom k (fun d => { d.aim .dark d.code with railFault := true, volt := 0 })
  let s := s.enterState k .dark
  let hit := (List.range 64).filter (fun t => (s.tile t).engine.isSome && (tilesOfDom k).any (fun u =>
    (s.tile u).engine == (s.tile t).engine && (s.tile u).part == (s.tile t).part))
  let s := hit.foldl (fun (t : State) i => t.requestReset 0 i 4 [] false false) s
  let s := (domPorts k).foldl (fun (t : State) i => t.portLost i) s
  let s := s.logHealth 2 0xFF k 0xFF 0
  (if holdsPort k then s.reviewDown.checkExpel else s).resolveLevels

/-- RAIL_FAULT (R141): a fault on any rail but a domain's takes the module to SAFE with every domain in DARK. -/
def execRailFault (r : Rail) (us : Nat) (s : State) : Host.Outcome State Fault Refusal :=
  .next (if us ≤ 50 || s.boot.st = .off then s
    else match r with
      | .vd k => if k < 16 && !(s.dom k).railFault then s.railOff k else s
      | .other n =>
        let s := s.logHealth 2 0xFF (16 + n) 0xFF 0
        (s.sinkAll .dark).enterSafe 2)

/-! ### The shed budget and the module's own commands of the resolution (R28, R29, R146 to R148) -/

/-- SHED_ASSERT (R147, R148): the figure goes to the physical function only. -/
def execShedAssert (s : State) : Host.Outcome State Fault Refusal :=
  .next (if s.power.shed || s.boot.st = .off then s
    else
      let s := { s with power := { s.power with shed := true } }.resolveLevels
      let s := s.raise 0 0x25 (toLe 2 s.power.shedBudget)
      (s.livePartitions.filter (· ≠ 0)).foldl (fun (t : State) p => t.raise p 0x25 []) s)

/-- SHED_DEASSERT (R146). -/
def execShedDeassert (s : State) : Host.Outcome State Fault Refusal :=
  .next (if s.power.shed then ({ s with power := { s.power with shed := false, shedW := none } }.resolveLevels).raiseLive 0x26 [] else s)

/-- PRECEDENCE_RESOLUTION (R26 to R30): with the powers that the power controller reports now. -/
def execPrecedenceResolution (r : PowerReport) (s : State) : Host.Outcome State Fault Refusal :=
  let s := { s with power := { s.power.backOff r.busDv r.nodeDv with report := r } }
  .next (if s.boot.st.live then s.resolveLevels else s.notePower)

/-- FIXED_RATE_RESUME (R29, R148): 20 ms of fit, lowest partition first, once nothing rests under R149. -/
def execFixedRateResume (p : Nat) (s : State) : Host.Outcome State Fault Refusal :=
  let first := (List.range 16).find? (fun q => (s.part q).pwr.paused)
  .next (match (s.part p).pwr.fitSince with
    | some t =>
      if p < 16 && first == some p && s.now ≥ t + 20000000 && !s.power.doms.any (fun d => d.shedRest) then
        let s := s.onPart p (fun q => { q with pwr := { q.pwr with paused := false, fitSince := none } })
        let s := (s.tilesOf p).foldl (fun (t : State) k => t.progress 0 k) s
        ((s.raiseBoth p 0x28 []).postPresence p).resolveLevels
      else s
    | none => s)

/-! ### State selection and wakes (R150 to R154) -/

/-- The earlier of two times. -/
def earlier (a b : Option Nat) : Option Nat :=
  match a, b with
  | some x, some y => some (Nat.min x y)
  | some x, none => some x
  | none, y => y

/-- The next cycle of a partition's cyclic acts, as module time (R525). -/
def State.nextCycle (s : State) (p : Nat) : Option Nat :=
  (s.part p).acts.foldl (fun (a : Option Nat) (x : ActSlot) => match x.cyc with
    | some c => if x.st == .free then a else earlier a (some (c.next * c.periodUs * 1000))
    | none => a) none

/-- The next timer or deadline among a partition's waiting commands (R261, R262). -/
def State.nextTimer (s : State) (p : Nat) : Option Nat :=
  (s.part p).fetched.foldl (fun (a : Option Nat) (d : Desc) => match d.startedAt with
    | some t => if d.op = 0x05 then earlier a (some (timerTarget d t)) else if d.op = 0x04 && d.fld 32 8 != 0 then earlier a (some (d.fld 32 8)) else a
    | none => a) none

/-- The next expiry of a partition's parked handles (R317). -/
def State.nextExpiry (s : State) (p : Nat) : Option Nat :=
  (s.part p).kv.foldl (fun (a : Option Nat) x => match s.kv? p x.1 with
    | some k => (match s.nextDue k (2 ^ 64) with
      | some q => earlier a (some (s.sqf k q 24 8))
      | none => a)
    | none => a) none

/-- The next known event of a partition (R152); `cadence` is its streams'. -/
def State.nextEvent (s : State) (p : Nat) (cadence : Option Nat) : Option Nat :=
  earlier cadence (earlier (s.part p).host.hint (earlier (s.nextCycle p) (earlier (s.nextTimer p) (s.nextExpiry p))))

/-- 1.2 times the wake bound of a state ends before the event. -/
def fitsBefore (st : PState) (now e : Nat) : Bool := decide (6 * st.wakeNs < 5 * (e - now))

/-- The deepest state by the rule of R152, by events, ceiling and permission, and R468; what the thermal-cycle budget predicts
is open (R174). -/
def State.deepest (s : State) (p : Nat) (cadence : Option Nat) : PState :=
  let hot := (s.domsOf p).any (fun k => (tilesOfDom k).any (fun t => (s.thermal.tiles.getD t {}).overBudget))
  let ok := fun (st : PState) =>
    (match s.nextEvent p cadence with
     | some e => fitsBefore st s.now e
     | none => decide (st.code ≤ s.power.idleCeil)) &&
    (st != .deep || (s.power.deepAllow && s.parts.all (fun q => q.sec.prevKey.isNone))) &&
    !(s.fixedRate p && st.atLeast .rest) && !(hot && decide (s.freeNat % 5 < st.code))
  (([.deep, .dark, .rest, .hold] : List PState).find? ok).getD .run

/-- The configured partitions that hold domains. -/
def State.withDoms (s : State) : List Nat := (List.range 16).filter (fun p => (s.part p).sec.st != .unconfigured && !(s.domsOf p).isEmpty)

/-- Module DARK or DEEP may be chosen (R151): for every partition, with no stream open and no cyclic act near. -/
def State.moduleMay (s : State) (st : PState) (p : Nat) (cadence : Option Nat) : Bool :=
  s.withDoms.all (fun q => (s.part q).host.doze == .dozing && (s.deepest q (if q = p then cadence else none)).atLeast st &&
    (match s.nextCycle q with | some e => fitsBefore st s.now e | none => true)) &&
  s.field.chans.all (fun c => !c.isOpen)

/-- The steward's choice for the domains of a partition: all of them the same state, REST in place of DARK where one holds a port
(R151, R152). -/
def State.ownChoice (s : State) (p : Nat) (cadence : Option Nat) : PState :=
  let st := s.deepest p cadence
  if st.atLeast .dark then (if (s.domsOf p).any holdsPort then .rest else .dark) else st

/-- The time at which a partition's wake starts: its next event less the wake bound (R152). -/
def State.planWake (s : State) (p : Nat) (st : PState) (cadence : Option Nat) : State :=
  s.onPart p (fun q => { q with pwr := { q.pwr with wakeAt := (s.nextEvent p cadence).map (fun e => e - st.wakeNs) } })

/-- STATE_SELECTION (R151, R152, R153): a choice for the whole module plans the wake of every partition. -/
def execStateSelection (p : Nat) (cadence : Option Nat) (s : State) : Host.Outcome State Fault Refusal :=
  let all := fun (st : PState) =>
    ((List.range 16).foldl (fun (t : State) k => t.wantDom st k)
      (s.withDoms.foldl (fun (t : State) q => t.planWake q st (if q = p then cadence else none)) s)).resolveLevels
  .next (if p ≥ 16 || (s.part p).host.doze != .dozing || !s.sec.steward || s.thermal.emergency || s.power.shutdown || !s.boot.st.live then s
    else if s.moduleMay .deep p cadence then all .deep
    else if s.moduleMay .dark p cadence then all .dark
    else
      let st := s.ownChoice p cadence
      ((s.domsOf p).foldl (fun (t : State) k => t.wantDom st k) (s.planWake p st cadence)).resolveLevels)

/-- The domains of every partition are asked back to RUN (R150, R171). -/
def State.wakeModule (s : State) : State :=
  s.wantRun.resolveLevels

/-- What must hold for a cause to wake a domain (R150). -/
def State.wakeHolds (s : State) (k : Nat) (why : WakeCause) : Bool :=
  match why, s.domOwner k with
  | .guard, _ => true
  | .work, some p => (s.part p).host.doze == .awake
  | .scheduled, some p => (match (s.part p).pwr.wakeAt with | some t => decide (t ≤ s.now) | none => false)
  | .packet, some p => s.field.chans.any (fun c => c.isOpen && c.part == p)
  | _, none => false

/-- DOMAIN_WAKE (R150, R152, R154): a domain wakes toward RUN, within what the levels leave; out of module DARK or DEEP every
partition's domains do. -/
def execDomainWake (k : Nat) (why : WakeCause) (s : State) : Host.Outcome State Fault Refusal :=
  .next (if k ≥ 16 || !s.wakeHolds k why || s.thermal.emergency || s.power.shutdown || !s.boot.st.live then s
    else if s.moduleAsleep then s.wakeModule
    else (s.wantDom .run k).resolveLevels)

end Sys2Proof.Machine
end

