-- ==== Sys2Proof/Machine/Thermal.lean ====
section
/-! DEFINITION. Thermal control (06_thermal.md): sensors and control values, trips, refresh, thermal cycles, the predictor, the
flow allowance, slow and sudden loss of flow and the way back (R158 to R176). Temperatures in 0.1 K, flow in mL/min. -/

namespace Sys2Proof.Machine

/-! ### Control values (R160, R161) -/

/-- A reading in 0.01 K inside the range of R160. -/
def inRange (v : Int) : Bool := decide (-4000 ≤ v) && decide (v ≤ 15000)

/-- The difference between two values. -/
def apart (a b : Int) : Nat := (a - b).natAbs

/-- A reading in 0.01 K as a temperature in 0.1 K, rounded down (notes/assumptions/65.md). -/
def tenths (v : Int) : Int := Int.ediv v 10

/-- The samples that R160 looks at: those of the last 10 s and the one before them, newest first. -/
def lastTen (now : Nat) (l : List (Nat × Int × Nat)) : List (Nat × Int × Nat) :=
  let new := fun (x : Nat × Int × Nat) => decide (now < x.1 + 10000000000)
  l.takeWhile new ++ (l.dropWhile new).take 1

/-- The reading has changed by less than 0.05 K over 10 s, while the power has changed by more than 20 W (R160). -/
def stuck (now : Nat) (l : List (Nat × Int × Nat)) : Bool :=
  l.any (fun x => decide (x.1 + 10000000000 ≤ now)) && l.all (fun x => l.all (fun y => decide (apart x.2.1 y.2.1 < 5))) &&
    l.any (fun x => l.any (fun y => decide (x.2.2 > y.2.2 + 20)))

/-- A sensor's samples with the one that it now gives, and whether it fails (R160). -/
def sampled (now : Nat) (l : List (Nat × Int × Nat)) (v : Option Int) (power : Nat) : List (Nat × Int × Nat) × Bool :=
  match v with
  | none => (l, true)
  | some x =>
    let l := lastTen now ((now, x, power) :: l)
    (l, !inRange x || stuck now l)

namespace HotSpot

/-- Sensor S0 is not used. -/
def bad0 (h : HotSpot) : Bool := h.fail0 || h.susp0

/-- Sensor S1 is not used. -/
def bad1 (h : HotSpot) : Bool := h.fail1 || h.susp1

/-- Both sensors lie more than 6 K from the model. -/
def far (h : HotSpot) : Bool := apart h.r0 h.est > 60 && apart h.r1 h.est > 60

/-- The control value (R161). -/
def value (h : HotSpot) : Int :=
  if h.bad0 && h.bad1 then h.est + 50 else if h.bad0 then max h.r1 h.est else if h.bad1 then max h.r0 h.est else max h.r0 h.r1

/-- The control value is taken anew. -/
def valued (h : HotSpot) : HotSpot := { h with ctl := h.value }

/-- Since when the two sensors differ, and since when they agree (R161). -/
def compared (h : HotSpot) (now : Nat) : HotSpot :=
  let differ := !h.bad0 && !h.bad1 && apart h.r0 h.r1 > 60
  { h with
    diffSince := if differ then some (h.diffSince.getD now) else none
    farNoted := h.farNoted && differ
    agreeSince := if apart h.r0 h.r1 ≤ 30 then some (h.agreeSince.getD now) else none }

/-- Sensor n takes a sample, while its domain or stack draws `power`. -/
def take (h : HotSpot) (now n : Nat) (v : Option Int) (power : Nat) : HotSpot :=
  let x := sampled now (if n = 0 then h.hist0 else h.hist1) v power
  let r := fun (old : Int) => if x.2 then old else (v.map tenths).getD old
  let h := if n = 0 then { h with r0 := r h.r0, fail0 := h.fail0 || x.2, hist0 := x.1 }
    else { h with r1 := r h.r1, fail1 := h.fail1 || x.2, hist1 := x.1 }
  (h.compared now).valued

end HotSpot

/-- A hot spot by its number in THM.MODEL_ERR.NODE: tiles, then stacks. -/
def Thermal.spot (t : Thermal) (i : Nat) : HotSpot := if i < 64 then t.tiles.getD i {} else t.stackSpots.getD (i - 64) {}

/-- Change a hot spot. -/
def State.onSpot (s : State) (i : Nat) (f : HotSpot → HotSpot) : State :=
  if i < 64 then { s with thermal := { s.thermal with tiles := updAt s.thermal.tiles i f } }
  else { s with thermal := { s.thermal with stackSpots := updAt s.thermal.stackSpots (i - 64) f } }

/-- Change a sensing point of the hub or power stage. -/
def State.onAux (s : State) (i : Nat) (f : AuxSpot → AuxSpot) : State :=
  { s with thermal := { s.thermal with aux := updAt s.thermal.aux i f } }

/-- A health record about a hot spot. -/
def State.logSpot (s : State) (kind i : Nat) : State :=
  if i < 64 then s.logOpen kind 0 i (s.tilePart i) else s.logOpen kind 0xFF i 0xFF

/-- Both sensors of a hot spot are out of use: a health event names it (R161). -/
def State.noteLost (s : State) (i : Nat) (before : HotSpot) : State :=
  let h := s.thermal.spot i
  let newly := (h.fail0 && !before.fail0) || (h.fail1 && !before.fail1)
  let s := if newly then s.logSpot 3 i else s
  if h.bad0 && h.bad1 && !(before.bad0 && before.bad1) then s.logSpot 3 i else s

/-- The sensor that SENSOR_SUSPECT marks: the one farther from the model, S1 on an equal distance (R161). -/
def HotSpot.worse (h : HotSpot) : Nat := if apart h.r0 h.est > apart h.r1 h.est then 0 else 1

/-- SENSOR_SUSPECT (R161): two sensors have differed by more than 6 K for more than 100 ms. Both far from the model: one health event for
the difference; else, or once one is no longer far, the farther is marked. -/
def execSensorSuspect (spot : Nat) (s : State) : Host.Outcome State Fault Refusal :=
  let h := s.thermal.spot spot
  .next (match h.diffSince with
    | some t =>
      if spot ≥ 70 || s.now ≤ t + 100000000 then s
      else if h.far then
        (if h.farNoted then s else (s.onSpot spot (fun x => { x with farNoted := true })).logSpot 4 spot)
      else
        let n := h.worse
        let s := s.onSpot spot (fun x =>
          { x with susp0 := x.susp0 || n == 0, susp1 := x.susp1 || n == 1, diffSince := none, farNoted := false }.valued)
        let s := { s with thermal := { s.thermal with evSuspected := true } }
        (s.raise 0 0x35 (toLe 1 spot ++ toLe 1 n)).logSpot 3 spot
    | none => s)

/-- SENSOR_RESTORE (R161): a suspect sensor that has not failed has agreed with the other within 3 K for 10 s. -/
def execSensorRestore (spot sensor : Nat) (s : State) : Host.Outcome State Fault Refusal :=
  let h := s.thermal.spot spot
  let back := if sensor = 0 then h.susp0 && !h.fail0 else h.susp1 && !h.fail1
  .next (match h.agreeSince with
    | some t =>
      if spot ≥ 70 || !back || s.now < t + 10000000000 then s
      else s.onSpot spot (fun x => (if sensor = 0 then { x with susp0 := false } else { x with susp1 := false }).valued)
    | none => s)

/-! ### Trips, refresh and thermal cycles (R164, R165, R173, R174) -/

/-- A trip: TRIP and a health event name the hot spot (R164). -/
def State.tripEvent (s : State) (node : Nat) : State :=
  (({ s with thermal := { s.thermal with evTripped := true } }).raise 0 0x36 (toLe 1 node)).logSpot 5 node

/-- The trip of a tile and its release (R164): it takes the domain to HOLD, which every tile of it below 100 °C ends. -/
def State.tileTrip (s : State) (t : Nat) : State :=
  let k := domOfTile t
  let h := s.thermal.tiles.getD t {}
  if h.ctl ≥ 1050 && !h.tripped then
    (((s.onSpot t (fun x => { x with tripped := true })).onDom k (fun d => { d with tripped := true })).resolveLevels).tripEvent t
  else
    let s := if h.ctl < 1000 then s.onSpot t (fun x => { x with tripped := false }) else s
    if (s.dom k).tripped && (tilesOfDom k).all (fun i => decide ((s.thermal.tiles.getD i {}).ctl < 1000)) then
      (s.onDom k (fun d => { d with tripped := false })).resolveLevels
    else s

/-- A control value's thermal cycle: (the spot, whether one was counted) (R173). -/
def HotSpot.cycle (h : HotSpot) : HotSpot × Bool :=
  match h.high with
  | none => ({ h with high := some h.ctl }, false)
  | some top =>
    let top := max top h.ctl
    if h.ctl < top - 300 then
      ({ h with high := some h.ctl, cycTotal := satTo 16 (h.cycTotal + 1), cycHours := updAt h.cycHours 0 (· + 1) }, true)
    else ({ h with high := some top }, false)

/-- An hour of module time in ns. -/
def hourNs : Nat := 3600000000000

/-- The hourly buckets move on by the hours that have begun (R173). -/
def HotSpot.rollHours (h : HotSpot) (hours : Nat) : HotSpot := { h with cycHours := (List.replicate (Nat.min hours 24) 0 ++ h.cycHours).take 24 }

/-- A tile's cycle count is held against the budget (R174). -/
def State.checkBudget (s : State) (t : Nat) : State :=
  let above := decide (s.cycles24 t ≥ s.thermal.cycBudget)
  let was := (s.thermal.tiles.getD t {}).overBudget
  let s := s.onSpot t (fun h => { h with overBudget := above })
  if above && !was then s.raise 0 0x37 (toLe 1 t) else s

/-- Move every tile's buckets to the present hour. -/
def State.rollCycles (s : State) : State :=
  let hours := s.now / hourNs - s.thermal.cycHour
  if hours = 0 then s
  else
    let s := { s with thermal := { s.thermal with cycHour := s.now / hourNs, tiles := s.thermal.tiles.map (fun (h : HotSpot) => h.rollHours hours) } }
    (List.range 64).foldl (fun (t : State) i => t.checkBudget i) s

/-- What a tile's new control value does. -/
def State.tileValue (s : State) (t : Nat) : State :=
  let x := (s.thermal.tiles.getD t {}).cycle
  let s := s.onSpot t (fun _ => x.1)
  (if x.2 then s.checkBudget t else s).tileTrip t

/-- What a stack's new control value does (R164, R165). -/
def State.stackValue (s : State) (k : Nat) : State :=
  s.onSpot (64 + k) (fun h => { h with
    refresh2x := h.refresh2x || decide (h.ctl > 850)
    coolSince := if h.ctl ≤ 830 then some (h.coolSince.getD s.now) else none
    hotSince := if h.ctl > 950 then some (h.hotSince.getD s.now) else none })

/-- The limit of a sensing point: 105 °C on the hub die, 110 °C in the power stage (R159). -/
def auxLimit (i : Nat) : Int := if i < 4 then 1050 else 1100

/-- What a sensing point's new control value does (R164): a trip holds every domain, and its release ends 5 K below. -/
def State.auxValue (s : State) (i : Nat) : State :=
  let a := s.thermal.aux.getD i {}
  let trips := a.ctl ≥ auxLimit i && !a.tripped
  let s := s.onAux i (fun x => { x with tripped := trips || (x.tripped && decide (auxLimit i - 50 ≤ x.ctl)) })
  let any := s.thermal.aux.any (fun x => x.tripped)
  if trips || (a.tripped && !any) then
    let s := ((List.range 16).foldl (fun (t : State) k => t.onDom k (fun d => { d with auxTrip := any })) s).resolveLevels
    if trips then s.tripEvent (70 + i) else s
  else s

/-- STACK_OVERTEMP_SHUTDOWN (R164): a stack's control value has been above 95 °C for 10 ms. -/
def execStackOvertempShutdown (k : Nat) (s : State) : Host.Outcome State Fault Refusal :=
  .next (match (s.thermal.stackSpots.getD k {}).hotSince with
    | some t => if s.now ≥ t + 10000000 && !s.power.shutdown && s.boot.st != .off then (s.tripEvent (64 + k)).orderlyShutdown else s
    | none => s)

/-- REFRESH_RESTORE (R165): at or below 83 °C for 1 s. -/
def execRefreshRestore (k : Nat) (s : State) : Host.Outcome State Fault Refusal :=
  let h := s.thermal.stackSpots.getD k {}
  .next (match h.coolSince with
    | some t => if h.refresh2x && s.now ≥ t + 1000000000 then s.onSpot (64 + k) (fun x => { x with refresh2x := false }) else s
    | none => s)

/-! ### Sudden stop and module DARK (R168 to R170) -/

/-- The commands that a sudden stop ends with ENGINE_RESET (R170). -/
def stopEnds (d : Desc) : Bool :=
  d.startedAt.isSome && (d.engineRun || isColl d.op || [0x19, 0x1A, 0x70, 0x72, 0x73, 0x74, 0x75, 0x80, 0x81].contains d.op)

/-- Every started command that R170 names ends; a codec core's picture or frame in progress is as after its reset (R435). -/
def State.endForStop (s : State) : State :=
  let s := { s with video := { s.video with cores := s.video.cores.map (fun c => { c with item := none }) } }
  (List.range 16).foldl (fun (t : State) p => t.endEach p ((t.part p).fetched.filter stopEnds) { status := stEngineReset, result := 0xFF }) s

/-- THERMAL_EMERGENCY (R175): the cause goes to the physical function only. -/
def State.emergencyEvent (s : State) (cause : Nat) : State :=
  (s.livePartitions.filter (· ≠ 0)).foldl (fun (t : State) p => t.raise p 0x33 []) (s.raise 0 0x33 (toLe 1 cause))

/-- SAFE by a sudden stop: a SAFE of another cause keeps its cause, and start-up ends (notes/assumptions/59.md). -/
def State.stopSafe (s : State) : State :=
  match s.boot.st with
  | .safe => s
  | .train | .selftest =>
    let s := s.writeBack
    { s with boot := { s.boot with served := true, stepEight := true } }.enterSafe 3
  | _ => s.enterSafe 3

/-- A sudden stop (causes 1 and 2) or an allowance below 330 W (cause 3): the timeline of R169 up to module DARK and SAFE. -/
def State.emergencyStop (s : State) (cause : Nat) : State :=
  if !s.boot.st.live || s.thermal.emergency || s.power.shutdown then s
  else
    let again := match s.thermal.clearAt with | some t => decide (s.now < t + 60000000000) | none => false
    let s := { s with thermal := { s.thermal with
      emergency := true, cause := cause, keepSuspended := true, evSudden := s.thermal.evSudden || decide (cause < 3)
      rearmHold := s.thermal.rearmHold || (again && decide (cause < 3)) } }
    let s := (((s.resolveLevels).emergencyEvent cause).stopCyclic).endForStop
    s.stopSafe

/-! ### Flow (R166 to R169) -/

/-- Heat capacity of the coolant in 0.1 J per litre per kelvin (R166). -/
def Thermal.cv (t : Thermal) : Nat := 41700 - 123 * t.glycol

/-- The permitted rise in 0.1 K (R166). -/
def Thermal.rise (t : Thermal) : Nat := (max 0 (min 130 (580 - t.inlet))).toNat

/-- The flow allowance for a flow in mL/min (R166). -/
def Thermal.allowance (t : Thermal) (flow : Nat) : Nat := flow * t.cv * t.rise / 6000000

/-- The difference of outlet and inlet exceeds what power and flow explain by more than 3 K (R169): power × 60 / (cv × flow), without the
division. -/
def Thermal.excess (t : Thermal) (powerDw : Nat) : Bool := decide ((t.outlet - t.inlet - 30) * ((t.cv * t.flow : Nat) : Int) > ((powerDw * 600000 : Nat) : Int))

/-- The flow estimate of R167 in mL/min, for a difference in 0.1 K. -/
def Thermal.estimate (t : Thermal) (powerDw diff : Nat) : Nat := powerDw * 600000 / (t.cv * diff)

/-- The flow in use has changed: since when it is below 1.92 L/min (R168). -/
def Thermal.judged (t : Thermal) (now : Nat) : Thermal :=
  { t with lowSince := if t.flow < 1920 then some (t.lowSince.getD now) else none, flowWarn := t.flowWarn && decide (t.flow < 1920) }

/-- A flow sample (R160, R167, R169). -/
def State.flowSample (s : State) (v : Option Nat) : State :=
  let t := s.thermal
  if t.meterFailed then s
  else match v with
    | none => { s with thermal := { t with meterFault := true, meterFailed := true } }
    | some f =>
      let stop := decide (f < 480) && (match t.flowOkAt with | some a => decide (s.now < a + 1000000000) | none => false)
      let out := f < 300 || f > 4000
      let u : Thermal := { t with
        flow := if out then t.flow else f, flowSrc := t.flowSrc && out, meterFault := out
        flowOkAt := if f ≥ 1920 then some s.now else t.flowOkAt }
      let s := { s with thermal := u.judged s.now }
      if stop then s.emergencyStop 1 else s

/-- An inlet sample: a failed sensor keeps its last value (R160, notes/assumptions/66.md). -/
def State.inletSample (s : State) (v : Option Int) : State :=
  let t := s.thermal
  let u : Thermal := match v with
    | some x => if inRange x && !t.inletFailed then { t with inlet := tenths x, inletSeen := true } else { t with inletFailed := true }
    | none => { t with inletFailed := true }
  { s with thermal := u }

/-- An outlet sample (R160, R169): its rise over 200 ms, and the difference beyond what power and flow explain. -/
def State.outletSample (s : State) (v : Option Int) : State :=
  let lost := { s with thermal := { s.thermal with outletFailed := true } }
  match v with
  | none => lost
  | some x =>
    if !inRange x || s.thermal.outletFailed then lost
    else
      let past := s.thermal.outlets.filter (fun o => o.1 + 200000000 ≥ s.now)
      let rises := past.any (fun o => decide (tenths x > o.2 + 10))
      let s := { s with thermal := { s.thermal with outlet := tenths x, outlets := (s.now, tenths x) :: past } }
      if rises && s.thermal.excess s.power.powerDw then s.emergencyStop 2 else s

/-- A hub or power-stage sample. -/
def State.auxSample (s : State) (i : Nat) (v : Option Int) : State :=
  let a := s.thermal.aux.getD i {}
  let x := sampled s.now a.hist v (s.power.report.points.getD i 0)
  let fails := a.failed || x.2
  let s := s.onAux i (fun b => { b with failed := fails, hist := x.1, ctl := if fails then b.est + 50 else (v.map tenths).getD b.ctl })
  (if fails && !a.failed then s.logSpot 3 (70 + i) else s).auxValue i

/-- The conditions of R171 on flow, inlet, stacks and tiles. -/
def Thermal.calm (t : Thermal) : Bool :=
  (if t.meterFailed then decide (t.allowW ≥ 400) else decide (t.flow ≥ 1920)) && decide (150 ≤ t.inlet) && decide (t.inlet ≤ 450) &&
    t.stackSpots.all (fun h => decide (h.ctl ≤ 850)) && t.tiles.all (fun h => decide (h.ctl ≤ 700))

/-- Since when the conditions of R171 hold. -/
def State.noteCalm (s : State) : State :=
  { s with thermal := { s.thermal with calmSince := if s.thermal.calm then some (s.thermal.calmSince.getD s.now) else none } }

/-- SENSOR_SAMPLE (R159 to R161, R164, R165, R169, R173). -/
def execSensorSample (x : Sample) (s : State) : Host.Outcome State Fault Refusal :=
  let t := match x with
    | .tile t n v =>
      if t ≥ 64 then s
      else (((s.rollCycles).onSpot t (fun h => h.take s.now n v (s.dom (domOfTile t)).powerW)).noteLost t (s.thermal.spot t)).tileValue t
    | .stack k n v =>
      if k ≥ 6 then s
      else ((s.onSpot (64 + k) (fun h => h.take s.now n v (s.power.report.stackWs.getD k 0))).noteLost (64 + k) (s.thermal.spot (64 + k))).stackValue k
    | .aux i v => if i ≥ 10 then s else s.auxSample i v
    | .inlet v => s.inletSample v
    | .outlet v => s.outletSample v
    | .flow v => s.flowSample v
  .next t.noteCalm

/-- FLOW_WARN (R168): flow below 1.92 L/min for 1 s. -/
def State.warnFlow (s : State) : State :=
  ({ s with thermal := { s.thermal with flowWarn := true, evWarned := true } }).raise 0 0x30 (toLe 4 s.thermal.flow)

/-- FLOW_WARN (R168). -/
def execFlowWarn (s : State) : Host.Outcome State Fault Refusal :=
  .next (match s.thermal.lowSince with
    | some t => if s.now ≥ t + 1000000000 && !s.thermal.flowWarn then s.warnFlow else s
    | none => s)

/-- An event of the allowance: the figure goes to the physical function only (R175). -/
def State.allowEvent (s : State) (code : Nat) : State :=
  (s.livePartitions.filter (· ≠ 0)).foldl (fun (t : State) p => t.raise p code []) (s.raise 0 code (toLe 2 s.thermal.allowW))

/-- FLOW_LIMIT_EXIT (R168): level 2 has not bound for 1 s. -/
def execFlowLimitExit (s : State) : Host.Outcome State Fault Refusal :=
  .next (match s.thermal.freeSince with
    | some t => if s.thermal.flowLimit && s.now ≥ t + 1000000000 then
        ({ s with thermal := { s.thermal with flowLimit := false } }).allowEvent 0x32 else s
    | none => s)

/-! ### The predictor (R162, R163, R166 to R168) -/

/-- An integer that the manual leaves open. -/
def freeInt (n : Nat) : Int := let v := Config.freeNat n; if v % 2 = 0 then ((v / 2 : Nat) : Int) else -((v / 2 : Nat) : Int)

/-- The largest difference of an estimate and a control value among hot spots, as (NODE, difference), the first of equal ones. -/
def worstErr (t : Thermal) : Nat × Nat :=
  let all := (t.tiles ++ t.stackSpots).map (fun h => apart h.est h.ctl) ++ t.aux.map (fun a => apart a.est a.ctl)
  all.zipIdx.foldl (fun (a : Nat × Nat) (x : Nat × Nat) => if a.2 < x.1 then (x.2, x.1) else a) (0, 0)

/-- The model's estimates, which the network's coefficients leave open (R162), the control values that rest on them, and its errors of
the last 1 s. -/
def Thermal.estimates (t : Thermal) (now f : Nat) : Thermal :=
  let spot := fun (n : Nat) (h : HotSpot) => { h with est := freeInt (f + n) }.valued
  let t : Thermal := { t with
    tiles := t.tiles.zipIdx.map (fun (h : HotSpot × Nat) => spot h.2 h.1)
    stackSpots := t.stackSpots.zipIdx.map (fun (h : HotSpot × Nat) => spot (64 + h.2) h.1)
    aux := t.aux.zipIdx.map (fun (a : AuxSpot × Nat) =>
      let e := freeInt (f + 70 + a.2)
      { a.1 with est := e, ctl := if a.1.failed then e + 50 else a.1.ctl })
    predicted := true }
  { t with errs := (now, worstErr t) :: t.errs.filter (fun x => now < x.1 + 1000000000) }

/-- The stacks that border a rim tile of a domain (R20, R163). -/
def domStacks (k : Nat) : List Nat := (domPorts k).flatMap (fun i => ((List.range 6).map (fun c => (stackChan i c).1)).eraseDups)

/-- The points that a domain's cap keeps within their targets, in 0.1 K (R163). -/
def capTargets (k : Nat) : List (Nat × Int) :=
  (tilesOfDom k).map (fun t => (t, 1030)) ++ (domStacks k).map (fun i => (64 + i, 930)) ++ (List.range 10).map (fun i => (70 + i, auxLimit i - 20))

/-- The predictor cap of a domain: the largest power for which every prediction meets its target (R163, notes/assumptions/63.md). -/
def capOf (f k : Nat) : Nat :=
  ((List.range 4096).reverse.find? (fun w => (capTargets k).all (fun x => decide (Config.predicted f k w x.1 ≤ x.2)))).getD 0

/-- The model's update (R162) and the caps (R163). -/
def State.predict (s : State) : State :=
  let f := s.fresh
  let bad := fun (h : HotSpot) => h.bad0 || h.bad1
  let t := { s with
    thermal := s.thermal.estimates s.now f
    power := { s.power with doms := s.power.doms.zipIdx.map (fun (d : Domain × Nat) => { d.1 with capW := capOf f d.2 }) }
    fresh := f + 80 }
  let t := ((List.range 64).filter (fun i => bad (t.thermal.spot i))).foldl (fun (a : State) i => a.tileValue i) t
  let t := ((List.range 6).filter (fun i => bad (t.thermal.spot (64 + i)))).foldl (fun (a : State) i => a.stackValue i) t
  ((List.range 10).filter (fun i => (t.thermal.aux.getD i {}).failed)).foldl (fun (a : State) i => a.auxValue i) t

/-- With the flow estimate in use (R167). -/
def Thermal.estimated (t : Thermal) (powerDw diff : Nat) : Thermal :=
  let flow := satTo 16 (t.estimate powerDw diff)
  { t with flow := flow, flowSrc := true, allowW := satTo 12 (t.allowance flow) }

/-- Without a reading or an estimate (R167): 2.0 L/min while input power stays below 400 W, and otherwise an allowance of 400 W. What
THM.FLOW shows meanwhile is open at 400 W or more: the model shows the 2,000 mL/min and SOURCE 0 there too (notes/assumptions/60.md). -/
def Thermal.assumed (t : Thermal) (powerDw : Nat) : Thermal :=
  { t with flow := 2000, flowSrc := false, allowW := if powerDw < 4000 then satTo 12 (t.allowance 2000) else 400 }

/-- The flow in use and the allowance (R166, R167). -/
def State.takeAllowance (s : State) : State :=
  let t := s.thermal
  let diff := t.outlet - t.inlet
  let est := t.meterFault && diff > 10
  let u := if !t.meterFault then { t with allowW := satTo 12 (t.allowance t.flow), flowSrc := false }
    else if est then t.estimated s.power.powerDw diff.toNat else t.assumed s.power.powerDw
  let u := u.judged s.now
  let u : Thermal := { u with freeSince := if u.allowW ≥ 1600 then some (u.freeSince.getD s.now) else none, evWarned := u.evWarned || (est && !t.flowSrc) }
  let s := { s with thermal := u }
  if est && !t.flowSrc then s.raise 0 0x30 (toLe 4 u.flow) else s

/-- What the allowance asks for (R168), in the order of the table. -/
def State.flowResponse (s : State) : State :=
  if !s.boot.st.live then s
  else
    let s := if s.thermal.allowW < 1600 && !s.thermal.flowLimit then
        ({ s with thermal := { s.thermal with flowLimit := true } }).allowEvent 0x31 else s
    let s := if s.thermal.allowW < 330 then s.emergencyStop 3 else s
    if s.thermal.allowW < 110 then s.orderlyShutdown else s

/-- PREDICTOR_UPDATE (R162, R163, R166 to R168): caps and allowance change, so the levels are resolved (R28). -/
def execPredictorUpdate (s : State) : Host.Outcome State Fault Refusal :=
  .next (if s.boot.st = .off then s else ((((s.rollCycles.predict).takeAllowance).flowResponse).resolveLevels).noteCalm)

/-! ### The way back (R171) -/

/-- THERMAL_CLEAR (R171): the conditions have held for 10 s; recoveries that waited start over (R509). A SAFE of another cause stays
(notes/assumptions/59.md). -/
def execThermalClear (s : State) : Host.Outcome State Fault Refusal :=
  let held := match s.thermal.calmSince with | some t => decide (t + 10000000000 ≤ s.now) | none => false
  .next (if s.thermal.emergency && s.boot.st = .safe && !s.thermal.rearmHold && !s.power.shutdown && held then
    let s := { s with thermal := { s.thermal with
      emergency := false, cause := 0, clearAt := some s.now, keepSuspended := !s.sec.steward } }
    let s := { s with health := { s.health with units := s.health.units.map (fun (u : Unit) =>
      if u.recov == Recov.recovering then { u with resetAt := s.now } else u) } }
    let s := if s.boot.safeCause = 3 then s.setModule s.calm else s
    (s.wakeModule).raiseLive 0x34 []
  else s)

/-- The hold of R171 ends. -/
def State.rearmThermal (s : State) : State := { s with thermal := { s.thermal with rearmHold := false } }

/-- THERMAL_REARM (R171). -/
def execThermalRearm (s : State) : Host.Outcome State Fault Refusal := .next (if s.boot.stepEight then s.wakeDeep.rearmThermal else s)

/-- A write of THM.EVENTS (R176): REARM, and the four bits that a 1 clears. -/
def State.writeThmEvents (s : State) (v : Nat) : State :=
  let t := s.thermal
  let s := { s with thermal := { t with
    evTripped := t.evTripped && !bitOf v 3, evSudden := t.evSudden && !bitOf v 2
    evSuspected := t.evSuspected && !bitOf v 1, evWarned := t.evWarned && !bitOf v 0 } }
  if bitOf v 31 then s.rearmThermal else s

/-! ### The bulk tier's own temperature (R196) -/

/-- BULK_MR4_READ (R196): the highest code read on the channel; a device above its range starts orderly shutdown. -/
def execBulkMr4Read (c code : Nat) (above : Bool) (s : State) : Host.Outcome State Fault Refusal :=
  .next (if c ≥ 8 || !(s.mem.port (16 + c)).avail || s.boot.st = .off then s
    else
      let s := { s with mem := s.mem.onPort (16 + c) (fun q => { q with mr4 := code % 8 }) }
      if above then s.orderlyShutdown else s)

end Sys2Proof.Machine
end

