-- ==== Sys2Proof/Machine/Codec.lean ====
section
/-! DEFINITION. What the codec cores compute where the manual says it: support of sequences (R412, R414), concealment and substitutes
(R426, R427), motion search (R430), the buffer model and the budget of a picture (R431, R432). The rest of the bitstream standards
is in functions without a body of Config (notes/assumptions/7.md). -/

namespace Sys2Proof.Machine

/-- The stream context of channel c. -/
def State.ctx? (s : State) (c : Nat) : Option VidCtx := s.video.ctxs.getD c none

/-- Change the stream context of channel c. -/
def State.onCtx (s : State) (c : Nat) (f : VidCtx → VidCtx) : State :=
  { s with video := { s.video with ctxs := updAt s.video.ctxs c (fun o => o.map f) } }

namespace VidCtx

/-- A field of the context block. -/
def fld (x : VidCtx) (off len : Nat) : Nat := fieldAt x.block off len
/-- Buffers hold 10-bit samples. -/
def deep (x : VidCtx) : Bool := bitOf (x.fld 6 1) (if x.enc then 2 else 0)
/-- Bytes of a sample -/
def bps (x : VidCtx) : Nat := if x.deep then 2 else 1
/-- AH (R415) -/
def ah (x : VidCtx) : Nat := cdiv (x.fld 10 2) 64 * 64
/-- PITCH of a decoder's buffers -/
def pitch (x : VidCtx) : Nat := x.fld 28 4
/-- The first byte of frame buffer b -/
def bufVa (x : VidCtx) (b : Nat) : Nat := x.fld 16 6 + b * x.fld 24 4
/-- The picture ring's size -/
def ring (x : VidCtx) : Nat := 2 ^ x.fld 38 1
/-- DECODE_ORDER -/
def decodeOrder (x : VidCtx) : Bool := bitOf (x.fld 6 1) 1
/-- NBUF -/
def nbuf (x : VidCtx) : Nat := x.fld 12 1
/-- RC: 0 constant QP, 1 CBR, 2 capped VBR -/
def rc (x : VidCtx) : Nat := x.fld 7 1 % 4
/-- BFRAMES -/
def bframes (x : VidCtx) : Nat := x.fld 14 1
/-- The codec that an encoder writes -/
def codec (x : VidCtx) : Nat := x.fld 6 1 % 4

end VidCtx

/-! ### Sequences (R412, R414, R421) -/

/-- The highest profile of a codec in its row of R412, and its highest level × 10. -/
def codecTop (codec : Nat) : Nat × Nat :=
  match codec with | 0 => (2, 52) | 1 => (1, 61) | _ => (0, 61)

/-- Why a sequence is unsupported (R414, R436), if it is. -/
def VidCtx.unsupportedFor (x : VidCtx) (codec : Nat) (h : SeqHead) : Option Nat :=
  if h.profile > (codecTop codec).1 then some 1
  else if h.level > (codecTop codec).2 then some 2
  else if h.width < 64 || h.width > 8192 || h.height < 64 || h.height > 8192 || h.width * h.height > 35651584 ||
      h.width > x.fld 8 2 || h.height > x.fld 10 2 then some 3
  else if !h.plain || !(h.depth == 8 || (h.depth == 10 && codec != 0 && x.deep)) then some 4
  else if h.need > x.nbuf - 1 then some 5
  else none

/-! ### Reference pictures, concealment, substitutes (R426, R427) -/

/-- ORDER in a buffer's record. -/
def FrameBuf.order (b : FrameBuf) : Int := sext 32 (fieldAt b.info 20 4)

/-- The buffer's picture was concealed or predicts from one that was. -/
def FrameBuf.tainted (b : FrameBuf) : Bool := byteAt b.info 4 % 4 != 0

/-- How far two orders lie apart. -/
def orderGap (a b : Int) : Nat := (a - b).natAbs

/-- Of some buffers the one whose ORDER is closest to an order; on a tie the lower ORDER. -/
def VidCtx.closest (x : VidCtx) (o : Int) (l : List Nat) : Option Nat :=
  l.foldl (fun (a : Option Nat) i =>
    let at_ := fun (j : Nat) => (x.bufs.getD j {}).order
    match a with
    | none => some i
    | some j => if orderGap (at_ i) o < orderGap (at_ j) o || (orderGap (at_ i) o == orderGap (at_ j) o && decide (at_ i < at_ j))
        then some i else some j) none

/-- The buffers with a property. -/
def VidCtx.bufsWith (x : VidCtx) (f : FrameBuf → Bool) : List Nat := (List.range x.bufs.length).filter (fun i => f (x.bufs.getD i {}))

/-- The nearest reference of R426 for a picture of an order. -/
def VidCtx.nearest (x : VidCtx) (o : Int) : Option Nat := x.closest o (x.bufsWith (fun b => b.ref || b.wait))

/-- What serves as a reference that the stream names: its buffer, or a substitute, and whether it is one (R427). -/
def VidCtx.reference (x : VidCtx) (name : Option Int) : Option Nat × Bool :=
  match name.bind (fun o => (x.bufsWith (fun b => b.ref && b.order == o)).head?) with
  | some i => (some i, false)
  | none => (x.closest (name.getD (x.lastOrder.getD 0)) (x.bufsWith (fun b => b.ref || b.wait || b.queued.isSome)), true)

/-- The references of a picture. -/
def VidCtx.references (x : VidCtx) (r : PicParse) : List (Option Nat × Bool) := r.names.map x.reference

/-- A picture carries TAINT (R427): it predicts from a substitute, or from a picture with CONC or TAINT. -/
def VidCtx.taints (x : VidCtx) (r : PicParse) : Bool :=
  (x.references r).any (fun y => y.2 || (match y.1 with | some i => (x.bufs.getD i {}).tainted | none => true))

/-- A byte of mid-grey at a place of a row: 128, or 512 in bits [15:6]. -/
def VidCtx.grey (x : VidCtx) (i : Nat) : Byte := if !x.deep then 0x80#8 else if i % 2 = 1 then 0x80#8 else 0#8

/-- The place of a byte of a coded picture of `w` × `h` samples in its plane: (chroma, row, byte of the row). -/
def VidCtx.placeIn (x : VidCtx) (w h i : Nat) : Bool × Nat × Nat :=
  let n := w * x.bps
  if i < n * h then (false, i / n, i % n) else (true, (i - n * h) / n, (i - n * h) % n)

/-- The 16 × 16 luma block that a byte belongs to (R426). -/
def VidCtx.blockAt (x : VidCtx) (w : Nat) (q : Bool × Nat × Nat) : Nat :=
  let side := if q.1 then 8 else 16
  let sample := if q.1 then q.2.2 / (2 * x.bps) else q.2.2 / x.bps
  q.2.1 / side * cdiv w 16 + sample / side

/-- Bytes of a coded picture of `w` × `h` samples, luma and chroma. -/
def VidCtx.codedBytes (x : VidCtx) (w h : Nat) : Nat := w * x.bps * (h + h / 2)

/-- The bytes of the coded picture in buffer b, or mid-grey. -/
def State.bufPicture (s : State) (c : Nat) (x : VidCtx) (w h : Nat) : Option Nat → List Byte
  | none => (List.range (x.codedBytes w h)).map (fun i => x.grey i)
  | some b =>
    let row := fun (base i : Nat) => s.peekVa (s.chan c).part (base + i * x.pitch) (w * x.bps)
    (List.range h).flatMap (row (x.bufVa b)) ++ (List.range (h / 2)).flatMap (row (x.bufVa b + x.pitch * x.ah))

/-- The bytes of a decoded picture: as the core decodes them from its references, with the concealed blocks filled from the nearest
reference (R426). -/
def State.pictureBytes (s : State) (c : Nat) (x : VidCtx) (units : List (List Byte)) (r : PicParse) : List Byte :=
  let w := r.seq.width
  let h := r.seq.height
  let refs := (x.references r).map (fun y => s.bufPicture c x w h y.1)
  let near := s.bufPicture c x w h (x.nearest r.order)
  (List.range (x.codedBytes w h)).map (fun i =>
    if r.lost.contains (x.blockAt w (x.placeIn w h i)) then near.getD i 0#8
    else Config.pictureByte x.block units x.picIn refs i)

/-! ### Motion search (R430) -/

/-- Vectors in units of 1/8 of a luma sample. -/
abbrev Mv := Int × Int

/-- The offsets within ±`rx` × ±`ry` steps, row by row (DESIGN CHOICE: the scan order, notes/assumptions/79.md). -/
def scanBox (rx ry : Nat) : List Mv :=
  (List.range (2 * ry + 1)).flatMap (fun (j : Nat) => (List.range (2 * rx + 1)).map (fun (i : Nat) => ((i : Int) - rx, (j : Int) - ry)))

/-- The offsets of a box around a vector, in steps of `u`. -/
def boxAt (u : Int) (rx ry : Nat) (v : Mv) : List Mv := (scanBox rx ry).map (fun o => (v.1 + u * o.1, v.2 + u * o.2))

/-- Put a candidate with its cost into a ranking; one found first stays before an equal one. -/
def rankMv (x : Nat × Mv) : List (Nat × Mv) → List (Nat × Mv)
  | [] => [x]
  | y :: ys => if x.1 < y.1 then x :: y :: ys else y :: rankMv x ys

/-- The `n` best candidates by a cost, of equal ones those found first. -/
def bestMv (cost : Mv → Nat) (n : Nat) (l : List Mv) : List Mv :=
  ((l.foldl (fun a v => rankMv (cost v, v) a) []).take n).map Prod.snd

/-- The steps of sub-sample refinement in 1/8 samples: to a quarter, or for AV1 to an eighth. -/
def subSteps (eighth : Bool) : List Int := if eighth then [4, 2, 1] else [4, 2]

/-- The window of 384 × 192 luma samples around a block of side `n` takes in the block displaced by a vector. -/
def inWindow (n : Nat) (v : Mv) : Bool :=
  decide ((v.1.natAbs + 7) / 8 + n / 2 ≤ 192) && decide ((v.2.natAbs + 7) / 8 + n / 2 ≤ 96)

/-- The motion vector of a block against a reference, in three stages (R430): full search over ±64 × ±32 samples of the 1/16 plane;
±8 × ±8 samples of the 1/4 plane around its best three and the neighbours' predictors; ±4 × ±4 samples at full resolution, then
sub-samples, inside the on-chip window. -/
def searchMv (cost : Nat → Mv → Nat) (n : Nat) (eighth : Bool) (preds : List Mv) : Mv :=
  let first := bestMv (cost 1) 3 (boxAt 32 64 32 (0, 0))
  let second := bestMv (cost 2) 1 ((first ++ preds).flatMap (boxAt 16 8 8))
  let third := bestMv (cost 3) 1 ((second.flatMap (boxAt 8 4 4)).filter (inWindow n))
  let fine := (subSteps eighth).foldl (fun (l : List Mv) u => bestMv (cost 3) 1 ((l ++ l.flatMap (boxAt u 1 1)).filter (inWindow n))) third
  fine.headD (0, 0)

/-- Luma samples on a side of a block (R432). -/
def blockSide (codec : Nat) : Nat := if codec = 0 then 16 else 64

/-- Blocks in a row, and in all, of a picture (R432). -/
def VidCtx.blockRow (x : VidCtx) : Nat := cdiv (x.fld 8 2) (blockSide x.codec)

/-- Blocks of a picture (R432). -/
def VidCtx.blocks (x : VidCtx) : Nat := x.blockRow * cdiv (x.fld 10 2) (blockSide x.codec)

/-- The vectors of a picture's blocks against one reference, in raster order; a block's neighbours are the one before it and the one
above it. -/
def VidCtx.vectors (x : VidCtx) (frames : List (List Byte)) (ref : Nat) : List Mv :=
  (List.range x.blocks).foldl (fun (vs : List Mv) k =>
    let preds := (if k % x.blockRow = 0 then [] else [vs.getD (k - 1) (0, 0)]) ++ (if k < x.blockRow then [] else [vs.getD (k - x.blockRow) (0, 0)])
    vs ++ [searchMv (fun st v => Config.motionCost x.block frames ref k st v) (blockSide x.codec) (x.codec == 2) preds]) []

/-! ### Rate control (R431, R432) -/

/-- The kind of a picture: 0 I, 1 P, 2 B. -/
abbrev PicKind := Nat

/-- Bits of a block in floor form, at most (R432). -/
def floorBits (codec : Nat) (kind : PicKind) : Nat :=
  match codec with
  | 0 => if kind = 0 then 24 else 2
  | 1 => if kind = 0 then 40 else 6
  | _ => if kind = 0 then 48 else 8

/-- QP of block k (R431): the constant of the picture's kind, or what rate control gives, within QP_MIN to QP_MAX. -/
def VidCtx.qp (x : VidCtx) (frames : List (List Byte)) (kind : PicKind) (k : Nat) : Int :=
  let q := fun (off : Nat) => if x.codec = 1 && x.deep then sext 8 (x.fld off 1) else (x.fld off 1 : Int)
  if x.rc = 0 then q (32 + kind) else max (q 35) (min (q 36) (Config.encQp x.block frames k))

/-- The blocks of a picture coded in turn against a budget (R432): the bits written, and the number of the first block in floor form, if
one is; `left` counts the blocks from k on. -/
def VidCtx.codeBlocks (x : VidCtx) (frames : List (List Byte)) (kind : PicKind) (budget : Option Nat) :
    (left k : Nat) → (bits : Nat) → (cut : Option Nat) → Nat × Option Nat
  | 0, _, bits, cut => (bits, cut)
  | n + 1, k, bits, cut =>
    let e := Config.encBlock x.block frames k (x.qp frames kind k)
    let fl := floorBits x.codec kind
    let normal := match cut, budget with
      | some _, _ => false
      | none, none => true
      | none, some b => decide (bits + (e.1 + e.2) + n * fl ≤ b)
    x.codeBlocks frames kind budget n (k + 1) (bits + (if normal then e.1 else min e.1 fl)) (if normal then cut else some (cut.getD k))

/-- The rate at which bits enter the buffer, in kbit/s: BITRATE, or MAXRATE under VBR (R431). -/
def VidCtx.rate (x : VidCtx) : Nat := if x.rc = 2 then x.fld 20 4 else x.fld 16 4

/-- CPB_BITS, in 1/90 of a bit. -/
def VidCtx.cpb (x : VidCtx) : Nat := 90 * x.fld 24 4

/-- The fullness before the next removal, in 1/90 of a bit (R431): after INIT_DELAY for the first picture, else after the time that the PTS
differences give; arrival stops at CPB_BITS. -/
def VidCtx.fullness (x : VidCtx) : Nat :=
  match x.removed, x.ptsq with
  | none, _ => min x.cpb (x.rate * x.fld 28 4)
  | some t, p :: _ => min x.cpb (x.full + x.rate * (p - t))
  | some _, [] => min x.cpb x.full

/-- What the buffer would hold before the removal after the next, uncut, once `bits` are removed. -/
def VidCtx.later (x : VidCtx) (bits : Nat) : Option Nat :=
  match x.ptsq with
  | p :: q :: _ => some (x.fullness - 90 * bits + x.rate * (q - p))
  | _ => none

/-- The bytes of filler appended to the picture under CBR (R431; DESIGN CHOICE, notes/assumptions/79.md: in whole bytes, and none where the
next frame is not listed yet). -/
def VidCtx.filler (x : VidCtx) (bits : Nat) : Nat :=
  if x.rc = 1 then match x.later bits with | some f => cdiv (f - x.cpb) 720 | none => 0 else 0

/-- The model after a removal of `bits` (R431). -/
def VidCtx.removeBits (x : VidCtx) (bits : Nat) : VidCtx :=
  { x with full := x.fullness - 90 * bits, removed := some (x.ptsq.headD (x.removed.getD 0)), ptsq := x.ptsq.drop 1 }

/-- An access unit: its bytes, and whether it met the condition of R432. -/
structure CodedUnit where
  /-- The bytes -/
  bytes : List Byte
  /-- BUDGET_SHORT -/
  short : Bool
  /-- The bits that the buffer model removes -/
  bits : Nat

/-- The coding of a picture (R430 to R432): `frames` ends with it. -/
def VidCtx.codePicture (x : VidCtx) (frames : List (List Byte)) (kind : PicKind) : CodedUnit :=
  let head := Config.encHeader x.block frames
  let budget := if x.rc = 0 then none else some (x.fullness / 90 - head)
  let r := x.codeBlocks frames kind budget x.blocks 0 head none
  let vs := if kind = 0 then [] else (List.range (min (x.fld 15 1) (frames.length - 1))).map (x.vectors frames)
  let n := cdiv r.1 8 + x.filler (cdiv r.1 8 * 8)
  { bytes := (List.range n).map (fun i => Config.encByte x.block frames vs ((List.range x.blocks).map (x.qp frames kind)) (r.2.getD x.blocks) i)
    short := x.rc != 0 && r.2.isSome
    bits := 8 * n }

end Sys2Proof.Machine
end

