-- ==== Sys2Proof/Machine/Video.lean ====
section
/-! DEFINITION. The codec cores and stream contexts (R412 to R437): context blocks, decoding and its picture ring, encoding
and its units, the carousel of the cores. -/

namespace Sys2Proof.Machine

/-! ### Blocks and requests (R418, R419, R428, R429, R435) -/

/-- The offending bytes of a decoder context block (R419). -/
def decBad (b : List Byte) : List (Bool × Nat) :=
  let x : VidCtx := { enc := false, va := 0, block := b }
  let w := fieldAt b 8 2
  let h := fieldAt b 10 2
  chk [(fieldAt b 0 4 != 1, 0), (byteAt b 4 != 1, 4), (byteAt b 5 == 0 || byteAt b 5 > 8, 5), (byteAt b 6 > 3, 6),
    (w < 64 || w > 8192, 8), (h < 64 || h > 8192, 10), (byteAt b 12 < 2 || byteAt b 12 > 32, 12), (fieldAt b 16 6 % 0x1000 != 0, 16),
    (fieldAt b 24 4 % 0x1000 != 0 || 2 * fieldAt b 24 4 < 3 * (x.pitch * x.ah), 24), (x.pitch % 256 != 0 || x.pitch < w * x.bps, 28),
    (fieldAt b 32 6 % 0x1000 != 0, 32), (byteAt b 38 < 4 || byteAt b 38 > 12, 38), (fieldAt b 40 6 % 64 != 0, 40)] ++
  resv b 7 1 ++ resv b 13 3 ++ resv b 22 2 ++ resv b 39 1 ++ resv b 46 18

/-- Bytes of a slot of the encoder pool (R428). -/
def encSlot (b : List Byte) : Nat :=
  let x : VidCtx := { enc := true, va := 0, block := b }
  cdiv (cdiv (cdiv (x.fld 8 2 * x.bps) 256 * 256 * x.ah * 29) 16) 0x1000 * 0x1000

/-- The offending bytes of an encoder context block (R428, R414). -/
def encBad (b : List Byte) : List (Bool × Nat) :=
  let codec := byteAt b 6 % 4
  let rc := byteAt b 7
  let w := fieldAt b 8 2
  let h := fieldAt b 10 2
  let rate := if rc = 2 then fieldAt b 20 4 else fieldAt b 16 4
  let qpBad := fun (q : Nat) => if codec = 2 then false else if codec = 1 && bitOf (byteAt b 6) 2 then sext 8 q < -12 || sext 8 q > 51 else q > 51
  let parts := fun (n : Nat) => codec != 0 && (n == 0 || n > 16)
  chk [(fieldAt b 0 4 != 1, 0), (byteAt b 4 != 2, 4), (byteAt b 5 == 0 || byteAt b 5 > 8, 5),
    (codec == 3 || bitsOf (byteAt b 6) 7 3 != 0 || (codec == 0 && bitOf (byteAt b 6) 2), 6), (rc > 2, 7),
    (w % 2 != 0 || w < 64 || w > 8192, 8), (h % 2 != 0 || h < 64 || h > 8192 || w * h > 35651584, 10), (byteAt b 14 > 3, 14),
    (byteAt b 15 == 0 || byteAt b 15 > 4, 15), (rc != 0 && (fieldAt b 16 4 < 100 || fieldAt b 16 4 > 480000), 16),
    (rc == 2 && fieldAt b 20 4 < fieldAt b 16 4, 20), (rc != 0 && fieldAt b 28 4 * (rate * 1000) > fieldAt b 24 4 * 90000, 28),
    (qpBad (byteAt b 32), 32), (qpBad (byteAt b 33), 33), (qpBad (byteAt b 34), 34), (qpBad (byteAt b 35), 35), (qpBad (byteAt b 36), 36),
    (byteAt b 37 == 0 || byteAt b 37 > 64 || (codec == 2 && byteAt b 37 != 1), 37), (parts (byteAt b 38), 38), (parts (byteAt b 39), 39),
    (byteAt b 40 > 1, 40), (byteAt b 41 > 3, 41), (fieldAt b 48 6 % 0x1000 != 0, 48),
    (fieldAt b 56 4 < (byteAt b 15 + byteAt b 14 + 1) * encSlot b, 56)] ++
  resv b 42 6 ++ resv b 54 2 ++ resv b 60 68

/-- A range is reached and lies in stacked DRAM (R435); `off` is the pool's byte in the block. -/
def State.poolReach (s : State) (p va len off : Nat) : Option Fail :=
  match s.resolve p none 0 va len true with
  | .error f => some f
  | .ok ps => if ps.all (fun x => match placeOf x.1 with | .stacked _ _ => true | _ => false) then none else some (badInBlock off)

/-- The context a DECODE or ENCODE would use: the block's role, fields, pool and rings (R418, R419, R428, R435). -/
def State.blockCheck (s : State) (p c va : Nat) (enc : Bool) : Option Fail :=
  let go := fun (va len : Nat) => match s.resolve p none 0 va len true with | .ok _ => none | .error f => some f
  match s.readVa p none 0 va (if enc then 128 else 64) with
  | .error f => some f
  | .ok b =>
    if byteAt b 4 == (if enc then 1 else 2) then some (.status stIllegalState 0)
    else match firstBad (if enc then encBad b else decBad b) with
      | some o => some (badInBlock o)
      | none =>
        if enc then
          if byteAt b 6 % 4 != (s.chan c).fld 5 1 % 4 then some (.status stIllegalState 0) else s.poolReach p (fieldAt b 48 6) (fieldAt b 56 4) 48
        else (s.poolReach p (fieldAt b 16 6) (byteAt b 12 * fieldAt b 24 4) 16 <|> go (fieldAt b 32 6) (64 * 2 ^ byteAt b 38)) <|>
          go (fieldAt b 40 6) 64

/-- CTX_VA of a request against the context that the channel holds (R423, R435). -/
def State.ctxCheck (s : State) (p : Nat) (d : Desc) (va : Nat) (enc : Bool) : Option Fail :=
  match s.ctx? d.chan with
  | some x => if x.enc != enc || (va != 0 && va != x.va) then some (.status stIllegalState 0) else none
  | none => if va = 0 then some (.status stIllegalState 0) else if va % 64 != 0 then some (badInBlock 0) else s.blockCheck p d.chan va enc

/-- The channel's kind allows the command (R418). -/
def kindOk (c : Channel) (op : Nat) : Bool :=
  match op with
  | 0x72 => c.kind == 0 || c.kind == 3
  | 0x73 => c.kind == 2 && !c.framed
  | _ => true

/-- Create the context that a request names, where the channel holds none. -/
def State.makeCtx (s : State) (p : Nat) (d : Desc) (va : Nat) (enc : Bool) : State :=
  if (s.ctx? d.chan).isSome then s
  else
    let b := s.peekVa p va (if enc then 128 else 64)
    let x : VidCtx := { enc := enc, va := va, block := b, bufs := if enc then [] else List.replicate (byteAt b 12) {} }
    let s := { s with video := { s.video with ctxs := updAt s.video.ctxs d.chan (fun _ => some x) } }
    if enc then s else s.tryWriteVa p (x.fld 40 6 + 8) (zeros 4)

/-! ### The picture ring (R421, R422) -/

/-- READ_IDX of the picture ring. -/
def State.picRead (s : State) (c : Nat) (x : VidCtx) : Nat := leNat (s.peekVa (s.chan c).part (x.fld 40 6 + 8) 4)

/-- Write the picture status block but for READ_IDX (R422). -/
def State.postCtx (s : State) (c : Nat) : State :=
  let s := s.onCtx c (fun x => { x with statSeq := (x.statSeq + 2) % 2 ^ 32 })
  match s.ctx? c with
  | none => s
  | some x =>
    if x.enc then s
    else
      let p := (s.chan c).part
      let va := x.fld 40 6
      let s := s.tryWriteVa p va (toLe 4 ((x.statSeq + 2 ^ 32 - 1) % 2 ^ 32))
      let s := s.tryWriteVa p (va + 4) (toLe 4 x.writeIdx)
      let s := s.tryWriteVa p (va + 12) (toLe 4 x.decoded ++ toLe 4 x.concealed ++ toLe 4 x.tainted ++ toLe 4 x.skipped ++ toLe 4 x.errors ++
        toLe 4 x.unsupported)
      s.tryWriteVa p va (toLe 4 x.statSeq)

/-- A buffer is free (R421). -/
def FrameBuf.free (b : FrameBuf) : Bool := !b.ref && !b.wait && b.queued.isNone && !b.busy

/-- Read READ_IDX: the records it has passed are consumed (R421). -/
def State.pollRead (s : State) (c : Nat) : State :=
  match s.ctx? c with
  | none => s
  | some x =>
    let r := s.picRead c x
    s.onCtx c (fun y => { y with bufs := y.bufs.map (fun b => match b.queued with
      | some i => if 0 < (r + 2 ^ 32 - i) % 2 ^ 32 ∧ (r + 2 ^ 32 - i) % 2 ^ 32 ≤ 2 ^ 31 then { b with queued := none } else b
      | none => b) })

/-- The visible rows of a plane: `chroma` selects it, from row `top` and column `left` on. -/
def State.planeRows (s : State) (c : Nat) (x : VidCtx) (b : Nat) (chroma : Bool) (info : List Byte) : List Byte :=
  let w := cdiv (fieldAt info 8 2) 2 * 2 * x.bps
  let h := cdiv (fieldAt info 10 2) 2 * 2
  let left := fieldAt info 12 2 * x.bps
  let top := fieldAt info 14 2
  let base := x.bufVa b + (if chroma then x.pitch * x.ah else 0)
  let div := if chroma then 2 else 1
  (List.range (h / div)).flatMap (fun i => s.peekVa (s.chan c).part (base + (top / div + i) * x.pitch + left) w)

/-- Write the record of a buffer that has been output (R422): its picture is QUEUED. -/
def State.queuePic (s : State) (c b : Nat) : State :=
  match s.ctx? c with
  | none => s
  | some x =>
    let info := (x.bufs.getD b {}).info
    let s := s.tryWriteVa (s.chan c).part (x.fld 32 6 + 64 * (x.writeIdx % x.ring)) (overlay info 0 (toLe 4 x.writeIdx))
    let region := s.planeRows c x b false info ++ s.planeRows c x b true info
    let conc := bitOf (byteAt info 4) 0
    let taint := bitOf (byteAt info 4) 1
    (s.onCtx c (fun y => { y with
      writeIdx := (y.writeIdx + 1) % 2 ^ 32, outq := y.outq.erase b,
      concealed := satTo 32 (y.concealed + b2n conc), tainted := satTo 32 (y.tainted + b2n taint),
      bufs := updAt y.bufs b (fun f => { f with wait := false, queued := some y.writeIdx }),
      cmds := updAt y.cmds 0 (fun k => { k with
        written := k.written + 1, cflags := k.cflags ||| flagIf (conc || taint) cfConcealed, regions := k.regions ++ [region] }) })).postCtx c

/-- A media command in progress on channel c completes: its digest, then its record (R423, R429). -/
def State.mediaDone (s : State) (c : Nat) (k : MediaCmd) (o : Done) : State :=
  let p := (s.chan c).part
  let s := s.onCtx c (fun x => { x with cmds := x.cmds.filter (fun y => y.num != k.num) })
  match s.desc? p k.num with
  | none => s
  | some d => match s.writeDigest p d k.regions with
    | .ok t => t.complete p d o
    | .error f => s.failDesc p d f

/-- Buffers in order of their pictures' ORDER. -/
def insertByOrder (x : VidCtx) (b : Nat) : List Nat → List Nat
  | [] => [b]
  | y :: ys =>
    let o := fun (i : Nat) => sext 32 (fieldAt (x.bufs.getD i {}).info 20 4)
    if o b < o y then b :: y :: ys else y :: insertByOrder x b ys

/-- Some core, or the store of preempted items, holds an item of channel c. -/
def Video.busyOn (v : Video) (c : Nat) : Bool :=
  v.saved.any (fun i => i.chan == c) || v.cores.any (fun k => match k.item with | some i => i.chan == c | none => false)

/-- The units up to `upTo` are consumed. -/
def unitsPassed (upTo readIdx : Nat) : Bool := let d := (upTo + 2 ^ 32 - readIdx) % 2 ^ 32; d == 0 || decide (d > 2 ^ 31)

/-- The flush of R423: the waiting pictures are output in ORDER, every REF is cleared. -/
def VidCtx.flushed (x : VidCtx) : VidCtx :=
  let more := ((List.range x.bufs.length).filter (fun b => (x.bufs.getD b {}).wait && !x.outq.contains b)).foldl
    (fun a b => insertByOrder x b a) []
  { x with outq := x.outq ++ more, needRap := true, discont := true, bufs := x.bufs.map (fun b => { b with ref := false }) }

/-- Go on with channel c's decoder: write the records that are due, flush, and complete the commands that are done (R421 to
R423). -/
def State.settleDec (s : State) (c : Nat) : Nat → State
  | 0 => s
  | fuel + 1 =>
    match s.ctx? c with
    | none => s
    | some x =>
      match x.cmds with
      | [] => s
      | k :: _ =>
        let flushNow := k.flush && unitsPassed k.upTo (s.readIdx c) && !s.video.busyOn c
        let s := if flushNow then s.onCtx c VidCtx.flushed else s
        let outq := match s.ctx? c with | some y => y.outq | none => []
        match outq with
        | b :: _ =>
          if (x.writeIdx + 2 ^ 32 - s.picRead c x) % 2 ^ 32 ≥ x.ring then s
          else
            let s := s.queuePic c b
            let k := match s.ctx? c with | some y => y.cmds.headD k | none => k
            (if !k.flush && k.written ≥ k.count then s.mediaDone c k { result := k.written, cflags := k.cflags } else s).settleDec c fuel
        | [] => if flushNow then (s.mediaDone c k { result := k.written, cflags := k.cflags }).settleDec c fuel else s

/-- Enough steps for whatever is due on a context. -/
def VidCtx.fuel (x : VidCtx) : Nat := x.cmds.length + x.bufs.length + x.stuck.length + 1

/-- The decoder of channel c has a unit to decode and no buffer for it (R421). -/
def State.noteWait (s : State) (c : Nat) : State :=
  match s.ctx? c with
  | none => s
  | some x =>
    if !x.enc && !x.cmds.isEmpty && s.unread c > 0 && !s.video.busyOn c && !x.bufs.any FrameBuf.free then
      if x.waitSince.isSome then s else s.onCtx c (fun y => { y with waitSince := some s.now, waitSent := false })
    else s.onCtx c (fun y => { y with waitSince := none, waitSent := false })

/-- Settle a decoder and note whether it waits. -/
def State.goDec (s : State) (c : Nat) : State :=
  match s.ctx? c with
  | some x => (s.settleDec c x.fuel).noteWait c
  | none => s

/-! ### DECODE (R423) -/

/-- The offending bytes of a decode request. -/
def decReqBad (b : List Byte) : List (Bool × Nat) := chk [(byteAt b 8 > 3, 8)] ++ resv b 6 2 ++ resv b 9 23

/-- DECODE (R423): the command joins its context. -/
def execDecode (d : DescRef) (s : State) : Host.Outcome State Fault Refusal :=
  .next (s.startDesc d (isOp 0x72)
    (fun t p x => t.mediaCheck p x <|>
      (if !kindOk (t.chan x.chan) 0x72 then some (.status stIllegalState 0)
       else match t.readVa p none 0 (x.fld 20 6) 32 with
         | .error f => some f
         | .ok b => (firstBad (decReqBad b)).map badInBlock <|> t.ctxCheck p x (fieldAt b 0 6) false))
    (fun t p x =>
      let b := t.peekVa p (x.fld 20 6) 32
      let t := t.makeCtx p x (fieldAt b 0 6) false
      let k : MediaCmd := { num := x.num, count := Nat.max 1 (x.fld 28 4), flush := bitOf (byteAt b 8) 0, skip := bitOf (byteAt b 8) 1,
                            upTo := t.writeIdx x.chan }
      (t.onCtx x.chan (fun y => { y with cmds := y.cmds ++ [k] })).goDec x.chan))

/-- DECODE_TIME_REACHED (R423). -/
def execDecodeTimeReached (d : DescRef) (s : State) : Host.Outcome State Fault Refusal :=
  .next (match s.desc? d.part d.num with
    | none => s
    | some x =>
      if isOp 0x72 x && x.startedAt.isSome && x.fld 32 8 != 0 && s.now ≥ x.fld 32 8 then
        match (s.ctx? x.chan).bind (fun y => y.cmds.find? (fun k => k.num == x.num)) with
        | some k => (s.mediaDone x.chan k { result := k.written, cflags := k.cflags }).goDec x.chan
        | none => s
      else s)

/-! ### The carousel of the cores (R420, R444) -/

/-- The units that the context has consumed, and the one at READ_IDX with its flags and payload (R33, R403). -/
def State.unitsNow (s : State) (c : Nat) (x : VidCtx) : Except Fail (List (List Byte)) :=
  let ch := s.chan c
  let r := s.unitRecord c (s.readIdx c)
  (s.readVa ch.part none 0 (ch.fld 64 6 + fieldAt r 12 4) (fieldAt r 16 4)).map (fun bs => x.seen ++ [sliceOf r 4 4 ++ bs])

/-- Core n may run items of Pp: reserved cores serve their partition alone. -/
def State.coreServes (s : State) (n p : Nat) : Bool :=
  let mine := (s.part p).sec.codecCores
  if mine != 0 then mine.getLsbD n else !(List.range 16).any (fun q => (s.part q).sec.codecCores.getLsbD n)

/-- Core time of Pp over the last WINDOW_MS (R420, R437), in ns. -/
def State.coreTime (s : State) (p : Nat) : Nat :=
  (s.video.use.filter (fun u => u.1 == p && u.2.1 + s.video.windowMs * 1000000 ≥ s.now)).foldl (fun (a : Nat) u => a + u.2.2) 0

/-- The parts of the picture in progress on a context (R417): a decoded picture's as it is coded, an encoded one's slices, tiles or
rows of CTUs. -/
def State.partsOf (s : State) (c : Nat) (x : VidCtx) : Nat :=
  Nat.max 1 (if !x.enc then (match s.unitsNow c x with | .ok us => (Config.parse x.block us x.picIn).parts | .error _ => 1)
    else if x.codec = 0 then x.fld 37 1
    else if bitOf (x.fld 40 1) 0 then cdiv (x.fld 10 2) 64
    else x.fld 38 1 * x.fld 39 1)

/-- The frames that the ENCODE in progress may code: those of later ones wait (R418). -/
def VidCtx.open_ (x : VidCtx) : List EncFrame := x.frames.filter (fun f => !(x.cmds.drop 1).any (fun k => k.num == f.num))

/-- The next picture of an encoder can be coded: enough frames are there for its reordering, or the stream ends (R428, R429). -/
def VidCtx.codable (x : VidCtx) : Bool :=
  match x.cmds with
  | k :: _ => x.open_.length > x.bframes || (k.flush && !x.open_.isEmpty)
  | [] => false

/-- Items of channel c that cores or the store of preempted items hold. -/
def Video.itemsOn (v : Video) (c : Nat) : Nat :=
  (v.saved.filter (fun i => i.chan == c)).length + (v.cores.filter (fun k => match k.item with | some i => i.chan == c | none => false)).length

/-- The ready item of channel c, if it has one (R420): a new picture, or a further part of the one in progress on at most PAR cores
(R417). -/
def State.readyItem (s : State) (c : Nat) : Option CodecItem :=
  match s.ctx? c with
  | none => none
  | some x =>
    let k := x.cmds.headD { num := 0, count := 0, flush := false }
    let ready := !x.cmds.isEmpty &&
      (if x.parts.1 > 0 then decide (x.parts.1 < s.partsOf c x) && decide (s.video.itemsOn c < x.fld 5 1)
       else if x.enc then x.codable
       else s.unread c > 0 && x.bufs.any FrameBuf.free && !(k.flush && unitsPassed k.upTo (s.readIdx c)))
    if ready then some { part := (s.chan c).part, chan := c, cls := (s.chan c).cls, enc := x.enc, since := s.now } else none

/-- What orders the items of one class: the share, the age, the channel (R420). -/
def State.itemBefore (s : State) (a b : CodecItem) : Bool :=
  let live := fun (i : CodecItem) => if i.cls = 0 then 0 else 1
  let age := fun (i : CodecItem) =>
    if i.enc then match (s.ctx? i.chan).bind (fun x => x.cmds.head?) with
      | some k => ((s.desc? i.part k.num).bind (fun d => d.startedAt)).getD 0
      | none => 0
    else fieldAt (s.unitRecord i.chan (s.readIdx i.chan)) 20 8
  let wa := s.coreTime a.part * (s.part b.part).sec.codecWeight
  let wb := s.coreTime b.part * (s.part a.part).sec.codecWeight
  if live a != live b then live a < live b
  else if wa != wb then wa < wb
  else if age a != age b then age a < age b
  else a.chan < b.chan

/-- The item that core n takes next: a ready one or a preempted one. -/
def State.pickItem (s : State) (n : Nat) (ok : CodecItem → Bool) : Option CodecItem :=
  ((s.video.saved ++ (List.range 64).filterMap s.readyItem).filter (fun i => s.coreServes n i.part && ok i)).foldl
    (fun a i => match a with | none => some i | some b => if s.itemBefore i b then some i else a) none

/-- Core n takes an item: the first of a decoded picture takes the lowest-numbered free buffer (R421). -/
def State.giveItem (s : State) (n : Nat) (i : CodecItem) : State :=
  let resumed := s.video.saved.contains i
  let s := { s with video := { s.video with
    saved := s.video.saved.erase i, cores := updAt s.video.cores n (fun k => { k with item := some { i with since := s.now } }) } }
  if resumed then s
  else s.onCtx i.chan (fun x =>
    let x := { x with parts := (x.parts.1 + 1, x.parts.2) }
    if x.enc || x.parts.1 > 1 then x
    else { x with waitSince := none, bufs := updAt x.bufs (x.bufs.findIdx FrameBuf.free) (fun b => { b with busy := true }) })

/-- Core time is charged to the partition of the item that a core gives up. -/
def State.chargeCore (s : State) (i : CodecItem) : State :=
  { s with video := { s.video with use := (s.video.use ++ [(i.part, s.now, s.now - i.since)]).filter (fun u => u.2.1 + 1000000000 ≥ s.now) } }

/-- Decoders look at READ_IDX when they need a buffer (R421). -/
def State.pollAll (s : State) : State :=
  (List.range 64).foldl (fun t c => match t.ctx? c with
    | some x => if !x.enc && !x.bufs.any FrameBuf.free then t.pollRead c else t
    | none => t) s

/-- CODEC_CORE_DISPATCH (R420). -/
def execCodecCoreDispatch (n : Nat) (s : State) : Host.Outcome State Fault Refusal :=
  let core := s.video.cores.getD n {}
  .next (if n ≥ 8 || !s.clocked 1 n || core.item.isSome || (s.unit 1 n).fenced || (s.unit 1 n).recov != .idle then s
    else
      let s := s.pollAll
      match s.pickItem n (fun _ => true) with
      | some i => s.giveItem n i
      | none => s)

/-- The core that has run a class 1 or 2 item longest and may serve Pp. -/
def State.longestCore (s : State) (p : Nat) : Option (Nat × CodecItem) :=
  (List.range 8).foldl (fun a n => match (s.video.cores.getD n {}).item with
    | some i =>
      if i.cls = 0 || !s.coreServes n p then a
      else match a with
        | some (b : Nat × CodecItem) => if i.since < b.2.since then some (n, i) else a
        | none => some (n, i)
    | none => a) none

/-- CODEC_PREEMPT (R420). -/
def execCodecPreempt (s : State) : Host.Outcome State Fault Refusal :=
  let lives := (List.range 64).filterMap s.readyItem
  let live := (lives.filter (fun i => i.cls == 0)).foldl
    (fun a i => match a with | none => some i | some b => if s.itemBefore i b then some i else a) (none : Option CodecItem)
  .next (match s.video.preempt, live with
    | true, some i =>
      if (List.range 8).any (fun n => (s.video.cores.getD n {}).item.isNone && s.coreServes n i.part && !(s.unit 1 n).fenced &&
          (s.unit 1 n).recov == .idle) then s
      else match s.longestCore i.part with
        | none => s
        | some (n, old) =>
          let s := s.chargeCore old
          let s := { s with video := { s.video with saved := s.video.saved ++ [old], cores := updAt s.video.cores n (fun k =>
            { k with item := none, preempts := satTo 16 (k.preempts + 1) }) } }
          s.giveItem n i
    | _, _ => s)

/-- The item of core n is done. -/
def State.freeCore (s : State) (n : Nat) (i : CodecItem) (errors : Nat) : State :=
  let s := s.chargeCore i
  { s with video := { s.video with cores := updAt s.video.cores n (fun k =>
      { k with item := none, pics := satTo 32 (k.pics + 1), errors := satTo 16 (k.errors + errors) }) } }

/-! ### Pictures (R414, R421, R422, R424 to R427) -/

/-- Errors that a picture's decode detected (R425). -/
def State.countErrors (s : State) (c errors unitIdx : Nat) : State :=
  match s.ctx? c with
  | none => s
  | some x =>
    if errors = 0 then s
    else
      let s := s.onCtx c (fun y => { y with errors := satTo 32 (y.errors + errors), errAt := some s.now })
      if quietFor s.now x.errAt then s.raise (s.chan c).part 0x9B (toLe 1 c ++ zeros 3 ++ toLe 4 unitIdx) else s

/-- The unit at READ_IDX is consumed (R423). -/
def State.consumeUnit (s : State) (c : Nat) : State :=
  s.tryWriteVa (s.chan c).part ((s.chan c).fld 86 6 + 8) (toLe 4 ((s.readIdx c + 1) % 2 ^ 32))

/-- The coded picture goes into the buffer from its top-left corner (R415); the rest of the buffer's bytes are not given, and are
undefined. -/
def State.putPicture (s : State) (c b : Nat) (x : VidCtx) (w h : Nat) (bytes : List Byte) : State :=
  let p := (s.chan c).part
  let n := w * x.bps
  let s := s.spoil p none (x.bufVa b) (x.pitch * x.ah * 3 / 2)
  (List.range (h + h / 2)).foldl (fun (u : State) i =>
    let at_ := if i < h then x.bufVa b + i * x.pitch else x.bufVa b + x.pitch * x.ah + (i - h) * x.pitch
    u.tryWriteVa p at_ (sliceOf bytes (i * n) n)) s

/-- The record of a decoded picture, its INDEX still 0 (R422). -/
def picInfo (x : VidCtx) (b : Nat) (r : PicParse) (unit : List Byte) (discont : Bool) : List Byte :=
  zeros 4 ++ toLe 1 (b2n (!r.lost.isEmpty) + 2 * b2n (x.taints r) + 4 * b2n r.rap + 8 * b2n discont + 16 * b2n (byteAt unit 4 % 4 != 0)) ++
    toLe 1 b ++ toLe 1 (b2n x.deep) ++ zeros 1 ++ toLe 2 r.visible.1 ++ toLe 2 r.visible.2.1 ++ toLe 2 r.visible.2.2.1 ++
    toLe 2 r.visible.2.2.2 ++ sliceOf unit 8 4 ++ toLe 4 (ofInt 32 r.order) ++ sliceOf unit 20 8 ++ toLe 4 r.lost.length ++ sliceOf unit 0 4 ++
    zeros 24

/-- The buffers that hold the pictures of some orders, each the first that has a property. -/
def VidCtx.byOrder (x : VidCtx) (f : FrameBuf → Bool) (l : List Int) : List Nat :=
  l.filterMap (fun o => (x.bufsWith (fun b => f b && b.order == o)).head?)

/-- The picture is decoded into buffer b: its bytes, marks and output (R421, R422). -/
def State.decoded (s : State) (c b : Nat) (x : VidCtx) (units : List (List Byte)) (r : PicParse) (unit : List Byte) (discont : Bool) : State :=
  let s := s.putPicture c b x r.seq.width r.seq.height (s.pictureBytes c x units r)
  s.onCtx c (fun y =>
    let bufs := updAt y.bufs b (fun f => { f with ref := r.ref, wait := r.shown, info := picInfo x b r unit discont })
    let y := { y with bufs := bufs }
    let drop := y.byOrder (fun f => f.ref) r.unref
    let outs := if x.decodeOrder then (if r.shown then [b] else []) else y.byOrder (fun f => f.wait) r.output
    { y with
      bufs := bufs.zipIdx.map (fun f => if drop.contains f.2 then { f.1 with ref := false } else f.1)
      outq := y.outq ++ outs.filter (fun i => !y.outq.contains i), decoded := satTo 32 (y.decoded + 1), needRap := false,
      discont := false, usedUnit := true, lastOrder := some r.order })

/-- A sequence header (R414, R424): one that differs from the last sends SEQ_CHANGE, and a new one is reported afresh. -/
def State.takeSeq (s : State) (c : Nat) (x : VidCtx) (r : PicParse) : State :=
  if !r.first then s
  else
    let h := r.seq
    let q := (h.width, h.height, h.depth, h.profile)
    let differs := match x.seqOld with | some o => o != q | none => false
    let s := s.onCtx c (fun y => { y with seqOld := some q, badSeq := false, discont := y.discont || differs })
    if differs then s.raise (s.chan c).part 0x98 (toLe 1 c ++ zeros 1 ++ toLe 2 h.width ++ toLe 2 h.height ++ toLe 1 h.depth) else s

/-- The unit's pictures are all done: it is consumed, and counted where it lay before a random access point (R423, R424). -/
def State.endUnit (s : State) (c : Nat) (units : List (List Byte)) : State :=
  (s.consumeUnit c).onCtx c (fun y => { y with
    seen := units, picIn := 0, usedUnit := false,
    skipped := if y.needRap && !y.usedUnit then satTo 32 (y.skipped + 1) else y.skipped })

/-- What becomes of a picture of the unit at READ_IDX (R414, R423 to R427). -/
def State.takePicture (s : State) (c b : Nat) (x : VidCtx) (units : List (List Byte)) (r : PicParse) : State :=
  let unit := s.unitRecord c (s.readIdx c)
  let s := (s.countErrors c r.errors (fieldAt unit 0 4)).onCtx c (fun y => { y with picIn := y.picIn + 1 })
  if bitOf (byteAt unit 4) 4 || !r.here then s
  else
    let s := s.takeSeq c x r
    let y := (s.ctx? c).getD x
    match x.unsupportedFor ((s.chan c).fld 5 1 % 4) r.seq with
    | some why =>
      let s := s.onCtx c (fun y => { y with
        unsupported := satTo 32 (y.unsupported + b2n r.last), badSeq := true, needRap := true, discont := true, usedUnit := true })
      if y.badSeq then s else s.raise (s.chan c).part 0x99 (toLe 1 c ++ toLe 1 why)
    | none =>
      let skip := match x.cmds with | k :: _ => k.skip && !r.ref | [] => false
      if y.needRap && !r.rap then s
      else if skip then s.onCtx c (fun y => { y with usedUnit := true })
      else s.decoded c b x units r unit y.discont

/-- A part of a picture is done on core n: true when it was the last. -/
def State.partDone (s : State) (n : Nat) (i : CodecItem) (x : VidCtx) (errors : Nat) : State × Bool :=
  let whole := decide (s.partsOf i.chan x ≤ x.parts.2 + 1)
  ((s.freeCore n i errors).onCtx i.chan (fun y => { y with parts := if whole then (0, 0) else (y.parts.1, y.parts.2 + 1) }), whole)

/-- The first command of a context fails: what it was given cannot be read. -/
def State.mediaFail (s : State) (c : Nat) (x : VidCtx) (f : Fail) : State :=
  let p := (s.chan c).part
  match x.cmds with
  | [] => s
  | k :: _ =>
    let s := s.onCtx c (fun y => { y.without k.num false with
      parts := (0, 0)
      bufs := y.bufs.map (fun b => { b with busy := false }) })
    match s.desc? p k.num with
    | some d => s.failDesc p d f
    | none => s

/-- PICTURE_DONE (R421): the part that core n holds is done; with its last part the picture is. -/
def execPictureDone (n : Nat) (s : State) : Host.Outcome State Fault Refusal :=
  .next (match (s.video.cores.getD n {}).item with
    | none => s
    | some i =>
      match i.enc || !s.clocked 1 n, s.ctx? i.chan with
      | false, some x =>
        (match s.unitsNow i.chan x with
         | .error .waits => s
         | .error f => (s.freeCore n i 0).mediaFail i.chan x f
         | .ok units =>
           let r := Config.parse x.block units x.picIn
           let z := s.partDone n i x (if s.partsOf i.chan x ≤ x.parts.2 + 1 then r.errors else 0)
           if !z.2 then z.1
           else
             let b := x.bufs.findIdx (fun f => f.busy)
             let t := z.1.onCtx i.chan (fun y => { y with bufs := updAt y.bufs b (fun f => { f with busy := false }) })
             let t := t.takePicture i.chan b x units r
             let t := if r.last then t.endUnit i.chan units else t
             ((t.postCtx i.chan).goDec i.chan).progress 1 n)
      | _, _ => s)

/-- POOL_WAIT (R421). -/
def execPoolWait (c : Nat) (s : State) : Host.Outcome State Fault Refusal :=
  .next (match s.ctx? c with
    | some x => match x.waitSince with
      | some t => if !x.waitSent && s.now ≥ t + 100000000 then
          (s.onCtx c (fun y => { y with waitSent := true })).raise (s.chan c).part 0x9A (toLe 1 c)
        else s
      | none => s
    | none => s)

/-- The fields of CDC.CAROUSEL (R437); WINDOW_MS outside 10 to 1,000 leaves it as it was. -/
def State.writeCarousel (s : State) (v : Nat) : State :=
  let w := bitsOf v 9 0
  if w < 10 || w > 1000 then s else { s with video := { s.video with preempt := bitOf v 31, windowMs := w } }

/-- CAROUSEL_WRITE (R420). -/
def execCarouselWrite (v : Word) (s : State) : Host.Outcome State Fault Refusal :=
  .next (if s.boot.stepEight then s.wakeDeep.writeCarousel v.toNat else s)

/-! ### ENCODE (R429) -/

/-- The offending bytes of an encode request. -/
def encReqBad (b : List Byte) : List (Bool × Nat) := chk [(byteAt b 16 > 1, 16)] ++ resv b 6 2 ++ resv b 14 2 ++ resv b 17 15

/-- The offending bytes of a frame list: PTS rises, across requests too. -/
def framesBad (w : Nat) (l : List Byte) (n : Nat) (last : Option Nat) : List (Bool × Nat) :=
  (List.range n).flatMap (fun i =>
    let e := sliceOf l (32 * i) 32
    let prev := if i = 0 then last else some (fieldAt l (32 * (i - 1) + 16) 8)
    let low := match prev with | some q => decide (fieldAt e 16 8 ≤ q) | none => false
    (chk [(fieldAt e 0 6 % 256 != 0, 0), (fieldAt e 8 4 % 256 != 0 || fieldAt e 8 4 < w, 8), (fieldAt e 12 4 % 256 != 0, 12), (low, 16),
      (byteAt e 24 > 1, 24)] ++ resv e 6 2 ++ resv e 25 7).map (fun x => (x.1, 32 * i + x.2)))

/-- The luma row's bytes of the encoder that an ENCODE uses. -/
def State.encWidth (s : State) (p c va : Nat) : Nat :=
  let x := match s.ctx? c with | some x => x | none => { enc := true, va := va, block := s.peekVa p va 128 }
  x.fld 8 2 * x.bps

/-- ENCODE's list is reached and right. -/
def State.listCheck (s : State) (p : Nat) (d : Desc) (b : List Byte) : Option Fail :=
  let n := d.fld 28 4
  match s.readVa p none 0 (fieldAt b 8 6) (32 * n) with
  | .error f => some f
  | .ok l => (firstBad (framesBad (s.encWidth p d.chan (fieldAt b 0 6)) l n ((s.ctx? d.chan).bind (fun x => x.lastPts)))).map badInBlock

/-- The frames of a list. -/
def listFrames (num : Nat) (l : List Byte) (n : Nat) : List EncFrame :=
  (List.range n).map (fun i =>
    let e := sliceOf l (32 * i) 32
    { num := num, va := fieldAt e 0 6, pitch := fieldAt e 8 4, chroma := fieldAt e 12 4, pts := fieldAt e 16 8, key := bitOf (byteAt e 24) 0 })

/-- Send a unit on its channel (R429, R401): packets up to MTU, the last with the marker. -/
def State.sendUnit (s : State) (c pts : Nat) (payload : List Byte) : State :=
  let x := s.chan c
  let room := x.fld 60 2 - ((if x.v6 then 40 else 20) + 8 + 12)
  let ps := packetise (x.fld 5 1 % 4) room payload
  ps.zipIdx.foldl (fun (t : State) k =>
    let y := t.chan c
    let m := rtpBytes (k.2 + 1 == ps.length) (x.fld 7 1 % 128) (y.sendSeq % 65536) (pts % 2 ^ 32) (x.fld 56 4) k.1
    (t.txFrame x.port (x.datagram (x.fld 8 2) (x.fld 10 2) m)).onChan c (fun y => { y with
      sendSeq := (y.sendSeq + 1) % 65536, sent := (y.sent.1 + 1, y.sent.2 + k.1.length) })) s

/-- Write the coded units that wait, while the ring has room, and send them with SEND (R429). -/
def State.drainUnits (s : State) (c : Nat) : Nat → State
  | 0 => s
  | fuel + 1 =>
    match s.ctx? c with
    | none => s
    | some x =>
      match x.stuck with
      | [] => s
      | (pts, bs) :: rest =>
        match s.unitPlace c bs.length with
        | none => s
        | some off =>
          let s := s.putUnitRec c off { flags := 0, missing := 0, stamp := pts % 2 ^ 32, arrival := s.now, origin := (s.chan c).fld 56 4 } bs
          let s := s.onCtx c (fun y => { y with stuck := rest, cmds := updAt y.cmds 0 (fun k =>
            { k with written := k.written + 1, regions := k.regions ++ [bs] }) })
          let send := bitOf (x.fld 41 1) 0
          let s := if send then s.sendUnit c pts bs else s
          let s := if send && !bitOf (x.fld 41 1) 1 then
              s.tryWriteVa (s.chan c).part ((s.chan c).fld 86 6 + 8) (toLe 4 (s.chan c).writeIdx)
            else s
          s.drainUnits c fuel

/-- The samples of a listed frame: its luma rows, then its chroma rows. -/
def State.frameBytes (s : State) (p : Nat) (x : VidCtx) (f : EncFrame) : Except Fail (List Byte) := do
  let w := x.fld 8 2 * x.bps
  let h := x.fld 10 2
  let luma ← (List.range h).mapM (fun i => s.readVa p none 0 (f.va + i * f.pitch) w)
  let chroma ← (List.range (h / 2)).mapM (fun i => s.readVa p none 0 (f.va + f.chroma + i * f.pitch) w)
  .ok (luma.flatten ++ chroma.flatten)

/-- Copy a list of frames, or tell why that cannot be. -/
def State.copyFrames (s : State) (p : Nat) (x : VidCtx) : List EncFrame → Except Fail (List EncFrame)
  | [] => .ok []
  | f :: fs => do
    let g ← match f.data with
      | some _ => .ok f
      | none => (s.frameBytes p x f).map (fun bs => { f with data := some bs })
    .ok (g :: (← s.copyFrames p x fs))

/-- The encoder copies the frames that it may code next into its pool (R429), whose bytes the manual does not give. -/
def State.fillPool (s : State) (c : Nat) : State :=
  match s.ctx? c with
  | none => s
  | some x =>
    let p := (s.chan c).part
    let next := x.open_.take (x.bframes + 1)
    if next.all (fun f => f.data.isSome) then s
    else match s.copyFrames p x next with
      | .error .waits => s
      | .error f => s.mediaFail c x f
      | .ok fs =>
        (s.spoil p none (x.fld 48 6) (x.fld 56 4)).onCtx c (fun y => { y with
          frames := y.frames.map (fun f => (fs.find? (fun g => g.pts == f.pts)).getD f) })

/-- The encoder's first command is done: its frames are coded or held for reordering, with FLUSH all of them, and its units
are written (R429). -/
def State.settleEnc (s : State) (c : Nat) : Nat → State
  | 0 => s
  | fuel + 1 =>
    match s.ctx? c with
    | none => s
    | some x =>
      match x.cmds with
      | [] => s
      | k :: _ =>
        if x.stuck.isEmpty && !x.codable && x.parts.1 == 0 && (x.open_.take (x.bframes + 1)).all (fun f => f.data.isSome) then
          let s := if k.flush then s.onCtx c (fun y => { y with nextKey := true }) else s
          ((s.mediaDone c k { result := k.written, cflags := k.cflags }).fillPool c).settleEnc c fuel
        else s

/-- Settle an encoder. -/
def State.goEnc (s : State) (c : Nat) : State :=
  match s.ctx? c with
  | some x => (((s.fillPool c).drainUnits c x.fuel).settleEnc c x.fuel)
  | none => s

/-- ENCODE (R429): the frames join the context's list. -/
def execEncode (d : DescRef) (s : State) : Host.Outcome State Fault Refusal :=
  .next (s.startDesc d (isOp 0x73)
    (fun t p x => t.mediaCheck p x <|>
      (if !kindOk (t.chan x.chan) 0x73 then some (.status stIllegalState 0)
       else match t.readVa p none 0 (x.fld 20 6) 32 with
         | .error f => some f
         | .ok b => ((firstBad (encReqBad b)).map badInBlock <|> t.ctxCheck p x (fieldAt b 0 6) true) <|> t.listCheck p x b))
    (fun t p x =>
      let b := t.peekVa p (x.fld 20 6) 32
      let n := x.fld 28 4
      let t := t.makeCtx p x (fieldAt b 0 6) true
      let l := listFrames x.num (t.peekVa p (fieldAt b 8 6) (32 * n)) n
      let k : MediaCmd := { num := x.num, count := n, flush := bitOf (byteAt b 16) 0 }
      (t.onCtx x.chan (fun y => { y with
        cmds := y.cmds ++ [k], frames := y.frames ++ l, ptsq := y.ptsq ++ l.map (fun f => f.pts),
        lastPts := match l.getLast? with | some f => some f.pts | none => y.lastPts })).goEnc x.chan))

/-- The frame that an encoder codes next, whether it is a key picture, and its kind (R428, R429). -/
def VidCtx.nextFrame (x : VidCtx) : Option (EncFrame × Bool × PicKind) :=
  let l := x.open_.take (x.bframes + 1)
  (l[Config.encPick x.block x.seen % Nat.max 1 l.length]?).map (fun f =>
    let gop := x.fld 12 2
    let key := f.key || x.nextKey || (gop != 0 && x.sinceKey ≥ gop)
    (f, key, if key then 0 else if x.bframes != 0 && Config.encB x.block x.seen then 2 else 1))

/-- What a frame adds to what an encoder was given: its samples, PTS and kind. -/
def EncFrame.given (f : EncFrame) (kind : PicKind) : List Byte := toLe 8 f.pts ++ toLe 1 kind ++ f.data.getD []

/-- A picture is coded (R429 to R432): its access unit waits for the ring. -/
def VidCtx.codedFrame (x : VidCtx) (f : EncFrame) (key : Bool) (kind : PicKind) : VidCtx :=
  let frames := x.seen ++ [f.given kind]
  let u := x.codePicture frames kind
  let y := x.removeBits u.bits
  { y with
    seen := frames, frames := y.frames.filter (fun g => g.pts != f.pts), nextKey := false, sinceKey := if key then 1 else y.sinceKey + 1
    stuck := y.stuck ++ [(f.pts, u.bytes)]
    cmds := updAt y.cmds 0 (fun k => { k with cflags := k.cflags ||| flagIf u.short cfBudgetShort }) }

/-- ENCODE_UNIT_DONE (R429): the part that core n holds is done; with its last part the picture is coded, and its access unit is
written, or waits for ring space. -/
def execEncodeUnitDone (n : Nat) (s : State) : Host.Outcome State Fault Refusal :=
  .next (match (s.video.cores.getD n {}).item with
    | none => s
    | some i =>
      match i.enc && s.clocked 1 n, s.ctx? i.chan with
      | true, some x =>
        let z := s.partDone n i x 0
        if !z.2 then z.1
        else
          let t := match x.nextFrame with
            | some (f, key, kind) => z.1.onCtx i.chan (fun y => y.codedFrame f key kind)
            | none => z.1
          (t.goEnc i.chan).progress 1 n
      | _, _ => s)

/-- READ_IDX_POLL (R421): a decoder that waits reads READ_IDX; an encoder's units that wait find room. -/
def execReadIdxPoll (c : Nat) (s : State) : Host.Outcome State Fault Refusal :=
  .next (match s.ctx? c with
    | some x => if x.enc then s.goEnc c else (s.pollRead c).goDec c
    | none => s)

end Sys2Proof.Machine
end

