-- ==== Sys2Proof/Machine/Regs.lean ====
section
/-! DEFINITION. The registers of the global page and of the partition pages as they read (R582 to R586, and the register
maps of the chapters that own them). -/

namespace Sys2Proof.Machine

/-! ### Helpers -/

/-- A register's value: fields by their lowest bit. -/
def word (l : List (Nat × Nat)) : Nat := l.foldl (fun a x => a + x.1 * 2 ^ x.2) 0

/-- A condition as a field at a bit. -/
def flag (b : Bool) (lo : Nat) : Nat × Nat := (b2n b, lo)

/-- A signed figure of 32 bits that saturates. -/
def satInt32 (i : Int) : Nat := ofInt 32 (max (-2147483648) (min 2147483647 i))

/-- The low and high words of a 64-bit value. -/
def half (hi : Bool) (n : Nat) : Nat := if hi then n / 2 ^ 32 % 2 ^ 32 else n % 2 ^ 32

/-- Eight offsets are known and all lie within a bound. -/
def lockedWithin (l : List Int) (ns : Nat) : Bool := l.length == 8 && l.all (fun x => x.natAbs ≤ ns)

/-- The element and the offset within it of an array of registers: base, stride, count. -/
def elemAt (off base stride count : Nat) : Option (Nat × Nat) :=
  if base ≤ off && off < base + stride * count then some ((off - base) / stride, (off - base) % stride) else none

/-! ### The global page, block by block (R585) -/

/-- HOST (R10, R248). -/
def State.readHost (s : State) (off : Nat) : Nat :=
  let h := s.host
  if off = 0x0 then 0xF5A10828
  else if off = 0x4 then 0xB1B00300
  else if off = 0x8 then half false Config.serial.toNat
  else if off = 0xC then half true Config.serial.toNat
  else if off = 0x10 then 0x06400000 + Config.vrated.toNat
  else if off = 0x100 then word [flag h.up 31, (h.width % 16, 16), (h.speed % 16, 12), flag h.flit 8]
  else if off = 0x104 then word [flag h.ptmEnable 31, flag (lockedWithin h.ptmOffsets 1000) 30, (h.ptmPeriod, 0)]
  else if off = 0x108 then satInt32 (h.ptmOffsets.headD 0)
  else if off = 0x10C then word [(h.rdErr, 16), (h.badAccess, 0)]
  else 0

/-- The code of MON.STAT.BAUD (R581). -/
def baudCode (b : Nat) : Nat :=
  if b = 230400 then 1 else if b = 460800 then 2 else if b = 921600 then 3 else if b = 1000000 then 4
  else if b = 2000000 then 5 else if b = 3000000 then 6 else 0

/-- The authorisation is locked out (R579). -/
def State.authLocked (s : State) : Bool := match s.mon.lockUntil with | some t => decide (s.now < t) | none => false

/-- MON (R581). -/
def State.readMon (s : State) (off : Nat) : Nat :=
  let m := s.mon
  if off = 0x1800 then word [flag m.serviceEn 31, flag m.relayEn 30, flag m.engineerEn 29]
  else if off = 0x1804 then word [flag m.service.engineer 31, flag m.relay.engineer 30, flag s.authLocked 29,
    (baudCode m.baud, 24), (m.authFail, 8), (m.actions, 0)]
  else if off = 0x1808 then (match m.last with | some x => word [flag true 31, flag x.1 30, (x.2 % 65536, 0)] | none => 0)
  else 0

/-- FLD and CRC (R410, R411). -/
def State.readFld (s : State) (off : Nat) : Nat :=
  let f := s.field
  match elemAt off 0x2000 0x40 2, elemAt off 0x2400 0x10 16 with
  | some (n, o), _ =>
    let p := s.fp n
    if o = 0x0 then word [flag p.enable 31, flag p.an 30, (p.fec, 28), flag p.ping 27, (p.maxFrame, 0)]
    else if o = 0x4 then word [flag p.up 31, (p.fecUse, 0)]
    else if o = 0x8 then half false (Config.mac n).toNat
    else if o = 0xC then half true (Config.mac n).toNat
    else if o = 0x10 then word [(p.bufFull, 16), (p.other, 8), (p.txDown, 0)]
    else 0
  | none, some (u, o) =>
    let c := f.crcs.getD u {}
    if o = 0x0 then maskOf ((List.range 8).filter (fun i => (c.ctxs.getD i none).isSome))
    else if o = 0x4 then word [(satTo 16 (c.checked / 65536), 16), (c.mismatch, 0)]
    else 0
  | none, none =>
    if off = 0x2100 then word [flag f.ptpEnable 31, flag (lockedWithin f.offsets 100) 30, flag f.holdover 29,
      (f.transport, 16), (f.ptpPort, 12), flag f.delay 11, (f.domain, 0)]
    else if off = 0x2104 then satInt32 (f.offsets.headD 0)
    else 0

/-- CDC (R437). -/
def State.readCdc (s : State) (off : Nat) : Nat :=
  match elemAt off 0x3000 0x10 8 with
  | some (n, o) =>
    let c := s.video.cores.getD n {}
    if o = 0x0 then (match c.item with
      | some i => word [flag true 31, (if i.enc then 2 else 1, 24), (i.cls, 20), (i.part, 8), (i.chan, 0)]
      | none => 0x1F00)
    else if o = 0x4 then c.pics
    else if o = 0x8 then word [(c.preempts, 16), (c.errors, 0)]
    else 0
  | none =>
    if off = 0x3080 then word [flag s.video.preempt 31, (s.video.windowMs, 0)]
    else if off = 0x3084 then satTo 32 (s.video.pixels / 2 ^ 20)
    else 0

/-- PART.STATE and PART.INFO (R473). -/
def PartSec.info (x : PartSec) : Nat :=
  word [(x.vdMask.toNat, 16), (x.secMode, 12), flag x.frozen 11, flag x.meshSeal 10, (x.st.code, 0)]

/-- PART and SEC of the global page (R473, R474). -/
def State.readSec (s : State) (off : Nat) : Nat :=
  match elemAt off 0x4000 4 16, elemAt off 0x4040 4 16 with
  | some (p, 0), _ => (s.part p).sec.info
  | _, some (p, 0) =>
    let x := (s.part p).sec
    word [(x.codecWeight, 24), (x.linkPorts.toNat, 16), (x.hostMovers.toNat, 8), (x.codecCores.toNat, 0)]
  | _, _ =>
    if off = 0x5000 then word [flag s.sec.sealed 31, flag s.sec.auto 0]
    else if off = 0x5004 then s.sec.ratePct
    else if off = 0x5008 then word [(s.sec.refused, 16), (s.sec.requests, 0)]
    else if off = 0x500C then word [flag s.sec.steward 31, (s.sec.restarts, 0)]
    else 0

/-- CHN (R498). -/
def State.readChn (s : State) (off : Nat) : Nat :=
  let b := s.boot
  let fw := fun (i : Nat) => b.fw.getD i {}
  if off = 0x6000 then (match b.dynAddr with | some a => word [flag true 31, (a - 8, 16), (a, 0)] | none => 0)
  else if off = 0x6004 then word [(b.safeCause, 16), flag (s.mem.bchans.any (fun q => !q.avail)) 10,
    flag (s.mem.ports.any (fun q => !q.avail)) 9, flag (s.fabric.tiles.any (fun t => t.st == .fenced)) 8, (b.st.code, 0)]
  else if off = 0x6008 then word [(b.attempts, 8), flag b.stewardFallback 5, flag b.guardFallback 4, flag (fw 2).activeB 2,
    flag (fw 1).activeB 1, flag (fw 0).activeB 0]
  else if off = 0x600C then b.readyMs
  else if off = 0x6010 then word [((fw 2).fuse, 16), ((fw 1).fuse, 8), ((fw 0).fuse, 0)]
  else if off = 0x6014 then word [flag s.staging 2, flag b.spareEmpty 1, flag b.outOfService 0]
  else if off = 0x6018 then word [(b.checkErr, 16), (b.badCmd, 0)]
  else if off = 0x601C then b.causes.toNat
  else 0

/-- HLT.UNIT of unit i (R523). -/
def State.readUnit (s : State) (i : Nat) : Nat :=
  let k := unitAt i
  let u := s.unit k.1 k.2
  word [flag u.fenced 31, flag (u.recov != .idle) 30, (Nat.min 15 (s.countedResets k.1 k.2), 24),
    (Nat.min 15 (within s.now dayNs u.fails), 16), (u.score, 0)]

/-- HLT of the global page (R523, R569). -/
def State.readHlt (s : State) (off : Nat) : Nat :=
  let h := s.health
  match elemAt off 0x7100 4 106 with
  | some (i, 0) => s.readUnit i
  | _ =>
    if off = 0x7000 then h.windowMs
    else if off = 0x7008 then word [(h.fenceH, 8), (h.fenceN, 0)]
    else if off = 0x700C then word [flag h.striker 31, (h.strikerH, 0)]
    else if off = 0x7010 then h.thresh
    else if off = 0x7014 then word [(h.scoreMin.1, 24), (h.scoreMin.2.1, 16), (h.scoreMin.2.2, 0)]
    else if off = 0x7018 then word [(h.hangs, 16), (h.resets, 0)]
    else if off = 0x701C then word [(h.dumps, 16), (h.cascades, 0)]
    else if off = 0x7020 then half false h.pfDump + b2n h.pfDumpEn
    else if off = 0x7024 then word [(h.pfSlots, 28), (half true h.pfDump, 0)]
    else if off = 0x7028 then word [(satTo 16 (h.telemUs / 1000), 16), (h.flashMs, 0)]
    else if off = 0x702C then word [flag h.expelled 31, flag s.boot.spareEmpty 29, (h.expelCause, 24), (h.expelThresh, 0)]
    else 0

/-- The class of tile t (R19): 0 ring, 1 rim, 2 gate. -/
def tileClass (t : Nat) : Nat :=
  if (rimPort t).isSome then 1 else if [8, 16, 24, 32, 40, 48].contains t then 2 else 0

/-- The fabric die of tile t (R17). -/
def tileDie (t : Nat) : Nat := t / 32 * 2 + t % 8 / 4

/-- TILE (R69). -/
def State.readTile (s : State) (off : Nat) : Nat :=
  match elemAt off 0x8000 0x40 64 with
  | some (t, o) =>
    let x := s.tile t
    if o = 0x0 then word [(domOfTile t, 16), (tileDie t, 12), (tileClass t, 8), (t, 0)]
    else if o = 0x4 then word [((s.dom (domOfTile t)).st.code, 24), (x.engine.getD 0xFF, 16), (x.part.getD 0, 8),
      flag x.part.isSome 7, (x.st.code, 0)]
    else if o = 0x8 then word [(x.release, 8), (x.image, 0)]
    else if o = 0xC then word [(x.spUncorr, 16), (x.spCorr, 0)]
    else if o = 0x10 then x.ageLimit
    else 0
  | none => 0

/-- The registers of a rate control: base low, base high, control (R127). -/
def RateCtl.read (r : RateCtl) (i : Nat) : Nat :=
  if i = 0 then half false r.base else if i = 1 then half true r.base else word [flag r.enable 31, (r.period, 0)]

/-- FAB of the global page (R127). -/
def State.readFab (s : State) (off : Nat) : Nat :=
  if off = 0x9000 then s.fabric.rate.read 0
  else if off = 0x9004 then s.fabric.rate.read 1
  else if off = 0x9008 then s.fabric.rate.read 2
  else if off = 0x900C then s.fabric.locked.toNat
  else if off = 0x9010 then s.fabric.lockLoss.toNat
  else 0

/-- PWR of the global page (R156). -/
def State.readPwr (s : State) (off : Nat) : Nat :=
  let w := s.power
  match elemAt off 0xA040 4 16 with
  | some (k, 0) =>
    let d := s.dom k
    word [(d.powerW, 20), (d.st.code, 8), (if d.st == .run || d.st == .hold then d.code else 0x7F, 0)]
  | _ =>
    if off = 0xA000 then w.capW
    else if off = 0xA004 then word [flag w.shed 31, (if w.shed then w.shedBudget else 0, 16), (w.shedDefault, 0)]
    else if off = 0xA008 then word [flag (s.boot.st == .curtain) 31, (w.curtainW, 0)]
    else if off = 0xA00C then word [(w.idleCeil, 4), flag w.deepAllow 0]
    else if off = 0xA010 then word [(w.busDv, 16), (w.powerDw, 0)]
    else if off = 0xA014 then w.nodeDv
    else if off = 0xA018 then word [(w.roomW, 16), (w.binding, 0)]
    else if off = 0xA01C then word [(w.pqCount.2.2.2, 24), (w.pqCount.2.2.1, 16), (w.pqCount.2.1, 8), (w.pqCount.1, 0)]
    else 0

/-- The sensors of a hot spot are out of use: S0, S1. -/
def HotSpot.out (h : HotSpot) : Bool × Bool := (h.fail0 || h.susp0, h.fail1 || h.susp1)

/-- THM.MODEL_ERR: the largest error of the last 1 s and its node (R162, R176). -/
def Thermal.modelErr (t : Thermal) : Nat × Nat :=
  t.errs.foldl (fun (a : Nat × Nat) (x : Nat × Nat × Nat) => if a.2 < x.2.2 then x.2 else a) (0, 0)

/-- THM (R176). -/
def State.readThm (s : State) (off : Nat) : Nat :=
  let t := s.thermal
  let spot := fun (h : HotSpot) (lo : Nat) =>
    [flag (h.out.1 && h.out.2) (lo + 2), flag h.out.2 (lo + 1), flag h.out.1 lo, (ofInt 16 h.ctl, 0)]
  match elemAt off 0xB100 4 64, elemAt off 0xB200 4 64, elemAt off 0xB300 4 6, elemAt off 0xB320 4 16, elemAt off 0xB380 4 10 with
  | some (i, 0), _, _, _, _ => word (spot (t.tiles.getD i {}) 16)
  | _, some (i, 0), _, _, _ => word [((t.tiles.getD i {}).cycTotal, 16), (satTo 16 (s.cycles24 i), 0)]
  | _, _, some (i, 0), _, _ => word (flag (t.stackSpots.getD i {}).refresh2x 16 :: spot (t.stackSpots.getD i {}) 17)
  | _, _, _, some (k, 0), _ => word [flag (s.dom k).capBind 12, ((s.dom k).capW, 0)]
  | _, _, _, _, some (i, 0) => word [flag (t.aux.getD i {}).failed 16, (ofInt 16 (t.aux.getD i {}).ctl, 0)]
  | _, _, _, _, _ =>
    if off = 0xB000 then t.glycol
    else if off = 0xB004 then word [flag t.keepWarm 31, (t.floorC, 0)]
    else if off = 0xB008 then t.cycBudget
    else if off = 0xB00C then word [flag t.flowSrc 16, (t.flow, 0)]
    else if off = 0xB010 then word [(ofInt 16 t.outlet, 16), (ofInt 16 t.inlet, 0)]
    else if off = 0xB014 then t.allowW
    else if off = 0xB018 then word [flag (t.inletSeen && t.inlet < 150) 7, flag (t.inletSeen && t.inlet > 450) 6,
      flag t.meterFault 5, flag ((t.tiles ++ t.stackSpots).any (fun h => h.out.1 || h.out.2) || t.aux.any (fun a => a.failed) ||
        t.inletFailed || t.outletFailed || t.meterFailed) 4,
      flag t.emergency 3, flag (t.predicted && t.allowW < 1600) 2, flag t.keepYield 1, flag t.flowWarn 0]
    else if off = 0xB01C then word [flag t.evTripped 3, flag t.evSudden 2, flag t.evSuspected 1, flag t.evWarned 0]
    else if off = 0xB020 then word [(t.modelErr.1, 8), (satTo 8 t.modelErr.2, 0)]
    else 0

/-- Retired frames of a granule. -/
def Granule.retiredCount (g : Granule) : Nat := if g.allRetired then 0x4000 else g.retired.length

/-- A granule without an owner that the free slices back in no mode (R204). -/
def State.granLost (s : State) (g : Nat) : Bool :=
  (s.gran g).owner == 0x1F && (s.backing g 0 0).isNone &&
    (decide (0x8000 ≤ g) || (List.range 16).all (fun p => (s.backing g 1 p).isNone))

/-- Retired frames whose failing rows lie on a port or channel (R210, R211). -/
def State.retiredOn (s : State) (i : Nat) : Nat :=
  (if i < 16 then s.mem.grans else s.mem.bulk).foldl (fun a g =>
    a + (if g.gone.contains (if i < 16 then i else i - 16) then 0x4000
      else (g.retired.filter (fun r => r.2.any (fun w => s.mem.portOf w == some i))).length)) 0

/-- The slices of a port or channel that back no granule, lost ones among them (R210, R211). -/
def State.freeSlices (s : State) (i : Nat) : Nat :=
  let n := if i < 16 then 144 else 360
  ((List.range n).filter (fun k => !(if i < 16 then s.mem.grans else s.mem.bulk).any (fun g =>
    g.slices.contains (if i < 16 then i else i - 16, k)))).length

/-- The largest scrub lag and whether a recalibration is forced, of a port's channels (R210). -/
def State.upkeep (s : State) (i : Nat) : Nat × Bool :=
  let q := s.mem.port i
  (satTo 12 (q.chans.foldl (fun a c => Nat.max a (s.mem.lagMin s.now i c)) 0), q.chans.any (fun c => c.recalForced))

/-- MEM and BULK of the global page (R210, R211). -/
def State.readMem (s : State) (off : Nat) : Nat :=
  let errs := fun (i : Nat) => word [((s.mem.port i).corr, 16), ((s.mem.port i).uncorr, 8), (satTo 8 (s.retiredOn i), 0)]
  match elemAt off 0xC000 4 144, elemAt off 0xC400 4 16, elemAt off 0xC440 4 16, elemAt off 0xC480 4 16 with
  | some (g, 0), _, _, _ =>
    let x := s.gran g
    word [flag (s.granLost g) 31, (satTo 8 x.retiredCount, 16), (x.owner, 8), flag x.loc.isSome 4, (x.loc.getD 0, 0)]
  | _, some (p, 0), _, _ => errs p
  | _, _, some (p, 0), _ =>
    let u := s.upkeep p
    word [(u.1, 20), flag u.2 19, (satTo 8 (s.mem.port p).lost.length, 8), (s.freeSlices p, 0)]
  | _, _, _, some (p, 0) => (s.mem.port p).forcedUs
  | _, _, _, _ =>
    match elemAt off 0xD000 4 360, elemAt off 0xD600 4 8, elemAt off 0xD620 4 8, elemAt off 0xD640 4 8 with
    | some (g, 0), _, _, _ =>
      let x := s.gran (0x8000 + g)
      word [flag (s.granLost (0x8000 + g)) 31, (satTo 8 x.retiredCount, 16), (x.owner, 8)]
    | _, some (c, 0), _, _ => errs (16 + c)
    | _, _, some (c, 0), _ =>
      let q := s.mem.port (16 + c)
      let u := s.upkeep (16 + c)
      word [(u.1, 20), flag u.2 19, (q.mr4, 16), (satTo 7 q.lost.length, 9), (s.freeSlices (16 + c), 0)]
    | _, _, _, some (c, 0) => (s.mem.port (16 + c)).forcedUs
    | _, _, _, _ => if off = 0xC500 then s.mem.scrubH else if off = 0xC504 then s.mem.recalS else 0

/-- The cycle of the oldest last whole copy among the paired acts, none when one has none (R544, R549). -/
def State.warmCycle (s : State) : Option Nat :=
  let ws := s.pairedSlots.map (fun n => ((s.act s.pair.part n).cyc).bind (fun c => c.warm))
  match ws with
  | [] => none
  | w :: _ => if ws.any Option.isNone then none else some (ws.foldl (fun a x => Nat.min a (x.getD a)) (w.getD 0))

/-- PAIR.STAT.WARM_VALID (R544): every paired act's last whole copy is of a cycle no more than two cycles old. -/
def State.warmValid (s : State) : Bool :=
  !s.pairedSlots.isEmpty && s.pairedSlots.all (fun n => match (s.act s.pair.part n).cyc with
    | some c => (match c.warm with
      | some k => decide (s.now / (c.periodUs * 1000) ≤ k + 2)
      | none => false)
    | none => false)

/-- LNK and PAIR of the global page (R391, R549). -/
def State.readLnk (s : State) (off : Nat) : Nat :=
  match elemAt off 0xE000 0x40 8 with
  | some (n, o) =>
    let p := s.lp n
    if o = 0x0 then word [flag p.enable 31, flag p.rate106 30, (p.widthMin, 28),
      flag (s.links.pairEn && s.links.pairPort == n) 13, (p.owner, 8)]
    else if o = 0x4 then word [(p.lanesOk, 8), flag p.slow 6, (p.width, 4), (p.st.code, 0)]
    else if o = 0x8 then half false p.peer
    else if o = 0xC then half true p.peer
    else if o = 0x10 then word [(p.peerRelease, 8), (p.peerPort, 0)]
    else if o = 0x14 then word [(p.crcErr, 16), (p.replays, 0)]
    else if o = 0x18 then word [(satTo 16 (p.fecCorr / 65536), 16), (p.fecUncorr, 0)]
    else if o = 0x1C then word [(p.fails, 16), (p.retrains, 0)]
    else 0
  | none =>
    let x := s.pair
    if off = 0xE200 then word [flag s.links.pairEn 31, (s.links.pairPort, 0)]
    else if off = 0xF000 then word [flag x.enable 31, flag x.warm 30, (x.part, 16)]
    else if off = 0xF004 then word [flag x.own 31, flag x.partner 30, flag x.gate 29,
      flag (s.boot.dynAddr.isSome && s.position % 2 == 1) 28, (x.role.code, 25), flag s.warmValid 24, (x.failCause, 8)]
    else if off = 0xF00C then word [(x.takeovers, 16), (x.collisions, 0)]
    else if off = 0xF010 then half false (s.warmCycle.getD 0)
    else if off = 0xF014 then half true (s.warmCycle.getD 0)
    else 0

/-- A register of the global page; a reserved offset reads 0 (R582). -/
def State.readGlobal (s : State) (off : Nat) : Nat :=
  match off / 0x1000 with
  | 0x0 => s.readHost off
  | 0x1 => s.readMon off
  | 0x2 => s.readFld off
  | 0x3 => s.readCdc off
  | 0x4 | 0x5 => s.readSec off
  | 0x6 => s.readChn off
  | 0x7 => s.readHlt off
  | 0x8 => s.readTile off
  | 0x9 => s.readFab off
  | 0xA => s.readPwr off
  | 0xB => s.readThm off
  | 0xC | 0xD => s.readMem off
  | 0xE | 0xF => s.readLnk off
  | _ => 0

/-! ### A partition page (R586) -/

/-- RING and HOST (R246). -/
def State.readRing (s : State) (p off : Nat) : Nat :=
  let h := (s.part p).host
  let e := h.evt
  if off = 0x4 then half false h.dbBase + b2n h.dbValid
  else if off = 0x8 then half true h.dbBase
  else if off = 0xC then word [(h.dozeUs, 16), (h.pollUs, 0)]
  else if off = 0x10 then word [flag (h.doze != .awake) 31, flag h.dbFault 0]
  else if off = 0x14 then half false e.base
  else if off = 0x18 then half true e.base
  else if off = 0x1C then word [flag e.enable 31, flag e.split 30, flag e.irq 29, (e.sizeLog2, 16), (e.modUs, 8), (e.vector, 0)]
  else if off = 0x20 then word [(e.lost, 16), (e.errCode, 8), (e.st.code, 0)]
  else if off = 0x100 then half false h.apBase + b2n h.apEnable
  else if off = 0x104 then half true h.apBase
  else if off = 0x108 then word [(h.rdErr, 16), (h.badAccess, 0)]
  else 0

/-- The registers of an SQ (R247). -/
def Sq.read (r : Sq) (o : Nat) : Nat :=
  if o = 0x0 then half false r.base
  else if o = 0x4 then half true r.base
  else if o = 0x8 then word [flag r.enable 31, flag r.pause 30, (r.sizeLog2, 16), (r.cq, 8), (r.cls, 4), (r.weight, 0)]
  else if o = 0xC then word [flag r.draining 31, (r.errCode, 16), (r.st.code, 0)]
  else if o = 0x10 then r.head
  else 0

/-- The registers of a CQ (R247). -/
def Cq.read (r : Cq) (o : Nat) : Nat :=
  if o = 0x0 then half false r.base
  else if o = 0x4 then half true r.base
  else if o = 0x8 then word [flag r.enable 31, flag r.split 30, (r.sizeLog2, 16), (r.modUs, 8), (r.vector, 0)]
  else if o = 0xC then word [flag (r.free == 0) 31, (r.errCode, 16), (r.st.code, 0)]
  else if o = 0x10 then word [flag r.phase 16, (r.slot, 0)]
  else 0

/-- FAB, PWR and MEM of a partition page (R127, R157, R209). -/
def State.readPartMem (s : State) (p off : Nat) : Nat :=
  let q := s.part p
  let m := q.mem
  if off = 0x200 then q.rate.read 0
  else if off = 0x204 then q.rate.read 1
  else if off = 0x208 then q.rate.read 2
  else if off = 0x300 then word [flag q.pwr.fixed 31, (q.pwr.vcode, 0)]
  else if off = 0x304 then word [flag q.pwr.paused 31, (q.pwr.pauses, 16), ((s.pstate p).code, 8)]
  else if off = 0x400 then half false m.root + b2n m.enable
  else if off = 0x404 then half true m.root
  else if off = 0x408 then b2n m.busy
  else if off = 0x40C then word [flag m.faultValid 31, (m.faultReason, 24), (m.faultSource, 16), flag m.faultWrite 0]
  else if off = 0x410 then half false m.faultVa
  else if off = 0x414 then half true m.faultVa
  else if off = 0x418 then word [(m.corr, 16), (m.uncorr, 8), (m.retired, 0)]
  else 0

/-- The channels that Pp has open, and those of them with a stream context (R410, R437). -/
def State.chanMask (s : State) (p : Nat) (ctx : Bool) : Nat :=
  maskOf ((List.range 64).filter (fun c => (s.chan c).isOpen && (s.chan c).part == p && (!ctx || (s.ctx? c).isSome)))

/-- LNK, FLD, CDC, PART, SEC and HLT of a partition page (R391, R410, R437, R473, R474, R524). -/
def State.readPartUnits (s : State) (p off : Nat) : Nat :=
  let q := s.part p
  let h := q.hlt
  if off = 0x500 then word [(maskOf ((List.range 16).filter (fun g => !(s.inGroup p g).isEmpty)), 16),
    (maskOf ((List.range 16).filter (fun g => (q.groups.getD g none).isSome)), 0)]
  else if off = 0x504 then
    let mine := (List.range 8).filter (fun n => (s.lp n).owner == p)
    word [(maskOf (mine.filter (fun n => (s.lp n).st == .up)), 8), (maskOf mine, 0)]
  else if off = 0x600 then half false (s.chanMask p false)
  else if off = 0x604 then half true (s.chanMask p false)
  else if off = 0x700 then half false (s.chanMask p true)
  else if off = 0x704 then half true (s.chanMask p true)
  else if off = 0x708 then Nat.min 1000 (s.coreTime p * 1000 / (8 * s.video.windowMs * 1000000))
  else if off = 0x800 then q.sec.info
  else if off = 0x900 then word [flag q.sec.prevKey.isSome 31, flag (!q.sec.retiredFrames.isEmpty) 30, (q.sec.epoch.toNat % 65536, 0)]
  else if off = 0x904 then satTo 32 ((if q.sec.prevKey.isSome then q.sec.oldFrames else q.sec.retiredFrames).foldl (fun a r => a + r.2) 0)
  else if off = 0x908 then word [(maskOf ((List.range 8).filter (fun c => (q.sec.content.getD c none).isSome)), 8),
    flag q.sec.frozen 5, flag q.sec.session 4, (q.sec.tdi.code, 0)]
  else if off = 0xA00 then half false h.dump + b2n h.dumpEn
  else if off = 0xA04 then word [(h.slots, 28), (half true h.dump, 0)]
  else if off = 0xA08 then word [(h.count, 24), (h.stride, 10), (h.start, 0)]
  else if off = 0xA0C then word [(h.written, 16), (h.next, 0)]
  else if off = 0xA10 then half false h.degraded.toNat
  else if off = 0xA14 then half true h.degraded.toNat
  else if off = 0xA18 then h.score
  else 0

/-- ACT.SLOT of act slot n (R548). -/
def State.readSlot (s : State) (p n : Nat) : Nat :=
  let a := s.act p n
  let st := match a.st with | .free => 0 | .running => 1 | .scheduled => 2 | .stopping => 3
  match a.cyc with
  | some c => word [(st, 30), flag true 29, flag c.paired 28, flag (c.paired && s.pair.role != .active) 27, (c.last, 24),
      flag c.miss 23, (c.mismatches, 8), (c.lates, 0)]
  | none => word [(st, 30)]

/-- ACT of a partition page (R548). -/
def State.readActPage (s : State) (p off : Nat) : Nat :=
  let q := s.part p
  let c := (s.act p q.actSel).cyc
  let cyc := match c with | some x => x.pubCycle | none => 0
  match elemAt off 0xB00 4 64 with
  | some (n, 0) => s.readSlot p n
  | _ =>
    if off = 0xC00 then q.actSel
    else if off = 0xC04 then half false cyc
    else if off = 0xC08 then half true cyc
    else if off = 0xC0C then (match c with | some x => x.fresh | none => 0)
    else 0

/-- The MSI-X table and pending bits (R219, R243). -/
def State.readMsix (s : State) (p off : Nat) : Nat :=
  let l := (s.part p).host.msix
  match elemAt off 0x8000 16 128, elemAt off 0x9000 4 4 with
  | some (i, o), _ =>
    let e := l.getD i {}
    if o = 0 then half false e.addr else if o = 4 then half true e.addr else if o = 8 then e.data else if o = 12 then b2n e.masked
    else 0
  | none, some (j, 0) => maskOf ((List.range 32).filter (fun i => (l.getD (32 * j + i) {}).pend))
  | _, _ => 0

/-- A register of a partition page at its reset value, as an access during a reset of the partition reads it (R584). -/
def State.atReset (s : State) (p : Nat) : State :=
  s.onPart p (fun q => { sec := { vdMask := q.sec.vdMask, secMode := q.sec.secMode, st := q.sec.st, meshSeal := q.sec.meshSeal,
                                  frozen := q.sec.frozen, session := q.sec.session, tdi := q.sec.tdi },
                         pwr := q.pwr, mem := { corr := q.mem.corr, uncorr := q.mem.uncorr, retired := q.mem.retired },
                         hlt := { written := q.hlt.written, score := q.hlt.score } })

/-- A register of Pp's page (R586). -/
def State.readPage (s : State) (p off : Nat) : Nat :=
  let s := if (s.part p).sec.resetting then s.atReset p else s
  if off % 4 != 0 then 0
  else if off < 0x200 then s.readRing p off
  else if off < 0x500 then s.readPartMem p off
  else if off < 0xB00 then s.readPartUnits p off
  else if off < 0x1000 then s.readActPage p off
  else
    match elemAt off 0x1000 0x20 64, elemAt off 0x1800 0x20 16 with
    | some (q, o), _ => (s.sq p q).read o
    | none, some (c, o) => (s.cq p c).read o
    | none, none => s.readMsix p off

/-! ### Configuration space (R9, R10, R212, R218, R219, R222), in the base specification's fields (notes/assumptions/67.md) -/

/-- A configuration register of function fn. -/
def State.readCfg (s : State) (fn : Nat) (r : CfgReg) : Nat :=
  let h := s.host
  let c := h.cfg.getD fn {}
  let pf := fn = 0
  match r with
  | .id => word [(if pf then 0x0828 else 0x0829, 16), (0xF5A1, 0)]
  | .revClass => 0x12000002
  | .subsystem => 0x0001F5A1
  | .bar0 => if pf then c.bar0 + 4 else 0
  | .bar2 => if pf then c.bar2 + 12 else 0
  | .devCap => word [(1, 28), (2, 0)]
  | .devCtl => word [(c.mrrs, 12), (c.mps, 5)]
  | .devCap2 => word [(1, 17), (1, 16), (1, 11), (0xF, 0)]
  | .devCtl2 => word [flag c.ltr 10, (c.cto, 0)]
  | .linkCap => word [(2, 10), (16, 4), (6, 0)]
  | .linkCtl => word [flag c.aspm 1]
  | .linkStatus => word [(2 ^ h.width, 4), (h.speed, 0)]
  | .l1ss => c.l1ss
  | .aerCtl => word [flag c.ecrc.2 8, (1, 7), flag c.ecrc.1 6, (1, 5)]
  | .ptmCtl => b2n c.ptm
  | .msix => word [flag c.msixOn 31, flag c.msixMask 30, (127, 16)]
  | .msixTable => if pf then 0x108000 else 0x8000
  | .msixPba => if pf then 0x109000 else 0x9000
  | .sriovVfs => if pf then word [(15, 16), (15, 0)] else 0
  | .numVfs => if pf then h.numVfs else 0
  | .vfOffset => if pf then word [(1, 16), (1, 0)] else 0
  | .vfDevice => if pf then word [(0x0829, 16)] else 0
  | .vfBar0 => if pf then h.vfBars.1 + 4 else 0
  | .vfBar2 => if pf then h.vfBars.2 + 12 else 0
  | .rebar => if pf then word [(h.bar2Log2.getD 0 36 - 20, 8)] else 0
  | .vfRebar => if pf then word [(h.bar2Log2.getD 1 36 - 20, 8)] else 0
  | .dsn => Config.serial.toNat

/-- A base address of a BAR of 2^k bytes as written. -/
def barBase (k v : Nat) : Nat := v % 2 ^ 64 / 2 ^ k * 2 ^ k

/-- A write of function fn's own control fields. -/
def CfgFn.write (c : CfgFn) (r : CfgReg) (v log2 : Nat) : CfgFn :=
  match r with
  | .bar0 => { c with bar0 := barBase 24 v }
  | .bar2 => { c with bar2 := barBase log2 v }
  | .devCtl => if bitsOf v 7 5 ≤ 2 && bitsOf v 14 12 ≤ 5 then { c with mps := bitsOf v 7 5, mrrs := bitsOf v 14 12 } else c
  | .devCtl2 => if [0, 1, 2, 5, 6, 9, 10, 13, 14].contains (bitsOf v 3 0) then { c with cto := bitsOf v 3 0, ltr := bitOf v 10 } else c
  | .linkCtl => { c with aspm := bitOf v 1 }
  | .l1ss => { c with l1ss := bitsOf v 3 0 }
  | .aerCtl => { c with ecrc := (bitOf v 6, bitOf v 8) }
  | .ptmCtl => { c with ptm := bitOf v 0 }
  | .msix => { c with msixOn := bitOf v 31, msixMask := bitOf v 30 }
  | _ => c

/-- A BAR2 size as Resizable BAR codes it, 1 GiB to 64 GiB (R222). -/
def barSize (v : Nat) : Option Nat := let k := bitsOf v 13 8 + 20; if 30 ≤ k && k ≤ 36 then some k else none

/-- A write of a configuration register of function fn: the physical function's, and of a virtual function's only the MSI-X control. -/
def State.writeCfg (s : State) (fn : Nat) (r : CfgReg) (v : Nat) : State :=
  if fn != 0 && r != .msix then s
  else match r with
  | .numVfs => if bitsOf v 15 0 ≤ 15 then { s with host := { s.host with numVfs := bitsOf v 15 0 } } else s
  | .vfBar0 => { s with host := { s.host with vfBars := (barBase 24 v, s.host.vfBars.2) } }
  | .vfBar2 => { s with host := { s.host with vfBars := (s.host.vfBars.1, barBase (s.host.bar2Log2.getD 1 36) v) } }
  | .rebar => match barSize v with
    | some k => { s with host := { s.host with bar2Log2 := updAt s.host.bar2Log2 0 (fun _ => k) } }
    | none => s
  | .vfRebar => match barSize v with
    | some k => { s with host := { s.host with bar2Log2 := s.host.bar2Log2.take 1 ++ List.replicate 15 k } }
    | none => s
  | _ =>
    let t := { s with host := { s.host with cfg := updAt s.host.cfg fn (fun c => c.write r v (s.host.bar2Log2.getD fn 36)) } }
    (List.range 128).foldl (fun (u : State) i => u.unmask fn i) t

/-- CONFIGURATION_REQUEST (R488): Request Retry Status before step 4 ends; otherwise it is served. -/
def execConfigurationRequest (fn : Nat) (r : CfgReq) (s : State) : Host.Outcome State Fault Refusal :=
  let answer := fun (t : State) (a : CfgAns) => { t with host := { t.host with cfgAnswer := some a } }
  .next (if !s.host.up || !s.hasFn fn then s
    else if !s.boot.served then answer s .retry
    else match r with
      | .read r => answer s (.value (s.readCfg fn r))
      | .write r v => answer (s.writeCfg fn r v) .done)

/-! ### BAR0 (R219, R488) -/

/-- The registers as they stand between start-up steps 4 and 8 (R488): every one at its reset value, what flash holds
included. -/
def State.early (s : State) : State := { s.restart true with power := {} }

/-- A read of the global page by the physical function: between steps 4 and 8 the identity and CHN registers hold their
values, and the others their reset values (R488). -/
def State.readOwn (s : State) (off : Nat) : Nat :=
  if s.boot.stepEight || off < 0x14 || off / 0x1000 == 6 then s.readGlobal off else s.early.readGlobal off

/-- What a 4-byte read of BAR0 by function fn returns (R219, R582): in DEEP and until RUN is reached 0 but for HOST.IDENT and PWR.INPUT (R154), and 0
in a frozen partition's page for the physical function but for PART.INFO and SEC.ADMIT (R461). -/
def State.readBar0 (s : State) (fn off : Nat) : Nat :=
  if !s.boot.served || off % 4 != 0 then 0
  else if s.power.deepRead && !(fn == 0 && (off == 0 || off == 0xA010)) then 0
  else
    let t := if s.boot.stepEight then s else s.early
    if fn = 0 then
      if off < 0x10000 then s.readOwn off
      else
        match elemAt off 0x100000 0x10000 16 with
        | some (p, o) => if (s.part p).sec.frozen && o != 0x800 && o != 0x908 then 0 else t.readPage p o
        | none => 0
    else if s.hasFn fn && off < 0x10000 then t.readPage fn off
    else 0

end Sys2Proof.Machine
end

