-- ==== Sys2Proof/Machine/Writes.lean ====
section
/-! DEFINITION. Register writes (R13, R219, R220, R582 to R586): every writable register of the global page and of the
partition pages, by the rules of its owner. A value outside its stated range is ignored whole. -/

namespace Sys2Proof.Machine

/-- Replace the low or high word of an address, keeping the bits of a mask in the low one. -/
def setHalf (hi : Bool) (keep old v : Nat) : Nat :=
  if hi then old % 2 ^ 32 + v * 2 ^ 32 else old / 2 ^ 32 * 2 ^ 32 + v / keep * keep

/-! ### The global page (R585) -/

/-- MON.CFG (R581): ENGINEER_EN follows the seal. -/
def State.writeMonCfg (s : State) (v : Nat) : State :=
  { s with mon := { s.mon with serviceEn := bitOf v 31, relayEn := bitOf v 30,
                               engineerEn := if s.sec.sealed then s.mon.engineerEn else bitOf v 29 } }

/-- FLD.PORT_CFG (R410): a port that is disabled goes down; a fenced one stays disabled (R512). -/
def State.writeFldCfg (s : State) (n v : Nat) : State :=
  let fec := bitsOf v 29 28
  let max := bitsOf v 13 0
  if fec = 3 || max < 1518 || max > 9216 then s
  else
    let on := bitOf v 31 && !(s.unit 3 n).fenced
    let s := { s with field := { s.field with ports := updAt s.field.ports n (fun (p : FieldPort) =>
      { p with enable := on, an := bitOf v 30, fec := fec, ping := bitOf v 27, maxFrame := max }) } }
    if on then s else s.fieldLink n false 0

/-- The SEC registers (R453, R474). -/
def State.writeSec (s : State) (off v : Nat) : State :=
  if off = 0x5000 then (if bitOf v 31 then { s with sec := { s.sec with sealed := true } } else s)
  else if off = 0x5004 then
    (if 1 ≤ bitsOf v 3 0 && bitsOf v 3 0 ≤ 10 then { s with sec := { s.sec with ratePct := bitsOf v 3 0 } } else s)
  else s

/-- A health setting, where its value is in range. -/
def State.setHealth (s : State) (ok : Bool) (f : Health → Health) : State := if ok then { s with health := f s.health } else s

/-- The global HLT registers (R523, R569). -/
def State.writeHlt (s : State) (off v : Nat) : State :=
  let w := bitsOf v 13 0
  if off = 0x7000 then s.setHealth (10 ≤ w && w ≤ 10000) (fun h => { h with windowMs := w })
  else if off = 0x7004 then s.writeHltReset v
  else if off = 0x7008 then
    s.setHealth (1 ≤ bitsOf v 15 8 && bitsOf v 15 8 ≤ 168 && bitsOf v 3 0 != 0)
      (fun h => { h with fenceH := bitsOf v 15 8, fenceN := bitsOf v 3 0 })
  else if off = 0x700C then
    s.setHealth (1 ≤ bitsOf v 7 0 && bitsOf v 7 0 ≤ 168) (fun h => { h with striker := bitOf v 31, strikerH := bitsOf v 7 0 })
  else if off = 0x7010 then s.setHealth (bitsOf v 9 0 ≤ 1000) (fun h => { h with thresh := bitsOf v 9 0 })
  else if off = 0x7020 then
    s.setHealth true (fun h => { h with pfDump := setHalf false 0x800 h.pfDump v, pfDumpEn := bitOf v 0 })
  else if off = 0x7024 then
    s.setHealth (bitsOf v 31 28 ≤ 10) (fun h => { h with pfDump := setHalf true 1 h.pfDump (bitsOf v 15 0), pfSlots := bitsOf v 31 28 })
  else if off = 0x702C then s.writeExpel v
  else s

/-- The TILE registers (R69). -/
def State.writeTile (s : State) (off v : Nat) : State :=
  match elemAt off 0x8000 0x40 64 with
  | some (t, 0xC) => if bitOf v 31 then s.onTile t (fun x => { x with spCorr := 0, spUncorr := 0 }) else s
  | some (t, 0x10) =>
    if 8 ≤ bitsOf v 5 0 && bitsOf v 5 0 ≤ 32 then s.onTile t (fun x => { x with ageLimit := bitsOf v 5 0 }) else s
  | _ => s

/-- The global FAB registers (R127). -/
def State.writeFab (s : State) (off v : Nat) : State :=
  if off = 0x9000 then s.writeRateBase none false v
  else if off = 0x9004 then s.writeRateBase none true v
  else if off = 0x9008 then s.writeRateCtrl none v
  else if off = 0x9010 then
    { s with fabric := { s.fabric with lockLoss := s.fabric.lockLoss &&& ~~~(BitVec.ofNat 26 v) } }
  else s

/-- A power setting in W, 400 to 1,600 (R156): the levels are resolved on it (R28). -/
def State.setWatts (s : State) (v : Nat) (f : Power → Nat → Power) : State :=
  let w := bitsOf v 10 0
  if 400 ≤ w && w ≤ 1600 then { s with power := f s.power w }.resolveLevels else s

/-- The global PWR registers (R156). -/
def State.writePwr (s : State) (off v : Nat) : State :=
  if off = 0xA000 then s.setWatts v (fun p w => { p with capW := w })
  else if off = 0xA004 then s.setWatts v (fun p w => { p with shedDefault := w })
  else if off = 0xA008 then s.setWatts v (fun p w => { p with curtainW := w })
  else if off = 0xA00C then
    (if 1 ≤ bitsOf v 6 4 && bitsOf v 6 4 ≤ 4 then
      { s with power := { s.power with idleCeil := bitsOf v 6 4, deepAllow := bitOf v 0 } } else s)
  else s

/-- A thermal setting, where its value is in range. -/
def State.setThermal (s : State) (ok : Bool) (f : Thermal → Thermal) : State := if ok then { s with thermal := f s.thermal } else s

/-- The THM registers (R176). -/
def State.writeThm (s : State) (off v : Nat) : State :=
  if off = 0xB000 then s.setThermal (bitsOf v 4 0 ≤ 30) (fun t => { t with glycol := bitsOf v 4 0 })
  else if off = 0xB004 then
    s.setThermal (25 ≤ bitsOf v 5 0 && bitsOf v 5 0 ≤ 60) (fun t => { t with keepWarm := bitOf v 31, floorC := bitsOf v 5 0 })
  else if off = 0xB008 then
    (List.range 64).foldl (fun (t : State) i => t.checkBudget i)
      (s.setThermal (20 ≤ bitsOf v 9 0 && bitsOf v 9 0 ≤ 1000) (fun t => { t with cycBudget := bitsOf v 9 0 }))
  else if off = 0xB01C then s.writeThmEvents v
  else s

/-- The global MEM registers (R210). -/
def State.writeMem (s : State) (off v : Nat) : State :=
  if off = 0xC500 then
    (if 1 ≤ bitsOf v 6 0 && bitsOf v 6 0 ≤ 72 then { s with mem := s.mem.repace s.now (bitsOf v 6 0) } else s)
  else if off = 0xC504 then
    (if 60 ≤ bitsOf v 11 0 && bitsOf v 11 0 ≤ 3600 then { s with mem := { s.mem with recalS := bitsOf v 11 0 } } else s)
  else s

/-- The LNK and PAIR registers (R391, R549). -/
def State.writeLnk (s : State) (off v : Nat) : State :=
  match elemAt off 0xE000 0x40 8 with
  | some (n, 0) => s.writePortCfg n v
  | some _ => s
  | none =>
    if off = 0xE200 then s.writePair v
    else if off = 0xF000 then s.writePairCfg v
    else if off = 0xF008 then s.writePairCtrl v
    else s

/-- A write of a register of the global page; a read-only or reserved offset ignores it (R13, R582). -/
def State.writeGlobal (s : State) (off v : Nat) : State :=
  match off / 0x1000 with
  | 0x0 => if off = 0x104 then s.writePtmCtrl v else s
  | 0x1 => if off = 0x1800 then s.writeMonCfg v else s
  | 0x2 => if off = 0x2000 then s.writeFldCfg 0 v else if off = 0x2040 then s.writeFldCfg 1 v
           else if off = 0x2100 then s.writePtpCtrl v else s
  | 0x3 => if off = 0x3080 then s.writeCarousel v else s
  | 0x5 => s.writeSec off v
  | 0x7 => s.writeHlt off v
  | 0x8 => s.writeTile off v
  | 0x9 => s.writeFab off v
  | 0xA => s.writePwr off v
  | 0xB => s.writeThm off v
  | 0xC => s.writeMem off v
  | 0xE | 0xF => s.writeLnk off v
  | _ => s

/-! ### A partition page (R586) -/

/-- Every ring of Pp is DISABLED. -/
def State.ringsOff (s : State) (p : Nat) : Bool :=
  let h := (s.part p).host
  h.evt.st == .disabled && h.sqs.all (fun r => r.st == .disabled) && h.cqs.all (fun r => r.st == .disabled)

/-- RING.DB_BASE_LO and RING.DB_BASE_HI (R246): ignored while a ring is not DISABLED; WAKES counts from the setting of the
page (R231), whose reserved bytes 0x008 to 0x03F are written 0 then (R230, notes/assumptions/68.md). -/
def State.writeDbBase (s : State) (p : Nat) (hi : Bool) (v : Nat) : State :=
  if !s.ringsOff p then s
  else
    let was := (s.part p).host
    let s := s.onHost p (fun h => { h with dbBase := setHalf hi 0x1000 h.dbBase v, dbValid := if hi then h.dbValid else bitOf v 0 })
    if !hi && bitOf v 0 && !was.dbValid then
      let s := s.onHost p (fun h => { h with wakes := 0 })
      (if was.wakes != 0 then s.postPresence p else s).hostWriteAs p ((s.part p).host.dbBase + 8) (zeros 56)
    else s

/-- RING and HOST (R232, R246). -/
def State.writeRing (s : State) (p off v : Nat) : State :=
  if off = 0x0 then s.nudge p
  else if off = 0x4 then s.writeDbBase p false v
  else if off = 0x8 then s.writeDbBase p true v
  else if off = 0xC then
    (if bitsOf v 31 16 ≤ 10000 && bitsOf v 9 0 ≤ 1000 then
      s.onHost p (fun h => { h with dozeUs := bitsOf v 31 16, pollUs := bitsOf v 9 0 }) else s)
  else if off = 0x10 then s.onHost p (fun h => { h with dbFault := h.dbFault && !bitOf v 0 })
  else if off = 0x14 || off = 0x18 then
    s.onEvt p (fun e => if e.st = .disabled then { e with base := setHalf (off == 0x18) 0x1000 e.base v } else e)
  else if off = 0x1C then s.writeEvtCfg p v
  else if off = 0x100 then
    s.onHost p (fun h => { h with apBase := setHalf false 0x40000000 h.apBase v, apEnable := bitOf v 0 })
  else if off = 0x104 then s.onHost p (fun h => { h with apBase := setHalf true 1 h.apBase (bitsOf v 15 0) })
  else s

/-- PWR.FIXED (R153, R157): ignored from a virtual function and while the partition is RUNNING. -/
def State.writeFixed (s : State) (p v : Nat) (virt : Bool) : State :=
  if virt || (s.part p).sec.st = .running || bitsOf v 6 0 > 120 then s
  else
    let s := s.onPart p (fun q => { q with pwr := { q.pwr with fixed := bitOf v 31, vcode := bitsOf v 6 0 } })
    if bitOf v 31 then (s.domsOf p).foldl (fun (t : State) k => t.onDom k (fun d => { d with wantCode := bitsOf v 6 0 })) s else s

/-- FAB and MEM of a partition page (R127, R209). -/
def State.writePartMem (s : State) (p off v : Nat) : State :=
  if off = 0x200 then s.writeRateBase (some p) false v
  else if off = 0x204 then s.writeRateBase (some p) true v
  else if off = 0x208 then s.writeRateCtrl (some p) v
  else if off = 0x400 then s.writePtRootLo p v
  else if off = 0x404 then s.writePtRootHi p v
  else if off = 0x408 then (if bitOf v 31 then s.startInval p else s)
  else if off = 0x40C then
    s.onPart p (fun q => { q with mem := { q.mem with faultValid := q.mem.faultValid && !bitOf v 31 } })
  else s

/-- A dump setting, where its value is in range. -/
def State.setDump (s : State) (p : Nat) (ok : Bool) (f : PartHlt → PartHlt) : State :=
  if ok then s.onPart p (fun q => { q with hlt := f q.hlt }) else s

/-- HLT and ACT of a partition page (R524, R548). -/
def State.writePartHlt (s : State) (p off v : Nat) : State :=
  if off = 0xA00 then s.setDump p true (fun h => { h with dump := setHalf false 0x1000 h.dump v, dumpEn := bitOf v 0 })
  else if off = 0xA04 then
    s.setDump p (bitsOf v 31 28 ≤ 6) (fun h => { h with dump := setHalf true 1 h.dump (bitsOf v 15 0), slots := bitsOf v 31 28 })
  else if off = 0xA08 then
    s.setDump p (bitsOf v 28 24 ≤ 16 && bitsOf v 19 10 != 0)
      (fun h => { h with count := bitsOf v 28 24, stride := bitsOf v 19 10, start := bitsOf v 9 0 })
  else if off = 0xC00 then s.onPart p (fun q => { q with actSel := bitsOf v 5 0 })
  else s

/-- The registers of an SQ (R225, R247): the base is ignored while the ring is not DISABLED. -/
def State.writeSq (s : State) (p q o v : Nat) : State :=
  if o = 0 || o = 4 then s.onSq p q (fun r => if r.idle then { r with base := setHalf (o == 4) 0x1000 r.base v } else r)
  else if o = 8 then s.writeSqCfg p q v
  else s

/-- The registers of a CQ (R225, R247). -/
def State.writeCq (s : State) (p c o v : Nat) : State :=
  if o = 0 || o = 4 then
    s.onCq p c (fun r => if r.st = .disabled then { r with base := setHalf (o == 4) 0x1000 r.base v } else r)
  else if o = 8 then s.writeCqCfg p c v
  else s

/-- The MSI-X table (R219, R243): an entry that is unmasked with its pending bit set sends its message. -/
def State.writeMsix (s : State) (p i o v : Nat) : State :=
  let s := s.onHost p (fun h => { h with msix := updAt h.msix i (fun e =>
    if o = 0 then { e with addr := setHalf false 4 e.addr v } else if o = 4 then { e with addr := setHalf true 1 e.addr v }
    else if o = 8 then { e with data := v } else { e with masked := bitOf v 0 }) })
  s.unmask p i

/-- A write of a register of Pp's page, `virt` when its virtual function makes it. While the partition is being reset its
P-scope registers ignore writes (R584); PWR.FIXED is of scope C. -/
def State.writePage (s : State) (p off v : Nat) (virt : Bool) : State :=
  if off = 0x300 then s.writeFixed p v virt
  else if (s.part p).sec.resetting then s
  else if off < 0x200 then s.writeRing p off v
  else if off < 0x500 then s.writePartMem p off v
  else if off < 0x1000 then s.writePartHlt p off v
  else
    match elemAt off 0x1000 0x20 64, elemAt off 0x1800 0x20 16, elemAt off 0x8000 16 128 with
    | some (q, o), _, _ => s.writeSq p q o v
    | _, some (c, o), _ => s.writeCq p c o v
    | _, _, some (i, o) => s.writeMsix p i o v
    | _, _, _ => s

/-! ### REGISTER_WRITE -/

/-- A 4-byte write to BAR0 of function fn (R219, R461, R582): before start-up step 8 registers hold their reset values
(R488); in DEEP a write wakes the module (R154); the physical function's writes to a frozen partition's page are ignored. -/
def State.writeBar0 (s : State) (fn off v : Nat) : State :=
  if !s.boot.stepEight || off % 4 != 0 then s
  else
    let s := s.wakeDeep
    if fn = 0 then
      if off < 0x10000 then s.writeGlobal off v
      else
        match elemAt off 0x100000 0x10000 16 with
        | some (p, o) => if (s.part p).sec.frozen then s else s.writePage p o v false
        | none => s
    else if s.hasFn fn && off < 0x10000 then s.writePage fn off v true
    else s

/-- REGISTER_WRITE (R13, R219): a write of 4 bytes by function fn; one of 8 bytes is two of them, the lower address first
(R220). -/
def execRegisterWrite (fn off : Nat) (v : Word) (s : State) : Host.Outcome State Fault Refusal := .next (s.writeBar0 fn off v.toNat)

/-- SEAL_WRITE (R453): 1 written to SEC.SEAL.SEALED. -/
def execSealWrite (s : State) : Host.Outcome State Fault Refusal := .next (s.writeBar0 0 0x5000 (2 ^ 31))

end Sys2Proof.Machine
end

