-- ==== Sys2Proof/Machine/Trust.lean ====
section
/-! DEFINITION. Trust and the steward (R451 to R462): SPDM on the DOE mailboxes, TDISP and IDE, the mailbox through which the
steward reaches guarded functions, and the steward's heartbeat. -/

namespace Sys2Proof.Machine

/-! ### SPDM (R455 to R457) -/

/-- An SPDM response: version 1.2, but 1.0 on VERSION, and the response code (PRESUMED, DMTF DSP0274; the payload that the manual
does not describe is left out, notes/assumptions/27.md). -/
def spdmReply (code : Nat) (payload : List Byte) : List Byte := toLe 1 (if code = 0x04 then 0x10 else 0x12) ++ toLe 1 code ++ payload

/-- ERROR (PRESUMED, DMTF DSP0274). -/
def spdmError : List Byte := spdmReply 0x7F []

/-- The answer that the DOE mailbox of function p gives. -/
def State.doe (s : State) (p : Nat) (bytes : List Byte) : State := s.onSec p (fun x => { x with doeReply := bytes })

/-- What measurement 5 covers: SEC.SEAL and every RWL register (R456). -/
def State.measuredConfig (s : State) : List Byte :=
  toLe 4 (s.readGlobal 0x5000) ++ toLe 4 (s.readGlobal 0xE200) ++ toLe 4 (s.readGlobal 0xF000) ++ toLe 4 (b2n s.mon.engineerEn)

/-- What a firmware measurement covers: the image, by the digest of its payload, and the guard image's security version too (R456). -/
def State.measuredFw (s : State) (i : Nat) : List Byte :=
  let f := (s.boot.fw.getD i {}).active
  f.digest ++ (if i = 0 then toLe 1 f.svn else [])

/-- A measurement as function fn may have it: 1 to 5 on every function, 16 + p on function p and the physical function (R456).
The guard ROM's digest is free. -/
def State.measurement (s : State) (fn index : Nat) : Option (List Byte) :=
  if index = 1 then some ((List.range 48).map Config.romDigest)
  else if 2 ≤ index ∧ index ≤ 4 then some (shaOf (s.measuredFw (index - 2)))
  else if index = 5 then some (shaOf s.measuredConfig)
  else if 16 ≤ index ∧ index < 32 ∧ (fn = 0 ∨ index = 16 + fn) then some (s.measured (index - 16))
  else none

/-- Function p's session ends: what it protected in mode 2 goes with it (R455, R462). -/
def State.endSession (s : State) (p : Nat) : State :=
  let t := s.onSec p (fun x => { x with session := false, handshake := false, lastMeas := none })
  if (s.part p).sec.secMode = 2 then t.loseAdmission p 2 else t

/-- FINISH opens the session's application phase with keys of its own (R455, R459, R460). -/
def State.openSession (s : State) (p : Nat) : State :=
  let key := s.random
  let open_ := s.tick.random
  ((s.onSec p (fun x => { x with session := true, handshake := false, sealKey := key, openKey := open_, openOld := open_, sealSeq := 1,
                                 seenSeqs := [], sealGen := false, lastMeas := none, heartbeatAt := s.now })).tick).tick

/-- GET_MEASUREMENTS (R456, R457). -/
def State.getMeasurements (s : State) (p index : Nat) : State :=
  match s.measurement p index with
  | none => s.doe p spdmError
  | some m =>
    let t := s.doe p (spdmReply 0x60 (toLe 1 index ++ m))
    if p != 0 && index = 16 + p && (s.part p).sec.session then t.onSec p (fun x => { x with lastMeas := some m }) else t

/-- The responder's action on a request, on function p (R455). -/
def State.spdm (s : State) (p : Nat) (m : SpdmMsg) : State :=
  let x := (s.part p).sec
  match m with
  | .getVersion => s.doe p (spdmReply 0x04 [])
  | .getCapabilities => s.doe p (spdmReply 0x61 [])
  | .negotiateAlgorithms => s.doe p (spdmReply 0x63 [])
  | .getDigests => s.doe p (spdmReply 0x01 (shaOf (s.chainOf 0) ++ shaOf (s.chainOf 1)))
  | .getCertificate slot => s.doe p (if slot < 2 then spdmReply 0x02 (toLe 1 slot ++ s.chainOf slot) else spdmError)
  | .challenge => s.doe p (spdmReply 0x03 (shaOf (s.chainOf 0) ++ Config.signature s.boot.aliasKey (s.chainOf 0)))
  | .getMeasurements i => s.getMeasurements p i
  | .keyExchange =>
    if x.session || x.handshake then s.doe p spdmError
    else (s.onSec p (fun y => { y with handshake := true })).doe p (spdmReply 0x64 [])
  | .finish ok =>
    if !x.handshake then s.doe p spdmError
    else if ok then (s.openSession p).doe p (spdmReply 0x65 [])
    else (s.onSec p (fun y => { y with handshake := false })).doe p spdmError
  | .keyUpdate =>
    if !x.session then s.doe p spdmError
    else
      let key := s.random
      let open_ := s.tick.random
      (((s.onSec p (fun y => { y with sealKey := key, openKey := open_, openOld := y.openKey, sealGen := !y.sealGen })).tick).tick).doe p
        (spdmReply 0x69 [])
  | .heartbeat =>
    if !x.session then s.doe p spdmError
    else (s.onSec p (fun y => { y with heartbeatAt := s.now })).doe p (spdmReply 0x68 [])
  | .endSession => if !x.session then s.doe p spdmError else (s.endSession p).doe p (spdmReply 0x6C [])
  | .badSecured => if !x.session then s.doe p spdmError else (s.endSession p).doe p spdmError
  | .other _ => s.doe p spdmError

/-- The DOE mailboxes answer: configuration requests are served and the host link is up (R488). -/
def State.doeServed (s : State) : Bool := s.boot.served && s.host.up

/-- SPDM_REQUEST (R455). -/
def execSpdmRequest (fn : Nat) (m : SpdmMsg) (s : State) : Host.Outcome State Fault Refusal :=
  .next (if s.doeServed && s.hasFn fn then s.spdm fn m else s)

/-- SPDM_HEARTBEAT_MISS (R455): two periods of 10 s pass without a heartbeat. -/
def execSpdmHeartbeatMiss (fn : Nat) (s : State) : Host.Outcome State Fault Refusal :=
  .next (if fn < 16 && (s.part fn).sec.session && s.now ≥ (s.part fn).sec.heartbeatAt + 20000000000 then s.endSession fn else s)

/-! ### TDISP and IDE (R458) -/

/-- A TDISP message: version and code (PRESUMED, PCI Express Base Specification 6.0), then what the manual names. -/
def tdispReply (code : Nat) (payload : List Byte) : List Byte := toLe 1 0x10 ++ toLe 1 code ++ payload

/-- The TDISP error response. -/
def tdispError : List Byte := tdispReply 0x7F []

/-- The interface of a partition in SEC_MODE 1 takes a state. -/
def State.setTdi (s : State) (p : Nat) (t : Tdi) : State := s.onSec p (fun x => { x with tdi := t })

/-- TDISP messages for interface p reach the device security manager. -/
def State.tdispServed (s : State) (p : Nat) : Bool := s.doeServed && 1 ≤ p && p < 16

/-- LOCK_INTERFACE (R458): only while the partition is CONFIGURED; it freezes the partition. -/
def execLockInterface (p : Nat) (s : State) : Host.Outcome State Fault Refusal :=
  let x := (s.part p).sec
  .next (if !s.tdispServed p then s
    else if x.tdi = .unlocked && x.st = .configured then
      (s.onSec p (fun y => { y with tdi := .locked, frozen := true })).doe 0 (tdispReply 0x03 [])
    else s.doe 0 tdispError)

/-- GET_DEVICE_INTERFACE_REPORT (R458): it carries measurement 16 + p. -/
def execGetDeviceInterfaceReport (p : Nat) (s : State) : Host.Outcome State Fault Refusal :=
  .next (if !s.tdispServed p then s
    else match (s.part p).sec.tdi with
      | .locked | .run => s.doe 0 (tdispReply 0x04 (s.measured p))
      | _ => s.doe 0 tdispError)

/-- START_INTERFACE (R458): a locked interface goes to RUN. -/
def execStartInterface (p : Nat) (s : State) : Host.Outcome State Fault Refusal :=
  .next (if !s.tdispServed p then s
    else if (s.part p).sec.tdi = .locked then (s.setTdi p .run).doe 0 (tdispReply 0x06 [])
    else s.doe 0 tdispError)

/-- STOP_INTERFACE (R458, R462): the interface leaves RUN, and with it the partition's admission. -/
def execStopInterface (p : Nat) (s : State) : Host.Outcome State Fault Refusal :=
  let x := (s.part p).sec
  .next (if !s.tdispServed p then s
    else if x.tdi = .none then s.doe 0 tdispError
    else
      let t := (s.setTdi p .unlocked).doe 0 (tdispReply 0x07 [])
      if x.tdi = .run then t.loseAdmission p 1 else t)

/-- IDE_KM (R458): keys for a function's stream come over a session of the physical function. -/
def execIdeKm (fn : Nat) (s : State) : Host.Outcome State Fault Refusal :=
  .next (if s.doeServed && s.hasFn fn && (s.part 0).sec.session then s.onSec fn (fun x => { x with ideKeys := true }) else s)

/-- IDE_TLP_FAILURE (R458, R462): the TLP is dropped, and a locked or running interface enters ERROR. -/
def execIdeTlpFailure (fn : Nat) (s : State) : Host.Outcome State Fault Refusal :=
  .next (if fn ≥ 16 then s
    else match (s.part fn).sec.tdi with
      | .locked => s.setTdi fn .error
      | .run => (s.setTdi fn .error).loseAdmission fn 1
      | _ => s)

/-! ### The mailbox (R451) -/

/-- The guard's answer in a request's slot: one of 16, the oldest replaced; refusals are counted. -/
def State.answerMail (s : State) (op seq : Nat) (ok : Bool) : State :=
  let r : MailReply := { op := op, status := if ok then 0 else 1, seq := seq }
  { s with sec := { s.sec with
      mail := (r :: s.sec.mail).take 16
      requests := if ok then satTo 16 (s.sec.requests + 1) else s.sec.requests
      refused := if ok then s.sec.refused else satTo 16 (s.sec.refused + 1) } }

/-- A request of the steward: carried out and answered when its check passes, else refused. -/
def State.mailbox (s : State) (op seq : Nat) (act : Option State) : State :=
  match act with
  | some t => t.answerMail op seq true
  | none => s.answerMail op seq false

/-- Voltage code and power state of domain k as the steward asks for them, clamped under R27: the voltage range here, and all else by the
resolution that follows. -/
def State.mailPower (s : State) (k : Nat) (code : Option Nat) (st : Option PState) : Option State :=
  if k ≥ 16 then none
  else
    let raw := code.getD (s.dom k).wantCode
    let s := (s.wantDom (st.getD (s.dom k).wantSt) k).onDom k (fun d => { d with wantCode := Nat.min 120 raw })
    let s := if 120 < raw then s.noteClamp k 1 else s
    some s.resolveLevels

/-- MAILBOX_SET_POWER (R27, R143, R451): request 1. -/
def execMailboxSetPower (seq k : Nat) (code : Option Nat) (st : Option PState) (s : State) : Host.Outcome State Fault Refusal :=
  .next (if s.sec.steward then s.mailbox 1 seq (s.mailPower k code st) else s)

/-- Fence or unfence a tile, or reset a unit (R451, R576), where the guard's check passes: an unfence needs a passing striker
round, whose failing tests `failed` names; a fence counts as the host's. -/
def State.mailUnit (s : State) (act : MailAct) (kind unit failed : Nat) : Option State :=
  if unit ≥ unitCount kind then none
  else match act with
    | .fence => if kind = 0 then some (s.fenceUnit 0 unit 4) else none
    | .unfence => if kind = 0 && (s.tile unit).st == .fenced && failed % 64 = 0 then some ((s.roundPassed 0 unit).unfence 0 unit) else none
    | .reset => if (s.unit kind unit).fenced then none else some (s.requestReset kind unit 4 [] false false)

/-- A failing round of a refused unfence (R517). -/
def State.mailRound (s : State) (act : MailAct) (kind unit failed : Nat) : State :=
  if act = .unfence && kind = 0 && unit < 64 && (s.tile unit).st == .fenced && failed % 64 != 0
  then s.roundFailed 0 unit (lowestTest failed) (failed % 64) else s

/-- MAILBOX_FENCE_RESET (R451, R503, R513): request 2. -/
def execMailboxFenceReset (seq : Nat) (act : MailAct) (kind unit failed : Nat) (s : State) : Host.Outcome State Fault Refusal :=
  .next (if s.sec.steward then (s.mailRound act kind unit failed).mailbox 2 seq (s.mailUnit act kind unit failed) else s)

/-- MAILBOX_CHANNEL_FILTER (R451): request 3, for a channel open and granted to the named partition. -/
def execMailboxChannelFilter (seq p chan : Nat) (filter : List Byte) (s : State) : Host.Outcome State Fault Refusal :=
  .next (if s.sec.steward then
      s.mailbox 3 seq (if chan < 64 && (s.chan chan).isOpen && (s.chan chan).part == p then
        some { s with sec := { s.sec with filters := (chan, filter) :: s.sec.filters.filter (fun f => f.1 != chan) } } else none)
    else s)

/-- MAILBOX_READ_SENSORS (R451): request 4, module-wide figures only: registers of the global page but PART's. -/
def execMailboxReadSensors (seq off : Nat) (s : State) : Host.Outcome State Fault Refusal :=
  .next (if s.sec.steward then
      s.mailbox 4 seq (if off < 0x10000 && off / 0x1000 != 4 && off % 4 = 0 then
        some { s with sec := { s.sec with mailData := [s.readGlobal off] } } else none)
    else s)

/-- A health record from its bytes (R521). -/
def recOfBytes (r : List Byte) : HealthRec :=
  { kind := byteAt r 0, unitKind := byteAt r 1, unit := byteAt r 2, part := byteAt r 3, detail := fieldAt r 4 4, time := fieldAt r 8 8 }

/-- A power-quality record from its bytes, where its TYPE is one (R138). -/
def pqOfBytes (r : List Byte) : Option PqRec :=
  (([.sag, .swell, .interruption, .transient] : List PqType).find? (fun k => k.code == bitsOf (byteAt r 0) 3 0)).map (fun k =>
    { kind := k, curtain := bitOf (byteAt r 1) 0, switch := bitOf (byteAt r 1) 1, shutdown := bitOf (byteAt r 1) 2,
      extreme := fieldAt r 2 2, prior := fieldAt r 4 2, nodeMin := fieldAt r 6 2, start := fieldAt r 8 8, duration := fieldAt r 16 8 })

/-- Write a record to its log in flash, where it fits the log's record (R137, R521). -/
def State.mailRecord (s : State) (power : Bool) (r : List Byte) : Option State :=
  if r.length > 32 then none
  else if power then
    (pqOfBytes r).map (fun x =>
      let ring := s.power.pqRing ++ [x]
      { s with power := { s.power with pqRing := if ring.length > 1024 then ring.drop 1 else ring } })
  else some (s.appendHealth (recOfBytes r))

/-- MAILBOX_WRITE_RECORD (R138, R451, R521): request 5; the record's length lies within the log area. -/
def execMailboxWriteRecord (seq : Nat) (power : Bool) (r : List Byte) (s : State) : Host.Outcome State Fault Refusal :=
  .next (if s.sec.steward then s.mailbox 5 seq (s.mailRecord power r) else s)

/-- MAILBOX_DEBUG_READ (R450, R451): request 6, for a dump: a tile's sequencer and router state or a hub unit's state
block; `window` asks for a scratchpad. -/
def execMailboxDebugRead (seq kind unit : Nat) (window : Bool) (s : State) : Host.Outcome State Fault Refusal :=
  .next (if s.sec.steward then
      s.mailbox 6 seq (if window || unit ≥ unitCount kind then none
        else some { s with sec := { s.sec with mailData := (Config.debugState (unitIndex kind unit)).map BitVec.toNat } })
    else s)

/-! ### The steward's heartbeat (R452) -/

/-- STEWARD_HEARTBEAT_LOSS (R452): none for 1 s, so the guard restarts the steward. -/
def execStewardHeartbeatLoss (s : State) : Host.Outcome State Fault Refusal :=
  .next (if s.sec.steward && s.now ≥ s.sec.heartbeatAt + 1000000000 then s.restartSteward else s)

end Sys2Proof.Machine
end

