-- ==== Sys2Proof/Machine/Console.lean ====
section
/-! DEFINITION. The sessions of the Grenko monitor (R570 to R574, R578, R579): text, input lines, output and how it drains,
levels, challenges. Where the manual gives the words of a line, they are its words; the rest of the text is the model's
(notes/assumptions/28.md). -/

namespace Sys2Proof.Machine

/-! ### Text (R573) -/

/-- ASCII. -/
def ascii (t : String) : List Byte := t.toList.map (fun c => BitVec.ofNat 8 c.toNat)

/-- A digit, to base 16. -/
def digitByte (d : Nat) : Byte := BitVec.ofNat 8 (if d < 10 then 48 + d else 55 + d)

/-- The digits of a number before what follows, at most `fuel` of them. -/
def decDigits : Nat → Nat → List Byte → List Byte
  | 0, _, acc => acc
  | fuel + 1, n, acc => if n < 10 then digitByte n :: acc else decDigits fuel (n / 10) (digitByte (n % 10) :: acc)

/-- A number in decimal. -/
def decText (n : Nat) : List Byte := decDigits 40 n []

/-- A number in `k` hexadecimal digits, small letters. -/
def lowHex (k n : Nat) : List Byte :=
  (List.range k).map (fun i => let d := n / 16 ^ (k - 1 - i) % 16; BitVec.ofNat 8 (if d < 10 then 48 + d else 87 + d))

/-- A number in `k` hexadecimal digits. -/
def hexText (k n : Nat) : List Byte := (List.range k).map (fun i => digitByte (n / 16 ^ (k - 1 - i) % 16))

/-- A register in the hexadecimal form of the manual. -/
def regText (n : Nat) : List Byte := ascii "0x" ++ hexText 4 (n / 65536) ++ ascii "_" ++ hexText 4 n

/-- A value in tenths, to 0.1. -/
def tenthText (v : Int) : List Byte :=
  (if v < 0 then ascii "-" else []) ++ decText (v.natAbs / 10) ++ ascii "." ++ decText (v.natAbs % 10)

/-- A signed number. -/
def intText (v : Int) : List Byte := (if v < 0 then ascii "-" else []) ++ decText v.natAbs

/-- A condition. -/
def bitText (b : Bool) : List Byte := decText (b2n b)

/-- Words with single spaces between them. -/
def spaced : List (List Byte) → List Byte
  | [] => []
  | [w] => w
  | w :: ws => w ++ ascii " " ++ spaced ws

/-- The words of a line. -/
def lineWords (l : List Byte) : List (List Byte) :=
  let r := l.foldr (fun b (a : List Byte × List (List Byte)) =>
    if b = 0x20 then ([], if a.1.isEmpty then a.2 else a.1 :: a.2) else (b :: a.1, a.2)) ([], [])
  if r.1.isEmpty then r.2 else r.1 :: r.2

/-- A digit's value. -/
def digitOf (b : Byte) : Option Nat :=
  let n := b.toNat
  if 48 ≤ n ∧ n ≤ 57 then some (n - 48) else if 97 ≤ n ∧ n ≤ 102 then some (n - 87)
  else if 65 ≤ n ∧ n ≤ 70 then some (n - 55) else none

/-- The number that digits spell to a base, underscores between them left out. -/
def digitsOf (base : Nat) : Nat → List Byte → Option Nat
  | acc, [] => some acc
  | acc, b :: bs =>
    if b = 0x5F then digitsOf base acc bs
    else match digitOf b with
      | some d => if d < base then digitsOf base (acc * base + d) bs else none
      | none => none

/-- A number: decimal, or hexadecimal with 0x before it; underscores stand inside it only. -/
def numberOf (w : List Byte) : Option Nat :=
  let hex := w.take 2 == ascii "0x"
  let ds := if hex then w.drop 2 else w
  if ds.isEmpty || ds.head? == some 0x5F || ds.getLast? == some 0x5F then none else digitsOf (if hex then 16 else 10) 0 ds

/-- The name of a reset unit (R573). -/
def unitName (kind unit : Nat) : List Byte :=
  match kind with
  | 0 => ascii "T" ++ (if unit < 10 then ascii "0" else []) ++ decText unit
  | 1 => ascii "CC" ++ decText unit
  | 2 => ascii "LP" ++ decText unit
  | 3 => ascii "FP" ++ decText unit
  | 4 => ascii "MP" ++ decText unit
  | _ => ascii "BC" ++ decText unit

/-- The reset unit that a word names. -/
def unitNamed (w : List Byte) : Option (Nat × Nat) := ((List.range 106).map unitAt).find? (fun k => unitName k.1 k.2 == w)

/-- The name of a domain. -/
def domName (k : Nat) : List Byte := ascii "VD" ++ decText k

/-- The domain that a word names. -/
def domNamed (w : List Byte) : Option Nat := (List.range 16).find? (fun k => domName k == w)

/-- The name of a power state. -/
def PState.text : PState → List Byte
  | .run => ascii "RUN" | .hold => ascii "HOLD" | .rest => ascii "REST" | .dark => ascii "DARK" | .deep => ascii "DEEP"

/-- The name of a module state. -/
def ModSt.text : ModSt → List Byte
  | .off => ascii "OFF" | .precharge => ascii "PRECHARGE" | .guardBoot => ascii "GUARD_BOOT" | .stewardBoot => ascii "STEWARD_BOOT"
  | .train => ascii "TRAIN" | .selftest => ascii "SELFTEST" | .ready => ascii "READY" | .degraded => ascii "DEGRADED"
  | .curtain => ascii "CURTAIN" | .safe => ascii "SAFE"

/-! ### Output (R571, R574) -/

/-- The end of a line. -/
def lineEnd : List Byte := [0x0D, 0x0A]

/-- The prompt. -/
def prompt : List Byte := ascii "grenko> "

/-- What a session's output buffer holds. -/
def outMax : Nat := 16384

/-- Output joins the buffer; what finds no room waits. -/
def Session.emit (x : Session) (now : Nat) (bs : List Byte) : Session :=
  let room := if x.waiting.isEmpty then outMax - x.out.length else 0
  { x with out := x.out ++ bs.take room, waiting := x.waiting ++ bs.drop room,
           waitSince := if bs.length ≤ room then x.waitSince else some (x.waitSince.getD now) }

/-- `n` bytes leave the buffer, and what waited moves up. -/
def Session.sent (x : Session) (n : Nat) : Session :=
  let all := (x.out ++ x.waiting).drop n
  { x with out := all.take outMax, waiting := all.drop outMax, waitSince := if all.length ≤ outMax then none else x.waitSince }

/-- The time that a byte takes on the UART: 10 bits (R571). -/
def byteNs (baud : Nat) : Nat := 10000000000 / baud

/-- `n` bytes go out at the present rate. -/
def Monitor.sends (m : Monitor) (n : Nat) : Monitor :=
  { m with service := m.service.sent n, sentTo := m.sentTo + n * byteNs m.baud }

/-- What the UART has sent by `now`: a new rate holds once the bytes before it have gone out (R571). -/
def Monitor.drained (m : Monitor) (now : Nat) : Monitor :=
  let can := (now - m.sentTo) / byteNs m.baud
  let m := match m.nextBaud with
    | some (left, rate) =>
      if left ≤ can then
        let m := m.sends left
        let m := { m with baud := rate, nextBaud := none }
        m.sends ((now - m.sentTo) / byteNs rate)
      else { m.sends can with nextBaud := some (left - can, rate) }
    | none => m.sends can
  if m.service.out.isEmpty then { m with sentTo := now } else m

/-- The monitor with its service output drained. -/
def State.drain (s : State) : State := { s with mon := s.mon.drained s.now }

/-- A session. -/
def State.session (s : State) (relay : Bool) : Session := if relay then s.mon.relay else s.mon.service

/-- Change a session. -/
def State.onSession (s : State) (relay : Bool) (f : Session → Session) : State :=
  { s with mon := if relay then { s.mon with relay := f s.mon.relay } else { s.mon with service := f s.mon.service } }

/-- The MONITOR cause is set while relay output waits to be read (R480, R574). -/
def State.monitorAlert (s : State) : State :=
  if s.mon.relay.out.isEmpty then { s with boot := { s.boot with causes := s.boot.causes &&& 0x17 } } else s.alert 3

/-- Send text on a session. -/
def State.say (s : State) (relay : Bool) (bs : List Byte) : State :=
  let t := s.onSession relay (fun x => x.emit s.now bs)
  if relay then t.monitorAlert else t

/-- A session is served: the steward runs and MON.CFG enables it (R570, R572). -/
def State.monUp (s : State) (relay : Bool) : Bool := s.sec.steward && (if relay then s.mon.relayEn else s.mon.serviceEn)

/-- The text of an error (R574). -/
def errText (code : Nat) : List Byte :=
  ascii "err E" ++ decText code ++ ascii " " ++ (match code with
    | 1 => ascii "unknown command" | 2 => ascii "argument missing, extra or out of range"
    | 3 => ascii "engineer level required" | 4 => ascii "busy" | 5 => ascii "refused"
    | 6 => ascii "no such unit or action does not apply" | 7 => ascii "line too long" | _ => ascii "output stalled")

/-- The final line of a response: `ok`, or an error. -/
def finalText : Option Nat → List Byte
  | none => ascii "ok"
  | some c => errText c

/-- A response: its lines, the final line, the prompt (R574). -/
def State.respond (s : State) (relay : Bool) (lines : List (List Byte)) (final : Option Nat) : State :=
  s.say relay (lines.flatMap (fun l => l ++ lineEnd) ++ finalText final ++ lineEnd ++ prompt)

/-- The banner after a steward restart (R572). -/
def State.banner (s : State) : State :=
  if s.mon.serviceEn then
    s.say false (spaced [ascii "grenko", ascii "serial", hexText 16 Config.serial.toNat, ascii "position",
      (match s.boot.dynAddr with | some _ => decText s.position | none => ascii "-"), ascii "state", s.boot.st.text] ++ lineEnd ++ prompt)
  else s

/-! ### Input (R571, R573) -/

/-- A line ends: it waits to run; one that is too long is answered, an empty one gives a new prompt. -/
def State.lineDone (s : State) (relay : Bool) : State :=
  let x := s.session relay
  let t := s.onSession relay (fun y => { y with line := [], tooLong := false, lastLine := s.now })
  if x.tooLong then t.respond relay [] (some 7)
  else if (lineWords x.line).isEmpty then t.say relay prompt
  else t.onSession relay (fun y => { y with lines := y.lines ++ [x.line] })

/-- A byte of input (R573): the service session echoes each byte that it accepts. -/
def State.typed (s : State) (relay : Bool) (b : Byte) : State :=
  let x := s.session relay
  let echo := fun (t : State) => if relay then t else t.say false [b]
  if b = 0x0A && x.afterCr then echo (s.onSession relay (fun y => { y with afterCr := false }))
  else if b = 0x0D || b = 0x0A then
    ((echo s).onSession relay (fun y => { y with afterCr := b == 0x0D })).lineDone relay
  else
    let s := s.onSession relay (fun y => { y with afterCr := false })
    if b = 0x08 || b = 0x7F then echo (s.onSession relay (fun y => { y with line := y.line.dropLast }))
    else if 0x20 ≤ b.toNat ∧ b.toNat ≤ 0x7E then
      echo (s.onSession relay (fun y => if y.line.length ≥ 256 then { y with tooLong := true } else { y with line := y.line ++ [b] }))
    else s

/-- UART_BYTE_RECEIVE (R570, R571, R573). -/
def execUartByteReceive (b : Byte) (s : State) : Host.Outcome State Fault Refusal :=
  let s := s.drain
  let s := { s with mon := { s.mon with lastByte := s.now } }
  .next (if s.monUp false then s.typed false b else s)

/-- UART_BREAK (R571, R579): 250 ms or more. -/
def execUartBreak (ms : Nat) (s : State) : Host.Outcome State Fault Refusal :=
  .next (if ms < 250 then s
    else
      let s := s.drain
      { s with mon := { s.mon with baud := 115200, nextBaud := none, service := { s.mon.service with engineer := false } } })

/-- BAUD_IDLE_REVERT (R571): 60 s without a byte at another rate than 115,200. -/
def execBaudIdleRevert (s : State) : Host.Outcome State Fault Refusal :=
  .next (if s.mon.baud != 115200 && s.now ≥ s.mon.lastByte + 60000000000 then
      let s := s.drain
      { s with mon := { s.mon with baud := 115200, nextBaud := none } }
    else s)

/-! ### Levels and challenges (R578, R579) -/

/-- ENGINEER_IDLE_LAPSE (R579): 30 min without an input line. -/
def execEngineerIdleLapse (relay : Bool) (s : State) : Host.Outcome State Fault Refusal :=
  .next (if (s.session relay).engineer && s.now ≥ (s.session relay).lastLine + 1800000000000 then
      s.onSession relay (fun x => { x with engineer := false })
    else s)

/-- The open challenge, unless it has lapsed (R578). -/
def State.openChallenge (s : State) : Option (Bool × BitVec 128 × Nat × Nat) :=
  s.mon.challenge.filter (fun c => s.now < c.2.2.2 + 300000000000)

/-- CHALLENGE_LAPSE (R578): 300 s after it was issued. -/
def execChallengeLapse (s : State) : Host.Outcome State Fault Refusal :=
  .next (if s.openChallenge.isNone then { s with mon := { s.mon with challenge := none } } else s)

/-- AUTH_LOCKOUT_END (R579): after 10 min. -/
def execAuthLockoutEnd (s : State) : Host.Outcome State Fault Refusal :=
  .next (match s.mon.lockUntil with
    | some t => if s.now ≥ t then { s with mon := { s.mon with lockUntil := none, fails := [] } } else s
    | none => s)

/-- MONITOR_OUTPUT_STALL (R574): a command that has waited 30 s on full output is abandoned with E8. -/
def execMonitorOutputStall (relay : Bool) (s : State) : Host.Outcome State Fault Refusal :=
  let t := s.drain
  .next (match (t.session relay).waitSince with
    | some w =>
      if t.now ≥ w + 30000000000 then
        t.onSession relay (fun x => { x with waiting := lineEnd ++ errText 8 ++ lineEnd ++ prompt, waitSince := none, await := none })
      else s
    | none => s)

/-- STEWARD_RESTART_DONE (R452, R572): the steward runs again; keep-warm resumes and the banner goes out. -/
def execStewardRestartDone (s : State) : Host.Outcome State Fault Refusal :=
  .next (if s.sec.steward || !(s.boot.served || s.boot.stepEight) || (s.boot.st == .safe && s.boot.safeCause == 1) || s.boot.st == .off then s
    else
      let s := s.drain
      ({ s with sec := { s.sec with steward := true, heartbeatAt := s.now }
                thermal := { s.thermal with keepSuspended := s.thermal.emergency } }).banner)

end Sys2Proof.Machine
end

