-- ==== Sys2Proof/Machine/Monitor.lean ====
section
/-! DEFINITION. The commands of the Grenko monitor (R575 to R580). Each of them runs the line that is first in its session, where
that line spells the command. -/

namespace Sys2Proof.Machine

/-- What a command makes of its arguments: the state, the lines of output, the error of the final line. -/
abbrev Reply := State × List (List Byte) × Option Nat

/-- A command that only reports; one with arguments where it takes none is an error. -/
def plain (args : List (List Byte)) (s : State) (lines : List (List Byte)) : Reply :=
  if args.isEmpty then (s, lines, none) else (s, [], some 2)

/-- The first word of a line is the command. -/
def named (c : String) (ws : List (List Byte)) : Bool := ws.head? == some (ascii c)

/-- The line that a session runs next, as its words, once it may run one: a session runs one command at a time (R574). -/
def State.nextLine (s : State) (relay : Bool) : Option (List (List Byte)) :=
  if s.monUp relay && (s.session relay).waitSince.isNone then ((s.session relay).lines.head?).map lineWords else none

/-- An engineer command has been carried out (R581). -/
def State.acted (s : State) : State := { s with mon := { s.mon with actions := satTo 8 (s.mon.actions + 1) } }

/-- Run the session's next line where it is `mine`: an engineer command needs the level, and counts when it ends with ok. -/
def State.command (s : State) (relay engineer : Bool) (mine : List (List Byte) → Bool) (act : List (List Byte) → State → Reply) :
    State :=
  let t := s.drain
  match t.nextLine relay with
  | some ws =>
    if !mine ws then s
    else
      let t := t.onSession relay (fun x => { x with lines := x.lines.tail })
      if engineer && !(t.session relay).engineer then t.respond relay [] (some 3)
      else
        let r := act ws.tail t
        (if engineer && r.2.2.isNone then r.1.acted else r.1).respond relay r.2.1 r.2.2
  | none => s

/-! ### Reports -/

/-- The commands and whether they need engineer level. -/
def commandList : List (String × Bool) :=
  [("help", false), ("whoami", false), ("state", false), ("time", false), ("power", false), ("sensors", false), ("health", false),
   ("tiles", false), ("parts", false), ("links", false), ("fw", false), ("log", false), ("auth", false), ("logout", true),
   ("baud", false), ("fence", true), ("unfence", true), ("reset", true), ("dump", true), ("pstate", true), ("vset", true),
   ("reg", false)]

/-- MONITOR_HELP (R575). -/
def execMonitorHelp (relay : Bool) (s : State) : Host.Outcome State Fault Refusal :=
  .next (s.command relay false (named "help") (fun args t =>
    plain args t ((commandList.filter (fun c => !c.2 || (t.session relay).engineer)).map (fun c => ascii c.1))))

/-- MONITOR_WHOAMI (R575). -/
def execMonitorWhoami (relay : Bool) (s : State) : Host.Outcome State Fault Refusal :=
  .next (s.command relay false (named "whoami") (fun args t =>
    let x := t.session relay
    plain args t ([spaced [ascii "session", if relay then ascii "relay" else ascii "service"],
        spaced [ascii "level", if x.engineer then ascii "engineer" else ascii "observer"]] ++
      (if relay then [] else [spaced [ascii "baud", decText t.mon.baud]]) ++
      [spaced [ascii "idle", decText (if x.engineer then 1800 - Nat.min 1800 ((t.now - x.lastLine) / 1000000000) else 0)]])))

/-- MONITOR_STATE (R575). -/
def execMonitorState (relay : Bool) (s : State) : Host.Outcome State Fault Refusal :=
  .next (s.command relay false (named "state") (fun args t =>
    plain args t
      [spaced [ascii "state", t.boot.st.text], spaced [ascii "safe_cause", decText t.boot.safeCause],
       spaced [ascii "alert", regText t.boot.causes.toNat],
       spaced [ascii "position", match t.boot.dynAddr with | some _ => decText t.position | none => ascii "-"],
       spaced [ascii "boot_ms", decText (t.boot.readyMs * 10)],
       spaced [ascii "expelled", bitText t.health.expelled, decText t.health.expelCause],
       spaced [ascii "service", bitText t.boot.outOfService], spaced [ascii "spare_empty", bitText t.boot.spareEmpty]]))

/-- MONITOR_TIME (R575). -/
def execMonitorTime (relay : Bool) (s : State) : Host.Outcome State Fault Refusal :=
  .next (s.command relay false (named "time") (fun args t =>
    let f := t.field
    let ptp := if !f.ptpEnable then ascii "off" else if f.holdover then ascii "holdover"
      else if lockedWithin f.offsets 100 then ascii "locked" else ascii "unlocked"
    let ptm := if !t.host.ptmEnable then ascii "off" else if lockedWithin t.host.ptmOffsets 1000 then ascii "locked" else ascii "unlocked"
    plain args t
      [spaced [ascii "time", decText t.now], spaced [ascii "ptp", ptp, intText (f.offsets.headD 0)],
       spaced [ascii "ptm", ptm, intText (t.host.ptmOffsets.headD 0)]]))

/-- The voltage of a domain in volts. -/
def voltText (steps : Nat) : List Byte :=
  let mv10 := steps * 25
  decText (mv10 / 10000) ++ ascii "." ++ (List.range 4).map (fun i => digitByte (mv10 / 10 ^ (3 - i) % 10))

/-- MONITOR_POWER (R575). -/
def execMonitorPower (relay : Bool) (s : State) : Host.Outcome State Fault Refusal :=
  .next (s.command relay false (named "power") (fun args t =>
    let w := t.power
    plain args t
      ([spaced [ascii "bus", tenthText w.busDv], spaced [ascii "input", tenthText w.powerDw], spaced [ascii "node", tenthText w.nodeDv],
        spaced [ascii "cap", decText w.capW], spaced [ascii "shed", decText (if w.shed then w.shedBudget else 0)],
        spaced [ascii "curtain", decText w.curtainW], spaced [ascii "room", decText w.roomW, ascii "binding", decText w.binding]] ++
       (List.range 16).map (fun k => spaced [domName k, (t.dom k).st.text, voltText (t.dom k).volt, decText (t.dom k).powerW]))))

/-- The lines of the tiles' and stacks' sensors. -/
def spotLines (name : Nat → List Byte) (l : List HotSpot) (refresh : Bool) : List (List Byte) :=
  l.zipIdx.map (fun (x : HotSpot × Nat) => spaced ([name x.2, tenthText x.1.ctl, ascii "s0_out", bitText x.1.out.1,
    ascii "s1_out", bitText x.1.out.2, ascii "suspect", bitText (x.1.out.1 && x.1.out.2)] ++
    (if refresh then [ascii "refresh2x", bitText x.1.refresh2x] else [])))

/-- MONITOR_SENSORS (R575). -/
def execMonitorSensors (relay : Bool) (s : State) : Host.Outcome State Fault Refusal :=
  .next (s.command relay false (named "sensors") (fun args t =>
    let h := t.thermal
    let tiles := spotLines (unitName 0) h.tiles false
    let stackSpots := spotLines (fun i => ascii "stack" ++ decText i) h.stackSpots true
    let aux := h.aux.zipIdx.map (fun (x : AuxSpot × Nat) =>
      spaced [if x.2 < 4 then ascii "H" ++ decText x.2 else ascii "P" ++ decText (x.2 - 4), tenthText x.1.ctl, ascii "failed", bitText x.1.failed])
    let coolant := [spaced [ascii "inlet", tenthText h.inlet], spaced [ascii "outlet", tenthText h.outlet],
      spaced [ascii "flow", decText h.flow], spaced [ascii "source", if h.flowSrc then ascii "estimate" else ascii "meter"],
      spaced [ascii "allowance", decText h.allowW], spaced [ascii "glycol", decText h.glycol]]
    match args with
    | [] => (t, tiles ++ stackSpots ++ aux ++ coolant, none)
    | [w] =>
      if w = ascii "tiles" then (t, tiles, none) else if w = ascii "stacks" then (t, stackSpots, none)
      else if w = ascii "aux" then (t, aux, none) else if w = ascii "coolant" then (t, coolant, none) else (t, [], some 2)
    | _ => (t, [], some 2)))

/-- The line of a unit's health. -/
def State.unitLine (s : State) (k : Nat × Nat) : List Byte :=
  let u := s.unit k.1 k.2
  spaced [ascii "unit", unitName k.1 k.2, ascii "score", decText u.score, ascii "fenced", bitText u.fenced,
    ascii "resets_24h", decText (within s.now dayNs u.resets), ascii "fails_24h", decText (within s.now dayNs u.fails)]

/-- MONITOR_HEALTH (R575). -/
def execMonitorHealth (relay : Bool) (s : State) : Host.Outcome State Fault Refusal :=
  .next (s.command relay false (named "health") (fun args t =>
    match args with
    | [] =>
      let m := t.health.scoreMin
      (t, spaced [ascii "score_min", decText m.2.2, ascii "kind", decText m.1, ascii "unit", decText m.2.1] ::
        (((List.range 106).map unitAt).filter (fun k => (t.unit k.1 k.2).score < 1000)).map t.unitLine, none)
    | [w] => (match unitNamed w with
      | some k => (t, [t.unitLine k], none)
      | none => (t, [], some 6))
    | _ => (t, [], some 2)))

/-- The name of a tile's state. -/
def TileSt.text : TileSt → List Byte
  | .free => ascii "FREE" | .loading => ascii "LOADING" | .idle => ascii "IDLE" | .active => ascii "ACTIVE"
  | .resetting => ascii "RESETTING" | .fenced => ascii "FENCED"

/-- A number, or `-`. -/
def optText (o : Option Nat) : List Byte := match o with | some n => decText n | none => ascii "-"

/-- MONITOR_TILES (R575, R580). -/
def execMonitorTiles (relay : Bool) (s : State) : Host.Outcome State Fault Refusal :=
  .next (s.command relay false (named "tiles") (fun args t =>
    plain args t ((List.range 64).map (fun i =>
      let x := t.tile i
      spaced [unitName 0 i, x.st.text, optText x.part, optText x.engine, (t.dom (domOfTile i)).st.text]))))

/-- The name of a partition's state. -/
def PartSt.text : PartSt → List Byte
  | .unconfigured => ascii "UNCONFIGURED" | .configured => ascii "CONFIGURED" | .admitted => ascii "ADMITTED"
  | .running => ascii "RUNNING" | .quiescing => ascii "QUIESCING" | .faulted => ascii "FAULTED"

/-- MONITOR_PARTS (R575, R580). -/
def execMonitorParts (relay : Bool) (s : State) : Host.Outcome State Fault Refusal :=
  .next (s.command relay false (named "parts") (fun args t =>
    plain args t ((List.range 16).map (fun p =>
      let x := (t.part p).sec
      spaced [ascii "P" ++ decText p, x.st.text, decText x.secMode, bitText x.frozen, regText x.vdMask.toNat]))))

/-- The name of a link port's state. -/
def LinkSt.text : LinkSt → List Byte
  | .off => ascii "OFF" | .training => ascii "TRAINING" | .up => ascii "UP" | .retraining => ascii "RETRAINING" | .failed => ascii "FAILED"

/-- MONITOR_LINKS (R575). -/
def execMonitorLinks (relay : Bool) (s : State) : Host.Outcome State Fault Refusal :=
  .next (s.command relay false (named "links") (fun args t =>
    plain args t
      ((List.range 8).map (fun n =>
        let p := t.lp n
        spaced [unitName 2 n, p.st.text, ascii "width", decText p.width, ascii "slow", bitText p.slow, ascii "partner", hexText 16 p.peer,
          ascii "crc", decText p.crcErr, ascii "replays", decText p.replays, ascii "fails", decText p.fails, ascii "retrains", decText p.retrains]) ++
       (List.range 2).map (fun n =>
        let p := t.fp n
        spaced [unitName 3 n, if p.up then ascii "UP" else ascii "DOWN", ascii "fec", decText p.fecUse, ascii "bad", decText p.badAt.length,
          ascii "buffer", decText p.bufFull, ascii "other", decText p.other]))))

/-- MONITOR_FW (R575). -/
def execMonitorFw (relay : Bool) (s : State) : Host.Outcome State Fault Refusal :=
  .next (s.command relay false (named "fw") (fun args t =>
    plain args t ((List.range 3).map (fun i =>
      let f := t.fwTarget i
      spaced [ascii "target", decText i, ascii "active", if f.activeB then ascii "B" else ascii "A",
        ascii "A", decText f.a.version, ascii "valid", bitText (f.good f.a), ascii "B", decText f.b.version,
        ascii "valid", bitText (f.good f.b), ascii "fused", decText f.fuse]))))

/-- A power-quality record as a line. -/
def PqRec.line (r : PqRec) : List Byte :=
  spaced [ascii "type", decText r.kind.code, ascii "curtain", bitText r.curtain, ascii "switch", bitText r.switch,
    ascii "shutdown", bitText r.shutdown, ascii "extreme", tenthText r.extreme, ascii "prior", tenthText r.prior,
    ascii "node_min", tenthText r.nodeMin, ascii "start", decText r.start, ascii "duration", decText r.duration]

/-- A health record as a line. -/
def HealthRec.line (r : HealthRec) : List Byte :=
  spaced [ascii "kind", decText r.kind, ascii "unit_kind", decText r.unitKind, ascii "unit", decText r.unit, ascii "part", decText r.part,
    ascii "detail", regText r.detail, ascii "time", decText r.time]

/-- MONITOR_LOG (R575): the newest n records, newest first. -/
def execMonitorLog (relay : Bool) (s : State) : Host.Outcome State Fault Refusal :=
  .next (s.command relay false (named "log") (fun args t =>
    let n := match args.drop 1 with
      | [] => some 16
      | [w] => (numberOf w).filter (fun n => 1 ≤ n && n ≤ 64)
      | _ => none
    match args.head?, n with
    | some k, some n =>
      if k = ascii "pq" then (t, (t.power.pqRing.reverse.take n).map PqRec.line, none)
      else if k = ascii "health" then (t, (t.health.log.reverse.take n).map HealthRec.line, none)
      else (t, [], some 2)
    | _, _ => (t, [], some 2)))

/-! ### Engineer level (R578, R579) -/

/-- `auth` cannot be served: level disabled, or locked out (R579). -/
def State.authShut (s : State) : Bool := !s.mon.engineerEn || s.authLocked

/-- MONITOR_AUTH_CHALLENGE (R578). -/
def execMonitorAuthChallenge (relay : Bool) (s : State) : Host.Outcome State Fault Refusal :=
  .next (s.command relay false (fun ws => named "auth" ws && ws.length == 1) (fun _ t =>
    if t.authShut then (t, [], some 5)
    else if t.openChallenge.isSome then (t, [], some 4)
    else
      let nonce := t.random.truncate 128
      let count := t.mon.count + 1
      (({ t with mon := { t.mon with count := count, challenge := some (relay, nonce, count, t.now) } }).tick,
        [spaced (ascii "challenge" :: (List.range 4).map (fun i => lowHex 8 (nonce.toNat / 2 ^ (32 * (3 - i))))),
         spaced [ascii "count", decText count]], none)))

/-- A word is a group of 8 hexadecimal digits. -/
def isGroup (w : List Byte) : Bool := w.length == 8 && w.all (fun b => (digitOf b).isSome)

/-- A failed response: three within 10 min lock `auth` for 10 min (R579). -/
def State.authFailed (s : State) : State :=
  let fails := s.now :: s.mon.fails.filter (fun t => t + 600000000000 > s.now)
  { s with mon := { s.mon with
      authFail := satTo 8 (s.mon.authFail + 1), fails := fails
      lockUntil := if fails.length ≥ 3 then some (s.now + 600000000000) else s.mon.lockUntil } }

/-- The message M that a challenge asks to be signed (R578). -/
def challengeText (c : Bool × BitVec 128 × Nat × Nat) : List Byte :=
  ascii "GRENKO1" ++ toLe 8 Config.serial.toNat ++ (toLe 16 c.2.1.toNat).reverse ++ toLe 4 c.2.2.1

/-- The bytes that groups of 8 hexadecimal digits spell. -/
def groupBytes (ws : List (List Byte)) : List Byte := ws.flatMap (fun w => (toLe 4 ((digitsOf 16 0 w).getD 0)).reverse)

/-- MONITOR_AUTH_RESPONSE (R578, R579): the signature is verified against the service authority's key. -/
def execMonitorAuthResponse (relay : Bool) (s : State) : Host.Outcome State Fault Refusal :=
  .next (s.command relay false (fun ws => named "auth" ws && ws.length != 1) (fun args t =>
    if t.authShut then (t, [], some 5)
    else if args.length != 24 || !args.all isGroup then (t, [], some 2)
    else match t.openChallenge with
      | some c =>
        if c.1 != relay then (t, [], some 2)
        else
          let t := { t with mon := { t.mon with challenge := none } }
          if !Config.serviceSigned (challengeText c) (groupBytes args) then (t.authFailed, [], some 5)
          else if (t.session (!relay)).engineer then (t, [], some 4)
          else (t.onSession relay (fun x => { x with engineer := true }), [], none)
      | none => (t, [], some 2)))

/-- MONITOR_LOGOUT (R575, R579). -/
def execMonitorLogout (relay : Bool) (s : State) : Host.Outcome State Fault Refusal :=
  .next (s.command relay true (named "logout") (fun args t =>
    if args.isEmpty then (t.onSession relay (fun x => { x with engineer := false }), [], none) else (t, [], some 2)))

/-- MONITOR_BAUD (R571): the new rate holds once the final line has been sent. -/
def execMonitorBaud (relay : Bool) (s : State) : Host.Outcome State Fault Refusal :=
  .next (s.command relay false (named "baud") (fun args t =>
    match args.map numberOf with
    | [some rate] =>
      if !relay && (rate == 115200 || baudCode rate != 0) then
        let left := (t.session false).out.length + (t.session false).waiting.length + (finalText none).length + 2
        ({ t with mon := { t.mon with nextBaud := some (left, rate) } }, [], none)
      else (t, [], some 2)
    | _ => (t, [], some 2)))

/-! ### Actions through the mailbox (R576) -/

/-- The one argument is a unit. -/
def oneUnit (args : List (List Byte)) (t : State) (f : Nat × Nat → Reply) : Reply :=
  match args with
  | [w] => (match unitNamed w with
    | some k => f k
    | none => (t, [], some 6))
  | _ => (t, [], some 2)

/-- The line `unit <u> <what>`. -/
def unitSays (k : Nat × Nat) (what : String) : List Byte := spaced [ascii "unit", unitName k.1 k.2, ascii what]

/-- A mailbox request of the monitor: what it gives, or a refusal by the guard. -/
def State.asked (s : State) (op : Nat) (r : Option State) (lines : State → List (List Byte)) : Reply :=
  match r with
  | some t => (t.answerMail op (s.sec.requests + s.sec.refused) true, lines t, none)
  | none => (s.answerMail op (s.sec.requests + s.sec.refused) false, [], some 5)

/-- The unit is fenced, a tile that is still to be at the end of its work included. -/
def State.isFenced (s : State) (k : Nat × Nat) : Bool := (s.unit k.1 k.2).fenced || (k.1 == 0 && (s.tile k.2).fencePending.isSome)

/-- MONITOR_FENCE (R576): the effect of TILE_FENCE. -/
def execMonitorFence (relay : Bool) (s : State) : Host.Outcome State Fault Refusal :=
  .next (s.command relay true (named "fence") (fun args t =>
    oneUnit args t (fun k =>
      if t.isFenced k then (t, [], none)
      else t.asked 2 (t.mailUnit .fence k.1 k.2 0) (fun _ => [unitSays k "fenced"]))))

/-- The command under way waits for a unit's recovery: its line stays first in the session. -/
def State.awaits (s : State) (relay : Bool) (k : Option (Nat × Nat)) : State := s.onSession relay (fun x => { x with await := k })

/-- A command that resets a unit and ends with its recovery: it starts where the session waits for none, and ends once the
recovery is over. -/
def State.recovers (s : State) (relay : Bool) (mine : List (List Byte) → Bool) (start : Nat × Nat → State → Reply × Bool)
    (done : Nat × Nat → State → Reply) : State :=
  match (s.session relay).await with
  | some k =>
    if (s.unit k.1 k.2).recov != .idle then s
    else s.command relay true mine (fun _ t => done k (t.awaits relay none))
  | none =>
    let t := s.drain
    match (t.nextLine relay).map List.tail with
    | some [w] =>
      (match unitNamed w with
       | some k =>
         let r := start k t
         if mine (lineWords ((t.session relay).lines.headD [])) && (t.session relay).engineer && r.2 then
           (r.1.1.say relay (r.1.2.1.flatMap (fun l => l ++ lineEnd))).awaits relay (some k)
         else s.command relay true mine (fun _ t => (start k t).1)
       | none => s.command relay true mine (fun _ t => (t, [], some 6)))
    | _ => s.command relay true mine (fun _ t => (t, [], some 2))

/-- MONITOR_UNFENCE (R513, R576): a tile by the outcome of its striker round, another unit by a reset and its test. -/
def execMonitorUnfence (relay : Bool) (failed : Nat) (s : State) : Host.Outcome State Fault Refusal :=
  .next (s.recovers relay (named "unfence")
    (fun k t =>
      if !t.isFenced k then ((t, [], none), false)
      else if k.1 = 0 then
        (((t.mailRound .unfence 0 k.2 failed).asked 2 (t.mailUnit .unfence 0 k.2 failed) (fun _ => [unitSays k "in service"])), false)
      else (t.asked 2 (some (t.requestReset k.1 k.2 3 [] false true)) (fun _ => []), true))
    (fun k t => if t.isFenced k then (t, [unitSays k "fenced"], some 5) else (t, [unitSays k "in service"], none)))

/-- MONITOR_RESET (R503, R576): source 4; the command ends with the recovery. -/
def execMonitorReset (relay : Bool) (s : State) : Host.Outcome State Fault Refusal :=
  .next (s.recovers relay (named "reset")
    (fun k t =>
      if (t.unit k.1 k.2).fenced then ((t, [], some 6), false)
      else (t.asked 2 (t.mailUnit .reset k.1 k.2 0) (fun _ => [unitSays k "reset"]), true))
    (fun k t => (t, [unitSays k (if t.isFenced k then "fenced" else "recovered")], none)))

/-- Bytes as hexadecimal lines of 32. -/
def hexLines : Nat → List Byte → List (List Byte)
  | 0, _ => []
  | fuel + 1, bs => if bs.isEmpty then [] else (bs.take 32).flatMap (fun b => lowHex 2 b.toNat) :: hexLines fuel (bs.drop 32)

/-- MONITOR_DUMP (R576): no scratchpad window, no reset. -/
def execMonitorDump (relay : Bool) (s : State) : Host.Outcome State Fault Refusal :=
  .next (s.command relay true (named "dump") (fun args t =>
    oneUnit args t (fun k =>
      let bs := Config.debugState (unitIndex k.1 k.2)
      t.asked 6 (some { t with sec := { t.sec with mailData := bs.map BitVec.toNat } }) (fun _ => hexLines bs.length bs))))

/-- A domain and a second argument. -/
def domAnd (args : List (List Byte)) (t : State) (f : Nat → List Byte → Reply) : Reply :=
  match args with
  | [d, w] => (match domNamed d with
    | some k => f k w
    | none => (t, [], some 6))
  | _ => (t, [], some 2)

/-- MONITOR_PSTATE (R576): the state that the guard granted. -/
def execMonitorPstate (relay : Bool) (s : State) : Host.Outcome State Fault Refusal :=
  .next (s.command relay true (named "pstate") (fun args t =>
    domAnd args t (fun k w =>
      match ([.run, .hold, .rest, .dark] : List PState).find? (fun st => st.text == w) with
      | some st => t.asked 1 (t.mailPower k none (some st)) (fun u => [spaced [domName k, (u.dom k).target.text]])
      | none => (t, [], some 2))))

/-- MONITOR_VSET (R576): the code that the guard granted. -/
def execMonitorVset (relay : Bool) (s : State) : Host.Outcome State Fault Refusal :=
  .next (s.command relay true (named "vset") (fun args t =>
    domAnd args t (fun k w =>
      match (numberOf w).filter (fun n => n ≤ 120) with
      | some code => t.asked 1 (t.mailPower k (some code) none) (fun u => [spaced [domName k, decText (u.dom k).code]])
      | none => (t, [], some 2))))

/-! ### Registers (R577) -/

/-- The offset of a register of the global page. -/
def regOffset (w : List Byte) : Option Nat := (numberOf w).filter (fun n => n < 0x10000 && n % 4 == 0)

/-- MONITOR_REG_READ (R577): the value that the physical function would read. -/
def execMonitorRegRead (relay : Bool) (s : State) : Host.Outcome State Fault Refusal :=
  .next (s.command relay false (fun ws => named "reg" ws && ws.getD 1 [] != ascii "write") (fun args t =>
    if args.head? != some (ascii "read") then (t, [], some 2)
    else match args.tail.map regOffset with
      | [some off] => (t, [spaced [regText off, regText (t.readBar0 0 off)]], none)
      | _ => (t, [], some 2)))

/-- The registers that `reg write` accepts (R577). -/
def monWritable : List Nat :=
  [0xA000, 0xA00C, 0xB004, 0xB008, 0x7000, 0x7008, 0x700C, 0x7010, 0x702C, 0xC500, 0xC504, 0x3080]

/-- MONITOR_REG_WRITE (R577): as a write of the physical function, of HLT.EXPEL the threshold only. -/
def execMonitorRegWrite (relay : Bool) (s : State) : Host.Outcome State Fault Refusal :=
  .next (s.command relay true (fun ws => named "reg" ws && ws.getD 1 [] == ascii "write") (fun args t =>
    match args.tail with
    | [o, w] => (match regOffset o, (numberOf w).filter (fun n => n < 2 ^ 32) with
      | some off, some v =>
        if !monWritable.contains off then (t, [], some 5)
        else
          let t := t.writeBar0 0 off (if off = 0x702C then v % 1024 else v)
          let t := { t with mon := { t.mon with last := some (relay, off) } }
          (t, [spaced [regText off, regText (t.readBar0 0 off)]], none)
      | _, _ => (t, [], some 2))
    | _ => (t, [], some 2)))

/-- MONITOR_UNKNOWN_COMMAND (R574). -/
def execMonitorUnknownCommand (relay : Bool) (s : State) : Host.Outcome State Fault Refusal :=
  .next (s.command relay false (fun ws => !commandList.any (fun c => named c.1 ws)) (fun _ t => (t, [], some 1)))

end Sys2Proof.Machine
end

