-- ==== Sys2Proof/Machine/Startup.lean ====
section
/-! DEFINITION. Start-up and module resets (R487 to R491, R495, R512): the guard ROM's choice of a bank, the steps to READY,
DEGRADED or SAFE, the watchdogs and SVC_RESET#. -/

namespace Sys2Proof.Machine

/-- The chain logic answers: from the end of PRECHARGE, in every state but OFF (R477). -/
def State.chainUp (s : State) : Bool := s.boot.st != .off && s.boot.st != .precharge

/-- An event for the physical function that waits for the host port to be up (R495, R512). -/
def State.hold (s : State) (code : Nat) (data : List Byte) : State :=
  let e : Event := { code := code, subject := 0, time := s.now, data := data }
  if s.host.up then s.onEvt 0 (fun r => r.add e) else { s with boot := { s.boot with held := s.boot.held ++ [e] } }

/-! ### Module resets (R491) -/

/-- A module reset is asked for: announced while the guard runs, at once where it does not. -/
def State.askReset (s : State) : State := if s.boot.guardUp then s.announceReset else s.moduleReset

/-- SVC_RESET (R491, R594): low for 10 ms or longer; while it stays low the module stays at the start of GUARD_BOOT. -/
def execSvcReset (us : Nat) (s : State) : Host.Outcome State Fault Refusal :=
  .next (if us < 10000 || s.boot.svcLow then s
    else
      let s := { s with boot := { s.boot with svcLow := true } }
      if s.chainUp then s.askReset else s)

/-- SVC_RESET_RELEASE (R491). -/
def execSvcResetRelease (s : State) : Host.Outcome State Fault Refusal :=
  .next { s with boot := { s.boot with svcLow := false } }

/-- GUARD_OWN_WATCHDOG (R491): MODULE_RESET_PENDING goes out where the guard can still send it. -/
def execGuardOwnWatchdog (canSend : Bool) (s : State) : Host.Outcome State Fault Refusal :=
  .next (if !s.boot.guardUp then s else if canSend then s.announceReset else s.moduleReset)

/-! ### The guard (R487, step 3, R495) -/

/-- BOOT_FALLBACK: the target and the bank now active (R497). -/
def State.fellBack (s : State) (target : Nat) : State :=
  s.hold 0x85 (toLe 1 target ++ toLe 1 (b2n (s.fwTarget target).activeB))

/-- The ROM derives the keys from the unique device secret and locks it (R454); a valid slot's signature verifies against the fused
Staund key (R492, R493), so the image that boots receives the binding key. -/
def State.layer (s : State) : State :=
  let g := s.fwTarget 0
  let key := Config.privateKey 2 (Config.compound deviceId (g.active.digest ++ toLe 1 g.active.svn))
  { s with boot := { s.boot with
      secretLocked := true, bindKey := bindingKey, aliasKey := key
      aliasCert := Config.certificate deviceKey (Config.publicKey key) } }

/-- The ROM chooses the guard bank and boots it, or stays with BOOT_FAIL set (R495); without an image the secret is locked all the
same. -/
def State.bootGuard (s : State) : State :=
  let g := s.fwTarget 0
  if g.good g.active && s.boot.attempts < 3 then
    ({ s with boot := { s.boot with attempts := s.boot.attempts + 1, guardAt := some s.now, guardFallback := false } }).layer
  else if g.good g.other then
    let s := s.onFw 0 FwTarget.switched
    (({ s with boot := { s.boot with attempts := 1, guardAt := some s.now, guardFallback := true } }).layer).fellBack 0
  else ({ s with boot := { s.boot with secretLocked := true } }).alert 4

/-- The ROM may start: at the start of GUARD_BOOT, with every rail but AON off (R491), no reset pending and SVC_RESET# high. -/
def State.romReady (s : State) : Bool :=
  s.boot.st == .guardBoot && s.boot.guardAt.isNone && !s.boot.svcLow && s.boot.resetAt.isNone && (s.power.rails.drop 1).all (fun r => r == .off)

/-- GUARD_BOOT (R142, R490, R491, R495): a reset that was announced takes effect; from PRECHARGE, with PRECHG asserted and the node within
20 V of the connector, the input switch closes and AON comes up; the ROM boots the guard. -/
def execGuardBoot (dv nodeDv : Nat) (s : State) : Host.Outcome State Fault Refusal :=
  let s := match s.boot.resetAt with
    | some t => if s.now ≥ t then s.moduleReset else s
    | none => s
  let s := if s.boot.st = .precharge && s.power.prechg && dv ≤ nodeDv + 200 && nodeDv ≤ dv + 200 then
      ({ s with power := { s.power with switchOn := true, rails := updAt s.power.rails 0 (fun _ => .good) } }).setModule .guardBoot
    else s
  .next (if s.romReady then s.bootGuard else s)

/-- GUARD_WATCHDOG (R495): no hand-over within 150 ms. -/
def execGuardWatchdog (s : State) : Host.Outcome State Fault Refusal :=
  .next (match s.boot.guardAt with
    | some t => if s.boot.st = .guardBoot && s.now ≥ t + 150000000 then s.moduleReset else s
    | none => s)

/-- GUARD_IMAGE_RUNNING (R487, R490): rail groups 2 to 5 are in regulation, the host port is powered. -/
def execGuardImageRunning (s : State) : Host.Outcome State Fault Refusal :=
  .next (if s.boot.st = .guardBoot && s.boot.guardAt.isSome && s.power.railsGood then
      ({ s with
          fabric := { s.fabric with locked := 0x3FFFFFF }
          sec := { s.sec with heartbeatAt := s.now }
          boot := { s.boot with guardUp := true } }).setModule .stewardBoot
    else s)

/-! ### The steward (R487, step 4, R495) -/

/-- Step 8 of start-up has ended, in SAFE for a cause or in the state given (R487, R489): R566 is tested afresh (R568). -/
def State.startupEnds (s : State) (st : ModSt) (cause : Nat) : State :=
  let s := s.writeBack
  let s := { s with boot := { s.boot with served := true, stepEight := true } }
  if st = .safe then s.enterSafe cause
  else
    let s := { s with boot := { s.boot with readyMs := satTo 16 ((s.now - s.boot.busPowerAt) / 10000000) } }
    (s.setModule st).reviewHealth false

/-- FIRST_STEWARD_HEARTBEAT (R487, R490, R572): link ports train, and the domains' rails come up to 0.80 V. -/
def execFirstStewardHeartbeat (s : State) : Host.Outcome State Fault Refusal :=
  let f := s.fwTarget 1
  .next (if s.boot.st = .stewardBoot && f.good f.active then
      let s := { s with
        sec := { s.sec with steward := true, heartbeatAt := s.now }
        power := { s.power with doms := s.power.doms.map (fun (d : Domain) => { d with wantSt := .run, wantCode := 0x48 }) }
        boot := { s.boot with served := true } }
      (List.range 8).foldl (fun (t : State) n => t.tryTrain n) (s.setModule .train).resolveLevels
    else s)

/-- STEWARD_BOOT_FALLBACK (R489, R490, R495): the other bank is booted once; else SAFE with cause 1, steps 5 to 7 skipped. -/
def execStewardBootFallback (s : State) : Host.Outcome State Fault Refusal :=
  let f := s.fwTarget 1
  .next (if s.boot.st != .stewardBoot || (f.good f.active && s.now < s.sec.heartbeatAt + 2000000000) then s
    else if !s.boot.stewardFallback && f.good f.other then
      let s := s.onFw 1 FwTarget.switched
      ({ s with boot := { s.boot with stewardFallback := true }, sec := { s.sec with heartbeatAt := s.now } }).fellBack 1
    else s.startupEnds .safe 1)

/-! ### Training and the self-test pass (R487, steps 5 to 8) -/

/-- Every domain whose regulator works has reached its target at its set voltage. -/
def State.domsThere (s : State) : Bool := s.allDoms (fun d => d.railFault || (d.st == d.target && d.volt == d.setVolt))

/-- CHANNEL_TRAINING_DONE (R487, R489, R603): `ports` and `bulk` are the masks of the ports and channels that trained; the
others are unavailable. Rail group 6 stands at its first set voltage before (step 5). -/
def execChannelTrainingDone (ports bulk : Nat) (s : State) : Host.Outcome State Fault Refusal :=
  .next (if s.boot.st != .train || !s.domsThere then s
    else
      let mask := ports % 65536 + bulk % 256 * 65536
      let s := { s with boot := { s.boot with trained := mask } }
      let s := ((List.range 24).filter (fun i => !mask.testBit i)).foldl (fun (t : State) i => t.portLost i) s
      s.setModule .selftest)

/-- A fence is lifted at start-up: UNIT_UNFENCED waits for the host port (R512). -/
def State.liftFence (s : State) (kind unit : Nat) : State :=
  let s := s.onUnit kind unit (fun u => { u with fenced := false, failRow := 0 })
  let s := match kind with
    | 0 => (s.zeroTile unit).onTile unit (fun x => { x with st := .free, release := 0, image := 0 })
    | 4 => s.portBack unit
    | _ => s.portBack (16 + unit)
  s.hold 0x55 (toLe 1 kind ++ toLe 1 unit)

/-- A tile's self-test pass at start-up (R489, R512, R515). -/
def State.passTile (s : State) (t : Nat) (pass : Bool) : State :=
  if pass then
    let s := s.roundPassed 0 t
    if (s.tile t).st = .fenced then s.liftFence 0 t else s
  else s.fenceUnit 0 t 2

/-- A trained port's or channel's test slice at start-up (R512, R517). -/
def State.passSlice (s : State) (i : Nat) (pass : Bool) : State :=
  let k := portUnit i
  if !s.boot.trained.testBit i then s
  else if pass then
    let s := s.roundPassed k.1 k.2
    if (s.unit k.1 k.2).fenced then s.liftFence k.1 k.2 else s
  else if (s.unit k.1 k.2).fenced then s
  else s.roundFailed k.1 k.2 7 0

/-- SELFTEST_PASS_DONE (R489, R512): `tiles` failed the pass, `slices` (ports 0 to 15, channels 16 to 23) failed their slice. -/
def execSelftestPassDone (tiles slices : List Nat) (s : State) : Host.Outcome State Fault Refusal :=
  .next (if s.boot.st != .selftest then s
    else
      let s := (List.range 64).foldl (fun (t : State) i => t.passTile i (!tiles.contains i)) s
      let s := (List.range 24).foldl (fun (t : State) i => t.passSlice i (!slices.contains i)) s
      let failed := ((List.range 64).filter tiles.contains).length
      let ports := ((List.range 16).filter (fun i => s.boot.trained.testBit i)).length
      (if ports < 8 || failed > 32 then s.startupEnds .safe 4
       else s.startupEnds (if failed > 0 || s.hurt then .degraded else .ready) 0).resolveLevels)

end Sys2Proof.Machine
end

