-- ==== Sys2Proof/Machine/Chain.lean ====
section
/-! DEFINITION. The management chain (R475 to R486): the module as an I3C target, its dynamic address, and the messages of
private transfers. -/

namespace Sys2Proof.Machine

/-- What a bus transaction returns: bytes, or none for a NACK or for no answer. -/
def State.bus (s : State) (r : Option (List Byte)) : State := { s with boot := { s.boot with busReply := r } }

/-- A direct transaction reaches the module. -/
def State.addressed (s : State) (a : Nat) : Bool := s.chainUp && s.boot.dynAddr == some a

/-- The broadcast address of I3C (PRESUMED, MIPI I3C Basic). -/
def broadcast : Nat := 0x7E

/-- Bytes with the most significant first, as I3C sends multi-byte values (PRESUMED, MIPI I3C Basic). -/
def bigEnd (k n : Nat) : List Byte := (toLe k n).reverse

/-! ### Addressing (R477 to R479) -/

/-- SETDASA (R477, R478, R479, R497): `eniUs` is how long ENI has been asserted without a break. -/
def execSetdasa (static dyn eniUs : Nat) (s : State) : Host.Outcome State Fault Refusal :=
  let t := { s with boot := { s.boot with eni := decide (0 < eniUs), busReply := none } }
  .next (if s.chainUp && static = 0x50 && s.boot.dynAddr.isNone && eniUs ≥ 1000 && 0x08 ≤ dyn && dyn ≤ 0x37 then
      (({ t with boot := { t.boot with dynAddr := some dyn, eno := true, causes := t.boot.causes &&& 0x1E } }).raise 0 0x83
        (toLe 1 (dyn - 8) ++ toLe 1 dyn)).bus (some [])
    else t)

/-- RSTDAA, broadcast (R478, R480). -/
def execRstdaa (s : State) : Host.Outcome State Fault Refusal :=
  .next (if s.chainUp then
      (({ s with boot := { s.boot with dynAddr := none, eno := false } }).alert 0).bus (some [])
    else s)

/-- SETNEWDA: refused with a NACK (R475). -/
def execSetnewda (a dyn : Nat) (s : State) : Host.Outcome State Fault Refusal :=
  let _ := (a, dyn)
  .next (s.bus none)

/-- ENEC and DISEC: accepted, no effect (R475). -/
def execEnecDisec (enable : Bool) (events : Byte) (s : State) : Host.Outcome State Fault Refusal :=
  let _ := (enable, events)
  .next (s.bus (if s.chainUp then some [] else none))

/-! ### Reads of the target (R475, R476) -/

/-- A direct CCC that returns bytes. -/
def State.ccc (s : State) (a : Nat) (bytes : List Byte) : State := s.bus (if s.addressed a then some bytes else none)

/-- The provisional ID: manufacturer, vendor-fixed value, part, instance, chain position (R476). -/
def State.pid (s : State) : Nat :=
  0x3A5 * 2 ^ 33 + 0x0828 * 2 ^ 16 + (match s.boot.dynAddr with | some _ => s.position | none => 0xFFF)

/-- GETPID (R476). -/
def execGetpid (a : Nat) (s : State) : Host.Outcome State Fault Refusal := .next (s.ccc a (bigEnd 6 s.pid))

/-- GETBCR (R476). -/
def execGetbcr (a : Nat) (s : State) : Host.Outcome State Fault Refusal := .next (s.ccc a [0])

/-- GETDCR (R476). -/
def execGetdcr (a : Nat) (s : State) : Host.Outcome State Fault Refusal := .next (s.ccc a [0])

/-- GETSTATUS (R475): no interrupt is pending and no protocol error stands; the vendor's byte is free. -/
def execGetstatus (a : Nat) (s : State) : Host.Outcome State Fault Refusal :=
  .next ((s.ccc a [Config.freeByte s.fresh, 0]).tick)

/-- GETMWL (R475). -/
def execGetmwl (a : Nat) (s : State) : Host.Outcome State Fault Refusal := .next (s.ccc a (bigEnd 2 s.boot.mwl))

/-- GETMRL (R475). -/
def execGetmrl (a : Nat) (s : State) : Host.Outcome State Fault Refusal := .next (s.ccc a (bigEnd 2 s.boot.mrl))

/-- A CCC that sets a length of 64 to 256 bytes, direct or broadcast; another value is refused. -/
def State.setLen (s : State) (a len : Nat) (f : Boot → Boot) : State :=
  if (s.addressed a || (s.chainUp && a = broadcast)) && 64 ≤ len && len ≤ 256 then ({ s with boot := f s.boot }).bus (some [])
  else s.bus none

/-- SETMWL (R475). -/
def execSetmwl (a len : Nat) (s : State) : Host.Outcome State Fault Refusal :=
  .next (s.setLen a len (fun b => { b with mwl := len }))

/-- SETMRL (R475). -/
def execSetmrl (a len : Nat) (s : State) : Host.Outcome State Fault Refusal :=
  .next (s.setLen a len (fun b => { b with mrl := len }))

/-! ### Messages (R482, R483) -/

/-- The check byte of a message: CRC-8 over the address byte and every byte before the check (R482). -/
def chainCheck (a rw : Nat) (bs : List Byte) : Byte := BitVec.ofNat 8 (crcOf crc8 (toLe 1 (2 * a + rw) ++ bs))

/-- The next private read gives a response. -/
def State.respondWith (s : State) (cmd : Nat) (data : List Byte) : State := { s with boot := { s.boot with pendResp := some (cmd, data) } }

/-- A message is discarded for an unknown CMD, a wrong LEN or wrong data: counted, LEN 0 to the next read (R482, R498). -/
def State.badMessage (s : State) : State :=
  ({ s with boot := { s.boot with badCmd := satTo 16 (s.boot.badCmd + 1) } }).respondWith 0 []

/-- A message that is well formed reaches the module. -/
def State.message' (s : State) (a : Nat) (f : State → State) : State := if s.addressed a then (f s).bus (some []) else s.bus none

/-- The least and most data bytes of each CMD (R483). -/
def chainLen : Nat → Option (Nat × Nat)
  | 0x01 | 0x02 | 0x41 => some (0, 0)
  | 0x10 => some (2, 2)
  | 0x20 | 0x21 | 0x30 | 0x31 => some (1, 1)
  | 0x40 => some (1, 64)
  | _ => none

/-- A message has a known CMD and a right LEN (R482). -/
def messageOk (m : List Byte) : Bool :=
  let n := byteAt m 1
  match chainLen (byteAt m 0) with
  | some r => r.1 ≤ n && n ≤ r.2 && m.length == n + 3
  | none => false

/-- CHAIN_MESSAGE_ERROR (R482): counted by what is wrong with it. -/
def execChainMessageError (a : Nat) (m : List Byte) (s : State) : Host.Outcome State Fault Refusal :=
  .next (s.message' a (fun t =>
    if m.getLast? != some (chainCheck a 0 m.dropLast) then
      ({ t with boot := { t.boot with checkErr := satTo 16 (t.boot.checkErr + 1) } }).respondWith 0 []
    else if messageOk m then t
    else t.badMessage))

/-- The data of a response as it is read: monitor output leaves its buffer (R483, R572). -/
def State.takeResponse (s : State) (r : Nat × List Byte) : State × List Byte :=
  if r.1 = 0x41 && s.monUp true then
    ((s.onSession true (fun x => x.sent 64)).monitorAlert, s.mon.relay.out.take 64)
  else (s, r.2)

/-- CHAIN_PRIVATE_READ (R482): the pending response, or LEN 0 with CMD 0. -/
def execChainPrivateRead (a : Nat) (s : State) : Host.Outcome State Fault Refusal :=
  .next (if s.addressed a then
      let r := s.boot.pendResp.getD (0, [])
      let t := s.takeResponse r
      let body := toLe 1 r.1 ++ toLe 1 t.2.length ++ t.2
      ({ t.1 with boot := { t.1.boot with pendResp := none } }).bus (some (body ++ [chainCheck a 1 body]))
    else s.bus none)

/-- The status record (R484). -/
def State.statusRecord (s : State) : List Byte :=
  let b := s.boot
  toLe 1 b.st.code ++ toLe 1 b.causes.toNat ++ toLe 2 s.health.scoreMin.2.2 ++ toLe 2 (s.power.powerDw / 10) ++
    toLe 2 (if s.power.shed then s.power.shedBudget else 0) ++
    toLe 1 (b2n s.power.shed + 2 * b2n b.outOfService + 4 * b2n b.spareEmpty + 8 * b2n s.pair.own) ++
    toLe 1 s.position ++ toLe 2 b.readyMs ++ zeros 4

/-- STATUS (R483, R484). -/
def execStatus (a : Nat) (s : State) : Host.Outcome State Fault Refusal :=
  .next (s.message' a (fun t => t.respondWith 0x01 t.statusRecord))

/-- IDENT (R483): the serial, FABRIC_STEP, HUB_STEP, BOARD, VRATED. -/
def execIdent (a : Nat) (s : State) : Host.Outcome State Fault Refusal :=
  .next (s.message' a (fun t =>
    t.respondWith 0x02 (toLe 8 Config.serial.toNat ++ [0xB1#8, 0xB0#8, 0x03#8] ++ toLe 1 Config.vrated.toNat)))

/-- SHED_BUDGET (R146, R485). -/
def execShedBudget (a w : Nat) (s : State) : Host.Outcome State Fault Refusal :=
  .next (s.message' a (fun t => { t with power := { t.power with shedW := some (w % 65536) } }.resolveLevels))

/-- SERVICE (R486): a change sends SERVICE_CHANGE. -/
def execService (a v : Nat) (s : State) : Host.Outcome State Fault Refusal :=
  .next (s.message' a (fun t =>
    if v > 1 then t.badMessage
    else if t.boot.outOfService = decide (v = 1) then t
    else
      ({ t with boot := { t.boot with outOfService := decide (v = 1) } }).raise 0 0x84
        (toLe 1 v ++ toLe 1 (b2n t.boot.spareEmpty))))

/-- SPARE_POOL (R486, R566). -/
def execSparePool (a v : Nat) (s : State) : Host.Outcome State Fault Refusal :=
  .next (s.message' a (fun t =>
    if v > 1 then t.badMessage else ({ t with boot := { t.boot with spareEmpty := decide (v = 1) } }).checkExpel))

/-- MODULE_RESET (R483, R491): the data byte is 0xA5. -/
def execModuleReset (a v : Nat) (s : State) : Host.Outcome State Fault Refusal :=
  .next (s.message' a (fun t => if v = 0xA5 then t.askReset else t.badMessage))

/-- CLEAR_ALERT (R480, R483): bits 1 and 2 only. -/
def execClearAlert (a v : Nat) (s : State) : Host.Outcome State Fault Refusal :=
  .next (s.message' a (fun t =>
    if v % 256 &&& 0xF9 = 0 then { t with boot := { t.boot with causes := t.boot.causes &&& ~~~(BitVec.ofNat 5 v) } }
    else t.badMessage))

/-- MONITOR_IN (R483, R570): 1 to 64 bytes to the relay session. -/
def execMonitorIn (a : Nat) (data : List Byte) (s : State) : Host.Outcome State Fault Refusal :=
  .next (s.message' a (fun t =>
    if data.isEmpty || data.length > 64 then t.badMessage
    else if t.monUp true then data.foldl (fun (u : State) b => u.typed true b) t else t))

/-- MONITOR_OUT (R483): the next private read takes up to 64 bytes of the relay session's output. -/
def execMonitorOut (a : Nat) (s : State) : Host.Outcome State Fault Refusal :=
  .next (s.message' a (fun t => t.respondWith 0x41 []))

end Sys2Proof.Machine
end

