-- ==== Sys2Proof/Machine/Checkpoint.lean ====
section
/-! DEFINITION. CHECKPOINT, RESTORE and the step journal (R282 to R284, R552). -/

namespace Sys2Proof.Machine

/-! ### The region list and the image (R282, R283) -/

/-- The offending bytes of a region list. -/
def ckListBad (l : List Byte) (n : Nat) : List (Bool × Nat) :=
  (List.range n).flatMap (fun i =>
    let e := sliceOf l (16 * i) 16
    (chk [(fieldAt e 0 6 % 0x1000 != 0, 0), (fieldAt e 8 4 == 0 || fieldAt e 8 4 > 2 ^ 20, 8)] ++ resv e 6 2 ++ resv e 12 4).map
      (fun x => (x.1, 16 * i + x.2)))

/-- LENGTH of an image. -/
def ckLength (rs : List CkRegion) : Nat := 64 + rs.foldl (fun (a : Nat) (r : CkRegion) => a + r.len + 24) 0

/-- The header of an image. -/
def ckHeader (d : Desc) (length : Nat) : List Byte :=
  let h := toLe 4 1 ++ toLe 4 (d.fld 22 2) ++ toLe 8 (d.fld 32 8) ++ toLe 4 (d.fld 28 4) ++ toLe 1 (d.fld 25 1 % 2) ++ zeros 3 ++ toLe 8 length ++
    zeros 24
  h ++ crc64.bytes h

/-- The record of a region with its data. -/
def ckRecord (r : CkRegion) (data : List Byte) : List Byte := r.entry ++ data ++ crc64.bytes (r.entry ++ data)

/-- The regions of a CHECKPOINT or RESTORE. -/
def State.ckList (s : State) (p : Nat) (d : Desc) : Except Fail (List CkRegion) := do
  .ok (ckRegions (← s.readVa p none 0 (d.fld 16 6) (16 * d.fld 22 2)) (d.fld 22 2))

/-- Check 7 of CHECKPOINT and RESTORE. -/
def State.ckCheck (s : State) (p : Nat) (d : Desc) : Option Fail :=
  let n := d.fld 22 2
  match s.readVa p none 0 (d.fld 16 6) (16 * n) with
  | .error f => some f
  | .ok l =>
    match firstBad (ckListBad l n) with
    | some o => some (badInBlock o)
    | none => if ckLength (ckRegions l n) > d.fld 48 8 then some (badAt 48) else none

/-! ### The CRC context (R408) -/

/-- The binding of a descriptor. -/
def ckUser (p : Nat) (d : Desc) : CrcCtx := { part := p, user := crcUser d.num }

/-- The descriptor holds a context. -/
def State.ckBound (s : State) (p : Nat) (d : Desc) : Bool := s.field.crcs.any (fun c => c.ctxs.contains (some (ckUser p d)))

/-- Take a context where one is free. -/
def State.ckBind (s : State) (p : Nat) (d : Desc) : State :=
  if s.ckBound p d then s
  else match s.crcPick p (d.fld 24 1) with
    | some u => s.crcBind u (ckUser p d)
    | none => s

/-- The unit that holds the descriptor's context. -/
def State.ckUnit (s : State) (p : Nat) (d : Desc) : Nat := s.field.crcs.findIdx (fun c => c.ctxs.contains (some (ckUser p d)))

/-- The course of a row that needs a CRC context. -/
def ckCourse (run : State → Nat → Desc → Except Fail (State × Done)) : Course :=
  { check := State.ckCheck
    opens := State.ckBind
    run := fun t p d => run (t.ckBind p d) p d }

/-- A CRC context is there for the descriptor, or is its own. -/
def State.ckFree (s : State) (p : Nat) (d : Desc) : Bool := s.ckBound p d || (s.crcPick p (d.fld 24 1)).isSome

/-- A row that needs a CRC context: without one the command only starts, and waits within its TIMEOUT. -/
def State.ckRun (s : State) (r : DescRef) (op : Nat) (run : State → Nat → Desc → Except Fail (State × Done)) : State :=
  let free := match s.desc? r.part r.num with
    | some d => s.ckFree r.part d
    | none => true
  s.runDesc { r with startOnly := r.startOnly || !free } (isOp op) (ckCourse run)

/-! ### CHECKPOINT and RESTORE (R283) -/

/-- The records of regions read in turn, up to one that cannot be read. -/
def State.ckRecords (s : State) (p : Nat) : Nat → List CkRegion → List (List Byte) × Option Fail
  | _, [] => ([], none)
  | i, r :: rs =>
    match s.readVa p none i r.va r.len with
    | .error f => ([], some f)
    | .ok data => let x := s.ckRecords p (i + 1) rs; (ckRecord r data :: x.1, x.2)

/-- CHECKPOINT writes the image: what was read before a failure stays written. -/
def State.runCheckpoint (s : State) (p : Nat) (d : Desc) : Except Fail (State × Done) := do
  let rs ← s.ckList p d
  let len := ckLength rs
  let x := s.ckRecords p 0 rs
  let t := s.putRegion p 0 (d.fld 40 8) (ckHeader d len ++ x.1.flatten)
  match x.2 with
  | some f => .ok (t.note p f, f.done)
  | none => .ok (t, { result := cdiv len 0x1000 })

/-- CHECKPOINT (R283). -/
def execCheckpoint (d : DescRef) (s : State) : Host.Outcome State Fault Refusal := .next (s.ckRun d 0x80 State.runCheckpoint)

/-- RESTORE writes region after region from the image's bytes; `broke` is the 4 KiB unit at which a sealed image breaks off. -/
def State.restoreFrom (s : State) (p u : Nat) (broke : Option Nat) : Nat → List CkRegion → List Byte → State × Done
  | _, [], _ => (s, match broke with | some k => { status := stCrcMismatch, result := k } | none => {})
  | i, r :: rs, img =>
    let data := sliceOf img 16 r.len
    if img.length < r.len + 24 && broke.isSome then
      (s.spoil p none r.va r.len, { status := stCrcMismatch, result := broke.getD 0 })
    else if img.take 16 != r.entry then (s, { status := stBadDescriptor, result := i })
    else
      let bad := crc64.bytes (img.take (16 + r.len)) != sliceOf img (16 + r.len) 8
      let s := s.crcCount u bad
      if bad then (s.spoil p none r.va r.len, { status := stCrcMismatch, result := i })
      else match s.writeVa p none i r.va data with
        | .error f => ((s.moveSome p none r.va data).note p f, f.done)
        | .ok t => t.restoreFrom p u broke (i + 1) rs (img.drop (r.len + 24))

/-- A reserved byte of an image header is not 0 (R12, R283). -/
def ckReserved (head : List Byte) : Bool := (sliceOf head 21 3 ++ sliceOf head 32 24).any (fun b => b != 0#8)

/-- RESTORE on what the read of its image returned; the RESULT for a reserved header byte is open (notes/assumptions/69.md). -/
def State.runRestore (h : HostRead) (s : State) (p : Nat) (d : Desc) : Except Fail (State × Done) := do
  let rs ← s.ckList p d
  let img ← s.hostInput p h
  let head := img.1.take 64
  let u := s.ckUnit p d
  if img.2.isSome && img.1.length < 64 then .ok (s, { status := stCrcMismatch, result := img.2.getD 0 })
  else
    let bad := crc64.bytes (head.take 56) != sliceOf head 56 8
    let s := s.crcCount u bad
    if bad then .ok (s, { status := stCrcMismatch, result := 0xFFFFFFFF })
    else if ckReserved head then .ok (s.tick, { status := stBadDescriptor, result := s.freeNat })
    else .ok (s.restoreFrom p u img.2 0 rs (img.1.drop 64))

/-- RESTORE (R283). -/
def execRestore (d : DescRef) (h : HostRead) (s : State) : Host.Outcome State Fault Refusal :=
  let reads := !d.startOnly && (match s.desc? d.part d.num with
    | some x => isOp 0x81 x && s.ckFree d.part x && s.reaches (ckCourse (State.runRestore h)) d.part x
    | none => false)
  let t := s.ckRun d 0x81 (State.runRestore h)
  .next (if reads then t.noteHostRead d.part h else t)

/-! ### The step journal (R284, R552) -/

/-- JOB of a STEP_COMMIT -/
def Desc.job (d : Desc) : Nat := d.fld 28 4

/-- The last committed step of a job of Pp. -/
def State.jobStep (s : State) (p j : Nat) : Option Nat := ((s.part p).journal.find? (fun x => x.1 == j)).map (fun x => x.2.1)

/-- STEP_COMMIT with the END_JOB that a row stands for. -/
def isCommit (ends : Bool) (d : Desc) : Bool := isOp 0x82 d && bitOf (d.fld 16 1) 0 == ends

/-- STEP_COMMIT (R284): the step enters the journal. -/
def execStepCommit (d : DescRef) (s : State) : Host.Outcome State Fault Refusal :=
  .next (s.runDesc d (isCommit false) {
    check := fun t p x => match t.jobStep p x.job with
      | some n => if x.fld 32 8 ≤ n then some (.status stIllegalState 0) else none
      | none => if (t.part p).journal.length ≥ 256 then some (.status stBusy 0) else none
    run := fun t p x => okDone (t.onPart p (fun q => { q with
      journal := q.journal.filter (fun y => y.1 != x.job) ++ [(x.job, x.fld 32 8, sliceOf x.bytes 40 16)] })) })

/-- STEP_COMMIT_END_JOB (R284): the job's entry is removed; RESULT is its last committed step. -/
def execStepCommitEndJob (d : DescRef) (s : State) : Host.Outcome State Fault Refusal :=
  .next (s.runDesc d (isCommit true) {
    check := fun t p x => if (t.jobStep p x.job).isNone then some (.status stIllegalState 0) else none
    run := fun t p x => .ok (t.onPart p (fun q => { q with journal := q.journal.filter (fun y => y.1 != x.job) }),
      { result := ((t.jobStep p x.job).getD 0) % 2 ^ 32 }) })

end Sys2Proof.Machine
end

