-- ==== Sys2Proof/Machine/Keys.lean ====
section
/-! DEFINITION. KEY_OP (R464 to R471): rotation and retirement of memory keys, the conversion pass, content keys and weight
loads. -/

namespace Sys2Proof.Machine

/-- A KEY_OP with a SUBOP of the row; one outside the map is any row's. -/
def isKeyOp (k : Nat) (d : Desc) : Bool := isOp 0x97 d && (d.fld 17 1 == k || d.fld 17 1 == 0 || d.fld 17 1 > 6)

/-- The partition that a KEY_OP names. -/
def Desc.keyPart (d : Desc) : Nat := d.fld 16 1

/-- ROTATE, RETIRE and CLEAR_RETIRED are legal in these states (R471). -/
def PartSt.rotates : PartSt → Bool
  | .configured | .admitted | .running | .quiescing => true
  | _ => false

/-- BIND_LOAD and WEIGHT_LOAD are legal (R471). -/
def PartSec.loads? (x : PartSec) : Bool :=
  x.st == .configured || (x.secMode == 0 && (x.st == .admitted || x.st == .running))

/-- Check 6 of a KEY_OP with a condition on the partition (R442, R461, R471). -/
def State.keyCheck (s : State) (frozenToo : Bool) (d : Desc) (legal : PartSec → Bool) : Option Fail :=
  let p := d.keyPart
  (if frozenToo then none else s.frozenBars p) <|> s.named p <|>
    (if legal (s.part p).sec then none else some (.status stIllegalState 0))

/-! ### Rotation (R464 to R467) -/

/-- The frames of a partition's granules, as ranges of frame numbers in ascending order (R464). -/
def State.frames (s : State) (p : Nat) : List (Nat × Nat) :=
  (s.ownedGranules p).map (fun g => (granBase g / 0x10000, 0x4000))

/-- The number of frames in ranges. -/
def frameCount (l : List (Nat × Nat)) : Nat := l.foldl (fun a r => a + r.2) 0

/-- KEY_OP_ROTATE (R465). -/
def execKeyOpRotate (d : DescRef) (s : State) : Host.Outcome State Fault Refusal :=
  .next (s.startDesc d (isKeyOp 1)
    (fun t _ x => t.keyCheck true x (fun y => y.st.rotates) <|>
      (let y := (t.part x.keyPart).sec
       if y.prevKey.isSome || !y.retiredFrames.isEmpty then some (.status stBusy 0) else none))
    (fun t p x =>
      let k := x.keyPart
      let new := t.random
      let old := t.frames k
      let t := t.tick.onSec k (fun y => { y with prevKey := y.curKey, curKey := some new, epoch := y.epoch + 1, oldFrames := old })
      t.complete p x { result := (t.part k).sec.epoch.toNat }))

/-- KEY_OP_RETIRE (R467). -/
def execKeyOpRetire (d : DescRef) (s : State) : Host.Outcome State Fault Refusal :=
  .next (s.startDesc d (isKeyOp 2) (fun t _ x => t.keyCheck true x (fun y => y.st.rotates && y.prevKey.isSome))
    (fun t p x =>
      let k := x.keyPart
      let n := frameCount (t.part k).sec.oldFrames
      let t := t.onSec k (fun y => { y with prevKey := none, oldFrames := [], retiredFrames := y.oldFrames })
      (t.raiseBoth k 0x61 (toLe 4 n)).complete p x { result := n }))

/-- KEY_OP_CLEAR_RETIRED (R467): the retired frames are zeroed and return to use. -/
def execKeyOpClearRetired (d : DescRef) (s : State) : Host.Outcome State Fault Refusal :=
  .next (s.startDesc d (isKeyOp 3) (fun t _ x => t.keyCheck false x (fun y => y.st.rotates))
    (fun t p x =>
      let k := x.keyPart
      let t := (t.part k).sec.retiredFrames.foldl (fun (a : State) r =>
        { a with mem := a.mem.zero (r.1 * 0x10000) ((r.1 + r.2) * 0x10000) }) t
      (t.onSec k (fun y => { y with retiredFrames := [] })).complete p x {}))

/-- The lowest frame of some ranges is taken away. -/
def dropLowest : List (Nat × Nat) → List (Nat × Nat)
  | [] => []
  | r :: rs => if r.2 ≤ 1 then rs else (r.1 + 1, r.2 - 1) :: rs

/-- FRAME_CONVERT (R465, R466): the lowest frame of the previous epoch is converted; with none left the previous key is
erased. The plaintext does not change. -/
def execFrameConvert (p : Nat) (s : State) : Host.Outcome State Fault Refusal :=
  let x := (s.part p).sec
  .next (if p ≥ 16 || x.prevKey.isNone then s
    else
      let rest := dropLowest x.oldFrames
      let s := s.onSec p (fun y => { y with oldFrames := rest })
      if rest.isEmpty then (s.onSec p (fun y => { y with prevKey := none })).raiseBoth p 0x60 (toLe 4 x.epoch.toNat) else s)

/-! ### Content keys (R469) -/

/-- The offending bytes of a binding record's head (R469). -/
def bindHeadBad (h : List Byte) : List (Bool × Nat) :=
  chk [(fieldAt h 0 4 != 1, 0), (byteAt h 4 > 7, 4), (byteAt h 5 == 0 || byteAt h 5 > 64, 5)] ++ resv h 6 2 ++ resv h 24 8

/-- The reserved bytes of entry i of a binding record (R469). -/
def bindEntryBad (b : List Byte) (i : Nat) : List (Bool × Nat) := resv b (32 + 160 * i + 105) 7 ++ resv b (32 + 160 * i + 152) 8

/-- The binding record as the guard reads it (check 7 of R257). -/
def State.readBind (s : State) (p : Nat) (d : Desc) : Except Fail (List Byte) := do
  let va := d.fld 20 6
  let h ← s.readVa p none 0 va 32
  match firstBad (bindHeadBad h) with
  | some o => .error (badInBlock o)
  | none =>
    let b ← s.readVa p none 0 va (32 + 160 * byteAt h 5)
    match firstBad ((List.range (byteAt h 5)).flatMap (bindEntryBad b)) with
    | some o => .error (badInBlock o)
    | none => .ok b

/-- A binding record names this module (R469). -/
def namesModule (b : List Byte) : Bool :=
  (List.range (byteAt b 5)).any (fun i => fieldAt b (32 + 160 * i) 8 == Config.serial.toNat)

/-- A content key enters a slot, and the load log (R456, R469). -/
def PartSec.bindKey (x : PartSec) (slot : Nat) (keyId : List Byte) (key : BitVec 256) : PartSec :=
  { x with content := updAt x.content slot (fun _ => some (keyId, key)), loads := x.loads ++ [{ subop := 4, keyId := keyId }] }

/-- The content key that a binding record's entry for this module gives, none when the unwrap's integrity check fails (R469). -/
def State.bound (s : State) (b : List Byte) : Option (BitVec 256) :=
  let o := 32 + 160 * ((List.range (byteAt b 5)).find? (fun i => fieldAt b (32 + 160 * i) 8 == Config.serial.toNat)).getD 0
  let z := Config.ecdh s.boot.bindKey (sliceOf b (o + 8) 97)
  Config.keyUnwrap (Config.hkdf z (sliceOf b o 8) (sliceOf b 8 16)) (sliceOf b (o + 112) 40)

/-- KEY_OP_BIND_LOAD (R469). -/
def execKeyOpBindLoad (d : DescRef) (s : State) : Host.Outcome State Fault Refusal :=
  .next (s.startDesc d (isKeyOp 4)
    (fun t p x => t.keyCheck false x PartSec.loads? <|> (match t.readBind p x with | .error f => some f | .ok _ => none))
    (fun t p x =>
      match t.readBind p x with
      | .error f => t.failDesc p x f
      | .ok b =>
        if !namesModule b then t.complete p x { status := stAccessDenied, result := 0xF }
        else match t.bound b with
          | none => t.complete p x { status := stCrcMismatch }
          | some key => (t.onSec x.keyPart (fun y => y.bindKey (byteAt b 4) (sliceOf b 8 16) key)).complete p x {}))

/-- KEY_OP_CONTENT_DROP (R469, R471): CSLOT is byte 4 of the record at BLOB_VA, as in the other records
(notes/assumptions/11.md). -/
def execKeyOpContentDrop (d : DescRef) (s : State) : Host.Outcome State Fault Refusal :=
  .next (s.startDesc d (isKeyOp 6)
    (fun t p x => t.keyCheck false x (fun y => y.st != .unconfigured) <|>
      (match t.readVa p none 0 (x.fld 20 6) 8 with
       | .error f => some f
       | .ok h => (firstBad (chk [(byteAt h 4 > 7, 4)])).map badInBlock))
    (fun t p x =>
      let slot := byteAt (t.peekVa p (x.fld 20 6) 8) 4
      (t.onSec x.keyPart (fun y => { y with content := updAt y.content slot (fun _ => none) })).complete p x {}))

/-! ### Weight loads (R470) -/

/-- A chunk of plaintext (R470). -/
def chunkSize : Nat := 0x100000

/-- The offending bytes of a load record (R470). -/
def loadRecBad (h : List Byte) : List (Bool × Nat) :=
  chk [(fieldAt h 0 4 != 1, 0), (byteAt h 4 > 7, 4), (fieldAt h 8 8 % 0x1000 != 0, 8),
    (fieldAt h 16 8 == 0 || fieldAt h 16 8 > 2 ^ 38, 16), (fieldAt h 24 5 % 0x1000 != 0, 24)] ++
  resv h 5 3 ++ resv h 29 3 ++ resv h 40 24

/-- Every granule that [pa, pa + len) touches is owned by Pp. -/
def State.ownsRange (s : State) (p pa len : Nat) : Bool :=
  (List.range (len / granSize + 2)).all (fun i =>
    let a := pa / granSize * granSize + i * granSize
    decide (pa + len ≤ a) || s.ownerOf (Nat.max a pa) == p)

/-- Checks 6 and 7 of WEIGHT_LOAD (R470, R471). -/
def State.weightCheck (s : State) (p : Nat) (d : Desc) : Option Fail :=
  s.keyCheck false d PartSec.loads? <|>
    (match s.readVa p none 0 (d.fld 20 6) 64 with
     | .error f => some f
     | .ok h =>
       let k := d.keyPart
       (firstBad (loadRecBad h)).map badInBlock <|>
       (if (((s.part k).sec.content.getD (byteAt h 4) none)).isNone then some (.status stIllegalState 0)
        else if !s.ownsRange k (fieldAt h 24 5) (fieldAt h 16 8) then some (.status stAccessDenied 0xF) else none))

/-- What AES-256-GCM makes of chunk i, ciphertext and tag: the plaintext, none where the tag fails. `h` is the load record, `id` and
`key` the content key's. -/
def openChunk (h : List Byte) (id : List Byte) (key : BitVec 256) (i : Nat) (c : List Byte) : Option (List Byte) :=
  let nonce := sliceOf h 32 8 ++ toLe 4 i
  let body := c.take (c.length - 16)
  if Config.gcmSum key nonce (id ++ toLe 4 i ++ sliceOf h 16 8) body == c.drop (c.length - 16) then
    some (body.zipIdx.map (fun b => b.1 ^^^ Config.gcmStream key nonce b.2))
  else none

/-- Store the plaintext of chunks from chunk i on, up to the first whose tag fails; answers that chunk's number, if any. -/
def State.storeChunks (s : State) (h id : List Byte) (key : BitVec 256) : List (List Byte) → Nat → State × Option Nat
  | [], _ => (s, none)
  | c :: cs, i =>
    match openChunk h id key i c with
    | none => (s, some i)
    | some b => ({ s with mem := s.mem.store (fieldAt h 24 5 + i * chunkSize) b }).storeChunks h id key cs (i + 1)

/-- The chunks are those of a load of `len` bytes: chunk i with its tag has the length that R470 gives it. -/
def chunksFit (len : Nat) (l : List (List Byte)) : Bool :=
  l.length == cdiv len chunkSize && l.zipIdx.all (fun c => c.1.length == Nat.min chunkSize (len - c.2 * chunkSize) + 16)

/-- A weight load runs (R470); without the host link its reads fail (R216). -/
def State.weightLoad (s : State) (p : Nat) (d : Desc) (chunks : List (List Byte)) : Except Fail (State × Done) := do
  let h ← s.readVa p none 0 (d.fld 20 6) 64
  if !s.host.up then .error (.status stAccessDenied 6) else
  let k := d.keyPart
  let pa := fieldAt h 24 5
  let len := fieldAt h 16 8
  let c := ((s.part k).sec.content.getD (byteAt h 4) none).getD ([], 0)
  let r := s.storeChunks h c.1 c.2 chunks 0
  match r.2 with
  | some i => .ok (r.1, { status := stCrcMismatch, result := i })
  | none =>
    let n := cdiv len chunkSize
    .ok (r.1.onSec k (fun y => { y with loads := y.loads ++
      [{ subop := 5, keyId := c.1, destPa := pa, len := len, chunks := n }] }), { result := n })

/-- KEY_OP_WEIGHT_LOAD (R470): `chunks` is the ciphertext read from the host, each chunk with its tag. With chunks that are not those of
the load the command only starts. -/
def execKeyOpWeightLoad (d : DescRef) (chunks : List (List Byte)) (s : State) : Host.Outcome State Fault Refusal :=
  let len := match s.desc? d.part d.num with | some x => fieldAt (s.peekVa d.part (x.fld 20 6) 64) 16 8 | none => 0
  let c : Course := { check := State.weightCheck, run := fun t p x => t.weightLoad p x chunks }
  let r := { d with startOnly := d.startOnly || !(chunksFit len chunks || !s.host.up) }
  let fails := !s.host.up && !r.startOnly && (match s.desc? d.part d.num with
    | some x => isKeyOp 5 x && s.reaches c d.part x
    | none => false)
  let t := s.runDesc r (isKeyOp 5) c
  .next (if fails then t.countRdErr d.part else t)

end Sys2Proof.Machine
end

