-- ==== Sys2Proof/Machine/Sampling.lean ====
section
/-! DEFINITION. The sampling block: sampling records, the distribution of a logit row, the draw, and the verification of
drafts (R354 to R357, R362), with the commands SAMPLE and VERIFY (R364, R365). -/

namespace Sys2Proof.Machine

/-- A token id that stands for none. -/
def noToken : Nat := 0xFFFFFFFF

/-! ### Sampling records (R354) -/

/-- A FP32 field is NaN or below 0. -/
def f32Bad (v : Nat) : Bool := match fmtFP32.decode v with | .nan => true | .inf neg => neg | .fin neg m _ => neg && m != 0

/-- A FP32 field is not finite. -/
def f32Wide (v : Nat) : Bool := (fmtFP32.decode v).special

/-- The fields of a sampling record outside their ranges, for a vocabulary of `v` tokens; SPARE fields are reserved. -/
def sampBad (v : Nat) (r : List Byte) : List (Bool × Nat) :=
  let f := fun (o : Nat) => fieldAt r o 4
  let tok := fun (o : Nat) => f o ≥ v && f o != noToken
  chk [(f32Bad (f 0), 0), (fieldAt r 4 2 > 1024, 4), (byteAt r 6 > 7, 6), (byteAt r 7 > 16, 7), (f32Bad (f 8), 8),
    (f32Bad (f 12) || fGe (BitVec.ofNat 32 (f 12)) f32One, 12), (f32Bad (f 16), 16), (f32Bad (f 20) || f32Wide (f 20), 20),
    (f32Bad (f 24) || f32Wide (f 24), 24), (fieldAt r 28 2 > 256, 28), (f 40 == 0 || f 40 > 1048576, 40), (tok 44, 44), (tok 48, 48),
    (fieldAt r 80 8 % 0x1000 != 0, 80), (byteAt r 88 < 6 || byteAt r 88 > 16, 88)] ++
  resv r 30 2 ++ resv r 76 4 ++ resv r 89 39

/-- A sampling record with the lists that it names. -/
structure Samp where
  /-- The record -/
  r : List Byte
  /-- V -/
  v : Nat
  /-- Bias entries -/
  bias : List (Nat × F32)
  /-- The token mask, where MASK_ON is 1 -/
  mask : Option (List Byte)
  /-- Stop sequences -/
  stops : List (List Nat)
  /-- The count table -/
  counts : List Nat

namespace Samp

/-- A FP32 field. -/
def f (c : Samp) (o : Nat) : F32 := BitVec.ofNat 32 (fieldAt c.r o 4)
/-- SEED. -/
def seed (c : Samp) : Nat := fieldAt c.r 32 8
/-- MASK_ON. -/
def maskOn (c : Samp) : Bool := bitOf (byteAt c.r 6) 1
/-- EOS0. -/
def eos0 (c : Samp) : Nat := fieldAt c.r 44 4
/-- MAX_TOKENS. -/
def maxTokens (c : Samp) : Nat := fieldAt c.r 40 4

end Samp

/-- Read what a sampling record names; a bias or stop entry out of range offends at its pointer. -/
def State.readSamp (s : State) (p : Nat) (src : Option Nat) (slot v : Nat) (r : List Byte) : Except Fail Samp := do
  let nb := fieldAt r 28 2
  let bias ← s.readVa p src slot (fieldAt r 52 6) (8 * nb)
  let mask ← if bitOf (byteAt r 6) 1 then (s.readVa p src slot (fieldAt r 58 6) (cdiv v 8)).map some else .ok none
  let stops ← s.readVa p src slot (fieldAt r 64 6) (36 * byteAt r 7)
  let counts ← s.readVa p src slot (fieldAt r 70 6) (4 * v)
  let bs := (chunksOf 8 bias).map (fun b => (fieldAt b 0 4, (BitVec.ofNat 32 (fieldAt b 4 4) : F32)))
  let ss := (chunksOf 36 stops).map (fun b => (fieldAt b 0 4, (List.range 8).map (fun i => fieldAt b (4 + 4 * i) 4)))
  if bs.any (fun b => b.1 ≥ v || !F32.finite b.2) then .error (badInBlock 52)
  else if ss.any (fun x => x.1 == 0 || x.1 > 8 || (x.2.take x.1).any (· ≥ v)) then .error (badInBlock 64)
  else .ok { r := r, v := v, bias := bs, mask := mask, stops := ss.map (fun x => x.2.take x.1),
             counts := (chunksOf 4 counts).map leNat }

/-! ### The distribution of a row (R355) -/

/-- The distribution that the sampling block makes of a row: the kept tokens with their weights in rank order, T, whether step
6 applied, and SPECIAL_IN. -/
structure Dist where
  /-- Kept tokens in rank order -/
  kept : List (Nat × F32)
  /-- T -/
  total : F32
  /-- No logit was finite -/
  masked : Bool := false
  /-- A logit was NaN -/
  special : Bool := false

/-- c[t]: the count of a token with those accepted earlier in the step (R357), saturating. -/
def Samp.count (c : Samp) (extra : List Nat) (t : Nat) : Nat := satTo 32 (c.counts.getD t 0 + (extra.filter (· == t)).length)

/-- Steps 1 to 5 of R355 for token t. -/
def Samp.logit (c : Samp) (extra : List Nat) (t : Nat) (z : F32) : F32 :=
  let z := if z.isNan then f32NegInf else z
  let z := match c.mask with | some m => if bitOf (byteAt m (t / 8)) (t % 8) then z else f32NegInf | none => z
  let z := c.bias.foldl (fun a b => if b.1 = t then fAdd a b.2 else a) z
  let n := c.count extra t
  let rep := c.f 16
  let z := if n > 0 ∧ rep ≠ f32Zero then (if fGt z f32Zero then fMul z (sfuRecip rep) else fMul z rep) else z
  let z := fSub z (fMul (c.f 24) (F32.ofNat' n))
  if n > 0 then fSub z (c.f 20) else z

/-- Put a candidate into a ranking by weight descending, then id ascending. -/
def rankIn (x : Nat × F32) : List (Nat × F32) → List (Nat × F32)
  | [] => [x]
  | y :: ys => if fGt x.2 y.2 then x :: y :: ys else y :: rankIn x ys

/-- The first `n` of a ranking whose running sum reaches a bound; all of it where none does. -/
def topPrefix (bound : F32) : F32 → List (Nat × F32) → List (Nat × F32)
  | _, [] => []
  | run, x :: xs => let r := fAdd run x.2; if fGe r bound then [x] else x :: topPrefix bound r xs

/-- The sum of kept weights in rank order. -/
def rankSum (l : List (Nat × F32)) : F32 := match l with | [] => f32Zero | x :: xs => xs.foldl (fun a y => fAdd a y.2) x.2

/-- Steps 1 to 11 of R355 on a row of logits. -/
def Samp.dist (c : Samp) (extra : List Nat) (row : List F32) : Dist :=
  let zs := row.zipIdx.map (fun x => c.logit extra x.2 x.1)
  let special := row.any (fun x => x.isNan)
  if zs.all (fun z => !z.finite) then
    { kept := [(if c.eos0 = noToken then 0 else c.eos0, f32One)], total := f32One, masked := true, special := special }
  else if (c.f 0).num.isZero then
    let best := zs.zipIdx.foldl (fun (a : Option (F32 × Nat)) x => match a with
      | some b => if fGt x.1 b.1 then some x else some b
      | none => if x.1.isNan then none else some x) none
    { kept := [((match best with | some b => b.2 | none => 0), f32One)], total := f32One, special := special }
  else
    let zt := zs.map (fun z => fMul z (sfuRecip (c.f 0)))
    let m := zt.foldl fMax f32NegInf
    let ws := zt.map (fun z => sfuExp2 (fMul (fSub z m) f32L2E))
    let sum := laneReduce fAdd ws
    let k := if fieldAt c.r 4 2 = 0 then 1024 else fieldAt c.r 4 2
    let rank := (ws.zipIdx.foldl (fun a x => rankIn (x.2, x.1) a) []).take k
    let topP := c.f 8
    let kept := if topP.num.isZero || fGe topP f32One then rank else topPrefix (fMul topP sum) f32Zero rank
    let minP := c.f 12
    let first := match kept with | x :: _ => x.2 | [] => f32Zero
    let kept := if minP.num.isZero then kept else kept.filter (fun x => !fGt (fMul minP first) x.2)
    { kept := kept, total := rankSum kept, special := special }

/-- The random word of R356: position, 0x51 for the main model or 0x52 for the draft model, and the output word. -/
def Samp.word (c : Samp) (at_ which w : Nat) : Nat := philox c.seed at_ 0 0 which w

/-- Bits 31:8 of a random word as a fraction of 1, or one unit above it. -/
def unitOf (n : Nat) : F32 := Num.f32 (.fin false n (-24))

/-- The first token whose running sum exceeds θ, the last where none does. -/
def drawAt (theta : F32) : F32 → List (Nat × F32) → Nat
  | _, [] => 0
  | _, [x] => x.1
  | run, x :: y :: xs => let r := fAdd run x.2; if fGt r theta then x.1 else drawAt theta r (y :: xs)

/-- Step 12 of R355 over weights in rank order with a random word. -/
def drawFrom (kept : List (Nat × F32)) (r : Nat) : Nat := drawAt (fMul (unitOf (r / 256)) (rankSum kept)) f32Zero kept

/-- The token drawn from a distribution; a single kept token needs no random word. -/
def Dist.draw (d : Dist) (r : Nat) : Nat := drawFrom d.kept r

/-- The probability of a token: w / T rounded to FP32, 0 outside the kept set (R355, R362). -/
def Dist.prob (d : Dist) (t : Nat) : F32 :=
  match d.kept.find? (fun x => x.1 == t) with | some x => fQuot x.2 d.total | none => f32Zero

/-! ### Verification (R362) -/

/-- A verified run of drafts: the tokens emitted, each with whether step 6 of R355 applied to its row, how many drafts were
accepted, and SPECIAL_IN. -/
structure Verified where
  /-- Tokens emitted -/
  toks : List (Nat × Bool)
  /-- Drafts accepted -/
  accepted : Nat
  /-- SPECIAL_IN -/
  special : Bool

/-- The residual of p over q on p's kept set, in its rank order (R362). -/
def residual (p q : Dist) : List (Nat × F32) := p.kept.map (fun x => (x.1, fMax f32Zero (fSub (p.prob x.1) (q.prob x.1))))

/-- Verify drafts (token, draft distribution) from position `at_` on, against the main model's rows of logits (R362). -/
def Samp.verify (c : Samp) : (at_ : Nat) → (extra : List Nat) → List (Nat × Dist) → List (List F32) → Verified
  | at_, extra, [], rows =>
    let p := c.dist extra (rows.headD [])
    ⟨[(p.draw (c.word at_ 0x51 0), p.masked)], 0, p.special⟩
  | at_, extra, (x, q) :: rest, rows =>
    let p := c.dist extra (rows.headD [])
    let v := unitOf (c.word at_ 0x51 1 / 256 + 1)
    if fGe (p.prob x) (fMul v (q.prob x)) then
      let r := c.verify (at_ + 1) (extra ++ [x]) rest rows.tail
      ⟨(x, p.masked) :: r.toks, r.accepted + 1, r.special || p.special⟩
    else
      let res := residual p q
      let w := c.word at_ 0x51 2
      let y := if res.all (fun t => t.2.num.isZero) then drawFrom p.kept w else drawFrom res w
      ⟨[(y, p.masked)], 0, p.special⟩

/-! ### SAMPLE and VERIFY (R364, R365) -/

/-- The sampling records of a BYTE tensor. -/
def sampRecords (t : Tensor) (n : Nat) : List (List Byte) := (List.range n).map (fun i => sliceOf t.bytes (128 * i) 128)

/-- The first record out of range, as its offset in the tensor. -/
def sampsBad (v : Nat) (rs : List (List Byte)) : List (Bool × Nat) :=
  rs.zipIdx.flatMap (fun x => (sampBad v x.1).map (fun y => (y.1, 128 * x.2 + y.2)))

/-- Read the records of a BYTE tensor with their lists. -/
def State.readSamps (s : State) (p : Nat) (src : Option Nat) (slot v : Nat) : List (List Byte) → Except Fail (List Samp)
  | [] => .ok []
  | r :: rs => do
    let x ← s.readSamp p src slot v r
    let xs ← s.readSamps p src slot v rs
    .ok (x :: xs)

/-- The sampling block takes rows of at most 262,144 logits (R55). -/
def wideLogits (r : TRec) (i : Nat) : List (Bool × Nat) := chk [(r.cols > 262144, 32 * i + 12)]

/-- SAMPLE's block (R364). -/
def sampleBad (_d : Desc) (bl : List Byte) : List (Bool × Nat) :=
  let z := slotRec bl 0
  blockBad bl [(need [0x0E]).batches [1], ((need [0x14]).shape z.rows 128).batches [1], ((need [0x13]).shape 1 z.rows).batches [1],
    ((need [0x13]).shape 1 z.rows).batches [1]] ++ wideLogits z 0

/-- A row of logits. -/
def Tensor.logits (t : Tensor) (r : Nat) : List F32 := (List.range t.shape.cols).map (fun c => t.f32 0 r c)

/-- The `n` sampling records of slot `i` for rows of `v` logits, with the lists that they name (R354, R364, R365). -/
def State.samps (s : State) (p : Nat) (d : Desc) (bl : List Byte) (i n v : Nat) : Except Fail (List Samp) := do
  let rs := sampRecords (← s.slotTensor p d bl i) n
  match firstBad (sampsBad v rs) with
  | some o => .error (badInBlock o)
  | none => s.readSamps p (s.srcOf p d) i v rs

/-- SAMPLE (R364). -/
def State.runSample (s : State) (p : Nat) (d : Desc) (bl : List Byte) : Except Fail (State × Done) := do
  let z ← s.slotTensor p d bl 0
  let at_ ← s.slotTensor p d bl 2
  let cs ← s.samps p d bl 1 z.shape.rows z.shape.cols
  let ds := cs.zipIdx.map (fun c => let x := c.1.dist [] (z.logits c.2); (x.draw (c.1.word (at_.elem 0 0 c.2) 0x51 0), x.special))
  s.putOuts p d [(3, (slotRec bl 3).build (fun _ _ j => (ds.getD j (0, false)).1))]
    { result := z.shape.rows, cflags := flagIf (ds.any Prod.snd) cfSpecialIn }

/-- SAMPLE (R364). -/
def execSample (d : DescRef) (s : State) : Host.Outcome State Fault Refusal :=
  .next (s.runDesc d (isOp 0x51) ((tensorCourse sampleBad State.runSample).withLists
    (fun t p x b => failOf (t.samps p x b 1 (slotRec b 0).rows (slotRec b 0).cols))))

/-- VERIFY's block (R365). -/
def verifyBad (_d : Desc) (bl : List Byte) : List (Bool × Nat) :=
  let n := (slotRec bl 3).rows
  blockBad bl [(need [0x0E]).batches [1], { (need [0x0E]).batches [1] with cols := some (slotRec bl 0).cols },
    ((need [0x13]).shape 1 (slotRec bl 1).rows).batches [1], { (need [0x14]).batches [1] with cols := some 16 },
    ((need [0x14]).shape n 128).batches [1], ((need [0x13]).shape n 10).batches [1]] ++ wideLogits (slotRec bl 0) 0 ++
  wideLogits (slotRec bl 1) 1

/-- The offending fields of VERIFY's list. -/
def verifyListBad (main draft n : Nat) (l : List Byte) : List (Bool × Nat) :=
  (List.range n).flatMap (fun i =>
    let b := sliceOf l (16 * i) 16
    let dd := fieldAt b 0 4
    chk [(dd > 8, 16 * i), (fieldAt b 4 4 + dd + 1 > main, 16 * i + 4), (dd > 0 && fieldAt b 8 4 + dd > draft, 16 * i + 8)])

/-- The drafts of a verified entry from their rows: each token with the draft model's distribution, which saw those before. -/
def draftDists (c : Samp) (toks : Nat → Nat) (z : Tensor) (first : Nat) : Nat → Nat → List Nat → List (Nat × Dist)
  | 0, _, _ => []
  | n + 1, i, seen => (toks (first + i), c.dist seen (z.logits (first + i))) ::
      draftDists c toks z first n (i + 1) (seen ++ [toks (first + i)])

/-- VERIFY's list and its sampling records, checked (R257, R365). -/
def State.verifyInputs (s : State) (p : Nat) (d : Desc) (bl : List Byte) : Except Fail (List Byte × List Samp) := do
  let l := (← s.slotTensor p d bl 3).bytes
  let n := (slotRec bl 3).rows
  match firstBad (verifyListBad (slotRec bl 0).rows (slotRec bl 1).rows n l) with
  | some o => .error (badInBlock o)
  | none => .ok (l, ← s.samps p d bl 4 n (slotRec bl 0).cols)

/-- VERIFY (R365). -/
def State.runVerify (s : State) (p : Nat) (d : Desc) (bl : List Byte) : Except Fail (State × Done) := do
  let z ← s.slotTensor p d bl 0
  let y ← s.slotTensor p d bl 1
  let toks ← s.slotTensor p d bl 2
  let inp ← s.verifyInputs p d bl
  let vs := inp.2.zipIdx.map (fun c =>
    let b := sliceOf inp.1 (16 * c.2) 16
    let dd := fieldAt b 0 4
    c.1.verify (fieldAt b 12 4 + 1) [] (draftDists c.1 (toks.elem 0 0) y (fieldAt b 8 4) dd 0 [])
      ((List.range (dd + 1)).map (fun i => z.logits (fieldAt b 4 4 + i))))
  let row := fun (i : Nat) => match vs[i]? with
    | some v => v.toks.length :: v.toks.map Prod.fst
    | none => []
  s.putOuts p d [(5, (slotRec bl 5).build (fun _ r c => (row r).getD c noToken))]
    { result := vs.foldl (fun a v => a + v.toks.length) 0, cflags := flagIf (vs.any (fun v => v.special)) cfSpecialIn }

/-- VERIFY (R365). -/
def execVerify (d : DescRef) (s : State) : Host.Outcome State Fault Refusal :=
  .next (s.runDesc d (isOp 0x52) ((tensorCourse verifyBad State.runVerify).withLists
    (fun t p x b => failOf (t.verifyInputs p x b))))

end Sys2Proof.Machine
end

