-- ==== Sys2Proof/Machine/Scale.lean ====
section
/-! DEFINITION. SCALE (R433, R434): one queued picture's visible region, resized, converted to colour and normalised into a
tensor. -/

namespace Sys2Proof.Machine

/-- The offending bytes of a scale block for a picture of `w` × `h` visible samples. -/
def scaleBad (b : List Byte) (w h : Nat) : List (Bool × Nat) :=
  let k : ScaleBlock := ⟨b⟩
  let cw := if k.fld 8 2 = 0 then w else k.fld 8 2
  let ch := if k.fld 10 2 = 0 then h else k.fld 10 2
  let r := k.tensor
  chk [(k.fld 4 2 + cw > w, 4), (k.fld 6 2 + ch > h, 6), (k.fld 12 2 == 0 || k.fld 12 2 > 4096, 12), (k.fld 14 2 == 0 || k.fld 14 2 > 4096, 14),
    (k.fld 16 1 > 2, 16), (k.fld 17 1 % 4 == 3 || k.fld 17 1 > 7, 17), (k.fld 18 1 > 2, 18), (k.fld 19 1 > 1, 19), (r.va % 16 != 0, 44),
    (!([0x0E, 0x0C, 0x0D, 0x01, 0x02].contains r.fmt), 50), (r.pitch % 16 != 0 || (r.pitch != 0 && r.pitch < r.packed), 52)] ++
  resv b 51 1 ++ resv b 56 8

/-- One axis of a resize: the plane's size, the origin in quarters, the extent in halves, the output's size. -/
structure Axis where
  /-- Samples of the plane -/
  size : Nat
  /-- Origin × 4 -/
  o4 : Int
  /-- Extent × 2 -/
  n2 : Nat
  /-- Output extent -/
  m : Nat

namespace Axis

/-- pos(x), with 16 fractional bits (R434). -/
def pos (a : Axis) (x : Nat) : Int := a.o4 * 16384 + ((2 * x + 1) * a.n2 * 16384 / a.m : Nat) - 32768

/-- An index kept within the plane. -/
def clamp (a : Axis) (i : Int) : Nat := if i < 0 then 0 else Nat.min i.toNat (a.size - 1)

/-- Ceiling of a quotient. -/
def up (n : Int) (d : Nat) : Int := -((-n) / d)

/-- The samples that `area` sums for output x; the nearest one where none has its centre in the range. -/
def area (a : Axis) (x : Nat) : List Nat :=
  let from_ := fun (x : Nat) => up (a.o4 * a.m + 2 * x * a.n2 - 2 * a.m) (4 * a.m)
  let lo := (max 0 (from_ x)).toNat
  let hi := (max 0 (min (from_ (x + 1)) a.size)).toNat
  if lo < hi then (List.range (hi - lo)).map (fun i => lo + i) else [a.clamp (a.pos x / 65536)]

end Axis

/-- r of R434 at output (x, y), in units of 1/4096, of a plane whose samples are `v`. -/
def resize (filter : Nat) (ax ay : Axis) (v : Nat → Nat → Nat) (x y : Nat) : Nat :=
  let px := ax.pos x
  let py := ay.pos y
  match filter with
  | 0 => 4096 * v (ax.clamp (px / 65536)) (ay.clamp (py / 65536))
  | 1 =>
    let i := px / 65536
    let j := py / 65536
    let p := (px % 65536).toNat / 1024
    let q := (py % 65536).toNat / 1024
    let h := fun (r : Nat) => (64 - p) * v (ax.clamp i) r + p * v (ax.clamp (i + 1)) r
    (64 - q) * h (ay.clamp j) + q * h (ay.clamp (j + 1))
  | _ =>
    let xs := ax.area x
    let ys := ay.area y
    let sum := 4096 * ys.foldl (fun (a : Nat) r => a + xs.foldl (fun (b : Nat) c => b + v c r) 0) 0
    let k := xs.length * ys.length
    let f := sum / k
    if 2 * (sum % k) > k || (2 * (sum % k) == k && f % 2 == 1) then f + 1 else f

/-- Kr and Kb in units of 1/10,000 (R434). -/
def matrixK (m : Nat) : Nat × Nat :=
  match m with | 0 => (2990, 1140) | 1 => (2126, 722) | _ => (2627, 593)

/-- The channels R, G, B (or y alone) of one output sample (R434 step 3), in the order of CHANNELS. -/
def toColour (k : ScaleBlock) (d : Nat) (ry rb rr : Nat) : List F32 :=
  let full := bitOf (k.fld 17 1) 2
  let u := 2 ^ (d - 8)
  let unit := fun (r : Nat) => Num.f32 (.fin false r (-12))
  let oy : F32 := if full then f32Zero else F32.ofNat' (16 * u)
  let sy := ratF32 false 1 (if full then 2 ^ d - 1 else 219 * u)
  let oc := F32.ofNat' (if full then 2 ^ (d - 1) else 128 * u)
  let sc := ratF32 false 1 (if full then 2 ^ d - 1 else 224 * u)
  let y := fMul (fSub (unit ry) oy) sy
  let cb := fMul (fSub (unit rb) oc) sc
  let cr := fMul (fSub (unit rr) oc) sc
  let kr := (matrixK (k.fld 17 1 % 4)).1
  let kb := (matrixK (k.fld 17 1 % 4)).2
  let kg := 10000 - kr - kb
  let a := ratF32 false (2 * (10000 - kr)) 10000
  let dd := ratF32 false (2 * (10000 - kb)) 10000
  let e := ratF32 false (2 * kb * (10000 - kb)) (kg * 10000)
  let f := ratF32 false (2 * kr * (10000 - kr)) (kg * 10000)
  let clip := fun (x : F32) => fMin (fMax x f32Zero) f32One
  let r := clip (fAdd y (fMul a cr))
  let b := clip (fAdd y (fMul dd cb))
  let g := clip (fSub (fSub y (fMul e cb)) (fMul f cr))
  match k.fld 18 1 with | 0 => [r, g, b] | 1 => [b, g, r] | _ => [clip y]

/-- The record of a queued picture. -/
def State.picRecord (s : State) (c : Nat) (x : VidCtx) (i : Nat) : List Byte :=
  s.peekVa (s.chan c).part (x.fld 32 6 + 64 * (i % x.ring)) 64

/-- SCALE's checks (R418, R433, R435). -/
def State.scaleCheck (s : State) (p : Nat) (d : Desc) : Option Fail :=
  s.mediaCheck p d <|>
  (match s.ctx? d.chan with
   | none => some (.status stIllegalState 0)
   | some x =>
     if x.enc then some (.status stIllegalState 0)
     else match s.readVa p none 0 (d.fld 20 6) 64 with
       | .error f => some f
       | .ok b =>
         let r := s.picRead d.chan x
         if (fieldAt b 0 4 + 2 ^ 32 - r) % 2 ^ 32 ≥ (x.writeIdx + 2 ^ 32 - r) % 2 ^ 32 then some (.status stIllegalState 0)
         else
           let info := s.picRecord d.chan x (fieldAt b 0 4)
           (firstBad (scaleBad b (fieldAt info 8 2) (fieldAt info 10 2))).map badInBlock)

/-- A sample of a frame buffer: a byte, or the high ten bits of a 16-bit word (R415). -/
def sampleAt (deep : Bool) (row : List Byte) (i : Nat) : Nat := if deep then fieldAt row (2 * i) 2 / 64 else byteAt row i

/-- The output of SCALE, element by element: (channel, y, x) to a value. -/
def State.scaled (s : State) (p : Nat) (x : VidCtx) (k : ScaleBlock) (info : List Byte) : Except Fail (List (List (List F32))) := do
  let w := fieldAt info 8 2
  let h := fieldAt info 10 2
  let left := fieldAt info 12 2
  let top := fieldAt info 14 2
  let buf := x.bufVa (byteAt info 5 % 32)
  let row := fun (base r first n : Nat) => s.readVa p none 0 (base + r * x.pitch + first * x.bps) (n * x.bps)
  let rows := fun (base r0 n first len : Nat) => (List.range n).mapM (fun i => row base (r0 + i) first len)
  let luma ← rows buf top h left w
  let chroma ← rows (buf + x.pitch * x.ah) (top / 2) (cdiv h 2) (left / 2 * 2) (cdiv w 2 * 2)
  let cw := if k.fld 8 2 = 0 then w else k.fld 8 2
  let ch := if k.fld 10 2 = 0 then h else k.fld 10 2
  let cx := k.fld 4 2
  let cy := k.fld 6 2
  let ow := k.fld 12 2
  let oh := k.fld 14 2
  let lx : Axis := { size := w, o4 := 4 * cx, n2 := 2 * cw, m := ow }
  let ly : Axis := { size := h, o4 := 4 * cy, n2 := 2 * ch, m := oh }
  let qx : Axis := { size := cdiv w 2, o4 := 2 * cx, n2 := cw, m := ow }
  let qy : Axis := { size := cdiv h 2, o4 := 2 * (cy : Int) - 1, n2 := ch, m := oh }
  let y := fun (i j : Nat) => sampleAt x.deep (luma.getD j []) i
  let c := fun (o i j : Nat) => sampleAt x.deep (chroma.getD j []) (2 * i + o)
  let d := if x.deep then 10 else 8
  .ok ((List.range oh).map (fun j => (List.range ow).map (fun i =>
    let f := k.fld 16 1
    (toColour k d (resize f lx ly y i j) (resize f qx qy (c 0) i j) (resize f qx qy (c 1) i j)).zipIdx.map (fun v =>
      fMul (fSub v.1 (BitVec.ofNat 32 (k.fld (20 + 4 * v.2) 4))) (BitVec.ofNat 32 (k.fld (32 + 4 * v.2) 4))))))

/-- SCALE (R433). -/
def execScale (d : DescRef) (s : State) : Host.Outcome State Fault Refusal :=
  .next (s.runDesc d (isOp 0x74) {
    check := State.scaleCheck
    run := fun t p q => do
      let b ← t.readVa p none 0 (q.fld 20 6) 64
      let k : ScaleBlock := ⟨b⟩
      match t.ctx? q.chan with
      | none => .error (.status stIllegalState 0)
      | some x =>
        let vals ← t.scaled p x k (t.picRecord q.chan x (k.fld 0 4))
        let r := k.tensor
        let planar := bitOf (k.fld 19 1) 0
        let at_ := fun (row col : Nat) =>
          let v := if planar then ((vals.getD (row % k.fld 14 2) []).getD col []).getD (row / k.fld 14 2) f32Zero
                   else ((vals.getD row []).getD (col / k.chans) []).getD (col % k.chans) f32Zero
          encodeElem r.fmt .rne false 0 v.num
        let grid := gridOf 1 r.rows r.cols (fun _ i j => at_ i j)
        let t := { t with video := { t.video with pixels := t.video.pixels + k.fld 12 2 * k.fld 14 2 } }
        t.putOuts p q [(0, r.build (fun i m n => (grid.at_ (0, false) i m n).1))]
          { cflags := flagIf (grid.some_ (fun v => v.2)) cfOutRange } })

end Sys2Proof.Machine
end

