-- ==== Sys2Proof/Machine/Models.lean ====
section
/-! DEFINITION. Model tables and the forward pass of a generation step (R337 to R340, R350). -/

namespace Sys2Proof.Machine

/-! ### Tables (R337, R338, R350) -/

/-- One layer of a model: its record, parameter block and KV space. -/
structure Layer where
  /-- The layer record -/
  r : List Byte
  /-- The layer parameter block -/
  block : List Byte
  /-- The space -/
  kv : Kv

/-- A model table read whole. -/
structure Model where
  /-- The header -/
  head : List Byte
  /-- The top block -/
  top : List Byte
  /-- The layers -/
  layers : List Layer

namespace Model

/-- MODEL_ID. -/
def id (m : Model) : Nat := fieldAt m.head 4 3
/-- ACT_FORMAT is MXFP8 E4M3: products are exact. -/
def exact (m : Model) : Bool := byteAt m.head 11 == 0x06
/-- VOCAB. -/
def vocab (m : Model) : Nat := fieldAt m.head 12 4
/-- HIDDEN. -/
def hidden (m : Model) : Nat := fieldAt m.head 16 2
/-- NORM is RMSNorm. -/
def rms (m : Model) : Bool := byteAt m.head 20 == 1
/-- ANCHOR. -/
def anchor (m : Model) : Int := sext 16 (fieldAt m.head 22 2)
/-- EPS. -/
def eps (m : Model) : F32 := BitVec.ofNat 32 (fieldAt m.head 24 4)
/-- KC. -/
def kc (m : Model) : Nat := fieldAt m.head 28 4
/-- WORK_BYTES. -/
def workBytes (m : Model) : Nat := fieldAt m.head 52 4
/-- WORK_VA. -/
def workVa (m : Model) : Nat := fieldAt m.head 56 6

end Model

namespace Layer

/-- SEQ_BASE. -/
def seqBase (l : Layer) : Nat := fieldAt l.r 4 4
/-- HQ. -/
def hq (l : Layer) : Nat := byteAt l.r 14
/-- HKV. -/
def hkv (l : Layer) : Nat := byteAt l.r 15
/-- DK. -/
def dk (l : Layer) : Nat := fieldAt l.r 16 2
/-- DV. -/
def dv (l : Layer) : Nat := fieldAt l.r 18 2
/-- ABSORBED. -/
def absorbed (l : Layer) : Bool := bitOf (byteAt l.r 28) 0
/-- W. -/
def w (l : Layer) : Nat := (if l.absorbed then l.kv.dl else l.dk) + l.kv.dr
/-- Width of a head's output. -/
def ov (l : Layer) : Nat := if l.absorbed then l.kv.dl else l.dv
/-- The ATTEND descriptor that the layer's attention of `rows` query rows amounts to (R339). -/
def attend (l : Layer) (rows : Nat) : Desc :=
  let win := fieldAt l.r 24 4
  { num := 0, sq := 0, slot := 0, cq := 0,
    bytes := [0x40#8] ++ zeros 22 ++ toLe 1 (1 + 2 * b2n l.absorbed) ++ toLe 1 (byteAt l.r 0) ++ toLe 1 (1 + 4 * b2n (win != 0)) ++
      toLe 1 l.hq ++ toLe 1 l.hkv ++ toLe 2 l.dk ++ toLe 2 l.dv ++ sliceOf l.r 20 8 ++ zeros 12 ++ toLe 2 1 ++ toLe 2 rows ++ zeros 8 }

end Layer

/-- The fields of a model table header outside their ranges (R337). -/
def modelHeadBad (h : List Byte) : List (Bool × Nat) :=
  let a := sext 16 (fieldAt h 22 2)
  chk [(fieldAt h 0 4 != 1, 0), (fieldAt h 4 3 == 0, 4), (fieldAt h 8 2 == 0 || fieldAt h 8 2 > 255, 8), (byteAt h 10 != 1, 10),
    (byteAt h 11 != 0x0C && byteAt h 11 != 0x06, 11), (fieldAt h 12 4 < 2 || fieldAt h 12 4 > 262144, 12),
    (fieldAt h 16 2 % 128 != 0 || fieldAt h 16 2 < 128 || fieldAt h 16 2 > 16384, 16),
    (fieldAt h 18 2 % 128 != 0 || fieldAt h 18 2 < 128, 18), (byteAt h 20 > 1, 20), (a < -640 || a > 640, 22),
    (fieldAt h 28 4 % 64 != 0, 28), (fieldAt h 32 6 % 32 != 0, 32), (fieldAt h 38 6 % 64 != 0, 38),
    (fieldAt h 50 2 > 1024 || (fieldAt h 50 2 != 0 && fieldAt h 44 6 == 0), 50)] ++ resv h 7 1 ++ resv h 21 1 ++ resv h 62 2

/-- The fields of a layer record outside their ranges (R337, R321). -/
def layerBad (r : List Byte) : List (Bool × Nat) :=
  let absorbed := bitOf (byteAt r 28) 0
  let hq := byteAt r 14
  let hkv := byteAt r 15
  let dk := fieldAt r 16 2
  let dv := fieldAt r 18 2
  chk [(byteAt r 0 > 15, 0), (fieldAt r 8 6 % 32 != 0, 8), (hq == 0 || hq > 128, 14), (hkv == 0 || hq % hkv != 0 || (absorbed && hkv != 1), 15),
    (if absorbed then dk != 0 else dk % 16 != 0 || dk > 256, 16), (if absorbed then dv != 0 else dv % 16 != 0 || dv < 16 || dv > 256, 18),
    (fieldAt r 24 4 > 1048576, 24), (byteAt r 28 > 3, 28)] ++ resv r 1 3 ++ resv r 29 35

/-- The formats of a model's weights (R338). -/
def weightFmts (exact : Bool) : List Nat := if exact then cls8 else [0x0C, 0x0D]

/-- The rule of the scales of the weight in slot i (R338). -/
def scaleRule (bl : List Byte) (i : Nat) : SlotRule :=
  let r := slotRec bl i
  if !slotHere bl i then absent
  else if isMx r.fmt then ((need [0x11]).shape (r.rows / 32) r.cols).batches [1]
  else if is16 r.fmt then absent
  else ((may [0x0E]).shape 1 r.cols).batches [1]

/-- The rules of a layer parameter block (R338). -/
def layerRules (m : Model) (l : Layer) (ffn : Nat) : List SlotRule :=
  let vec := fun (q : SlotRule) => (q.shape 1 m.hidden).batches [1]
  let wt := fun (r c : Nat) => ((need (weightFmts m.exact)).shape r c).batches [1]
  let up := fun (n : Nat) => if l.absorbed || n == 0 then absent else ((need [0x0C]).shape l.kv.dl (l.hkv * n)).batches [1]
  let none4 := [absent, absent, absent, absent]
  let sc := scaleRule l.block
  [vec (need [0x0E]), vec (may [0x0E]), wt m.hidden (l.hq * l.w), wt m.hidden (l.kv.dl + l.kv.dr), up l.dk, up l.dv,
   wt (l.hq * l.ov) m.hidden, vec (need [0x0E]), vec (may [0x0E]), wt m.hidden ffn, wt m.hidden ffn, wt ffn m.hidden] ++ none4 ++
  [absent, absent, sc 2, sc 3, absent, absent, sc 6, absent, absent, sc 9, sc 10, sc 11] ++ none4

/-- The rules of a top block (R338). -/
def topRules (m : Model) : List SlotRule :=
  let vec := fun (q : SlotRule) => (q.shape 1 m.hidden).batches [1]
  [((need [0x0C, 0x0E]).shape m.vocab m.hidden).batches [1], vec (need [0x0E]), vec (may [0x0E]),
   ((need (weightFmts m.exact)).shape m.hidden m.vocab).batches [1], absent, absent, absent, scaleRule m.top 3]

/-- A chunk length that some ordered product of the model does not allow (R87). -/
def kcBad (m : Model) : Bool :=
  !m.exact && (m.kc > m.hidden || m.kc > fieldAt m.head 18 2 || m.layers.any (fun l => m.kc > l.hq * l.ov))

/-- A layer whose attention output does not split into MX blocks where the product with W_O is of MX elements (R74, R339). -/
def blockSplitBad (m : Model) : Bool := m.exact && m.layers.any (fun l => l.hq * l.ov % 32 != 0)

/-- The first offending byte of a variant table (R350, R12): VARIANT is not 0 and rises from entry to entry, bytes 10 to 15 are
reserved. -/
def variantsBad (last i : Nat) : List (List Byte) → Option Nat
  | [] => none
  | e :: es =>
    if fieldAt e 0 4 ≤ last then some (16 * i)
    else match firstBad (resv e 10 6) with
      | some o => some (16 * i + o)
      | none => variantsBad (fieldAt e 0 4) (i + 1) es

/-- The variant table of a model, entry by entry; a model without variants has none. -/
def State.variantTable (s : State) (p : Nat) (src : Option Nat) (h : List Byte) : Except Fail (List (List Byte)) :=
  if fieldAt h 50 2 = 0 then .ok [] else do .ok (chunksOf 16 (← s.readVa p src 0 (fieldAt h 44 6) (16 * fieldAt h 50 2)))

/-- Read and check the layers of a model. -/
def State.readLayers (s : State) (p : Nat) (src : Option Nat) : List (List Byte) → Except Fail (List Layer)
  | [] => .ok []
  | r :: rs =>
    match firstBad (layerBad r), s.kv? p (byteAt r 0) with
    | some o, _ => .error (badInBlock o)
    | none, none => .error (.status stIllegalState 0)
    | none, some k => do
      let b ← s.readVa p src 1 (fieldAt r 8 6) 1024
      let l : Layer := { r := r, block := b, kv := k }
      if !l.absorbed && (l.w > 256 || l.w == 0) then .error (badInBlock 16)
      else do .ok (l :: (← s.readLayers p src rs))

/-- Read and check a model table (R337, R338, R350). -/
def State.readModel (s : State) (p : Nat) (src : Option Nat) (va : Nat) : Except Fail Model := do
  let h ← s.readVa p src 0 va 64
  match firstBad (modelHeadBad h) with
  | some o => .error (badInBlock o)
  | none =>
    let top ← s.readVa p src 0 (fieldAt h 32 6) 256
    let recs ← s.readVa p src 0 (fieldAt h 38 6) (64 * fieldAt h 8 2)
    let vs ← s.variantTable p src h
    let ls ← s.readLayers p src (chunksOf 64 recs)
    let m : Model := { head := h, top := top, layers := ls }
    match (variantsBad 0 0 vs).or (firstBad (blockBad top (topRules m))), ls.findSome? (fun l => firstBad (blockBad l.block (layerRules m l (fieldAt h 18 2)))) with
    | some o, _ => .error (badInBlock o)
    | none, some o => .error (badInBlock o)
    | none, none =>
      if kcBad m then .error (badInBlock 28) else if blockSplitBad m then .error (badInBlock 18) else .ok m

/-- DELTA_VA of a variant of a model, 0 for the base; none when the table does not list it (R350). -/
def State.variantVa (s : State) (p : Nat) (src : Option Nat) (m : Model) (variant : Nat) : Except Fail (Option Nat) :=
  if variant = 0 then .ok (some 0) else do
    .ok (((← s.variantTable p src m.head).find? (fun e => fieldAt e 0 4 == variant)).map (fun e => fieldAt e 4 6))

/-- Pointer `i` of a delta set, 0 without one (R350). -/
def State.deltaPtr (s : State) (p : Nat) (src : Option Nat) (set i : Nat) : Except Fail Nat :=
  if set = 0 then .ok 0 else do .ok (leNat (← s.readVa p src 0 (set + 6 * i) 6))

/-- The slots of a layer block that hold weights. -/
def weightSlots : List Nat := [2, 3, 4, 5, 6, 9, 10, 11]

/-- A delta set's pointers are right for a model (R350, R351): its failure otherwise. -/
def State.deltaSetBad (s : State) (p : Nat) (src : Option Nat) (m : Model) (set : Nat) : Option Fail :=
  if set = 0 then none
  else
    let one := fun (bl : List Byte) (ok : Bool) (i slot : Nat) =>
      match s.deltaPtr p src set i with
      | .error f => some f
      | .ok va =>
        if va = 0 then none
        else if !ok || !slotHere bl slot then some (badInBlock (6 * i))
        else match s.readDelta p src va (slotRec bl slot).rows (slotRec bl slot).cols (slotRec bl slot).sparse with
          | .error f => some f
          | .ok _ => none
    (m.layers.zipIdx.findSome? (fun l => (List.range 16).findSome? (fun i =>
      one l.1.block (weightSlots.contains i) (16 * l.2 + i) i))) <|>
    (List.range 4).findSome? (fun i => one m.top (i == 3) (16 * m.layers.length + i) i)

/-! ### Products (R38, R79 to R87, R339, R352) -/

/-- A weight with its scales and its delta. -/
structure Weight where
  /-- The weight -/
  t : Tensor
  /-- E8M0 scales or a FP32 column scale -/
  sc : Option Tensor
  /-- The delta of the row's variant -/
  delta : Option Delta

/-- Read the weight of slot `i`, its scales in slot `j` and its delta at pointer `ptr` of a delta set. -/
def State.readWeight (s : State) (p : Nat) (src : Option Nat) (bl : List Byte) (i j set ptr : Nat) : Except Fail Weight := do
  let r := slotRec bl i
  let t ← s.readTensor p src i r
  let sc ← if slotHere bl j then (s.readTensor p src j (slotRec bl j)).map some else .ok none
  let d ← s.readDelta p src (← s.deltaPtr p src set ptr) r.rows r.cols r.sparse
  .ok ⟨t, sc, d⟩

/-- The value of a weight element under its block scale, and OUT_RANGE of its merge. -/
def Weight.at_ (w : Weight) (k c : Nat) : Num × Bool :=
  (weightOf w.t none (if isMx w.t.shape.fmt then w.sc else none) (fun _ => w.delta) 0 0 c k).getD (.fin false 0 0, false)

/-- The weight with its delta merged in, in its own 16-bit format. -/
def Weight.merged (w : Weight) : Tensor :=
  match w.delta with
  | none => w.t
  | some _ => w.t.shape.build (fun _ r c => (encodeElem w.t.shape.fmt .rne true 0 (w.at_ r c).1).1)

/-- An activation row as MXFP8 E4M3 operands (R95, R100). -/
def mxRow (x : List F32) : List Num :=
  (chunksOf 32 x).flatMap (fun b =>
    let ns := b.map F32.num
    let sc := (mxScale 0x06 ns).1
    ns.map (fun n => (elemNum 0x06 (mxElem 0x06 .rne sc n)).mul (scaleNum sc)))

/-- A row times a weight before its output conversion, and the flags of the product. -/
def Model.times (m : Model) (w : Weight) (x : List F32) : List Num × Nat :=
  let k := w.t.shape.rows
  let cols := (List.range w.t.shape.cols).map (fun c =>
    let ws := (List.range k).map (fun i => w.at_ i c)
    let above := flagIf (ws.any Prod.snd) cfOutRange
    if m.exact then
      let acc := ((mxRow x).zip ws).foldl (fun (a : Acc) y => a.product m.anchor (y.1.mul y.2.1)) {}
      let v := acc.value m.anchor
      let col := match w.sc with
        | some t => if isMx w.t.shape.fmt then Num.fin false 1 0 else t.num 0 0 c
        | none => .fin false 1 0
      (scaled true v.1 col, above ||| flagIf v.2.low cfWindowLow ||| flagIf v.2.high cfWindowHigh ||| flagIf v.2.specialIn cfSpecialIn)
    else
      let terms := (x.map F32.num).zip (ws.map Prod.fst)
      ((orderedSum m.kc terms f32Zero).num, above ||| flagIf (terms.any (fun y => y.1.special || y.2.special)) cfSpecialIn))
  (cols.map Prod.fst, cols.foldl (fun a y => a ||| y.2) 0)

/-- Values written in BF16, and OUT_RANGE. -/
def toBf (l : List Num) : List F32 × Nat :=
  let es := l.map (fun x => fmtBF16.encode .rne false x)
  (es.map (fun e => (fmtBF16.decode e.1).f32), flagIf (es.any Prod.snd) cfOutRange)

/-- A row times a weight, written in BF16. -/
def Model.timesBf (m : Model) (w : Weight) (x : List F32) : List F32 × Nat :=
  let r := m.times w x
  let b := toBf r.1
  (b.1, b.2 ||| r.2)

/-- A function over rows whose flags add up. -/
def mapFlags {α : Type} (f : α → List F32 × Nat) (l : List α) : List (List F32) × Nat :=
  let r := l.map f
  (r.map Prod.fst, r.foldl (fun a x => a ||| x.2) 0)

/-! ### The forward pass (R339, R340) -/

/-- The tensors of a layer for one variant. -/
structure LayerWeights where
  /-- Attention norm: γ and β -/
  an : List F32 × List F32
  /-- W_Q -/
  wq : Weight
  /-- W_KV -/
  wkv : Weight
  /-- W_UK and W_UV, deltas merged -/
  uk : Option Tensor
  /-- W_UV -/
  uv : Option Tensor
  /-- W_O -/
  wo : Weight
  /-- FFN norm -/
  fn : List F32 × List F32
  /-- W_GATE -/
  gate : Weight
  /-- W_UP -/
  up : Weight
  /-- W_DOWN -/
  down : Weight

/-- Read a vector of a block, zeros where the slot is absent. -/
def State.readVec (s : State) (p : Nat) (src : Option Nat) (bl : List Byte) (i n : Nat) : Except Fail (List F32) :=
  if slotHere bl i then do .ok ((← s.readTensor p src i (slotRec bl i)).logits 0) else .ok (List.replicate n f32Zero)

/-- Read the tensors of layer `l` for a delta set. -/
def State.layerWeights (s : State) (p : Nat) (src : Option Nat) (m : Model) (l : Nat) (x : Layer) (set : Nat) : Except Fail LayerWeights := do
  let w := fun (i : Nat) => s.readWeight p src x.block i (16 + i) set (16 * l + i)
  let opt := fun (i : Nat) => if slotHere x.block i then (w i).map (fun y => some y.merged) else .ok none
  .ok { an := (← s.readVec p src x.block 0 m.hidden, ← s.readVec p src x.block 1 m.hidden), wq := ← w 2, wkv := ← w 3,
        uk := ← opt 4, uv := ← opt 5, wo := ← w 6,
        fn := (← s.readVec p src x.block 7 m.hidden, ← s.readVec p src x.block 8 m.hidden), gate := ← w 9, up := ← w 10, down := ← w 11 }

/-- The rows of one plan entry on their way through a model. -/
structure Job where
  /-- Plan entry index -/
  ent : Nat
  /-- Plan sequence -/
  seq : Nat
  /-- VARIANT -/
  variant : Nat
  /-- The delta set, 0 for the base -/
  set : Nat
  /-- POOL -/
  pool : Nat
  /-- Tokens processed -/
  toks : List Nat
  /-- h, row by row -/
  hs : List (List F32) := []
  /-- Flags so far -/
  flags : Nat := 0

/-- What a step's work gives, or its failure with the state it leaves (R349). -/
abbrev StepM (α : Type) := Except (Fail × State) α

/-- A reading step of a generation step. -/
def State.lift {α : Type} (s : State) (x : Except Fail α) : StepM α :=
  match x with | .ok a => .ok a | .error f => .error (f, s)

/-- A BF16 tensor of rows of values. -/
def bfTensor (rows : List (List F32)) (cols : Nat) : Tensor :=
  let r : TRec := { va := 0, fmt := 0x0C, trans := false, sparse := false, rows := rows.length, cols := cols, pitch := 0, batch := 1, bpitch := 0 }
  r.build (fun _ i j => (fmtBF16.encode .rne false ((rows.getD i []).getD j f32Zero).num).1)

/-- Append a job's latents and side keys to its sequence of a layer (R330, R340). -/
def State.layerAppend (s : State) (src : Option Nat) (m : Model) (l : Nat) (x : Layer) (index : Bool) (j : Job) (cs : List (List F32)) :
    StepM (State × Nat) :=
  let k := x.kv
  let s := s.kvNow k
  let e : AppendEntry := { seq := j.seq + x.seqBase, keep := kvNone, count := j.toks.length, row := 0,
                           model := l * 2 ^ 24 + m.id, variant := j.variant, pool := j.pool }
  match s.appendRecords k index [e] (fun i => j.toks.getD i 0) with
  | none => .error (.status stNotAdmitted 0, s)
  | some a =>
    let data : AppendData := { lat := bfTensor (cs.map (fun c => c.take k.dl)) k.dl,
                               side := if k.dr = 0 then none else some (bfTensor (cs.map (fun c => c.drop k.dl)) k.dr), sr := false, seed := 0 }
    match a.st.writeTokens k src data a.toks.reverse false with
    | .ok r => .ok (r.1.settle k s s.now, flagIf r.2 cfOutRange)
    | .error f => .error (f, ((a.st.spoilTokens k (a.toks.map (fun t => (t.page, t.idx)))).settle k s s.now))

/-- A job's attention in a layer (R339): the rows of o, and its flags. -/
def State.layerAttend (s : State) (p : Nat) (src : Option Nat) (x : Layer) (w : LayerWeights) (j : Job) (qs : List (List F32)) :
    Except Fail (List (List F32) × Nat) := do
  let k := x.kv
  let d := x.attend j.toks.length
  let q := attShape d (some k)
  let a : AttData := { q := bfTensor qs (x.hq * x.w), k := w.uk, v := w.uv, rope := none, bitmap := none }
  let sq := j.seq + x.seqBase
  let xs ← s.attSeqs p src d q a 0 [(s.seqLen k sq, j.toks.length, s.seqPages k sq)]
  let rows ← s.attRows p src d q a 0x0C 0 xs (List.range j.toks.length)
  let all := rows.flatMap id
  let special := all.any (fun r => r.special) || xs.any (fun y => y.blocks.any (fun b => b.2.special))
  .ok (rows.map (fun r => r.flatMap (fun h => h.out.map (fun e => (fmtBF16.decode e).f32))),
    flagIf (all.any (fun r => r.above)) cfOutRange ||| flagIf special cfSpecialIn)

/-- The addition of a row to h. -/
def addRow (h y : List F32) : List F32 := (h.zip y).map (fun x => fAdd x.1 x.2)

/-- One layer for one job (R339). -/
def State.layerJob (s : State) (p : Nat) (src : Option Nat) (m : Model) (l : Nat) (x : Layer) (index : Bool) (j : Job) : StepM (State × Job) := do
  let w ← s.lift (s.layerWeights p src m l x j.set)
  let norm := fun (v : List F32 × List F32) (h : List F32) => toBf ((normRow m.rms m.eps h v.1 v.2).map F32.num)
  let as_ := mapFlags (norm w.an) j.hs
  let qs := mapFlags (m.timesBf w.wq) as_.1
  let cs := mapFlags (m.timesBf w.wkv) as_.1
  let (s, fa) ← s.layerAppend src m l x index j cs.1
  let o ← s.lift (s.layerAttend p src x w j qs.1)
  let os := mapFlags (m.timesBf w.wo) o.1
  let h1 := (j.hs.zip os.1).map (fun y => addRow y.1 y.2)
  let fs := mapFlags (norm w.fn) h1
  let act := if bitOf (byteAt x.r 28) 1 then 0x21 else 0x20
  let gs := mapFlags (fun f =>
    let a := m.timesBf w.gate f
    let b := m.timesBf w.up f
    let g := toBf ((a.1.zip b.1).map (fun y => (eltOp act y.1 y.2 f32Zero f32Zero f32Zero).num))
    (g.1, g.2 ||| a.2 ||| b.2)) fs.1
  let ds := mapFlags (m.timesBf w.down) gs.1
  .ok (s, { j with hs := (h1.zip ds.1).map (fun y => addRow y.1 y.2),
                   flags := j.flags ||| as_.2 ||| qs.2 ||| cs.2 ||| fa ||| o.2 ||| os.2 ||| fs.2 ||| gs.2 ||| ds.2 })

/-- One layer for every job in turn. -/
def State.layerJobs (s : State) (p : Nat) (src : Option Nat) (m : Model) (l : Nat) (x : Layer) (index : Bool) : List Job → StepM (State × List Job)
  | [] => .ok (s, [])
  | j :: js => do
    let (s, j) ← s.layerJob p src m l x index j
    let (s, js) ← s.layerJobs p src m l x index js
    .ok (s, j :: js)

/-- Every layer in order. -/
def State.layersRun (s : State) (p : Nat) (src : Option Nat) (m : Model) (index : Bool) : List (Layer × Nat) → List Job → StepM (State × List Job)
  | [], js => .ok (s, js)
  | l :: ls, js => do
    let (s, js) ← s.layerJobs p src m l.2 l.1 index js
    s.layersRun p src m index ls js

/-- The embedding row of a token, widened to FP32 (R339). -/
def embedRow (t : Tensor) (tok : Nat) : List F32 :=
  (List.range t.shape.cols).map (fun c => if tok < t.shape.rows then t.f32 0 tok c else Config.embedding tok c)

/-- Run a model over jobs (R339). -/
def State.modelRun (s : State) (p : Nat) (src : Option Nat) (m : Model) (index : Bool) (js : List Job) : StepM (State × List Job) := do
  let t ← s.lift (s.readTensor p src 0 (slotRec m.top 0))
  s.layersRun p src m index m.layers.zipIdx (js.map (fun j => { j with hs := j.toks.map (embedRow t) }))

/-- The logits of a row h, and their flags (R339). -/
def State.logitsOf (s : State) (p : Nat) (src : Option Nat) (m : Model) (set : Nat) (h : List F32) : Except Fail (List F32 × Nat) := do
  let g ← s.readVec p src m.top 1 m.hidden
  let b ← s.readVec p src m.top 2 m.hidden
  let w ← s.readWeight p src m.top 3 7 set (16 * m.layers.length + 3)
  let x := toBf ((normRow m.rms m.eps h g b).map F32.num)
  let r := m.times w x.1
  let es := r.1.map (fun y => fmtFP32.encode .rne false y)
  .ok (es.map (fun e => BitVec.ofNat 32 e.1), x.2 ||| r.2 ||| flagIf (es.any Prod.snd) cfOutRange)

/-- The logits of several rows. -/
def State.logitRows (s : State) (p : Nat) (src : Option Nat) (m : Model) (set : Nat) : List (List F32) → Except Fail (List (List F32) × Nat)
  | [] => .ok ([], 0)
  | h :: hs => do
    let a ← s.logitsOf p src m set h
    let b ← s.logitRows p src m set hs
    .ok (a.1 :: b.1, a.2 ||| b.2)

end Sys2Proof.Machine
end

