-- ==== Sys2Proof/Machine/Serve.lean ====
section
/-! DEFINITION. STEP and CANCEL: step plans, serving states, drafting, emission, the token ring and the end of requests (R334
to R336, R341 to R349, R357 to R363, R366 to R368). -/

namespace Sys2Proof.Machine

/-! ### The plan (R341 to R344) -/

/-- A plan entry with its index. -/
structure PlanEntry where
  /-- Its index -/
  idx : Nat
  /-- Its 64 bytes -/
  b : List Byte

namespace PlanEntry

/-- SEQ. -/
def seq (e : PlanEntry) : Nat := fieldAt e.b 0 4
/-- DECODE. -/
def decode (e : PlanEntry) : Bool := bitOf (byteAt e.b 4) 0
/-- PREFILL. -/
def prefill (e : PlanEntry) : Bool := bitOf (byteAt e.b 4) 1
/-- LAST_CHUNK. -/
def last (e : PlanEntry) : Bool := bitOf (byteAt e.b 4) 2
/-- NEW. -/
def new (e : PlanEntry) : Bool := bitOf (byteAt e.b 4) 3
/-- DRAFT_LEN. -/
def draftLen (e : PlanEntry) : Nat := byteAt e.b 5
/-- POOL. -/
def pool (e : PlanEntry) : Nat := byteAt e.b 6
/-- CHUNK_OFF. -/
def off (e : PlanEntry) : Nat := fieldAt e.b 8 4
/-- CHUNK_LEN. -/
def chunk (e : PlanEntry) : Nat := fieldAt e.b 12 4
/-- KEEP_LEN. -/
def keep (e : PlanEntry) : Nat := fieldAt e.b 16 4
/-- VARIANT. -/
def variant (e : PlanEntry) : Nat := fieldAt e.b 20 4
/-- END_ACTION. -/
def action (e : PlanEntry) : Nat := byteAt e.b 24
/-- PARK_TTL_S. -/
def ttl (e : PlanEntry) : Nat := fieldAt e.b 28 4
/-- The entry emits a token (R343). -/
def emits (e : PlanEntry) : Bool := !e.prefill || e.last
/-- It is a decode entry: DECODE without PREFILL. -/
def decodes (e : PlanEntry) : Bool := e.decode && !e.prefill

end PlanEntry

/-- A step plan with all that check 7 reads. -/
structure Plan where
  /-- The header -/
  h : List Byte
  /-- The entries -/
  es : List PlanEntry
  /-- The main model -/
  main : Model
  /-- The draft model -/
  draft : Option Model
  /-- The sampling records' bytes, one per entry -/
  recs : List (List Byte)

namespace Plan

/-- STATE_VA. -/
def stateVa (q : Plan) : Nat := fieldAt q.h 40 6
/-- The address of an entry's serving state (R345). -/
def serving (q : Plan) (e : PlanEntry) : Nat := q.stateVa + 128 * e.seq
/-- RESULT_VA. -/
def resultVa (q : Plan) : Nat := fieldAt q.h 46 6
/-- TOKEN_BUDGET. -/
def budget (q : Plan) : Nat := fieldAt q.h 8 4
/-- INDEX. -/
def index (q : Plan) : Bool := bitOf (byteAt q.h 12) 0
/-- MODEL_VA and DRAFT_VA. -/
def models (q : Plan) : List Nat := [fieldAt q.h 16 6] ++ (if q.draft.isSome then [fieldAt q.h 22 6] else [])
/-- Every layer, main then draft. -/
def layers (q : Plan) : List Layer := q.main.layers ++ (match q.draft with | some m => m.layers | none => [])

end Plan

/-- The fields of a plan header outside their ranges (R342). -/
def planHeadBad (h : List Byte) : List (Bool × Nat) :=
  let n := fieldAt h 4 2
  chk [(fieldAt h 0 4 != 1, 0), (n == 0 || n > 1024, 4), (byteAt h 6 > 63 && byteAt h 6 != 0xFF, 6),
    (byteAt h 7 > 63 && byteAt h 7 != 0xFF, 7), (fieldAt h 8 4 == 0 || fieldAt h 8 4 > 65536, 8), (byteAt h 12 > 1, 12),
    ((fieldAt h 22 6 == 0) != (byteAt h 7 == 0xFF), 22)] ++ resv h 13 3 ++ resv h 52 12

/-- The fields of a plan entry outside their ranges (R343, R344), as offsets in the entry. -/
def planEntryBad (tiles : List Nat) (b : List Byte) : List (Bool × Nat) :=
  let e : PlanEntry := ⟨0, b⟩
  chk [(e.seq > 65535, 0), (byteAt b 4 > 15 || (!e.decode && !e.prefill) || (!e.prefill && e.last), 4),
    (e.draftLen > 8 || (e.prefill && e.draftLen != 0), 5), (e.pool > 7, 6), (byteAt b 7 != 0xFF && !tiles.contains (byteAt b 7), 7),
    (if e.prefill then e.chunk == 0 || e.chunk > 8192 || (!e.last && e.chunk % 64 != 0) else e.chunk != 0, 12), (e.action > 2, 24),
    (e.action == 2 && (e.ttl == 0 || e.ttl > 604800), 28)] ++ resv b 25 3 ++ resv b 32 32

/-- The tokens that an entry may process, for the budget (R344). -/
def PlanEntry.cost (e : PlanEntry) : Nat := e.chunk + (if e.decode then 1 + e.draftLen else 0)

/-- The faults of a plan's entries (R344), as offsets in the plan. -/
def planBad (h : List Byte) (tiles : List Nat) (es : List PlanEntry) : List (Bool × Nat) :=
  es.flatMap (fun e => (planEntryBad tiles e.b ++ chk [((es.take e.idx).any (fun x => x.seq == e.seq), 0),
    (((es.take (e.idx + 1)).map PlanEntry.variant).eraseDups.length > 64, 20)]).map (fun x => (x.1, 64 + 64 * e.idx + x.2))) ++
  chk [(es.foldl (fun a e => a + e.cost) 0 > fieldAt h 8 4, 8)]

/-- The role of an engine's image: 1 prefill, 2 decode, 3 draft, 4 blended (R334). -/
def State.roleOf (s : State) (p e : Nat) : Nat :=
  match s.engine? p e with
  | some x => match s.imageOf x with | some i => i.role | none => 0
  | none => 0

/-- A named engine breaks R334. -/
def State.rolesBad (s : State) (p : Nat) (d : Desc) (h : List Byte) (es : List PlanEntry) : Bool :=
  let pre := byteAt h 6
  let dr := byteAt h 7
  let role := s.roleOf p d.engine
  (role != 2 && role != 4) || (pre != 0xFF && (s.roleOf p pre != 1 || pre == d.engine)) ||
    (dr != 0xFF && (s.roleOf p dr != 3 || dr == d.engine)) || (pre == 0xFF && role == 2 && es.any PlanEntry.prefill)

/-- Read each variant of a model that entries name and check its deltas. -/
def State.variantsBad (s : State) (p : Nat) (src : Option Nat) (m : Model) (must : Bool) (es : List PlanEntry) : Option Fail :=
  es.findSome? (fun e => match s.variantVa p src m e.variant with
    | .error f => some f
    | .ok none => if must then some (badInBlock (64 + 64 * e.idx + 20)) else none
    | .ok (some set) => s.deltaSetBad p src m set)

/-- Read a plan and all that it names, with the checks of R344 on fields. -/
def State.readPlan (s : State) (p : Nat) (d : Desc) : Except Fail Plan := do
  let src := s.srcOf p d
  let h ← s.readVa p src 0 (d.fld 16 6) 64
  match firstBad (planHeadBad h) with
  | some o => .error (badInBlock o)
  | none =>
    let b ← s.readVa p src 0 (d.fld 16 6 + 64) (64 * fieldAt h 4 2)
    let es := (chunksOf 64 b).zipIdx.map (fun x => ({ idx := x.2, b := x.1 } : PlanEntry))
    let tiles := match s.engine? p d.engine with | some e => e.tiles | none => []
    match firstBad (planBad h tiles es) with
    | some o => .error (badInBlock o)
    | none =>
      let m ← s.readModel p src (fieldAt h 16 6)
      let dr ← if byteAt h 7 = 0xFF then .ok none else (s.readModel p src (fieldAt h 22 6)).map some
      let recs := chunksOf 128 (← s.readVa p src 0 (fieldAt h 34 6) (128 * es.length))
      let pools := es.findSome? (fun e => if (m.layers ++ (match dr with | some x => x.layers | none => [])).any (fun l =>
        l.kv.poolKind e.pool == 0) then some (64 + 64 * e.idx + 6) else none)
      let seqs := es.findSome? (fun e => if (m.layers ++ (match dr with | some x => x.layers | none => [])).any (fun l =>
        e.seq + l.seqBase ≥ l.kv.seqMax) then some (64 + 64 * e.idx) else none)
      let pair := match dr with
        | some x => if x.vocab != m.vocab then some 12 else if x.id == m.id then some 4 else none
        | none => none
      match pools, seqs, pair, firstBad (sampsBad m.vocab recs) with
      | some o, _, _, _ => .error (badInBlock o)
      | none, some o, _, _ => .error (badInBlock o)
      | none, none, some o, _ => .error (badInBlock o)
      | none, none, none, some o => .error (badInBlock o)
      | none, none, none, none => do
        let _ ← s.readSamps p src 0 m.vocab recs
        match s.variantsBad p src m true es, dr.bind (fun x => s.variantsBad p src x false es) with
        | some f, _ => .error f
        | none, some f => .error f
        | none, none => .ok { h := h, es := es, main := m, draft := dr, recs := recs }

/-! ### Serving states (R345) -/

/-- A serving state's 128 bytes, with NEW's effects applied for an entry that carries it (R345). -/
def freshServing (new : Bool) (b : List Byte) : List Byte :=
  if new then overlay (overlay b 0 (zeros 2 ++ [8#8] ++ zeros 2)) 12 (zeros 4) |> (fun x => overlay x 20 (List.replicate 28 0xFF#8)) else b

/-- What an entry copies into the record when it runs (R345). -/
def copiedServing (q : Plan) (e : PlanEntry) (b : List Byte) : List Byte :=
  overlay (overlay (overlay b 5 [e.b.getD 24 0#8]) 16 (sliceOf e.b 28 4)) 48 (sliceOf q.h 16 12)

/-- PENDING of a serving state. -/
def pendingOf (b : List Byte) : Nat := fieldAt b 8 4

/-- GENERATED of a serving state. -/
def generatedOf (b : List Byte) : Nat := fieldAt b 12 4

/-- HIST of a serving state, oldest first. -/
def histOf (b : List Byte) : List Nat := (List.range 7).map (fun i => fieldAt b (20 + 4 * i) 4)

/-- A layer sequence of an entry: (LEN, STATE). -/
def State.layerSeq (s : State) (l : Layer) (seq : Nat) : Nat × Nat :=
  let q := seq + l.seqBase
  let st := s.seqState l.kv q
  (if st = 0 then 0 else s.seqLen l.kv q, st)

/-- The length of an entry's sequences in a model after its KEEP_LEN. -/
def State.startLen (s : State) (m : Model) (e : PlanEntry) : Nat :=
  match m.layers with
  | l :: _ => let n := (s.layerSeq l e.seq).1; if e.keep = kvNone then n else Nat.min e.keep n
  | [] => 0

/-- The layer sequences of an entry in a model: some are not usable, or they differ in LEN. -/
def State.layersBad (s : State) (m : Model) (seq : Nat) : Bool :=
  m.layers.any (fun l => (s.layerSeq l seq).2 > 1) ||
    m.layers.any (fun l => (s.layerSeq l seq).1 != (match m.layers with | x :: _ => (s.layerSeq x seq).1 | [] => 0))

/-- The number of drafts of an entry before catch-up (R361, R363), and whether it is a probe. -/
def draftCount (q : Plan) (e : PlanEntry) (serving r : List Byte) (len : Nat) : Nat × Bool :=
  let cap := byteAt serving 2 % 16
  let probe := cap == 0 && e.decodes && e.draftLen > 0 && byteAt serving 4 % 32 == 31
  let top := if probe then 2 else cap
  let room := fieldAt r 40 4 - generatedOf serving - 1
  if !e.decodes || q.draft.isNone || bitOf (byteAt r 6) 1 then (0, probe)
  else (Nat.min (Nat.min e.draftLen top) (Nat.min room (1048575 - len)), probe)

/-- Room for everything that a model's layers append for a list of (entry, tokens): the state with the records in, none where
pools, records or chunks run out. -/
def State.tryAppends (s : State) (m : Model) (js : List (PlanEntry × Nat)) : Option State :=
  m.layers.foldl (fun (a : Option State) l => js.foldl (fun (a : Option State) j => a.bind (fun t =>
    let keep := if j.1.keep ≤ (t.layerSeq l j.1.seq).1 then j.1.keep else kvNone
    (t.appendRecords l.kv false
      [{ seq := j.1.seq + l.seqBase, keep := keep, count := j.2, row := 0, model := 0, variant := 0, pool := j.1.pool }]
      (fun _ => 0)).map (fun x => x.st))) a) (some s)

/-- The serving state of an entry with NEW's effects. -/
def State.stepFresh (s : State) (p : Nat) (q : Plan) (e : PlanEntry) : List Byte := freshServing e.new (s.peekVa p (q.serving e) 128)

/-- The drafts that an entry would make. -/
def State.stepDrafts (s : State) (p : Nat) (q : Plan) (e : PlanEntry) : Nat :=
  (draftCount q e (s.stepFresh p q e) (q.recs.getD e.idx []) (s.startLen q.main e)).1

/-- The tokens that an entry would append. -/
def State.stepCount (s : State) (p : Nat) (q : Plan) (e : PlanEntry) : Nat :=
  e.chunk + (if e.decode then 1 + s.stepDrafts p q e else 0)

/-- An entry whose sequences or serving state do not admit it (R344, R345). -/
def State.stepEntryBad (s : State) (p : Nat) (q : Plan) (e : PlanEntry) : Bool :=
  let serving := s.peekVa p (q.serving e) 128
  s.layersBad q.main e.seq || (match q.draft with | some m => s.layersBad m e.seq | none => false) ||
    (e.keep != kvNone && q.main.layers.any (fun l => e.keep > (s.layerSeq l e.seq).1)) ||
    (e.decode && pendingOf serving == noToken) || (!e.new && bitOf (byteAt serving 0) 0) ||
    s.startLen q.main e + s.stepCount p q e > 1048576

/-- Another STEP that is not complete has a serving state or a model of the plan (R337, R345). -/
def State.stepClash (s : State) (p : Nat) (d : Desc) (q : Plan) : Bool :=
  ((s.part p).running.filter (fun r => r.num != d.num)).any (fun r =>
    (r.stateVa == q.stateVa && q.es.any (fun e => r.seqs.contains e.seq)) || q.models.any (fun v => r.models.contains v))

/-- A model's workspace is smaller than the release manifest asks (R337). -/
def Plan.workShort (q : Plan) : Bool :=
  (q.main :: q.draft.toList).any (fun m => m.workBytes < (Config.leastWork m.id q.budget).toNat)

/-- Pools, records and chunks suffice for all that a plan may append (R344). -/
def State.stepRoom (s : State) (p : Nat) (q : Plan) : Bool :=
  let main := s.tryAppends q.main (q.es.map (fun e => (e, s.stepCount p q e)))
  (match q.draft with
    | some m => main.bind (fun t => t.tryAppends m ((q.es.filter (fun e => s.stepDrafts p q e > 0)).map (fun e =>
        (e, Nat.min 8192 (s.startLen q.main e - s.startLen m e) + s.stepDrafts p q e))))
    | none => main).isSome

/-- Check 6 of STEP on its entries, with room (R344). -/
def State.stepBad (s : State) (p : Nat) (d : Desc) (q : Plan) : Option Fail :=
  match q.es.find? (s.stepEntryBad p q) with
  | some e => some (.status stIllegalState e.idx)
  | none =>
    if s.stepClash p d q then some (.status stIllegalState 0)
    else if q.workShort || !s.stepRoom p q then some (.status stNotAdmitted 0)
    else none

/-- Checks 6 and 7 of STEP (R334, R344). -/
def State.stepCheck (s : State) (p : Nat) (d : Desc) : Option Fail :=
  match s.readPlan p d with
  | .error f => some f
  | .ok q =>
    if s.rolesBad p d q.h q.es then some (.status stIllegalState 0)
    else match s.stepBad p d q with
      | some f => some f
      | none =>
        match s.resolve p (s.srcOf p d) 0 q.resultVa (64 * q.es.length) true with
        | .error f => some f
        | .ok _ => s.digestReach p d

/-! ### Phases (R347, R361) -/

/-- An entry on its way through a step. -/
structure Work where
  /-- The plan entry -/
  e : PlanEntry
  /-- Its serving state at the start of the step -/
  was : List Byte
  /-- Its serving state with NEW's effects -/
  serving : List Byte
  /-- Its sampling record -/
  samp : Samp
  /-- L -/
  len : Nat
  /-- The main variant's delta set -/
  set : Nat
  /-- The draft variant's delta set -/
  dset : Nat
  /-- It is a probe (R363) -/
  probe : Bool
  /-- The drafts with their distributions -/
  drafts : List (Nat × Dist) := []
  /-- The chunk's tokens -/
  chunk : List Nat := []
  /-- What it emits, before stop conditions: tokens with whether step 6 applied -/
  out : List (Nat × Bool) := []
  /-- Drafts accepted -/
  accepted : Nat := 0
  /-- Flags -/
  flags : Nat := 0

/-- The tokens that a step's main pass processes for an entry (R343). -/
def Work.toks (w : Work) : List Nat :=
  (if w.e.decode then [pendingOf w.was] else []) ++ (if w.e.prefill then w.chunk else w.drafts.map Prod.fst)

/-- Phase 1: KEEP_LEN of every entry on every layer sequence of a model (R347). -/
def State.stepTruncate (s : State) (m : Model) (es : List PlanEntry) : State :=
  m.layers.zipIdx.foldl (fun (s : State) l => es.foldl (fun (s : State) e =>
    let k := l.1.kv
    let t := s.kvNow k
    let keep := if e.keep ≤ (t.layerSeq l.1 e.seq).1 then e.keep else kvNone
    match t.appendRecords k false [{ seq := e.seq + l.1.seqBase, keep := keep, count := 0, row := 0, model := l.2 * 2 ^ 24 + m.id,
                                     variant := e.variant, pool := e.pool }] (fun _ => 0) with
    | some a => a.st.settle k t t.now
    | none => s) s) s

/-- Truncate an entry's sequences in a model to a length (R307). -/
def State.stepCut (s : State) (m : Model) (seq len : Nat) : State :=
  m.layers.foldl (fun (s : State) l =>
    let q := seq + l.seqBase
    if s.seqState l.kv q = 1 ∧ len < s.seqLen l.kv q then
      let t := s.kvNow l.kv
      (t.truncateSeq l.kv q len).settle l.kv t t.now
    else s) s

/-- Token ids of a sequence of layer 0 at positions from `a` on (R297, R361). -/
def State.cacheToks (s : State) (l : Layer) (seq a n : Nat) : List Nat :=
  (List.range n).map (fun i =>
    let at_ := a + i
    fieldAt (s.pgTokens l.kv (s.seqPage l.kv (seq + l.seqBase) (at_ / 64))) (4 * (at_ % 64)) 4)

/-- Propose the drafts of an entry one by one (R361). -/
def State.propose (s : State) (p : Nat) (src : Option Nat) (m : Model) (index : Bool) (w : Work) : Nat → Nat → StepM (State × Work)
  | 0, _ => .ok (s, w)
  | n + 1, tok => do
    let at_ := w.len + w.drafts.length
    let j : Job := { ent := w.e.idx, seq := w.e.seq, variant := w.e.variant, set := w.dset, pool := w.e.pool, toks := [tok] }
    let (s, js) ← s.modelRun p src m index [j]
    let j := js.headD j
    let z ← s.lift (s.logitsOf p src m w.dset (j.hs.headD []))
    let dist := w.samp.dist (w.drafts.map Prod.fst) z.1
    let x := dist.draw (w.samp.word (at_ + 1) 0x52 0)
    s.propose p src m index { w with drafts := w.drafts ++ [(x, dist)], flags := w.flags ||| j.flags ||| z.2 ||| flagIf dist.special cfSpecialIn } n x

/-- Phase 2 for one entry: the draft engine catches up and proposes (R361). -/
def State.draftWork (s : State) (p : Nat) (src : Option Nat) (q : Plan) (m : Model) (w : Work) (d : Nat) : StepM (State × Work) :=
  if d = 0 then .ok (s, w)
  else
    match m.layers, q.main.layers with
    | l :: _, x :: _ => do
      let have_ := (s.layerSeq l w.e.seq).1
      let n := Nat.min 8192 (w.len - have_)
      let j : Job := { ent := w.e.idx, seq := w.e.seq, variant := w.e.variant, set := w.dset, pool := w.e.pool, toks := s.cacheToks x w.e.seq have_ n }
      let (s, js) ← if n = 0 then .ok (s, [j]) else s.modelRun p src m q.index [j]
      let w := { w with flags := w.flags ||| (js.headD j).flags }
      if have_ + n < w.len then .ok (s, w) else s.propose p src m q.index w d (pendingOf w.was)
    | _, _ => .ok (s, w)

/-- Phase 2 for every entry. -/
def State.draftAll (s : State) (p : Nat) (src : Option Nat) (q : Plan) : List Work → StepM (State × List Work)
  | [] => .ok (s, [])
  | w :: ws => do
    let d := draftCount q w.e w.serving w.samp.r w.len
    let (s, w) ← match q.draft with | some m => s.draftWork p src q m w d.1 | none => .ok (s, w)
    let (s, ws) ← s.draftAll p src q ws
    .ok (s, w :: ws)

/-- Phase 4 for one entry (R347, R355, R362): its logits and its choice. -/
def State.chooseWork (s : State) (p : Nat) (src : Option Nat) (q : Plan) (w : Work) (j : Job) : Except Fail Work := do
  let w := { w with flags := w.flags ||| j.flags }
  if !w.e.emits then .ok w
  else
    let rows := if w.e.prefill then j.hs.drop (j.hs.length - 1) else j.hs
    let z ← s.logitRows p src q.main w.set rows
    let extra := if bitOf (byteAt w.samp.r 6) 0 then w.chunk else []
    let at_ := if w.e.prefill then w.len + w.toks.length else w.len + 1
    let v := w.samp.verify at_ extra w.drafts z.1
    .ok { w with out := v.toks, accepted := v.accepted, flags := w.flags ||| z.2 ||| flagIf v.special cfSpecialIn }

/-- Phase 4 for every entry. -/
def State.chooseAll (s : State) (p : Nat) (src : Option Nat) (q : Plan) : List (Work × Job) → Except Fail (List Work)
  | [] => .ok []
  | x :: xs => do
    let w ← s.chooseWork p src q x.1 x.2
    let ws ← s.chooseAll p src q xs
    .ok (w :: ws)

/-! ### Stop conditions and emission (R357 to R360, R363) -/

/-- The end reason of R359 after an emitted token: `last` the tokens emitted so far with HIST, oldest first, the token last;
`gen` GENERATED with it; `at_` its position. -/
def endReason (c : Samp) (last : List Nat) (gen at_ tok : Nat) (masked : Bool) : Nat :=
  if !bitOf (byteAt c.r 6) 2 && (tok == c.eos0 || tok == fieldAt c.r 48 4) then 1
  else if c.stops.any (fun x => last.drop (last.length - x.length) == x && last.length ≥ x.length) then 2
  else if gen ≥ c.maxTokens then 3
  else if at_ + 1 > 1048576 then 5
  else if masked then 6 else 0

/-- The tokens that are emitted up to the first end reason, and that reason. -/
def emitUpTo (c : Samp) : (hist : List Nat) → (gen at_ : Nat) → List (Nat × Bool) → List Nat × Nat
  | _, _, _, [] => ([], 0)
  | hist, gen, at_, (t, m) :: rest =>
    let why := endReason c (hist ++ [t]) (gen + 1) at_ t m
    if why ≠ 0 then ([t], why)
    else let r := emitUpTo c (hist ++ [t]) (gen + 1) (at_ + 1) rest; (t :: r.1, r.2)

/-- CAP, MISS_RUN, FULL_RUN and PROBE after a step (R363): `d` drafts, `a` accepted. -/
def adaptCap (e : PlanEntry) (probe : Bool) (cap miss full count d a : Nat) : Nat × Nat × Nat × Nat :=
  let count := if cap = 0 ∧ e.decodes = true ∧ e.draftLen > 0 then (count + 1) % 32 else count
  if d = 0 then (cap, miss, full, count)
  else
    let r := if a = 0 then (if miss + 1 = 4 then (cap / 2, 0, 0) else (cap, miss + 1, 0))
      else if a = d then (if full + 1 = 4 then (Nat.min 8 (2 * cap), 0, 0) else (cap, 0, full + 1))
      else (cap, 0, 0)
    let cap' := if probe && decide (a ≥ 1) then 2 else r.1
    (cap', r.2.1, r.2.2, if cap' = 0 ∧ cap ≠ 0 then 0 else count)

/-- An entry of a token ring (R358). -/
def ringEntry (log2 tok n why : Nat) : List Byte :=
  toLe 4 tok ++ toLe 3 (n % 2 ^ 24) ++ toLe 1 (why + 128 * b2n (n / 2 ^ log2 % 2 == 0))

/-- Write one entry of a token ring (R358, R460). -/
def State.ringWrite (s : State) (p addr log2 n tok why : Nat) : State :=
  let size := 2 ^ log2
  let slot := n % size
  s.putUnit p 4 0 slot (some 7) (addr + 8 * slot) (addr + pageUp (8 * size) + 32 * slot) (ringEntry log2 tok n why)

/-- Write a run of tokens to a ring from INDEX n on; the last carries the end reason. -/
def State.ringTokens (s : State) (p addr log2 : Nat) : Nat → List Nat → Nat → State
  | _, [], _ => s
  | n, [t], why => s.ringWrite p addr log2 n t why
  | n, t :: ts, why => (s.ringWrite p addr log2 n t 0).ringTokens p addr log2 (n + 1) ts why

/-- Apply an END_ACTION to one layer sequence (R360). -/
def State.endLayer (s : State) (p seq action ttl i : Nat) (l : Layer) : State :=
  let k := l.kv
  let q := seq + l.seqBase
  let t := s.kvNow k
  if action = 1 then (if t.seqState k q = 0 then s else (t.freeSeq k q).1.settle k t t.now)
  else if action = 2 then
    match t.parkBad k q with
    | some st => s.raise p 0xB9 (toLe 4 seq ++ toLe 1 i ++ toLe 1 st)
    | none => (t.parkSeq k q ttl).1.settle k t t.now
  else s

/-- Apply an END_ACTION to the layer sequences of models in order (R360). -/
def State.endAction (s : State) (p seq action ttl : Nat) (ms : List Model) : State :=
  ms.foldl (fun (s : State) m => m.layers.zipIdx.foldl (fun (s : State) l =>
    if (s.layerSeq l.1 seq).2 = 0 then s else s.endLayer p seq action ttl l.2 l.1) s) s

/-- The CANCELs in progress on a serving state (R366). -/
def State.cancelsOn (s : State) (p va : Nat) : List Desc :=
  (s.part p).fetched.filter (fun d => isOp 0x53 d && d.startedAt.isSome && d.fld 16 6 + 128 * d.fld 24 4 == va)

/-- Add one to the count of each of a list of tokens, saturating (R357). -/
def State.countTokens (s : State) (p va : Nat) (l : List Nat) : State :=
  l.foldl (fun (s : State) t => s.tryWriteVa p (va + 4 * t) (toLe 4 (satTo 32 (leNat (s.peekVa p (va + 4 * t) 4) + 1)))) s

/-- Write a serving state. -/
def State.putServing (s : State) (p va : Nat) (b : List Byte) : State := s.tryWriteVa p va b

/-- Remember the token ring of a serving state (R358, R367). -/
def State.noteRing (s : State) (p va : Nat) (r : List Byte) : State :=
  s.onPart p (fun q => { q with rings := (va, fieldAt r 80 8, byteAt r 88) :: q.rings.filter (fun x => x.1 != va) })

/-- The marker and the record of a cancelled request (R367): ENDED with REASON 4; the record's bytes are given. -/
def State.cancelMark (s : State) (p va : Nat) (b : List Byte) : State :=
  let s := s.putServing p va (overlay b 0 [1#8, 4#8])
  match (s.part p).rings.find? (fun x => x.1 == va) with
  | some x => s.ringWrite p x.2.1 x.2.2 (generatedOf b) noToken 4
  | none => s

/-- A result table entry (R346). -/
def resultEntry (outcome why d a len gen : Nat) (toks : List Nat) : List Byte :=
  toLe 1 outcome ++ toLe 1 why ++ toLe 1 d ++ toLe 1 a ++ toLe 4 toks.length ++ toLe 4 len ++ toLe 4 gen ++
    (List.range 9).flatMap (fun i => toLe 4 (toks.getD i noToken)) ++ zeros 12

/-- Phases 5 and 6 for one entry: the rollback and the emission commit (R347, R357 to R360, R363, R367). The state, how many
tokens were emitted, and whether the request ended. -/
def State.emitWork (s : State) (p : Nat) (q : Plan) (w : Work) : State × Nat × Bool :=
  let e := w.e
  let va := q.serving e
  let models := q.main :: q.draft.toList
  let gen0 := generatedOf w.serving
  let r := emitUpTo w.samp (histOf w.serving |>.filter (· ≠ noToken)) gen0 (if e.prefill then w.len + w.toks.length else w.len + 1) w.out
  let cancels := s.cancelsOn p va
  let base := copiedServing q e w.serving
  let s := if e.new then s.tryWriteVa p (fieldAt w.samp.r 70 6) (zeros (4 * w.samp.v)) else s
  let s := s.noteRing p va w.samp.r
  let d := w.drafts.length
  let put := fun (s : State) (b : List Byte) => s.tryWriteVa p (q.resultVa + 64 * e.idx) b
  if !cancels.isEmpty && r.2 == 0 then
    let s := models.foldl (fun (s : State) m => s.stepCut m e.seq w.len) s
    let b := overlay base 8 (sliceOf w.was 8 4)
    let s := s.cancelMark p va b
    let s := put s (resultEntry 2 4 d w.accepted w.len gen0 [])
    let s := s.endAction p e.seq e.action e.ttl models
    (cancels.foldl (fun (s : State) c => s.complete p c { result := gen0 }) s, 0, true)
  else
    let n := r.1.length
    let len := if e.decodes then w.len + n else w.len + w.toks.length
    let s := models.foldl (fun (s : State) m => s.stepCut m e.seq len) s
    let s := if bitOf (byteAt w.samp.r 6) 0 then s.countTokens p (fieldAt w.samp.r 70 6) w.chunk else s
    let s := s.countTokens p (fieldAt w.samp.r 70 6) r.1
    let s := s.ringTokens p (fieldAt w.samp.r 80 8) (byteAt w.samp.r 88) gen0 r.1 r.2
    let hist := (histOf w.serving ++ r.1)
    let cap := byteAt base 2 % 16
    let c := adaptCap e w.probe cap (byteAt base 3 % 8) (byteAt base 3 / 16 % 8) (byteAt base 4 % 32) d w.accepted
    let pend := if n = 0 then (if e.decode then noToken else pendingOf w.was) else r.1.getD (n - 1) noToken
    let b := overlay base 0 (toLe 1 (b2n (r.2 != 0)) ++ toLe 1 r.2 ++ toLe 1 c.1 ++ toLe 1 (c.2.1 + 16 * c.2.2.1) ++ toLe 1 c.2.2.2)
    let b := overlay (overlay b 8 (toLe 4 pend ++ toLe 4 (gen0 + n))) 20 ((hist.drop (hist.length - 7)).flatMap (toLe 4))
    let s := s.putServing p va b
    let s := if c.1 != cap then s.raise p 0xB8 (toLe 4 e.seq ++ toLe 1 c.1) else s
    let s := put s (resultEntry (b2n (r.2 != 0)) r.2 d w.accepted len (gen0 + n) r.1)
    let s := if r.2 != 0 then s.endAction p e.seq e.action e.ttl models else s
    (cancels.foldl (fun (s : State) c => s.complete p c { status := stCancelTooLate, result := gen0 + n }) s, n, r.2 != 0)

/-! ### STEP (R341, R347, R349) -/

/-- The entries of a plan as the step takes them up. -/
def State.planWork (s : State) (p : Nat) (src : Option Nat) (q : Plan) : List PlanEntry → Except Fail (List Work)
  | [] => .ok []
  | e :: es => do
    let r := q.recs.getD e.idx []
    let c ← s.readSamp p src 0 q.main.vocab r
    let was ← s.readVa p src 0 (q.serving e) 128
    let chunk ← s.readVa p src 0 (fieldAt q.h 28 6 + 4 * e.off) (4 * e.chunk)
    let set ← s.variantVa p src q.main e.variant
    let dset ← match q.draft with | some m => s.variantVa p src m e.variant | none => .ok (some 0)
    let fresh := freshServing e.new was
    let c := if e.new then { c with counts := [] } else c
    let len := s.startLen q.main e
    let rest ← s.planWork p src q es
    let w : Work := { e := e, was := was, serving := fresh, samp := c, len := len, set := set.getD 0, dset := dset.getD 0,
                      probe := (draftCount q e fresh r len).2, chunk := (chunksOf 4 chunk).map leNat }
    .ok (w :: rest)

/-- Phases 1 to 4 of a step (R347). -/
def State.stepPhases (s : State) (p : Nat) (d : Desc) (q : Plan) : StepM (State × List Work) := do
  let src := s.srcOf p d
  let ws ← s.lift (s.planWork p src q q.es)
  let s := (q.main :: q.draft.toList).foldl (fun (s : State) m => s.stepTruncate m q.es) s
  let (s, ws) ← s.draftAll p src q ws
  let js := ws.map (fun w => ({ ent := w.e.idx, seq := w.e.seq, variant := w.e.variant, set := w.set, pool := w.e.pool, toks := w.toks } : Job))
  let (s, js) ← s.modelRun p src q.main q.index js
  let ws ← s.lift (s.chooseAll p src q (ws.zip js))
  .ok (s, ws)

/-- The workspaces of a plan's models hold undefined bytes (R337). -/
def State.spoilWork (s : State) (p : Nat) (q : Plan) : State :=
  (q.main :: q.draft.toList).foldl (fun (s : State) m => s.spoil p none m.workVa m.workBytes) s

/-- The new token slots of a plan's entries hold undefined bytes (R349). -/
def State.spoilNew (s : State) (q : Plan) (start : State) : State :=
  q.layers.foldl (fun (s : State) l => q.es.foldl (fun (s : State) e =>
    let from_ := let n := (start.layerSeq l e.seq).1; if e.keep = kvNone then n else Nat.min e.keep n
    let n := (s.layerSeq l e.seq).1
    s.spoilTokens l.kv ((List.range (n - from_)).map (fun i => (s.seqPage l.kv (e.seq + l.seqBase) ((from_ + i) / 64), (from_ + i) % 64)))) s) s

/-- STEP's execution (R347, R349): a failure leaves the record changes made so far. -/
def State.runStep (s : State) (p : Nat) (d : Desc) : Except Fail (State × Done) := do
  let q ← s.readPlan p d
  match s.stepPhases p d q with
  | .error (f, t) => .ok ((((t.spoilNew q s).spoilWork p q).spoilAll p (s.srcOf p d) (s.outRanges p d)).note p f, f.done)
  | .ok (t, ws) =>
    let r := ws.foldl (fun (a : State × Nat × Bool) w =>
      let x := a.1.emitWork p q w
      (x.1, a.2.1 + x.2.1, a.2.2 || x.2.2)) (t.spoilWork p q, 0, false)
    let flags := ws.foldl (fun a w => a ||| w.flags) 0 ||| flagIf r.2.2 cfSeqEnd
    let u ← r.1.writeDigest p d [r.1.peekVa p q.resultVa (64 * q.es.length)]
    .ok (u, { result := r.2.1, cflags := flags })

/-- A STEP has started: CANCELs and KV commands that name its sequences wait for it (R305, R344, R367). -/
def State.stepOpen (s : State) (p : Nat) (d : Desc) : State :=
  match s.readPlan p d with
  | .error _ => s
  | .ok q =>
    let layers := q.layers.flatMap (fun l => q.es.map (fun e => (l.kv.space, e.seq + l.seqBase)))
    let r : Running := { num := d.num, stateVa := q.stateVa, seqs := q.es.map PlanEntry.seq, models := q.models, layers := layers }
    s.onPart p (fun x => { x with running := r :: x.running.filter (fun r => r.num != d.num) })

/-- STEP (R334 to R363). -/
def execStep (d : DescRef) (s : State) : Host.Outcome State Fault Refusal :=
  .next (s.runDesc d (isOp 0x50) { check := State.stepCheck, opens := State.stepOpen, run := State.runStep })

/-! ### CANCEL (R366, R367) -/

/-- The address of the serving state that a CANCEL names. -/
def Desc.cancelVa (d : Desc) : Nat := d.fld 16 6 + 128 * d.fld 24 4

/-- A STEP that names the serving state of a CANCEL is not complete. -/
def State.stepOn (s : State) (p : Nat) (d : Desc) : Bool :=
  (s.part p).running.any (fun r => r.stateVa == d.fld 16 6 && r.seqs.contains (d.fld 24 4))

/-- The models that a serving state names, as far as they can be read. -/
def State.servingModels (s : State) (p : Nat) (b : List Byte) : List Model :=
  [fieldAt b 48 6, fieldAt b 54 6].filterMap (fun va => if va = 0 then none else
    match s.readModel p none va with | .ok m => some m | .error _ => none)

/-- A CANCEL takes effect on a request that no STEP is working on (R367, first and second rows). -/
def State.cancelNow (s : State) (p : Nat) (d : Desc) : State :=
  match s.readVa p none 0 d.cancelVa 128 with
  | .error f => s.failDesc p d f
  | .ok b =>
    if bitOf (byteAt b 0) 0 then s.complete p d { status := stCancelTooLate, result := generatedOf b }
    else
      let ms := s.servingModels p b
      let s := s.cancelMark p d.cancelVa b
      (s.endAction p (d.fld 24 4) (byteAt b 5) (fieldAt b 16 4) ms).complete p d { result := generatedOf b }

/-- CANCEL (R366, R367): a CANCEL that started while a STEP was on its way completes at that STEP's emission commit, or by a
later command once no STEP names its record. -/
def execCancel (d : DescRef) (s : State) : Host.Outcome State Fault Refusal :=
  .next (match s.desc? d.part d.num with
    | some x =>
      if isOp 0x53 x && x.startedAt.isSome then (if s.stepOn d.part x then s else s.cancelNow d.part x)
      else s.startDesc d (isOp 0x53)
        (fun t p x => if !(t.cancelsOn p x.cancelVa).isEmpty then some (.status stIllegalState 0)
                      else match t.readVa p none 0 x.cancelVa 128 with | .error f => some f | .ok _ => none)
        (fun t p x => if t.stepOn p x then t else t.cancelNow p x)
    | none => s)

end Sys2Proof.Machine
end

