-- ==== Sys2Proof/Machine/Dispatch.lean ====
section
/-! DEFINITION. The dispatch of the commands: one arm for each row of the opcode table, in the order of the table, each a
direct call of that command's meaning. -/

namespace Sys2Proof.Machine

def exec (i : Instr) (s : State) : Host.Outcome State Fault Refusal :=
  match i with
  | .curtainEnter dv us => Sys2Proof.Machine.execCurtainEnter dv us s
  | .curtainExit dv ms => Sys2Proof.Machine.execCurtainExit dv ms s
  | .orderlyShutdown dv ms nodeDv => Sys2Proof.Machine.execOrderlyShutdown dv ms nodeDv s
  | .shutdownComplete => Sys2Proof.Machine.execShutdownComplete s
  | .prechargeStart dv ms => Sys2Proof.Machine.execPrechargeStart dv ms s
  | .prechgDeassert us => Sys2Proof.Machine.execPrechgDeassert us s
  | .inputSwitchOpen dv nodeDv ms => Sys2Proof.Machine.execInputSwitchOpen dv nodeDv ms s
  | .inputSwitchClose dv ms nodeDv => Sys2Proof.Machine.execInputSwitchClose dv ms nodeDv s
  | .pqRecordOpen m => Sys2Proof.Machine.execPqRecordOpen m s
  | .pqRecordClose m => Sys2Proof.Machine.execPqRecordClose m s
  | .railFault r us => Sys2Proof.Machine.execRailFault r us s
  | .shedAssert => Sys2Proof.Machine.execShedAssert s
  | .shedDeassert => Sys2Proof.Machine.execShedDeassert s
  | .precedenceResolution r => Sys2Proof.Machine.execPrecedenceResolution r s
  | .fixedRateResume p => Sys2Proof.Machine.execFixedRateResume p s
  | .stateSelection p cadence => Sys2Proof.Machine.execStateSelection p cadence s
  | .domainWake k why => Sys2Proof.Machine.execDomainWake k why s
  | .domainStateReached k => Sys2Proof.Machine.execDomainStateReached k s
  | .voltageStep k => Sys2Proof.Machine.execVoltageStep k s
  | .sensorSample x => Sys2Proof.Machine.execSensorSample x s
  | .sensorSuspect spot => Sys2Proof.Machine.execSensorSuspect spot s
  | .sensorRestore spot sensor => Sys2Proof.Machine.execSensorRestore spot sensor s
  | .stackOvertempShutdown k => Sys2Proof.Machine.execStackOvertempShutdown k s
  | .refreshRestore k => Sys2Proof.Machine.execRefreshRestore k s
  | .predictorUpdate => Sys2Proof.Machine.execPredictorUpdate s
  | .flowWarn => Sys2Proof.Machine.execFlowWarn s
  | .flowLimitExit => Sys2Proof.Machine.execFlowLimitExit s
  | .thermalClear => Sys2Proof.Machine.execThermalClear s
  | .thermalRearm => Sys2Proof.Machine.execThermalRearm s
  | .rateSample page => Sys2Proof.Machine.execRateSample page s
  | .fabRateCtrlWrite page v => Sys2Proof.Machine.execFabRateCtrlWrite page v s
  | .clockLockLoss n => Sys2Proof.Machine.execClockLockLoss n s
  | .workItemComplete t => Sys2Proof.Machine.execWorkItemComplete t s
  | .engineLoadComplete p e digestOk => Sys2Proof.Machine.execEngineLoadComplete p e digestOk s
  | .meshTransactionIssue r => Sys2Proof.Machine.execMeshTransactionIssue r s
  | .availabilityMapUpdate => Sys2Proof.Machine.execAvailabilityMapUpdate s
  | .memoryPortAccess port idx flips => Sys2Proof.Machine.execMemoryPortAccess port idx flips s
  | .xlatInvalidate p => Sys2Proof.Machine.execXlatInvalidate p s
  | .ptRootWrite p v => Sys2Proof.Machine.execPtRootWrite p v s
  | .scrubStep port ch flips => Sys2Proof.Machine.execScrubStep port ch flips s
  | .scrubForcedSlice port ch us => Sys2Proof.Machine.execScrubForcedSlice port ch us s
  | .recalDue port ch moved => Sys2Proof.Machine.execRecalDue port ch moved s
  | .recalForcedSlice port ch => Sys2Proof.Machine.execRecalForcedSlice port ch s
  | .bulkMr4Read c code above => Sys2Proof.Machine.execBulkMr4Read c code above s
  | .bar0AccessIgnored fn off len => Sys2Proof.Machine.execBar0AccessIgnored fn off len s
  | .registerWrite fn off v => Sys2Proof.Machine.execRegisterWrite fn off v s
  | .bar2Write p off data => Sys2Proof.Machine.execBar2Write p off data s
  | .bar2Read p off len => Sys2Proof.Machine.execBar2Read p off len s
  | .ringEnable p r v => Sys2Proof.Machine.execRingEnable p r v s
  | .ringPause p q => Sys2Proof.Machine.execRingPause p q s
  | .ringUnpause p q => Sys2Proof.Machine.execRingUnpause p q s
  | .ringDisable p r => Sys2Proof.Machine.execRingDisable p r s
  | .ringDrainDone p q => Sys2Proof.Machine.execRingDrainDone p q s
  | .nudge p => Sys2Proof.Machine.execNudge p s
  | .pollExpiry p => Sys2Proof.Machine.execPollExpiry p s
  | .doorbellReadReturn p r => Sys2Proof.Machine.execDoorbellReadReturn p r s
  | .dozeSequence p => Sys2Proof.Machine.execDozeSequence p s
  | .descriptorFetch p r => Sys2Proof.Machine.execDescriptorFetch p r s
  | .eventRecordWrite p => Sys2Proof.Machine.execEventRecordWrite p s
  | .msixSend p r => Sys2Proof.Machine.execMsixSend p r s
  | .hostReadFailure p what r => Sys2Proof.Machine.execHostReadFailure p what r s
  | .hostLinkDown => Sys2Proof.Machine.execHostLinkDown s
  | .linkChange speed width flit => Sys2Proof.Machine.execLinkChange speed width flit s
  | .perstAssert => Sys2Proof.Machine.execPerstAssert s
  | .ptmDialog offset => Sys2Proof.Machine.execPtmDialog offset s
  | .functionLevelReset p => Sys2Proof.Machine.execFunctionLevelReset p s
  | .nop d => Sys2Proof.Machine.execNop d s
  | .barrier d => Sys2Proof.Machine.execBarrier d s
  | .fence d => Sys2Proof.Machine.execFence d s
  | .eventSignal d => Sys2Proof.Machine.execEventSignal d s
  | .eventWait d => Sys2Proof.Machine.execEventWait d s
  | .eventWaitDeadline d => Sys2Proof.Machine.execEventWaitDeadline d s
  | .timerWait d => Sys2Proof.Machine.execTimerWait d s
  | .timerWaitExpiry d => Sys2Proof.Machine.execTimerWaitExpiry d s
  | .descriptorTimeout d => Sys2Proof.Machine.execDescriptorTimeout d s
  | .actRun d => Sys2Proof.Machine.execActRun d s
  | .actStop d => Sys2Proof.Machine.execActStop d s
  | .matmul d => Sys2Proof.Machine.execMatmul d s
  | .conv d => Sys2Proof.Machine.execConv d s
  | .eltwise d => Sys2Proof.Machine.execEltwise d s
  | .reduce d => Sys2Proof.Machine.execReduce d s
  | .norm d => Sys2Proof.Machine.execNorm d s
  | .softmax d => Sys2Proof.Machine.execSoftmax d s
  | .convert d => Sys2Proof.Machine.execConvert d s
  | .gather d => Sys2Proof.Machine.execGather d s
  | .scatter d => Sys2Proof.Machine.execScatter d s
  | .copy d h => Sys2Proof.Machine.execCopy d h s
  | .fill d => Sys2Proof.Machine.execFill d s
  | .digest d => Sys2Proof.Machine.execDigest d s
  | .badOpcode d => Sys2Proof.Machine.execBadOpcode d s
  | .attend d => Sys2Proof.Machine.execAttend d s
  | .kvAppend d => Sys2Proof.Machine.execKvAppend d s
  | .kvLookup d => Sys2Proof.Machine.execKvLookup d s
  | .kvPark d => Sys2Proof.Machine.execKvPark d s
  | .kvResume d => Sys2Proof.Machine.execKvResume d s
  | .kvFreeSeq d => Sys2Proof.Machine.execKvFreeSeq d s
  | .kvFreeAll d => Sys2Proof.Machine.execKvFreeAll d s
  | .kvFreeFormat d => Sys2Proof.Machine.execKvFreeFormat d s
  | .kvFreeDetach d => Sys2Proof.Machine.execKvFreeDetach d s
  | .kvFreeRehash d => Sys2Proof.Machine.execKvFreeRehash d s
  | .kvCopy d => Sys2Proof.Machine.execKvCopy d s
  | .kvExpiry p space seq => Sys2Proof.Machine.execKvExpiry p space seq s
  | .step d => Sys2Proof.Machine.execStep d s
  | .sample d => Sys2Proof.Machine.execSample d s
  | .verify d => Sys2Proof.Machine.execVerify d s
  | .cancel d => Sys2Proof.Machine.execCancel d s
  | .allReduce d peers => Sys2Proof.Machine.execAllReduce d peers s
  | .reduceScatter d peers => Sys2Proof.Machine.execReduceScatter d peers s
  | .allGather d peers => Sys2Proof.Machine.execAllGather d peers s
  | .allToAll d peers => Sys2Proof.Machine.execAllToAll d peers s
  | .broadcast d peers => Sys2Proof.Machine.execBroadcast d peers s
  | .groupSet d => Sys2Proof.Machine.execGroupSet d s
  | .collAbort port gid seq => Sys2Proof.Machine.execCollAbort port gid seq s
  | .streamOpen d => Sys2Proof.Machine.execStreamOpen d s
  | .streamClose d => Sys2Proof.Machine.execStreamClose d s
  | .decode d => Sys2Proof.Machine.execDecode d s
  | .decodeTimeReached d => Sys2Proof.Machine.execDecodeTimeReached d s
  | .encode d => Sys2Proof.Machine.execEncode d s
  | .scale d => Sys2Proof.Machine.execScale d s
  | .resultFrame d => Sys2Proof.Machine.execResultFrame d s
  | .checkpoint d => Sys2Proof.Machine.execCheckpoint d s
  | .restore d h => Sys2Proof.Machine.execRestore d h s
  | .stepCommit d => Sys2Proof.Machine.execStepCommit d s
  | .stepCommitEndJob d => Sys2Proof.Machine.execStepCommitEndJob d s
  | .partConfig d => Sys2Proof.Machine.execPartConfig d s
  | .partStateAdmit d => Sys2Proof.Machine.execPartStateAdmit d s
  | .partStateRun d => Sys2Proof.Machine.execPartStateRun d s
  | .partStateQuiesce d => Sys2Proof.Machine.execPartStateQuiesce d s
  | .quiesceDone p => Sys2Proof.Machine.execQuiesceDone p s
  | .partStateReset d => Sys2Proof.Machine.execPartStateReset d s
  | .partStateUnconfigure d => Sys2Proof.Machine.execPartStateUnconfigure d s
  | .memGrant d => Sys2Proof.Machine.execMemGrant d s
  | .memRelease d => Sys2Proof.Machine.execMemRelease d s
  | .engineConfig d => Sys2Proof.Machine.execEngineConfig d s
  | .engineRelease d => Sys2Proof.Machine.execEngineRelease d s
  | .tileFence d => Sys2Proof.Machine.execTileFence d s
  | .tileUnfence d failed => Sys2Proof.Machine.execTileUnfence d failed s
  | .keyOpRotate d => Sys2Proof.Machine.execKeyOpRotate d s
  | .keyOpRetire d => Sys2Proof.Machine.execKeyOpRetire d s
  | .keyOpClearRetired d => Sys2Proof.Machine.execKeyOpClearRetired d s
  | .keyOpBindLoad d => Sys2Proof.Machine.execKeyOpBindLoad d s
  | .keyOpWeightLoad d chunks => Sys2Proof.Machine.execKeyOpWeightLoad d chunks s
  | .keyOpContentDrop d => Sys2Proof.Machine.execKeyOpContentDrop d s
  | .frameConvert p => Sys2Proof.Machine.execFrameConvert p s
  | .fwStage d r => Sys2Proof.Machine.execFwStage d r s
  | .fwActivate d => Sys2Proof.Machine.execFwActivate d s
  | .admissionLost p => Sys2Proof.Machine.execAdmissionLost p s
  | .spdmRequest fn m => Sys2Proof.Machine.execSpdmRequest fn m s
  | .spdmHeartbeatMiss fn => Sys2Proof.Machine.execSpdmHeartbeatMiss fn s
  | .lockInterface p => Sys2Proof.Machine.execLockInterface p s
  | .getDeviceInterfaceReport p => Sys2Proof.Machine.execGetDeviceInterfaceReport p s
  | .startInterface p => Sys2Proof.Machine.execStartInterface p s
  | .stopInterface p => Sys2Proof.Machine.execStopInterface p s
  | .ideKm fn => Sys2Proof.Machine.execIdeKm fn s
  | .ideTlpFailure fn => Sys2Proof.Machine.execIdeTlpFailure fn s
  | .mailboxSetPower seq k code st => Sys2Proof.Machine.execMailboxSetPower seq k code st s
  | .mailboxFenceReset seq act kind unit failed => Sys2Proof.Machine.execMailboxFenceReset seq act kind unit failed s
  | .mailboxChannelFilter seq p chan filter => Sys2Proof.Machine.execMailboxChannelFilter seq p chan filter s
  | .mailboxReadSensors seq off => Sys2Proof.Machine.execMailboxReadSensors seq off s
  | .mailboxWriteRecord seq power r => Sys2Proof.Machine.execMailboxWriteRecord seq power r s
  | .mailboxDebugRead seq kind unit window => Sys2Proof.Machine.execMailboxDebugRead seq kind unit window s
  | .stewardHeartbeatLoss => Sys2Proof.Machine.execStewardHeartbeatLoss s
  | .stewardRestartDone => Sys2Proof.Machine.execStewardRestartDone s
  | .sealWrite => Sys2Proof.Machine.execSealWrite s
  | .linkPortEnable n v => Sys2Proof.Machine.execLinkPortEnable n v s
  | .linkPortDisable n v => Sys2Proof.Machine.execLinkPortDisable n v s
  | .linkTrainingComplete n lanes slow => Sys2Proof.Machine.execLinkTrainingComplete n lanes slow s
  | .linkTrainingTimeout n => Sys2Proof.Machine.execLinkTrainingTimeout n s
  | .linkRetrain n why => Sys2Proof.Machine.execLinkRetrain n why s
  | .retrainTimeout n => Sys2Proof.Machine.execRetrainTimeout n s
  | .dataFrame n f => Sys2Proof.Machine.execDataFrame n f s
  | .nakFrame n f => Sys2Proof.Machine.execNakFrame n f s
  | .helloFrame n f => Sys2Proof.Machine.execHelloFrame n f s
  | .idleFrame n f => Sys2Proof.Machine.execIdleFrame n f s
  | .replayTimer n => Sys2Proof.Machine.execReplayTimer n s
  | .creditReturn n => Sys2Proof.Machine.execCreditReturn n s
  | .linkPairWrite v => Sys2Proof.Machine.execLinkPairWrite v s
  | .fieldFrameReceive n f => Sys2Proof.Machine.execFieldFrameReceive n f s
  | .fieldLink n up fec => Sys2Proof.Machine.execFieldLink n up fec s
  | .protocolEngineSlice => Sys2Proof.Machine.execProtocolEngineSlice s
  | .unitDeadline c => Sys2Proof.Machine.execUnitDeadline c s
  | .ptpHoldover => Sys2Proof.Machine.execPtpHoldover s
  | .ptpCtrlWrite v => Sys2Proof.Machine.execPtpCtrlWrite v s
  | .ptmCtrlWrite v => Sys2Proof.Machine.execPtmCtrlWrite v s
  | .rtcpReport c => Sys2Proof.Machine.execRtcpReport c s
  | .streamStall c => Sys2Proof.Machine.execStreamStall c s
  | .codecCoreDispatch core => Sys2Proof.Machine.execCodecCoreDispatch core s
  | .codecPreempt => Sys2Proof.Machine.execCodecPreempt s
  | .pictureDone core => Sys2Proof.Machine.execPictureDone core s
  | .readIdxPoll c => Sys2Proof.Machine.execReadIdxPoll c s
  | .poolWait c => Sys2Proof.Machine.execPoolWait c s
  | .encodeUnitDone core => Sys2Proof.Machine.execEncodeUnitDone core s
  | .carouselWrite v => Sys2Proof.Machine.execCarouselWrite v s
  | .setdasa static dyn eniUs => Sys2Proof.Machine.execSetdasa static dyn eniUs s
  | .rstdaa => Sys2Proof.Machine.execRstdaa s
  | .setnewda a dyn => Sys2Proof.Machine.execSetnewda a dyn s
  | .enecDisec enable events => Sys2Proof.Machine.execEnecDisec enable events s
  | .getpid a => Sys2Proof.Machine.execGetpid a s
  | .getbcr a => Sys2Proof.Machine.execGetbcr a s
  | .getdcr a => Sys2Proof.Machine.execGetdcr a s
  | .getstatus a => Sys2Proof.Machine.execGetstatus a s
  | .getmwl a => Sys2Proof.Machine.execGetmwl a s
  | .getmrl a => Sys2Proof.Machine.execGetmrl a s
  | .setmwl a len => Sys2Proof.Machine.execSetmwl a len s
  | .setmrl a len => Sys2Proof.Machine.execSetmrl a len s
  | .chainMessageError a m => Sys2Proof.Machine.execChainMessageError a m s
  | .chainPrivateRead a => Sys2Proof.Machine.execChainPrivateRead a s
  | .status a => Sys2Proof.Machine.execStatus a s
  | .ident a => Sys2Proof.Machine.execIdent a s
  | .shedBudget a w => Sys2Proof.Machine.execShedBudget a w s
  | .service a v => Sys2Proof.Machine.execService a v s
  | .sparePool a v => Sys2Proof.Machine.execSparePool a v s
  | .moduleReset a v => Sys2Proof.Machine.execModuleReset a v s
  | .clearAlert a v => Sys2Proof.Machine.execClearAlert a v s
  | .monitorIn a data => Sys2Proof.Machine.execMonitorIn a data s
  | .monitorOut a => Sys2Proof.Machine.execMonitorOut a s
  | .svcReset us => Sys2Proof.Machine.execSvcReset us s
  | .guardWatchdog => Sys2Proof.Machine.execGuardWatchdog s
  | .guardBoot dv nodeDv => Sys2Proof.Machine.execGuardBoot dv nodeDv s
  | .guardImageRunning => Sys2Proof.Machine.execGuardImageRunning s
  | .firstStewardHeartbeat => Sys2Proof.Machine.execFirstStewardHeartbeat s
  | .stewardBootFallback => Sys2Proof.Machine.execStewardBootFallback s
  | .channelTrainingDone ports bulk => Sys2Proof.Machine.execChannelTrainingDone ports bulk s
  | .selftestPassDone tiles slices => Sys2Proof.Machine.execSelftestPassDone tiles slices s
  | .progressWatchdogExpiry h => Sys2Proof.Machine.execProgressWatchdogExpiry h s
  | .dumpComplete kind unit r => Sys2Proof.Machine.execDumpComplete kind unit r s
  | .hltResetWrite v => Sys2Proof.Machine.execHltResetWrite v s
  | .recoveryComplete kind unit r => Sys2Proof.Machine.execRecoveryComplete kind unit r s
  | .recoveryOverdue kind unit => Sys2Proof.Machine.execRecoveryOverdue kind unit s
  | .strikerRoundStart t => Sys2Proof.Machine.execStrikerRoundStart t s
  | .strikerRoundDone t failed => Sys2Proof.Machine.execStrikerRoundDone t failed s
  | .strikerOverdue t => Sys2Proof.Machine.execStrikerOverdue t s
  | .memoryTestSlice port slice pass => Sys2Proof.Machine.execMemoryTestSlice port slice pass s
  | .scoreRecompute => Sys2Proof.Machine.execScoreRecompute s
  | .expelClear => Sys2Proof.Machine.execExpelClear s
  | .flashWearLevel ms => Sys2Proof.Machine.execFlashWearLevel ms s
  | .telemetrySweep us => Sys2Proof.Machine.execTelemetrySweep us s
  | .cycleStart p slot => Sys2Proof.Machine.execCycleStart p slot s
  | .laneComplete p slot => Sys2Proof.Machine.execLaneComplete p slot s
  | .cycleDeadline p slot => Sys2Proof.Machine.execCycleDeadline p slot s
  | .pairCfgWrite v => Sys2Proof.Machine.execPairCfgWrite v s
  | .claimStart => Sys2Proof.Machine.execClaimStart s
  | .claimCheck => Sys2Proof.Machine.execClaimCheck s
  | .partnerLineAssert => Sys2Proof.Machine.execPartnerLineAssert s
  | .stateLoaded slot a b img => Sys2Proof.Machine.execStateLoaded slot a b img s
  | .stateCopyReceive m start fin => Sys2Proof.Machine.execStateCopyReceive m start fin s
  | .pairRearm => Sys2Proof.Machine.execPairRearm s
  | .pairHandover => Sys2Proof.Machine.execPairHandover s
  | .uartByteReceive b => Sys2Proof.Machine.execUartByteReceive b s
  | .uartBreak ms => Sys2Proof.Machine.execUartBreak ms s
  | .baudIdleRevert => Sys2Proof.Machine.execBaudIdleRevert s
  | .engineerIdleLapse relay => Sys2Proof.Machine.execEngineerIdleLapse relay s
  | .challengeLapse => Sys2Proof.Machine.execChallengeLapse s
  | .authLockoutEnd => Sys2Proof.Machine.execAuthLockoutEnd s
  | .monitorOutputStall relay => Sys2Proof.Machine.execMonitorOutputStall relay s
  | .monitorHelp relay => Sys2Proof.Machine.execMonitorHelp relay s
  | .monitorWhoami relay => Sys2Proof.Machine.execMonitorWhoami relay s
  | .monitorState relay => Sys2Proof.Machine.execMonitorState relay s
  | .monitorTime relay => Sys2Proof.Machine.execMonitorTime relay s
  | .monitorPower relay => Sys2Proof.Machine.execMonitorPower relay s
  | .monitorSensors relay => Sys2Proof.Machine.execMonitorSensors relay s
  | .monitorHealth relay => Sys2Proof.Machine.execMonitorHealth relay s
  | .monitorTiles relay => Sys2Proof.Machine.execMonitorTiles relay s
  | .monitorParts relay => Sys2Proof.Machine.execMonitorParts relay s
  | .monitorLinks relay => Sys2Proof.Machine.execMonitorLinks relay s
  | .monitorFw relay => Sys2Proof.Machine.execMonitorFw relay s
  | .monitorLog relay => Sys2Proof.Machine.execMonitorLog relay s
  | .monitorAuthChallenge relay => Sys2Proof.Machine.execMonitorAuthChallenge relay s
  | .monitorAuthResponse relay => Sys2Proof.Machine.execMonitorAuthResponse relay s
  | .monitorLogout relay => Sys2Proof.Machine.execMonitorLogout relay s
  | .monitorBaud relay => Sys2Proof.Machine.execMonitorBaud relay s
  | .monitorFence relay => Sys2Proof.Machine.execMonitorFence relay s
  | .monitorUnfence relay failed => Sys2Proof.Machine.execMonitorUnfence relay failed s
  | .monitorReset relay => Sys2Proof.Machine.execMonitorReset relay s
  | .monitorDump relay => Sys2Proof.Machine.execMonitorDump relay s
  | .monitorPstate relay => Sys2Proof.Machine.execMonitorPstate relay s
  | .monitorVset relay => Sys2Proof.Machine.execMonitorVset relay s
  | .monitorRegRead relay => Sys2Proof.Machine.execMonitorRegRead relay s
  | .monitorRegWrite relay => Sys2Proof.Machine.execMonitorRegWrite relay s
  | .monitorUnknownCommand relay => Sys2Proof.Machine.execMonitorUnknownCommand relay s
  | .guardOwnWatchdog canSend => Sys2Proof.Machine.execGuardOwnWatchdog canSend s
  | .perstRelease => Sys2Proof.Machine.execPerstRelease s
  | .hostLinkUp speed width flit => Sys2Proof.Machine.execHostLinkUp speed width flit s
  | .svcResetRelease => Sys2Proof.Machine.execSvcResetRelease s
  | .configurationRequest fn r => Sys2Proof.Machine.execConfigurationRequest fn r s

end Sys2Proof.Machine
end

