-- ==== Sys2Proof/Safety.lean ====
section
/-! DEFINITION. What counts as a safe run, in the terms that the statements use. -/

namespace Sys2Proof.Machine

/-- The memories are in their one canonical form: device memory, and the bytes written to host memory. Every state that a
step reaches from such a state is such a state; the state after reset is one. -/
def State.Inv (s : State) : Prop := s.mem.cells.wf = true ∧ s.hostMem.wf = true

/-- A descriptor that its row's command can start and complete: fetched and not started, in its order (R254, R256), with no
fault in checks 1 to 6 of R257, and all that it needs of its engine there (R292). -/
structure State.Ready (s : State) (r : DescRef) (d : Desc) : Prop where
  /-- It is fetched and not complete -/
  fetched : s.desc? r.part r.num = some d
  /-- It has not started -/
  unstarted : d.startedAt = none
  /-- Its order conditions hold and its engine is there -/
  mayStart : s.mayStart r.part d = true
  /-- Checks 1 to 6 of R257 pass -/
  checks : s.checks r.part d = none
  /-- The command runs it to its end -/
  toEnd : r.startOnly = false

/-- The state in which the operation of a descriptor is carried out, from the one in which it has started: the ranges are known whose
reads race an unordered write (R35), and its writes to a host whose link was lost since its fetch go nowhere (R216). -/
def State.atWork (s : State) (p : Nat) (d : Desc) : State := { s with racing := s.raceOf p d }.plug d false

/-- The state once the operation of a started descriptor has left `t` with outcome `o`: the descriptor completes (R255). -/
def State.afterWork (s t : State) (p : Nat) (d : Desc) (o : Done) : State := ((t.plug d s.host.up).endRace p d).complete p d o

end Sys2Proof.Machine
end

