-- ==== Sys2Proof/Certificates/Slice0/Obligations.lean ====
section
/-! DEFINITION. The statements about the model. -/

open Sys2Proof Sys2Proof.Machine


/-- THE MANAGEMENT CHAIN, addresses and common command codes (R475 to R480): what each command leaves, for every state in
which the chain logic answers. The byte order of multi-byte values and the vendor's byte of GETSTATUS are the model's
(notes/assumptions/36.md). -/
def Obligations.ChainCodesComplete : Prop :=
  (∀ (s : State) (dyn us : Nat), s.chainUp = true → s.boot.dynAddr = none → 1000 ≤ us → 0x08 ≤ dyn → dyn ≤ 0x37 →
    exec (.setdasa 0x50 dyn us) s = .next
      { s with
        boot := { s.boot with dynAddr := some dyn, eni := true, eno := true, causes := s.boot.causes &&& 0x1E,
                              busReply := some [] }
        parts := (s.raise 0 0x83 (toLe 1 (dyn - 8) ++ toLe 1 dyn)).parts }) ∧
  (∀ s : State, s.chainUp = true →
    exec .rstdaa s = .next
      { s with boot := { s.boot with dynAddr := none, eno := false, causes := s.boot.causes ||| 1, busReply := some [] } }) ∧
  (∀ (s : State) (a dyn : Nat), exec (.setnewda a dyn) s = .next { s with boot := { s.boot with busReply := none } }) ∧
  (∀ (s : State) (on : Bool) (ev : Byte), s.chainUp = true →
    exec (.enecDisec on ev) s = .next { s with boot := { s.boot with busReply := some [] } }) ∧
  (∀ (s : State) (a : Nat), s.chainUp = true → s.boot.dynAddr = some a →
    exec (.getbcr a) s = .next { s with boot := { s.boot with busReply := some [0] } } ∧
    exec (.getdcr a) s = .next { s with boot := { s.boot with busReply := some [0] } } ∧
    exec (.getmwl a) s = .next { s with boot := { s.boot with busReply := some (bigEnd 2 s.boot.mwl) } } ∧
    exec (.getmrl a) s = .next { s with boot := { s.boot with busReply := some (bigEnd 2 s.boot.mrl) } } ∧
    exec (.getpid a) s = .next { s with
      boot := { s.boot with busReply := some (bigEnd 6 (0x3A5 * 2 ^ 33 + 0x0828 * 2 ^ 16 + (a - 8))) } } ∧
    exec (.getstatus a) s = .next { s with
      fresh := s.fresh + 1
      boot := { s.boot with busReply := some [Config.freeByte s.fresh, 0] } }) ∧
  (∀ (s : State) (a len : Nat), s.chainUp = true → (s.boot.dynAddr = some a ∨ a = broadcast) → 64 ≤ len → len ≤ 256 →
    exec (.setmwl a len) s = .next { s with boot := { s.boot with mwl := len, busReply := some [] } } ∧
    exec (.setmrl a len) s = .next { s with boot := { s.boot with mrl := len, busReply := some [] } })

/-- THE MANAGEMENT CHAIN, messages (R482 to R486): what each message leaves when its target holds the address, and what a
private read returns. -/
def Obligations.ChainMessagesComplete : Prop :=
  (∀ (s : State) (a : Nat), s.chainUp = true → s.boot.dynAddr = some a →
    exec (.status a) s = .next { s with boot := { s.boot with busReply := some [], pendResp := some (0x01, s.statusRecord) } } ∧
    exec (.ident a) s = .next { s with boot := { s.boot with
      busReply := some [], pendResp := some (0x02, toLe 8 Config.serial.toNat ++ [0xB1, 0xB0, 0x03] ++ toLe 1 Config.vrated.toNat) } } ∧
    exec (.monitorOut a) s = .next { s with boot := { s.boot with busReply := some [], pendResp := some (0x41, []) } }) ∧
  (∀ (s : State) (a w : Nat), s.chainUp = true → s.boot.dynAddr = some a → w < 65536 →
    exec (.shedBudget a w) s = .next
      (({ s with power := { s.power with shedW := some w } } : State).resolveLevels.bus (some []))) ∧
  (∀ (s : State) (a v : Nat), s.chainUp = true → s.boot.dynAddr = some a → v ≤ 1 →
    s.boot.outOfService = decide (v = 0) →
    exec (.service a v) s = .next { s with
      boot := { s.boot with outOfService := decide (v = 1), busReply := some [] }
      parts := (s.raise 0 0x84 (toLe 1 v ++ toLe 1 (b2n s.boot.spareEmpty))).parts }) ∧
  (∀ (s : State) (a v : Nat), s.chainUp = true → s.boot.dynAddr = some a → v ≤ 1 →
    ∃ t, exec (.sparePool a v) s = .next t ∧ t.boot.spareEmpty = decide (v = 1) ∧ t.boot.busReply = some []) ∧
  (∀ (s : State) (a : Nat), s.chainUp = true → s.boot.dynAddr = some a → s.boot.guardUp = true → s.boot.resetAt = none →
    ∃ t, exec (.moduleReset a 0xA5) s = .next t ∧ t.boot = { s.boot with resetAt := some (s.now + 100000), busReply := some [] } ∧
      t.parts = (s.raiseLive 0x64 (toLe 8 (s.now + 100000))).parts) ∧
  (∀ (s : State) (a v : Nat), s.chainUp = true → s.boot.dynAddr = some a → v ∈ [0, 2, 4, 6] →
    exec (.clearAlert a v) s = .next { s with boot := { s.boot with
      causes := s.boot.causes &&& ~~~(BitVec.ofNat 5 v), busReply := some [] } }) ∧
  (∀ (s : State) (a : Nat) (data : List Byte), s.chainUp = true → s.boot.dynAddr = some a → s.monUp true = true →
    1 ≤ data.length → data.length ≤ 64 →
    ∃ t, exec (.monitorIn a data) s = .next t ∧ t.boot.busReply = some [] ∧
      t.mon = (data.foldl (fun (u : State) b => u.typed true b) s).mon) ∧
  (∀ (s : State) (a : Nat) (m : List Byte), s.chainUp = true → s.boot.dynAddr = some a →
    m.getLast? ≠ some (chainCheck a 0 m.dropLast) →
    exec (.chainMessageError a m) s = .next { s with boot := { s.boot with
      checkErr := satTo 16 (s.boot.checkErr + 1), pendResp := some (0, []), busReply := some [] } }) ∧
  (∀ (s : State) (a : Nat) (m : List Byte), s.chainUp = true → s.boot.dynAddr = some a →
    m.getLast? = some (chainCheck a 0 m.dropLast) → messageOk m = false →
    exec (.chainMessageError a m) s = .next { s with boot := { s.boot with
      badCmd := satTo 16 (s.boot.badCmd + 1), pendResp := some (0, []), busReply := some [] } }) ∧
  (∀ (s : State) (a cmd : Nat) (data : List Byte), s.chainUp = true → s.boot.dynAddr = some a →
    s.boot.pendResp = some (cmd, data) → cmd ≠ 0x41 →
    exec (.chainPrivateRead a) s = .next { s with boot := { s.boot with
      pendResp := none
      busReply := some (toLe 1 cmd ++ toLe 1 data.length ++ data ++
        [chainCheck a 1 (toLe 1 cmd ++ toLe 1 data.length ++ data)]) } }) ∧
  (∀ (s : State) (a : Nat), s.chainUp = true → s.boot.dynAddr = some a → s.boot.pendResp = none →
    exec (.chainPrivateRead a) s = .next { s with boot := { s.boot with
      busReply := some ([0, 0] ++ [chainCheck a 1 [0, 0]]) } })

/-- START-UP AND MODULE RESETS (R487 to R491, R495): what each step of start-up leaves, from the state in which it is due.
How long a low of SVC_RESET# the module heeds and the 100 µs of the announcement follow R491. -/
def Obligations.StartUpStepsComplete : Prop :=
  (∀ (s : State) (dv nodeDv : Nat), s.romReady = true →
    (s.fwTarget 0).good (s.fwTarget 0).active = true → s.boot.attempts < 3 →
    exec (.guardBoot dv nodeDv) s = .next ({ s with
      boot := { s.boot with attempts := s.boot.attempts + 1, guardAt := some s.now, guardFallback := false } } : State).layer) ∧
  (∀ (s : State) (dv nodeDv : Nat), s.boot.st = .precharge → s.power.prechg = true → dv ≤ nodeDv + 200 → nodeDv ≤ dv + 200 →
    s.boot.guardAt = none → s.boot.svcLow = false → s.boot.resetAt = none → (s.power.rails.drop 1).all (fun r => r == .off) = true →
    (s.fwTarget 0).good (s.fwTarget 0).active = true → s.boot.attempts < 3 →
    ∃ t, exec (.guardBoot dv nodeDv) s = .next t ∧ t.boot.st = .guardBoot ∧ t.power.switchOn = true ∧
      t.power.rails = updAt s.power.rails 0 (fun _ => .good) ∧ t.boot.guardAt = some s.now ∧ t.boot.bindKey = bindingKey ∧
      t.boot.secretLocked = true) ∧
  (∀ s : State, s.boot.st = .guardBoot → s.boot.guardAt.isSome = true → s.power.railsGood = true →
    ∃ t, exec .guardImageRunning s = .next t ∧ t.boot.st = .stewardBoot ∧ t.boot.guardUp = true ∧
      t.sec = { s.sec with heartbeatAt := s.now } ∧
      t.fabric = { s.fabric with locked := 0x3FFFFFF } ∧ t.power = s.power ∧ t.mem = s.mem ∧ t.hostMem = s.hostMem) ∧
  (∀ s : State, s.boot.st = .stewardBoot → (s.fwTarget 1).good (s.fwTarget 1).active = true →
    ∃ t, exec .firstStewardHeartbeat s = .next t ∧ t.boot.st = .train ∧ t.boot.served = true ∧
      t.sec = { s.sec with steward := true, heartbeatAt := s.now } ∧
      t.power = (({ s with
        sec := { s.sec with steward := true, heartbeatAt := s.now }
        power := { s.power with doms := s.power.doms.map (fun d => { d with wantSt := .run, wantCode := 0x48 }) }
        boot := { s.boot with served := true } } : State).setModule .train).resolveLevels.power) ∧
  (∀ s : State, s.boot.st = .stewardBoot → (s.fwTarget 1).good (s.fwTarget 1).active = false →
    s.boot.stewardFallback = false → (s.fwTarget 1).good (s.fwTarget 1).other = true →
    ∃ t, exec .stewardBootFallback s = .next t ∧ t.boot.st = .stewardBoot ∧ t.boot.stewardFallback = true ∧
      t.boot.fw = (s.onFw 1 FwTarget.switched).boot.fw ∧ t.sec.heartbeatAt = s.now) ∧
  (∀ (s : State) (ports bulk : Nat), s.boot.st = .train → s.domsThere = true →
    ∃ t, exec (.channelTrainingDone ports bulk) s = .next t ∧ t.boot.st = .selftest ∧
      t.boot.trained = ports % 65536 + bulk % 256 * 65536) ∧
  (∀ (s : State) (tiles slices : List Nat), s.boot.st = .selftest →
    8 ≤ ((List.range 16).filter (fun i => s.boot.trained.testBit i)).length →
    ((List.range 64).filter tiles.contains).length ≤ 32 →
    ∃ t, exec (.selftestPassDone tiles slices) s = .next t ∧ t.boot.stepEight = true ∧ t.boot.served = true ∧
      (t.boot.st = .ready ∨ t.boot.st = .degraded)) ∧
  (∀ (s : State) (t₀ : Nat), s.boot.st = .guardBoot → s.boot.guardAt = some t₀ → t₀ + 150000000 ≤ s.now →
    exec .guardWatchdog s = .next s.moduleReset) ∧
  (∀ s : State, s.boot.guardUp = true → s.boot.resetAt = none →
    exec (.guardOwnWatchdog true) s = .next { s with
      boot := { s.boot with resetAt := some (s.now + 100000) }
      parts := (s.raiseLive 0x64 (toLe 8 (s.now + 100000))).parts } ∧
    exec (.guardOwnWatchdog false) s = .next s.moduleReset) ∧
  (∀ (s : State) (us : Nat), 10000 ≤ us → s.boot.svcLow = false → s.chainUp = true → s.boot.guardUp = true →
    s.boot.resetAt = none →
    exec (.svcReset us) s = .next { s with
      boot := { s.boot with svcLow := true, resetAt := some (s.now + 100000) }
      parts := (s.raiseLive 0x64 (toLe 8 (s.now + 100000))).parts }) ∧
  (∀ s : State, exec .svcResetRelease s = .next { s with boot := { s.boot with svcLow := false } }) ∧
  (∀ s : State, s.sec.steward = true → s.sec.heartbeatAt + 1000000000 ≤ s.now →
    exec .stewardHeartbeatLoss s = .next s.restartSteward ∧ s.restartSteward.sec.steward = false ∧
      s.restartSteward.sec.restarts = satTo 16 (s.sec.restarts + 1)) ∧
  (∀ s : State, s.sec.steward = false → s.boot.stepEight = true → s.boot.st = .ready →
    ∃ t, exec .stewardRestartDone s = .next t ∧ t.sec = { s.sec with steward := true, heartbeatAt := s.now } ∧
      t.thermal = { s.thermal with keepSuspended := s.thermal.emergency })

/-- A MODULE RESET (R491, R583): start-up stands at the start of GUARD_BOOT; memory, partitions and sessions are as after
reset; what the seal, the chain, host memory and the guard's write-back hold stays. -/
def Obligations.ModuleResetKeepsWhatR491Names : Prop :=
  ∀ s : State,
    let t := s.moduleReset
    t.boot.st = .guardBoot ∧ t.boot.guardAt = none ∧ t.boot.guardUp = false ∧ t.boot.served = false ∧
    t.boot.stepEight = false ∧ t.boot.kept = some s.keptNow ∧
    t.boot.dynAddr = s.boot.dynAddr ∧ t.boot.fw = s.boot.fw ∧ t.boot.attempts = s.boot.attempts ∧
    t.now = s.now ∧ t.mem.cells = [] ∧ t.mem.poison = [] ∧ t.hostMem = s.hostMem ∧ t.pending = s.pending ∧
    t.sec.sealed = s.sec.sealed ∧ t.sec.steward = false ∧ t.host.up = false ∧ t.links.pairEn = false ∧
    t.pair.enable = false ∧ t.pair.own = false ∧ t.health.log = s.health.log ∧ t.power.pqRing = s.power.pqRing ∧
    (∀ p, (t.part p).sec.st = .unconfigured ∧ (t.part p).fetched = [] ∧ (t.part p).kv = [] ∧ (t.part p).journal = [])

/-- TRUST (R455 to R458): SPDM sessions and measurements, TDISP messages, IDE keys. The response codes and payload layouts of
the external standards are the model's (notes/assumptions/27.md). -/
def Obligations.TrustMessagesComplete : Prop :=
  (∀ (s : State) (p : Nat), s.doeServed = true → s.hasFn p = true → (s.part p).sec.session = false → (s.part p).sec.handshake = false →
    exec (.spdmRequest p .keyExchange) s = .next ((s.onSec p (fun x => { x with handshake := true })).doe p (spdmReply 0x64 []))) ∧
  (∀ (s : State) (p : Nat), s.doeServed = true → s.hasFn p = true → (s.part p).sec.handshake = true →
    exec (.spdmRequest p (.finish true)) s = .next ((s.openSession p).doe p (spdmReply 0x65 []))) ∧
  (∀ (s : State) (p : Nat), s.doeServed = true → s.hasFn p = true → (s.part p).sec.session = true →
    exec (.spdmRequest p .heartbeat) s =
      .next ((s.onSec p (fun x => { x with heartbeatAt := s.now })).doe p (spdmReply 0x68 [])) ∧
    exec (.spdmRequest p .endSession) s = .next ((s.endSession p).doe p (spdmReply 0x6C [])) ∧
    exec (.spdmRequest p .badSecured) s = .next ((s.endSession p).doe p spdmError)) ∧
  (∀ (s : State) (p i : Nat), s.doeServed = true → s.hasFn p = true → s.measurement p i = none →
    exec (.spdmRequest p (.getMeasurements i)) s = .next (s.doe p spdmError)) ∧
  (∀ (s : State) (p : Nat) (m : List Byte), s.doeServed = true → 1 ≤ p → s.hasFn p = true → s.measurement p (16 + p) = some m →
    (s.part p).sec.session = true →
    exec (.spdmRequest p (.getMeasurements (16 + p))) s =
      .next ((s.doe p (spdmReply 0x60 (toLe 1 (16 + p) ++ m))).onSec p (fun x => { x with lastMeas := some m }))) ∧
  (∀ (s : State) (p : Nat), p < 16 → (s.part p).sec.session = true → (s.part p).sec.heartbeatAt + 20000000000 ≤ s.now →
    exec (.spdmHeartbeatMiss p) s = .next (s.endSession p)) ∧
  (∀ (s : State) (p : Nat), s.tdispServed p = true → (s.part p).sec.tdi = .unlocked → (s.part p).sec.st = .configured →
    exec (.lockInterface p) s =
      .next ((s.onSec p (fun x => { x with tdi := .locked, frozen := true })).doe 0 (tdispReply 0x03 []))) ∧
  (∀ (s : State) (p : Nat), s.tdispServed p = true → (s.part p).sec.tdi = .unlocked → (s.part p).sec.st ≠ .configured →
    exec (.lockInterface p) s = .next (s.doe 0 tdispError)) ∧
  (∀ (s : State) (p : Nat), s.tdispServed p = true → (s.part p).sec.tdi = .locked →
    exec (.getDeviceInterfaceReport p) s = .next (s.doe 0 (tdispReply 0x04 (s.measured p))) ∧
    exec (.startInterface p) s = .next ((s.onSec p (fun x => { x with tdi := .run })).doe 0 (tdispReply 0x06 []))) ∧
  (∀ (s : State) (p : Nat), s.tdispServed p = true → (s.part p).sec.tdi = .run →
    exec (.stopInterface p) s =
      .next (((s.onSec p (fun x => { x with tdi := .unlocked })).doe 0 (tdispReply 0x07 [])).loseAdmission p 1)) ∧
  (∀ (s : State) (p : Nat), s.doeServed = true → s.hasFn p = true → (s.part 0).sec.session = true →
    exec (.ideKm p) s = .next (s.onSec p (fun x => { x with ideKeys := true }))) ∧
  (∀ (s : State) (p : Nat), p < 16 → (s.part p).sec.tdi = .run →
    exec (.ideTlpFailure p) s = .next ((s.onSec p (fun x => { x with tdi := .error })).loseAdmission p 1)) ∧
  (∀ (s : State) (p w : Nat), s.admissionGone p = some w → exec (.admissionLost p) s = .next (s.loseAdmission p w)) ∧
  (∀ s : State, s.boot.stepEight = true → s.moduleDeep = false →
    exec .sealWrite s = .next { s with sec := { s.sec with sealed := true } })

/-- THE STEWARD'S MAILBOX (R451): while the steward runs, a request whose check passes is carried out and counted, one whose
check fails changes nothing but the count of refusals and its answer. -/
def Obligations.MailboxRequestsComplete : Prop :=
  (∀ (s : State) (seq k : Nat) (code : Option Nat) (st : Option PState), s.sec.steward = true → k < 16 →
    ∃ u, s.mailPower k code st = some u ∧ exec (.mailboxSetPower seq k code st) s = .next (u.answerMail 1 seq true)) ∧
  (∀ (s : State) (seq k : Nat) (code : Option Nat) (st : Option PState), s.sec.steward = true → 16 ≤ k →
    exec (.mailboxSetPower seq k code st) s = .next (s.answerMail 1 seq false)) ∧
  (∀ (s : State) (seq t : Nat), s.sec.steward = true → t < 64 →
    exec (.mailboxFenceReset seq .fence 0 t 0) s = .next ((s.fenceUnit 0 t 4).answerMail 2 seq true)) ∧
  (∀ (s : State) (seq kind unit : Nat), s.sec.steward = true → unit < unitCount kind → kind ≠ 0 →
    exec (.mailboxFenceReset seq .fence kind unit 0) s = .next (s.answerMail 2 seq false)) ∧
  (∀ (s : State) (seq p c : Nat) (f : List Byte), s.sec.steward = true → c < 64 → (s.chan c).isOpen = true →
    (s.chan c).part = p →
    exec (.mailboxChannelFilter seq p c f) s = .next
      (({ s with sec := { s.sec with filters := (c, f) :: s.sec.filters.filter (fun x => x.1 != c) } } : State).answerMail 3 seq
        true)) ∧
  (∀ (s : State) (seq off : Nat), s.sec.steward = true → off < 0x10000 → off / 0x1000 ≠ 4 → off % 4 = 0 →
    exec (.mailboxReadSensors seq off) s = .next
      (({ s with sec := { s.sec with mailData := [s.readGlobal off] } } : State).answerMail 4 seq true)) ∧
  (∀ (s : State) (seq off : Nat), s.sec.steward = true → off / 0x1000 = 4 →
    exec (.mailboxReadSensors seq off) s = .next (s.answerMail 4 seq false)) ∧
  (∀ (s : State) (seq : Nat) (r : List Byte), s.sec.steward = true → r.length ≤ 32 →
    exec (.mailboxWriteRecord seq false r) s = .next ((s.appendHealth (recOfBytes r)).answerMail 5 seq true)) ∧
  (∀ (s : State) (seq : Nat) (power : Bool) (r : List Byte), s.sec.steward = true → 32 < r.length →
    exec (.mailboxWriteRecord seq power r) s = .next (s.answerMail 5 seq false)) ∧
  (∀ (s : State) (seq kind unit : Nat), s.sec.steward = true → unit < unitCount kind →
    exec (.mailboxDebugRead seq kind unit false) s = .next
      (({ s with sec := { s.sec with mailData := (Config.debugState (unitIndex kind unit)).map BitVec.toNat } } : State).answerMail
        6 seq true) ∧
    exec (.mailboxDebugRead seq kind unit true) s = .next (s.answerMail 6 seq false)) ∧
  (∀ (s : State) (op seq : Nat) (ok : Bool),
    (s.answerMail op seq ok).sec.requests = (if ok then satTo 16 (s.sec.requests + 1) else s.sec.requests) ∧
    (s.answerMail op seq ok).sec.refused = (if ok then s.sec.refused else satTo 16 (s.sec.refused + 1)) ∧
    (s.answerMail op seq ok).sec.mail.head? = some { op := op, status := if ok then 0 else 1, seq := seq })

/-- THE MONITOR, reports (R574, R575): a session's next line that is the one word of a report is taken out of the session and
answered with lines of text, `ok` and the prompt; nothing else changes but how far the service output has drained. The words
of the lines are the model's (notes/assumptions/28.md). -/
def Obligations.MonitorReportsComplete : Prop :=
  (∀ (s : State) (relay : Bool) (c : Instr) (w : String),
    (c, w) ∈ [(Instr.monitorHelp relay, "help"), (.monitorWhoami relay, "whoami"), (.monitorState relay, "state"),
              (.monitorTime relay, "time"), (.monitorPower relay, "power"), (.monitorSensors relay, "sensors"),
              (.monitorHealth relay, "health"), (.monitorTiles relay, "tiles"), (.monitorParts relay, "parts"),
              (.monitorLinks relay, "links"), (.monitorFw relay, "fw")] →
    s.drain.nextLine relay = some [ascii w] →
    ∃ lines, exec c s =
      .next ((s.drain.onSession relay (fun x => { x with lines := x.lines.tail })).respond relay lines none)) ∧
  (∀ (s : State) (relay : Bool), s.drain.nextLine relay = some [ascii "log", ascii "health"] →
    exec (.monitorLog relay) s = .next ((s.drain.onSession relay (fun x => { x with lines := x.lines.tail })).respond relay
      ((s.health.log.reverse.take 16).map HealthRec.line) none)) ∧
  (∀ (s : State) (relay : Bool), s.drain.nextLine relay = some [ascii "log", ascii "pq"] →
    exec (.monitorLog relay) s = .next ((s.drain.onSession relay (fun x => { x with lines := x.lines.tail })).respond relay
      ((s.power.pqRing.reverse.take 16).map PqRec.line) none)) ∧
  (∀ (s : State) (relay : Bool) (o w : List Byte) (off : Nat), s.drain.nextLine relay = some [ascii "reg", o, w] →
    o = ascii "read" → regOffset w = some off →
    ∃ t, exec (.monitorRegRead relay) s = .next t ∧
      t = (s.drain.onSession relay (fun x => { x with lines := x.lines.tail })).respond relay
        [spaced [regText off, regText ((s.drain.onSession relay (fun x => { x with lines := x.lines.tail })).readBar0 0 off)]] none) ∧
  (∀ (s : State) (relay : Bool) (ws : List (List Byte)), s.drain.nextLine relay = some ws →
    commandList.any (fun c => named c.1 ws) = false →
    exec (.monitorUnknownCommand relay) s =
      .next ((s.drain.onSession relay (fun x => { x with lines := x.lines.tail })).respond relay [] (some 1)))

/-- THE MONITOR, commands that act (R571, R576 to R579): what each does on a session whose next line spells it, at engineer
level where it needs that.
THE MONITOR, engineer level (R576 to R579): an engineer command on a session without the level is answered with E3 and does
nothing else. -/
def Obligations.MonitorActionsComplete : Prop :=
  (∀ (s u : State) (relay : Bool), u = s.drain.onSession relay (fun x => { x with lines := x.lines.tail }) →
    s.drain.nextLine relay = some [ascii "auth"] → u.authShut = false → u.openChallenge = none →
    ∃ t lines, exec (.monitorAuthChallenge relay) s = .next (t.respond relay lines none) ∧
      t = { u with
        fresh := u.fresh + 1
        mon := { u.mon with count := u.mon.count + 1,
                            challenge := some (relay, u.random.truncate 128, u.mon.count + 1, u.now) } }) ∧
  (∀ (s u : State) (relay : Bool) (args : List (List Byte)) (n : BitVec 128) (k at_ : Nat),
    u = s.drain.onSession relay (fun x => { x with lines := x.lines.tail }) →
    s.drain.nextLine relay = some (ascii "auth" :: args) → args.length = 24 → args.all isGroup = true →
    u.authShut = false → u.openChallenge = some (relay, n, k, at_) → (u.session (!relay)).engineer = false →
    (Config.serviceSigned (challengeText (relay, n, k, at_)) (groupBytes args) = true →
      exec (.monitorAuthResponse relay) s = .next (({ u with mon := { u.mon with challenge := none } } : State).onSession relay
        (fun x => { x with engineer := true }) |>.respond relay [] none)) ∧
    (Config.serviceSigned (challengeText (relay, n, k, at_)) (groupBytes args) = false →
      exec (.monitorAuthResponse relay) s =
        .next (({ u with mon := { u.mon with challenge := none } } : State).authFailed.respond relay [] (some 5)))) ∧
  (∀ (s u : State) (relay : Bool), u = s.drain.onSession relay (fun x => { x with lines := x.lines.tail }) →
    s.drain.nextLine relay = some [ascii "logout"] → (s.drain.session relay).engineer = true →
    exec (.monitorLogout relay) s = .next ((u.onSession relay (fun x => { x with engineer := false })).acted.respond relay [] none)) ∧
  (∀ (s u : State) (w : List Byte), u = s.drain.onSession false (fun x => { x with lines := x.lines.tail }) →
    s.drain.nextLine false = some [ascii "baud", w] → numberOf w = some 115200 →
    ∃ left, exec (.monitorBaud false) s =
      .next (({ u with mon := { u.mon with nextBaud := some (left, 115200) } } : State).respond false [] none)) ∧
  (∀ (s u : State) (relay : Bool) (w : List Byte) (k : Nat × Nat),
    u = s.drain.onSession relay (fun x => { x with lines := x.lines.tail }) →
    (s.drain.session relay).engineer = true → unitNamed w = some k →
    (s.drain.nextLine relay = some [ascii "fence", w] → k.1 = 0 → k.2 < 64 → u.isFenced k = false →
      exec (.monitorFence relay) s =
        .next (((u.fenceUnit 0 k.2 4).answerMail 2 (u.sec.requests + u.sec.refused) true).acted.respond relay
          [unitSays k "fenced"] none)) ∧
    (s.drain.nextLine relay = some [ascii "dump", w] →
      ∃ lines, exec (.monitorDump relay) s =
        .next (((({ u with sec := { u.sec with mailData := (Config.debugState (unitIndex k.1 k.2)).map BitVec.toNat } } : State).answerMail
          6 (u.sec.requests + u.sec.refused) true).acted).respond relay lines none))) ∧
  (∀ (s u : State) (relay : Bool) (d w : List Byte) (k : Nat) (v : State),
    u = s.drain.onSession relay (fun x => { x with lines := x.lines.tail }) →
    (s.drain.session relay).engineer = true → domNamed d = some k →
    (∀ st : PState, s.drain.nextLine relay = some [ascii "pstate", d, w] → st ≠ .deep → st.text = w →
      u.mailPower k none (some st) = some v →
      exec (.monitorPstate relay) s = .next ((v.answerMail 1 (u.sec.requests + u.sec.refused) true).acted.respond relay
        [spaced [domName k, (v.dom k).target.text]] none)) ∧
    (∀ code : Nat, s.drain.nextLine relay = some [ascii "vset", d, w] → numberOf w = some code → code ≤ 120 →
      u.mailPower k (some code) none = some v →
      exec (.monitorVset relay) s = .next ((v.answerMail 1 (u.sec.requests + u.sec.refused) true).acted.respond relay
        [spaced [domName k, decText (v.dom k).code]] none))) ∧
  (∀ (s u : State) (relay : Bool) (o w : List Byte) (off v : Nat),
    u = s.drain.onSession relay (fun x => { x with lines := x.lines.tail }) →
    (s.drain.session relay).engineer = true → s.drain.nextLine relay = some [ascii "reg", ascii "write", o, w] →
    regOffset o = some off → numberOf w = some v → v < 2 ^ 32 → monWritable.contains off = true → off ≠ 0x702C →
    ∃ t line, exec (.monitorRegWrite relay) s = .next (t.acted.respond relay [line] none) ∧
      t = { u.writeBar0 0 off v with mon := { (u.writeBar0 0 off v).mon with last := some (relay, off) } }) ∧
  (∀ (s u : State) (relay : Bool) (w : List Byte) (k : Nat × Nat), u = s.drain → (s.session relay).await = none →
    u.nextLine relay = some [ascii "reset", w] → (u.session relay).engineer = true → unitNamed w = some k →
    (u.unit k.1 k.2).fenced = false → k.2 < unitCount k.1 →
    exec (.monitorReset relay) s =
      .next ((((u.requestReset k.1 k.2 4 [] false false).answerMail 2 (u.sec.requests + u.sec.refused) true).say relay
        (unitSays k "reset" ++ lineEnd)).awaits relay (some k))) ∧
  (∀ (s u : State) (relay : Bool) (w : List Byte) (k : Nat × Nat), u = s.drain → (s.session relay).await = none →
    u.nextLine relay = some [ascii "unfence", w] → (u.session relay).engineer = true → unitNamed w = some k →
    u.isFenced k = true → k.1 ≠ 0 →
    exec (.monitorUnfence relay 0) s =
      .next ((((u.requestReset k.1 k.2 3 [] false true).answerMail 2 (u.sec.requests + u.sec.refused) true).say relay []).awaits
        relay (some k))) ∧
   (∀ (s : State) (relay : Bool) (ws : List (List Byte)) (c : Instr) (w : String),
      (c, w) ∈ [(Instr.monitorLogout relay, "logout"), (.monitorFence relay, "fence"), (.monitorDump relay, "dump"),
                (.monitorPstate relay, "pstate"), (.monitorVset relay, "vset")] →
      s.drain.nextLine relay = some (ascii w :: ws) → (s.drain.session relay).engineer = false →
      exec c s = .next ((s.drain.onSession relay (fun x => { x with lines := x.lines.tail })).respond relay [] (some 3)))

/-- THE MONITOR, its line and its timers (R570, R571, R573, R574, R578, R579): bytes and breaks on the UART, and what each
lapse leaves. -/
def Obligations.MonitorLineComplete : Prop :=
  (∀ (s : State) (b : Byte), s.drain.monUp false = true → 0x20 ≤ b.toNat → b.toNat ≤ 0x7E → (s.drain.mon.service).afterCr = false →
    s.drain.mon.service.line.length < 256 →
    ∃ t, exec (.uartByteReceive b) s = .next t ∧ t.mon.service.line = s.drain.mon.service.line ++ [b] ∧ t.mon.lastByte = s.now) ∧
  (∀ (s : State) (ms : Nat), 250 ≤ ms →
    exec (.uartBreak ms) s = .next { s.drain with
      mon := { s.drain.mon with baud := 115200, nextBaud := none, service := { s.drain.mon.service with engineer := false } } }) ∧
  (∀ s : State, s.mon.baud ≠ 115200 → s.mon.lastByte + 60000000000 ≤ s.now →
    exec .baudIdleRevert s = .next { s.drain with mon := { s.drain.mon with baud := 115200, nextBaud := none } }) ∧
  (∀ (s : State) (relay : Bool), (s.session relay).engineer = true →
    (s.session relay).lastLine + 1800000000000 ≤ s.now →
    exec (.engineerIdleLapse relay) s = .next (s.onSession relay (fun x => { x with engineer := false }))) ∧
  (∀ s : State, s.openChallenge = none →
    exec .challengeLapse s = .next { s with mon := { s.mon with challenge := none } }) ∧
  (∀ (s : State) (u : Nat), s.mon.lockUntil = some u → u ≤ s.now →
    exec .authLockoutEnd s = .next { s with mon := { s.mon with lockUntil := none, fails := [] } }) ∧
  (∀ (s : State) (relay : Bool) (w : Nat), (s.drain.session relay).waitSince = some w → w + 30000000000 ≤ s.now →
    exec (.monitorOutputStall relay) s = .next (s.drain.onSession relay (fun x =>
      { x with waiting := lineEnd ++ errText 8 ++ lineEnd ++ prompt, waitSince := none, await := none })))

/-- THE COURSE OF A COMMAND (R257): a descriptor that may start and fails one of the shared checks completes with that failure
at once and does nothing else, whatever its row; a failed predecessor (R256), an undefined opcode, and an administrative opcode
outside the admin ring (R229) are such failures. -/
def Obligations.FirstFailedCheckCompletes : Prop :=
  (∀ (s : State) (r : DescRef) (d : Desc) (f : Fail) (c : Instr) (op : Nat),
    (c, op) ∈ [(Instr.nop r, 0x00), (.barrier r, 0x01), (.fence r, 0x02), (.eventSignal r, 0x03), (.eventWait r, 0x04),
      (.timerWait r, 0x05), (.actRun r, 0x06), (.actStop r, 0x07), (.matmul r, 0x10), (.conv r, 0x11), (.eltwise r, 0x12),
      (.reduce r, 0x13), (.norm r, 0x14), (.softmax r, 0x15), (.convert r, 0x16), (.gather r, 0x17), (.scatter r, 0x18),
      (.fill r, 0x1A), (.digest r, 0x1B), (.step r, 0x50), (.sample r, 0x51), (.verify r, 0x52), (.groupSet r, 0x6F),
      (.scale r, 0x74), (.partConfig r, 0x90), (.memGrant r, 0x92), (.memRelease r, 0x93), (.engineConfig r, 0x94),
      (.engineRelease r, 0x95)] →
    s.desc? r.part r.num = some d → d.op = op → d.startedAt = none → s.mayStart r.part d = true →
    s.checks r.part d = some f →
    exec c s = .next (s.failDesc r.part d f)) ∧
  (∀ (s : State) (p : Nat) (d : Desc) (n st : Nat), d.chain = true → d.pred = some n → d.predStatus = some st →
    st ≠ 0x00 → st ≠ 0x01 → s.checks p d = some (.status 0x14 0)) ∧
  (∀ (s : State) (p : Nat) (d : Desc), (d.chain = false ∨ d.pred = none) → opInfo d.op = none →
    d.op = byteAt d.bytes 0 → s.checks p d = some (.status 0x10 0)) ∧
  (∀ (s : State) (p : Nat) (d : Desc), (d.chain = false ∨ d.pred = none) → staticFail d.act.isSome d.bytes = none →
    0x90 ≤ d.op → d.op ≤ 0x9F → (p ≠ 0 ∨ d.sq ≠ 0) → s.checks p d = some (.status 0x13 0xF))

/-- THE CONTROL COMMANDS (R259 to R262): NOP, BARRIER, FENCE, the event counters and timers, each on a descriptor that can
start, or that has started and whose end has come; an undefined opcode completes with BAD_OPCODE.
ACTS (R264 to R266): ACT_RUN takes a FREE slot and starts its act's descriptors, or schedules a cyclic act; ACT_STOP joins
the stop. -/
def Obligations.ControlCommandsComplete : Prop :=
  (∀ (s u : State) (r : DescRef) (d : Desc), s.Ready r d → u = s.started r.part d →
    (d.op = 0x00 → exec (.nop r) s = .next (u.afterWork (u.atWork r.part d) r.part d {})) ∧
    (d.op = 0x01 → exec (.barrier r) s = .next (u.afterWork (u.atWork r.part d) r.part d {})) ∧
    (d.op = 0x02 → (d.fld 16 1).testBit 0 = true → exec (.fence r) s =
      .next (u.afterWork ((u.atWork r.part d).onPart r.part (fun q => { q with mem := { q.mem with xlat := [] } })) r.part d {})) ∧
    (d.op = 0x02 → (d.fld 16 1).testBit 0 = false → exec (.fence r) s =
      .next (u.afterWork (u.atWork r.part d) r.part d {}))) ∧
  (∀ (s : State) (r : DescRef) (d : Desc) (c : Nat) (v : BitVec 64), s.Ready r d → d.op = 0x03 → c = d.fld 16 1 →
    v = (if d.fld 17 1 = 0 then s.counter r.part c + BitVec.ofNat 64 (d.fld 24 8)
         else if d.fld 17 1 = 1 then BitVec.ofNat 64 (d.fld 24 8)
         else if (s.counter r.part c).toNat < d.fld 24 8 then BitVec.ofNat 64 (d.fld 24 8) else s.counter r.part c) →
    d.fld 24 8 < 2 ^ 64 → d.engine = 0xFF →
    ∃ t, t = (s.started r.part d).onPart r.part (fun q => { q with counters := updAt q.counters c (fun _ => v) }) ∧
      exec (.eventSignal r) s =
        .next ((t.complete r.part d { result := v.toNat % 2 ^ 32 }).wakeWaiters r.part c)) ∧
  (∀ (s : State) (r : DescRef) (d : Desc) (v : BitVec 64), s.Ready r d → d.op = 0x04 → d.engine = 0xFF →
    v = s.counter r.part (d.fld 16 1) → waitHolds d v = true →
    exec (.eventWait r) s = .next ((s.started r.part d).complete r.part d { result := v.toNat % 2 ^ 32 })) ∧
  (∀ (s : State) (r : DescRef) (d : Desc), s.Ready r d → d.op = 0x04 → d.engine = 0xFF →
    waitHolds d (s.counter r.part (d.fld 16 1)) = false →
    exec (.eventWait r) s = .next (if (s.waiters r.part).length < 4096 then s.started r.part d
      else s.failDesc r.part d (.status 0x51 0))) ∧
  (∀ (s : State) (r : DescRef) (d : Desc) (t : Nat), s.desc? r.part r.num = some d → d.op = 0x04 → d.startedAt = some t →
    d.fld 32 8 ≠ 0 → d.fld 32 8 ≤ s.now →
    exec (.eventWaitDeadline r) s = .next (s.complete r.part d { status := 0x50 })) ∧
  (∀ (s : State) (r : DescRef) (d : Desc), s.Ready r d → d.op = 0x05 → d.engine = 0xFF → d.fld 16 1 = 1 →
    exec (.timerWait r) s = .next (if d.fld 24 8 ≤ s.now then (s.started r.part d).complete r.part d {}
      else s.started r.part d)) ∧
  (∀ (s : State) (r : DescRef) (d : Desc), s.Ready r d → d.op = 0x05 → d.engine = 0xFF → d.fld 16 1 = 0 →
    d.fld 24 8 ≠ 0 → exec (.timerWait r) s = .next (s.started r.part d)) ∧
  (∀ (s : State) (r : DescRef) (d : Desc) (t : Nat), s.desc? r.part r.num = some d → d.op = 0x05 → d.startedAt = some t →
    (if d.fld 16 1 = 1 then d.fld 24 8 else t + d.fld 24 8) ≤ s.now →
    exec (.timerWaitExpiry r) s = .next (s.complete r.part d {})) ∧
  (∀ (s : State) (r : DescRef) (d : Desc), s.desc? r.part r.num = some d → opInfo d.op = none → d.startedAt = none →
    d.chain = false → s.mayStart r.part d = true →
    exec (.badOpcode r) s = .next (s.failDesc r.part d (.status 0x10 0))) ∧
  (∀ (s : State) (r : DescRef) (d : Desc) (a : ActRead), s.Ready r d → d.op = 0x06 → d.engine = 0xFF → d.fld 17 1 = 0 →
    (s.act r.part (d.fld 16 1)).st = .free → s.readActRun r.part d = .ok a →
    (s.started r.part d).readActRun r.part d = .ok a →
    exec (.actRun r) s = .next
      (((s.started r.part d).onAct r.part (d.fld 16 1) (fun _ =>
        { runNum := d.num, va := d.fld 18 6, count := a.lane0.length, st := .running })).addLane r.part (d.fld 16 1) 0 d a.lane0)) ∧
  (∀ (s : State) (r : DescRef) (d : Desc), s.Ready r d → d.op = 0x06 → (s.act r.part (d.fld 16 1)).st ≠ .free →
    d.fld 17 1 = 0 → exec (.actRun r) s = .next (s.failDesc r.part d (.status 0x12 0))) ∧
  (∀ (s : State) (r : DescRef) (d : Desc), s.Ready r d → d.op = 0x07 → d.engine = 0xFF →
    (s.act r.part (d.fld 16 1)).st ≠ .free →
    exec (.actStop r) s = .next
      (((s.started r.part d).onAct r.part (d.fld 16 1) (fun a => { a with stops := a.stops ++ [d.num] })).stopAct r.part
        (d.fld 16 1) (d.fld 17 1 == 1))) ∧
  (∀ (s : State) (r : DescRef) (d : Desc), s.Ready r d → d.op = 0x07 → (s.act r.part (d.fld 16 1)).st = .free →
    exec (.actStop r) s = .next (s.failDesc r.part d (.status 0x12 0)))

/-- THE TENSOR COMMANDS (R267 to R279): a tensor command whose parameter block reads, whose own checks pass and whose operands
are free of data faults carries out its row's operation and completes with the outcome that gives. -/
def Obligations.TensorCommandsComplete : Prop :=
  ∀ (s t u : State) (r : DescRef) (d : Desc) (b : List Byte) (o : Done),
    s.Ready r d → s.paramBlock r.part d = .ok b → s.digestReach r.part d = none → u = s.started r.part d →
    (u.atWork r.part d).paramBlock r.part d = .ok b →
    (d.op = 0x10 → modeBad d (!is16 (slotRec b 0).fmt) (slotRec b 0).cols = none → firstBad (matmulBad d b) = none →
      s.matmulLists r.part d b = none →
      (u.atWork r.part d).runMatmul r.part d b = .ok (t, o) → exec (.matmul r) s = .next (u.afterWork t r.part d o)) ∧
    (d.op = 0x11 → modeBad d (!is16 (slotRec b 0).fmt) (d.geo.kh * d.geo.kw * ((slotRec b 0).cols / d.geo.g)) = none →
      firstBad (convBad d b) = none →
      (u.atWork r.part d).runConv r.part d b = .ok (t, o) → exec (.conv r) s = .next (u.afterWork t r.part d o)) ∧
    (d.op = 0x12 → firstBad (eltwiseBad d b) = none →
      (u.atWork r.part d).runEltwise r.part d b = .ok (t, o) → exec (.eltwise r) s = .next (u.afterWork t r.part d o)) ∧
    (d.op = 0x13 → firstBad (reduceBad d b) = none →
      (u.atWork r.part d).runReduce r.part d b = .ok (t, o) → exec (.reduce r) s = .next (u.afterWork t r.part d o)) ∧
    (d.op = 0x14 → firstBad (normBad d b) = none →
      (u.atWork r.part d).runNorm r.part d b = .ok (t, o) → exec (.norm r) s = .next (u.afterWork t r.part d o)) ∧
    (d.op = 0x15 → firstBad (softmaxBad d b) = none →
      (u.atWork r.part d).runSoftmax r.part d b = .ok (t, o) → exec (.softmax r) s = .next (u.afterWork t r.part d o)) ∧
    (d.op = 0x16 → firstBad (convertBad d b) = none →
      (u.atWork r.part d).runConvert r.part d b = .ok (t, o) → exec (.convert r) s = .next (u.afterWork t r.part d o)) ∧
    (d.op = 0x17 → firstBad (gatherBad d b) = none →
      (u.atWork r.part d).runGather r.part d b = .ok (t, o) → exec (.gather r) s = .next (u.afterWork t r.part d o)) ∧
    (d.op = 0x18 → firstBad (scatterBad d b) = none →
      (u.atWork r.part d).runScatter r.part d b = .ok (t, o) → exec (.scatter r) s = .next (u.afterWork t r.part d o)) ∧
    (d.op = 0x19 → d.srcHost = false → firstBad (copyBad d b) = none → ∀ h,
      (u.atWork r.part d).runCopy r.part d h b = .ok (t, o) → exec (.copy r h) s = .next (u.afterWork t r.part d o)) ∧
    (d.op = 0x19 → d.srcHost = true → firstBad (copyBad d b) = none → ∀ h,
      (u.atWork r.part d).runCopy r.part d h b = .ok (t, o) →
      exec (.copy r h) s = .next ((u.afterWork t r.part d o).noteHostRead r.part h)) ∧
    (d.op = 0x1A → firstBad (fillBad d b) = none → patternBad d b = none →
      (u.atWork r.part d).runFill r.part d b = .ok (t, o) → exec (.fill r) s = .next (u.afterWork t r.part d o)) ∧
    (d.op = 0x1B → firstBad (digestBadBlock d b) = none →
      (u.atWork r.part d).runDigest r.part d b = .ok (t, o) → exec (.digest r) s = .next (u.afterWork t r.part d o))

/-- PARTITIONS, configuring (R286, R440, R441): PART_CONFIG and the actions of PART_STATE on a partition in the state that
each needs; what RUN, RESET and UNCONFIGURE leave; a reset of a function. -/
def Obligations.PartitionCommandsComplete : Prop :=
  (∀ (s t : State) (r : DescRef) (d : Desc) (b : List Byte), s.Ready r d → d.op = 0x90 → t = s.started r.part d →
    s.partConfigCheck r.part d = none → t.readSpec r.part d = .ok b →
    exec (.partConfig r) s = .next ((t.configure (d.fld 16 1) (d.fld 18 2) b).complete r.part d {})) ∧
  (∀ (s t : State) (r : DescRef) (d : Desc) (k : Nat), s.Ready r d → d.op = 0x91 → t = s.started r.part d → k = d.fld 16 1 →
    (s.part k).sec.resetting = false →
    (d.fld 17 1 = 1 → (s.part k).sec.st = .configured → (s.part k).engines = [] → s.admissible k = true →
      (t.part k).sec.engSpecs = [] → (s.part k).sec.engSpecs = [] →
      exec (.partStateAdmit r) s = .next ((t.admitPart k).complete r.part d {})) ∧
    (d.fld 17 1 = 1 → (s.part k).sec.st = .configured → (s.part k).engines = [] → s.admissible k = true →
      (∀ e, e ∈ (s.part k).sec.engSpecs → s.engineBars k e = none) → (t.part k).sec.engSpecs ≠ [] →
      exec (.partStateAdmit r) s =
        .next ((t.part k).sec.engSpecs.foldl (fun a e => a.loadEngine k e (some (r.part, d.num))) t)) ∧
    (d.fld 17 1 = 2 → (s.part k).sec.st = .admitted →
      exec (.partStateRun r) s = .next (((t.onSec k (fun y => { y with st := .running })).onPart k (fun q =>
        { q with rate := { q.rate with first := true, next := if q.rate.enable then some t.now else none } })).complete
          r.part d {})) ∧
    (d.fld 17 1 = 3 → (s.part k).sec.st = .running →
      exec (.partStateQuiesce r) s = .next ((t.quiesce k).complete r.part d {})) ∧
    (d.fld 17 1 = 5 → (s.part k).sec.st = .configured →
      exec (.partStateUnconfigure r) s = .next ((t.unconfigure k).complete r.part d {}))) ∧
  (∀ (s t : State) (r : DescRef) (d : Desc) (k : Nat), s.Ready r d → d.op = 0x91 → d.fld 17 1 = 4 → t = s.started r.part d →
    k = d.fld 16 1 → (s.part k).sec.st ≠ .unconfigured → (t.part k).sec.resetting = false →
    exec (.partStateReset r) s = .next ((t.beginReset k).endReset k)) ∧
  (∀ (s : State) (p : Nat), (s.part p).sec.st = .quiescing → (∀ d, d ∈ (s.part p).fetched → isAdmin d.op = true) →
    (∀ a, a ∈ (s.part p).acts → a.st = .free) →
    exec (.quiesceDone p) s =
      .next ((s.onSec p (fun x => { x with st := .admitted })).raiseBoth p 0x63 [BitVec.ofNat 8 PartSt.admitted.code])) ∧
  (∀ (s t : State) (p : Nat), s.hasFn p = true → s.host.up = true → (s.part p).sec.resetting = false →
    t = { s with host := { s.host with cfg := updAt s.host.cfg p (fun _ => {}) } } →
    exec (.functionLevelReset p) s = .next (if (s.part p).sec.st = .unconfigured then t.resetPage p
      else (t.beginReset p).endReset p))

/-- GRANULES (R189, R193, R286): MEM_GRANT backs and zeroes each granule for its new owner; MEM_RELEASE returns each to the
free pool. -/
def Obligations.GranuleCommandsComplete : Prop :=
  (∀ (s t u : State) (r : DescRef) (d : Desc), s.Ready r d → d.op = 0x92 → t = s.started r.part d →
    s.memGrantCheck r.part d = none → t.grantAll (d.fld 16 1) (d.fld 17 1) (d.fld 18 1) d.granules = some u →
    exec (.memGrant r) s = .next (u.complete r.part d {})) ∧
  (∀ (s t : State) (r : DescRef) (d : Desc), s.Ready r d → d.op = 0x93 → t = s.started r.part d →
    s.memReleaseCheck r.part d = none →
    exec (.memRelease r) s = .next ((d.granules.foldl (fun a g => a.releaseGranule g) t).complete r.part d {})) ∧
  (∀ (s t : State) (o mode port g : Nat) (sl : List (Nat × Nat)), g < 0x8000 → g < s.mem.grans.length →
    s.backing g mode port = some sl → s.grantOne o mode port g = some t →
    (t.gran g).owner = o ∧ (t.gran g).slices = sl ∧ (t.gran g).loc = (if mode = 1 then some port else none))

/-- ENGINES AND TILES (R63, R286, R512 to R514): configuring, loading and releasing an engine, the end of a work item, and the
host's fence and unfence of a tile. -/
def Obligations.EngineCommandsComplete : Prop :=
  (∀ (s t : State) (r : DescRef) (d : Desc), s.Ready r d → t = s.started r.part d →
    (d.op = 0x94 → s.engineConfigCheck r.part d = none →
      exec (.engineConfig r) s = .next (t.loadEngine (d.fld 16 1) d.engineEntry (some (r.part, d.num)))) ∧
    (d.op = 0x95 → s.engineReleaseCheck r.part d = none →
      exec (.engineRelease r) s =
        .next (((t.dropEngine (d.fld 16 1) (d.fld 17 1)).reviewHealth false).complete r.part d {})) ∧
    (d.op = 0x96 → d.fld 17 1 = 1 → (s.tile (d.fld 16 1)).st ≠ .fenced →
      exec (.tileFence r) s = .next ((t.fenceUnit 0 (d.fld 16 1) 4).complete r.part d {})) ∧
    (∀ failed, d.op = 0x96 → d.fld 17 1 = 0 → (s.tile (d.fld 16 1)).st = .fenced →
      exec (.tileUnfence r failed) s = .next (if failed % 64 = 0
        then ((t.roundPassed 0 (d.fld 16 1)).unfence 0 (d.fld 16 1)).complete r.part d {}
        else (t.roundFailed 0 (d.fld 16 1) (lowestTest failed) (failed % 64)).complete r.part d { status := 0x61 }))) ∧
  (∀ (s t : State) (p i : Nat) (e : Engine) (tiles : List Nat), s.engine? p i = some e → tiles ≠ [] →
    s.loads.head? = some (p, i) →
    tiles = e.tiles.filter (fun k => (s.tile k).st == .loading && (s.tile k).engine == some i && (s.tile k).part == some p) →
    t = tiles.foldl (fun (u : State) k =>
        (u.onTile k (fun x => { x with st := .idle, release := e.release, image := e.image })).settleFence k)
      (s.onPart p (fun q => { q with engines := q.engines.map (fun (x : Engine) =>
        if x.idx == i then { x with loadedBy := none } else x) })) →
    exec (.engineLoadComplete p i true) s = .next (t.loadedFor p e.loadedBy) ∧
    exec (.engineLoadComplete p i false) s = .next (s.loadFailed p e)) ∧
  (∀ (s : State) (k p num : Nat) (l : List (Nat × Nat)), (s.tile k).items = (p, num) :: l → (s.tile k).st = .active →
    (s.dom (domOfTile k)).st = .run →
    exec (.workItemComplete k) s =
      .next ((s.chargeItem k).leftItems k (if (s.tile k).fencePending.isSome then [] else s.nextFirst l)))

/-- KEYS AND FIRMWARE (R464 to R471, R492 to R496): each KEY_OP, the conversion of a frame, and a firmware package. -/
def Obligations.KeyAndFirmwareCommandsComplete : Prop :=
  (∀ (s t : State) (r : DescRef) (d : Desc) (k : Nat), s.Ready r d → t = s.started r.part d → d.op = 0x97 → k = d.fld 16 1 →
    (s.part k).sec.resetting = false →
    (d.fld 17 1 = 1 → (s.part k).sec.st.rotates = true → (s.part k).sec.prevKey = none → (s.part k).sec.retiredFrames = [] →
      exec (.keyOpRotate r) s = .next ((t.tick.onSec k (fun y =>
        { y with prevKey := y.curKey, curKey := some t.random, epoch := y.epoch + 1, oldFrames := t.frames k })).complete
          r.part d { result := ((t.tick.onSec k (fun y => { y with
            prevKey := y.curKey, curKey := some t.random, epoch := y.epoch + 1, oldFrames := t.frames k })).part k).sec.epoch.toNat })) ∧
    (d.fld 17 1 = 2 → (s.part k).sec.st.rotates = true → (s.part k).sec.prevKey.isSome = true →
      exec (.keyOpRetire r) s = .next
        (((t.onSec k (fun y => { y with prevKey := none, oldFrames := [], retiredFrames := y.oldFrames })).raiseBoth k 0x61
          (toLe 4 (frameCount (t.part k).sec.oldFrames))).complete r.part d { result := frameCount (t.part k).sec.oldFrames })) ∧
    (d.fld 17 1 = 3 → (s.part k).sec.frozen = false → (s.part k).sec.st.rotates = true →
      exec (.keyOpClearRetired r) s =
        .next ((((t.part k).sec.retiredFrames.foldl (fun (a : State) x =>
          { a with mem := a.mem.zero (x.1 * 0x10000) ((x.1 + x.2) * 0x10000) }) t).onSec k (fun y =>
            { y with retiredFrames := [] })).complete r.part d {})) ∧
    (∀ b key, d.fld 17 1 = 4 → (s.part k).sec.frozen = false → (s.part k).sec.loads? = true → s.readBind r.part d = .ok b →
      t.readBind r.part d = .ok b → namesModule b = true →
      (t.bound b = some key → exec (.keyOpBindLoad r) s =
        .next ((t.onSec k (fun y => y.bindKey (byteAt b 4) (sliceOf b 8 16) key)).complete r.part d {})) ∧
      (t.bound b = none → exec (.keyOpBindLoad r) s = .next (t.complete r.part d { status := 0x41 }))) ∧
    (∀ h, d.fld 17 1 = 6 → (s.part k).sec.frozen = false → (s.part k).sec.st ≠ .unconfigured →
      s.readVa r.part none 0 (d.fld 20 6) 8 = .ok h → byteAt h 4 ≤ 7 →
      exec (.keyOpContentDrop r) s =
        .next ((t.onSec k (fun y => { y with
          content := updAt y.content (byteAt (t.peekVa r.part (d.fld 20 6) 8) 4) (fun _ => none) })).complete r.part d {}))) ∧
  (∀ (s : State) (r : DescRef) (d : Desc) (chunks : List (List Byte)) (t u : State) (o : Done), s.Ready r d →
    d.op = 0x97 → d.fld 17 1 = 5 → chunksFit (fieldAt (s.peekVa r.part (d.fld 20 6) 64) 16 8) chunks = true → s.host.up = true →
    s.weightCheck r.part d = none → u = s.started r.part d → (u.atWork r.part d).weightLoad r.part d chunks = .ok (t, o) →
    exec (.keyOpWeightLoad r chunks) s = .next (u.afterWork t r.part d o)) ∧
  (∀ (s : State) (p : Nat) (f n : Nat) (l : List (Nat × Nat)), p < 16 → (s.part p).sec.prevKey.isSome = true → 1 < n →
    (s.part p).sec.oldFrames = (f, n) :: l →
    exec (.frameConvert p) s = .next (s.onSec p (fun y => { y with oldFrames := (f + 1, n - 1) :: l }))) ∧
  (∀ (s : State) (p f : Nat), p < 16 → (s.part p).sec.prevKey.isSome = true → (s.part p).sec.oldFrames = [(f, 1)] →
    exec (.frameConvert p) s =
      .next (((s.onSec p (fun y => { y with oldFrames := [] })).onSec p (fun y => { y with prevKey := none })).raiseBoth p 0x60
        (toLe 4 (s.part p).sec.epoch.toNat))) ∧
  (∀ (s t u : State) (r : DescRef) (d : Desc) (k : HostRead) (o : Done), s.Ready r d → d.op = 0x98 →
    fwWhole k (d.fld 32 4) = true → s.fwStageCheck k d = none → u = (s.started r.part d).fwOpen d →
    (u.atWork r.part d).fwStage k d = .ok (t, o) →
    exec (.fwStage r k) s = .next ((u.afterWork t r.part d o).noteHostRead r.part k)) ∧
  (∀ (s t : State) (r : DescRef) (d : Desc), s.Ready r d → d.op = 0x99 → d.fld 16 1 ≠ 1 →
    s.fwActivateCheck r.part d = none → t = (s.started r.part d).onFw (d.fld 16 1) FwTarget.switched →
    exec (.fwActivate r) s = .next ((t.raise 0 0x82 (toLe 1 (d.fld 16 1) ++ toLe 1 (b2n (t.fwTarget (d.fld 16 1)).activeB) ++
      toLe 1 (d.fld 17 1) ++ zeros 1 ++ toLe 4 (t.fwTarget (d.fld 16 1)).active.version)).complete r.part d
        { result := (t.fwTarget (d.fld 16 1)).active.version }))

/-- THE KV CACHE, commands on one sequence (R301, R304, R309, R313 to R315, R318): on an attached space that no STEP works on,
each command whose checks pass makes its commit as it starts, `b` being the space as the commit finds it (R317) and `v` what its
records become, and completes with its count. -/
def Obligations.KvSequenceCommandsComplete : Prop :=
  ∀ (s a u b v w : State) (r : DescRef) (d : Desc) (k : Kv) (h : List Byte) (q : Nat), s.Ready r d →
    (s.part r.part).running = [] → s.readVa r.part (s.srcOf r.part d) 0 k.va 512 = .ok h → u = s.kvNow k →
    a = s.started r.part d → b = a.kvNow k →
    (∀ n : Nat, s.kv? r.part (d.fld 16 1 % 16) = some k → a.kv? r.part (d.fld 16 1 % 16) = some k → q = d.fld 20 4 → q < k.seqMax →
      w = (v.settle k b b.now).kvOpen r.part { num := d.num, space := k.space, seqs := [], out := { result := n } } →
      (∀ toks, d.op = 0x42 → u.seqState k q = 0 → u.lookupTokens k d = .ok toks →
        u.chunksShort k (u.lookupPages k d).1.length = false → (b.lookupPages k d).2 = false →
        v = ((b.openSeq k q (64 * (b.lookupPages k d).1.length) (d.fld 24 4) (d.fld 28 4) (b.lookupPages k d).1).moveAll k (d.fld 17 1)
          ((b.lookupPages k d).1.filter (fun x => k.poolKind ((b.openSeq k q (64 * (b.lookupPages k d).1.length) (d.fld 24 4)
            (d.fld 28 4) (b.lookupPages k d).1).pgPool k x) == 2))).1 → n = 64 * (b.lookupPages k d).1.length →
        exec (.kvLookup r) s = .next (w.afterWork (w.atWork r.part d) r.part d ((w.atWork r.part d).kvOutcome r.part d.num))) ∧
      (d.op = 0x43 → u.parkBad k q = none → v = (b.parkSeq k q (d.fld 24 4)).1 → n = (b.parkSeq k q (d.fld 24 4)).2 →
        exec (.kvPark r) s = .next (w.afterWork (w.atWork r.part d) r.part d ((w.atWork r.part d).kvOutcome r.part d.num))) ∧
      (∀ x : State, d.op = 0x44 → u.seqState k q = 2 → b.seqState k q = 2 → k.poolKind (d.fld 17 1) = 1 →
        x = b.setSeq k q 1 false false →
        v = (x.moveAll k (d.fld 17 1) ((x.seqPages k q).filter (fun y => k.poolKind (x.pgPool k y) == 2))).1 →
        n = (x.moveAll k (d.fld 17 1) ((x.seqPages k q).filter (fun y => k.poolKind (x.pgPool k y) == 2))).2 →
        exec (.kvResume r) s = .next (w.afterWork (w.atWork r.part d) r.part d ((w.atWork r.part d).kvOutcome r.part d.num))) ∧
      (∀ pages : List Nat, d.op = 0x46 → d.fld 17 1 = 0xFF → d.fld 24 4 < k.seqMax → q ≠ d.fld 24 4 →
        (u.seqState k q = 1 ∨ u.seqState k q = 2) → u.seqState k (d.fld 24 4) = 0 → u.copyLen k d ≤ u.seqLen k q →
        u.chunksShort k (cdiv (u.copyLen k d) 64) = false → pages = (b.seqPages k q).take (cdiv (b.copyLen k d) 64) →
        v = b.openSeq k (d.fld 24 4) (b.copyLen k d) (b.seqModel k q) (b.seqVariant k q) pages → n = pages.length →
        exec (.kvCopy r) s = .next (w.afterWork (w.atWork r.part d) r.part d ((w.atWork r.part d).kvOutcome r.part d.num)))) ∧
    (∀ n : Nat, s.kv? r.part (d.fld 17 1 % 16) = some k → a.kv? r.part (d.fld 17 1 % 16) = some k → d.op = 0x45 → d.fld 16 1 = 0 → d.fld 20 4 < k.seqMax →
      u.seqState k (d.fld 20 4) ≠ 0 → v = (b.freeSeq k (d.fld 20 4)).1 → n = (b.freeSeq k (d.fld 20 4)).2 →
      w = (v.settle k b b.now).kvOpen r.part { num := d.num, space := k.space, seqs := [], out := { result := n } } →
      exec (.kvFreeSeq r) s = .next (w.afterWork (w.atWork r.part d) r.part d ((w.atWork r.part d).kvOutcome r.part d.num)))

/-- THE KV CACHE, commands on a whole space (R293, R295, R309), and the expiry of a parked handle (R317). -/
def Obligations.KvSpaceCommandsComplete : Prop :=
  (∀ (s x u w : State) (r : DescRef) (d : Desc) (k : Kv) (h : List Byte), s.Ready r d → (s.part r.part).running = [] → d.op = 0x45 →
    x = s.started r.part d → s.kv? r.part (d.fld 17 1 % 16) = some k → x.kv? r.part (d.fld 17 1 % 16) = some k →
    s.readVa r.part (s.srcOf r.part d) 0 k.va 512 = .ok h → u = x.kvNow k →
    (∀ a : State × Nat, d.fld 16 1 = 1 → a = ((List.range k.seqMax).filter (fun q => u.seqState k q != 0)).foldl
        (fun (b : State × Nat) q => ((b.1.freeSeq k q).1, b.2 + (b.1.freeSeq k q).2)) (u, 0) →
      w = (a.1.settle k u u.now).kvOpen r.part { num := d.num, space := k.space, seqs := [], out := { result := a.2 } } →
      exec (.kvFreeAll r) s = .next (w.afterWork (w.atWork r.part d) r.part d ((w.atWork r.part d).kvOutcome r.part d.num))) ∧
    (∀ (new : List (Nat × List Byte × List Byte)) (a b : State), d.fld 16 1 = 4 → (s.kvNow k).kvBusy k.part k.space d.num = false →
      new = (u.holders k).flatMap (fun q => u.rehashList k (zeros 16) (u.seqPages k q)) →
      a = (List.range (2 ^ k.indexLog2)).foldl (fun (t : State) i =>
        if t.ixPage k i = kvNone then t else t.tryWriteVa k.part (k.indexVa + i * 32 + 16) (toLe 4 kvDeleted)) u →
      b = (List.range k.pageMax).foldl (fun (t : State) n =>
        match new.find? (fun x => x.1 == n) with
        | some x => t.rehashPage k x
        | none => t) a →
      w = (b.settle k u u.now).kvOpen r.part { num := d.num, space := k.space, seqs := [], out :=
        { result := ((List.range k.pageMax).filter (fun n => b.pgState k n == 3)).length } } →
      exec (.kvFreeRehash r) s = .next (w.afterWork (w.atWork r.part d) r.part d ((w.atWork r.part d).kvOutcome r.part d.num)))) ∧
  (∀ (s u : State) (r : DescRef) (d : Desc) (k : Kv), s.Ready r d → d.op = 0x45 → d.fld 16 1 = 3 → u = s.started r.part d →
    s.kv? r.part (d.fld 17 1) = some k → (s.kvNow k).kvInUse k d.num = false →
    exec (.kvFreeDetach r) s =
      .next (u.afterWork ((u.atWork r.part d).onPart r.part (fun q => { q with kv := q.kv.filter (fun x => x.1 != d.fld 17 1) }))
        r.part d {})) ∧
  (∀ (s u : State) (r : DescRef) (d : Desc) (k : Kv), s.Ready r d → d.op = 0x45 → d.fld 16 1 = 2 →
    s.kv? r.part (d.fld 17 1) = none → s.kvFormat r.part d = .ok k → s.formatBad r.part d k = none →
    u = s.started r.part d → (u.atWork r.part d).kvFormat r.part d = .ok k →
    exec (.kvFreeFormat r) s =
      .next (u.afterWork (((u.atWork r.part d).onPart r.part (fun q =>
        { q with kv := q.kv.filter (fun x => x.1 != k.space) ++ [(k.space, k.va)] })).emptyKv k) r.part d {})) ∧
  (∀ (s : State) (p space q : Nat) (k : Kv), s.kv? p space = some k → q < k.seqMax → s.seqState k q = 2 →
    s.seqRuns k q = true → s.sqf k q 24 8 ≤ s.now →
    exec (.kvExpiry p space q) s = .next (s.expireUntil k (s.sqf k q 24 8) k.seqMax))

/-- KV_APPEND and ATTEND (R305, R310 to R312, R319 to R331): an append whose checks pass makes its commit as it starts and writes
its tokens; an ATTEND on dense keys, or in cache mode on a space that no STEP works on, computes and completes. -/
def Obligations.AttentionCommandsComplete : Prop :=
  (∀ (s a u b v w : State) (r : DescRef) (d : Desc) (k : Kv) (h bl : List Byte) (f g : AppendArgs) (o : Done) (l : List (Nat × Nat)),
    s.Ready r d → d.op = 0x41 → (s.part r.part).running = [] → s.kv? r.part (d.fld 24 1) = some k → d.fld 24 1 < 16 →
    s.readVa r.part (s.srcOf r.part d) 0 k.va 512 = .ok h → u = s.kvNow k →
    u.kvAppendCheck k d = none → u.paramBlock r.part d = .ok bl → u.kvAppendArgs k d bl = .ok f →
    a = s.started r.part d → a.kv? r.part (d.fld 24 1) = some k → a.paramBlock r.part d = .ok bl →
    b = a.kvNow k → b.kvAppendArgs k d bl = .ok g → b.appendGo k d bl g = (v, o, l) →
    w = (v.settle k b b.now).kvOpen r.part { num := d.num, space := k.space, seqs := [], out := o, slots := l } →
    exec (.kvAppend r) s = .next (w.afterWork (w.atWork r.part d) r.part d ((w.atWork r.part d).kvOutcome r.part d.num))) ∧
  (∀ (s t u : State) (r : DescRef) (d : Desc) (o : Done), s.Ready r d → d.op = 0x40 → d.attCache = false →
    s.attDenseCheck r.part d = none → u = s.started r.part d → (u.atWork r.part d).attRun r.part d = .ok (t, o) →
    exec (.attend r) s = .next (u.afterWork t r.part d o)) ∧
  (∀ (s t u : State) (r : DescRef) (d : Desc) (k : Kv) (h : List Byte) (o : Done), s.Ready r d → d.op = 0x40 → d.attCache = true →
    (s.part r.part).running = [] → s.kv? r.part (d.fld 24 1 % 16) = some k →
    s.readVa r.part (s.srcOf r.part d) 0 k.va 512 = .ok h → (s.kvNow k).attCacheCheck k d = none →
    u = (s.started r.part d).attOpen r.part d → (u.atWork r.part d).attRun r.part d = .ok (t, o) →
    exec (.attend r) s = .next (u.afterWork t r.part d o))

/-- SERVING (R341 to R367): STEP, SAMPLE and VERIFY carry out their work and complete with its outcome; CANCEL ends a request
that no STEP works on, tells one that has ended so, and waits while a STEP names its record. -/
def Obligations.ServingCommandsComplete : Prop :=
  (∀ (s t u : State) (r : DescRef) (d : Desc) (o : Done), s.Ready r d → d.op = 0x50 → s.stepCheck r.part d = none →
    u = (s.started r.part d).stepOpen r.part d → (u.atWork r.part d).runStep r.part d = .ok (t, o) →
    exec (.step r) s = .next (u.afterWork t r.part d o)) ∧
  (∀ (s t u : State) (r : DescRef) (d : Desc) (b : List Byte) (o : Done), s.Ready r d → s.paramBlock r.part d = .ok b →
    s.digestReach r.part d = none → u = s.started r.part d → (u.atWork r.part d).paramBlock r.part d = .ok b →
    (d.op = 0x51 → firstBad (sampleBad d b) = none →
      failOf (s.samps r.part d b 1 (slotRec b 0).rows (slotRec b 0).cols) = none →
      (u.atWork r.part d).runSample r.part d b = .ok (t, o) → exec (.sample r) s = .next (u.afterWork t r.part d o)) ∧
    (d.op = 0x52 → firstBad (verifyBad d b) = none → failOf (s.verifyInputs r.part d b) = none →
      (u.atWork r.part d).runVerify r.part d b = .ok (t, o) → exec (.verify r) s = .next (u.afterWork t r.part d o))) ∧
  (∀ (s t : State) (r : DescRef) (d : Desc) (b c : List Byte), s.Ready r d → d.op = 0x53 → t = s.started r.part d →
    s.cancelsOn r.part d.cancelVa = [] → s.readVa r.part none 0 d.cancelVa 128 = .ok b →
    t.readVa r.part none 0 d.cancelVa 128 = .ok c → t.stepOn r.part d = false →
    exec (.cancel r) s = .next (if (byteAt c 0).testBit 0
      then t.complete r.part d { status := 0x31, result := generatedOf c }
      else ((t.cancelMark r.part d.cancelVa c).endAction r.part (d.fld 24 4) (byteAt c 5) (fieldAt c 16 4)
        (t.servingModels r.part c)).complete r.part d { result := generatedOf c })) ∧
  (∀ (s t : State) (r : DescRef) (d : Desc) (b : List Byte), s.Ready r d → d.op = 0x53 → t = s.started r.part d →
    s.cancelsOn r.part d.cancelVa = [] → s.readVa r.part none 0 d.cancelVa 128 = .ok b → t.stepOn r.part d = true →
    exec (.cancel r) s = .next t)

/-- COLLECTIVES AND CHECKPOINTS (R282 to R284, R380 to R387): setting a group, a collective whose turn has come and whose
other ranks have sent, the abort of one from a neighbour, images of memory, and the step journal. -/
def Obligations.CollectiveAndCheckpointCommandsComplete : Prop :=
  (∀ (s u : State) (r : DescRef) (d : Desc) (b : List Byte), s.Ready r d → d.op = 0x6F → s.groupCheck r.part d = none →
    u = s.started r.part d → (u.atWork r.part d).readVa r.part none 0 (d.fld 20 6) 64 = .ok b →
    exec (.groupSet r) s = .next (u.afterWork ((u.atWork r.part d).onPart r.part (fun q =>
      { q with groups := updAt q.groups (d.fld 16 1) (fun _ => some (Group.ofBytes b)) })) r.part d {})) ∧
  (∀ (s t a u : State) (r : DescRef) (d : Desc) (g : Group) (peers : List RankMsg) (c : Instr) (op : Nat) (o : Done),
    (c, op) ∈ [(Instr.allReduce r peers, 0x60), (.reduceScatter r peers, 0x61), (.allGather r peers, 0x62),
      (.allToAll r peers, 0x63), (.broadcast r peers, 0x64)] →
    s.Ready r d → d.op = op → s.collEnds r peers = true → s.collCheck r.part d = none →
    a = s.started r.part d → a.group? r.part (d.fld 24 1) = some g → a.ringHolder r.part g = none →
    a.ringOk g (d.fld 28 4) = true → u = a.enterRing r.part d → State.runColl peers (u.atWork r.part d) r.part d = .ok (t, o) →
    exec c s = .next (u.afterWork t r.part d o)) ∧
  (∀ (s : State) (n gid seq : Nat), n < 8 → (s.lp n).owner < 16 → (s.lp n).st = .up →
    exec (.collAbort n gid seq) s = .next
      (((s.collectives (s.lp n).owner (fun g => g.gid == gid && g.ports.contains n)).filter (fun d => d.fld 28 4 == seq)).foldl
        (fun t d => t.endCollective (s.lp n).owner d) s)) ∧
  (∀ (s u t : State) (r : DescRef) (d : Desc) (o : Done), s.Ready r d → d.op = 0x80 →
    s.ckFree r.part d = true → s.ckCheck r.part d = none → u = (s.started r.part d).ckBind r.part d →
    ((u.atWork r.part d).ckBind r.part d).runCheckpoint r.part d = .ok (t, o) →
    exec (.checkpoint r) s = .next (u.afterWork t r.part d o)) ∧
  (∀ (s u t : State) (r : DescRef) (d : Desc) (h : HostRead) (o : Done), s.Ready r d → d.op = 0x81 →
    s.ckFree r.part d = true → s.ckCheck r.part d = none → u = (s.started r.part d).ckBind r.part d →
    State.runRestore h ((u.atWork r.part d).ckBind r.part d) r.part d = .ok (t, o) →
    exec (.restore r h) s = .next ((u.afterWork t r.part d o).noteHostRead r.part h)) ∧
  (∀ (s u : State) (r : DescRef) (d : Desc), s.Ready r d → d.op = 0x82 → (d.fld 16 1).testBit 0 = false → u = s.started r.part d →
    s.jobStep r.part d.job = none → (s.part r.part).journal.length < 256 →
    exec (.stepCommit r) s = .next (u.afterWork ((u.atWork r.part d).onPart r.part (fun q => { q with
      journal := q.journal.filter (fun y => y.1 != d.job) ++ [(d.job, d.fld 32 8, sliceOf d.bytes 40 16)] })) r.part d {})) ∧
  (∀ (s u : State) (r : DescRef) (d : Desc) (n : Nat), s.Ready r d → d.op = 0x82 → (d.fld 16 1).testBit 0 = false →
    u = s.started r.part d → s.jobStep r.part d.job = some n →
    exec (.stepCommit r) s = .next (if n < d.fld 32 8 then u.afterWork ((u.atWork r.part d).onPart r.part (fun q => { q with
        journal := q.journal.filter (fun y => y.1 != d.job) ++ [(d.job, d.fld 32 8, sliceOf d.bytes 40 16)] })) r.part d {}
      else s.failDesc r.part d (.status 0x12 0))) ∧
  (∀ (s u : State) (r : DescRef) (d : Desc) (n : Nat), s.Ready r d → d.op = 0x82 → (d.fld 16 1).testBit 0 = true →
    u = s.started r.part d → s.jobStep r.part d.job = some n → (u.atWork r.part d).jobStep r.part d.job = some n →
    exec (.stepCommitEndJob r) s = .next (u.afterWork ((u.atWork r.part d).onPart r.part (fun q =>
      { q with journal := q.journal.filter (fun y => y.1 != d.job) })) r.part d { result := n % 2 ^ 32 }))

/-- STREAMS (R281, R396 to R409): opening and closing a channel, a result frame, frames in, a slice of the protocol engine,
deadlines, reports and stalls. -/
def Obligations.StreamCommandsComplete : Prop :=
  (∀ (s u w : State) (r : DescRef) (d : Desc) (b : List Byte), s.Ready r d → d.op = 0x70 → s.openCheck r.part d = none →
    u = s.started r.part d → w = u.atWork r.part d → w.readVa r.part none 0 (d.fld 20 6) 128 = .ok b →
    exec (.streamOpen r) s = .next (u.afterWork (w.openChan r.part d b) r.part d {})) ∧
  (∀ (s u w : State) (r : DescRef) (d : Desc), s.Ready r d → d.op = 0x71 →
    (s.part r.part).sec.channels.getLsbD (d.fld 16 1) = true → (s.chan (d.fld 16 1)).isOpen = true →
    u = s.started r.part d → w = u.atWork r.part d →
    exec (.streamClose r) s =
      .next (u.afterWork (w.closeChan (d.fld 16 1) 0x30) r.part d { result := w.writeIdx (d.fld 16 1) })) ∧
  (∀ (s u w : State) (r : DescRef) (d : Desc) (a b : List Byte) (data : Tensor), s.Ready r d → d.op = 0x75 →
    (s.part r.part).sec.channels.getLsbD d.chan = true → (s.chan d.chan).isOpen = true → (s.chan d.chan).framed = true →
    s.readVa r.part none 0 (d.fld 20 6) 32 = .ok a → firstBad (resultBad (s.chan d.chan) a) = none →
    u = s.started r.part d → w = u.atWork r.part d → w.readVa r.part none 0 (d.fld 20 6) 32 = .ok b →
    w.readTensor r.part none 0 (TRec.ofBytes b) = .ok data →
    exec (.resultFrame r) s = .next (u.afterWork (w.sendSensor d.chan 1 (if d.fld 32 8 = 0 then w.now else d.fld 32 8)
      (TRec.ofBytes b).rows (TRec.ofBytes b).fmt (TRec.ofBytes b).cols data.bytes) r.part d { result := (w.chan d.chan).sendSeq })) ∧
  (∀ (s : State) (n : Nat) (f : List Byte), n < 2 → s.clocked 3 n = true → (s.fp n).enable = true → (s.fp n).up = true → s.field.ptpEnable = false →
    s.ingressBytes n + f.length ≤ 0x200000 →
    exec (.fieldFrameReceive n f) s = .next { s with
      field := { s.field with ports := updAt s.field.ports n (fun p => { p with ingress := p.ingress ++ [(s.now, f)] }) } }) ∧
  (∀ (s : State) (n : Nat) (f : List Byte), n < 2 → s.clocked 3 n = true → (s.fp n).enable = true → (s.fp n).up = true →
    s.field.ptpEnable = false → 0x200000 < s.ingressBytes n + f.length →
    exec (.fieldFrameReceive n f) s = .next { s with
      field := { s.field with ports := updAt s.field.ports n (fun p => { p with bufFull := satTo 16 (p.bufFull + 1) }) } }) ∧
  (∀ (s : State) (n fec : Nat), n < 2 → (s.fp n).up = true →
    ∃ t, exec (.fieldLink n false fec) s = .next t ∧ t.mem = s.mem ∧ t.hostMem = s.hostMem ∧
      t.field = { s.field with ports := updAt s.field.ports n (fun p => { p with up := false, fecUse := 0, txq := [] }) }) ∧
  (∀ (s : State) (c : Nat), s.demux.nextChan = some c →
    exec .protocolEngineSlice s = .next ((((s.demux.chan c).waiting.take 32).foldl (fun t a => t.takePacket c a)
      (s.demux.onChan c (fun x => { x with waiting := (s.demux.chan c).waiting.drop 32, waitSince := s.demux.now }))).postChan c)) ∧
  (∀ (s : State) (c : Nat), (s.chan c).receives = true → (s.chan c).nextUnit ≠ [] →
    (s.chan c).unitDue (s.chan c).nextUnit ≤ s.now →
    exec (.unitDeadline c) s = .next ((s.releaseDue c s.now).postChan c)) ∧
  (∀ (s : State) (c : Nat), (s.chan c).isOpen = true → (s.chan c).useRtcp = true →
    (s.chan c).reportAt + 5000000000 ≤ s.now →
    exec (.rtcpReport c) s = .next (((if (s.chan c).rtcp.self.isSome || (s.chan c).kind = 2 then s else s.tick).onChan c (fun x =>
      { x with reportAt := s.now, rtcp := if x.kind = 0 then { x.rtcp with
          self := some (match (s.chan c).rtcp.self with | some v => v | none => s.freeNat % 2 ^ 32)
          prior := (x.highSeq.getD 0 + 1 - x.rtcp.base, x.rtcp.received) } else x.rtcp })).txFrame (s.chan c).port
        ((s.chan c).datagram ((s.chan c).fld 8 2 + 1) ((s.chan c).fld 10 2 + 1)
          (if (s.chan c).kind = 0
           then (s.chan c).receiverReport (match (s.chan c).rtcp.self with | some v => v | none => s.freeNat % 2 ^ 32) s.now
           else (s.chan c).senderReport s.now)))) ∧
  (∀ (s : State) (c : Nat), (s.chan c).receives = true → (s.chan c).fld 76 4 ≠ 0 → (s.chan c).stalled = false →
    (if (s.chan c).packets = 0 then (s.chan c).openedAt else (s.chan c).lastArrival) + (s.chan c).fld 76 4 * 1000000 ≤ s.now →
    exec (.streamStall c) s =
      .next ((s.onChan c (fun x => { x with stalled := true })).raise (s.chan c).part 0x92 (toLe 1 c)))

/-- VIDEO (R414 to R437): commands join a stream context, the carousel gives a core an item, a picture and an access unit come
to their end, and the pools are watched. -/
def Obligations.VideoCommandsComplete : Prop :=
  (∀ (s t u : State) (r : DescRef) (d : Desc) (b : List Byte), s.Ready r d → d.op = 0x72 → t = s.started r.part d →
    s.mediaCheck r.part d = none → kindOk (s.chan d.chan) 0x72 = true → s.readVa r.part none 0 (d.fld 20 6) 32 = .ok b →
    firstBad (decReqBad b) = none → s.ctxCheck r.part d (fieldAt b 0 6) false = none → t.peekVa r.part (d.fld 20 6) 32 = b →
    u = t.makeCtx r.part d (fieldAt b 0 6) false →
    exec (.decode r) s = .next ((u.onCtx d.chan (fun y => { y with cmds := y.cmds ++
      [{ num := d.num, count := Nat.max 1 (d.fld 28 4), flush := (byteAt b 8).testBit 0, skip := (byteAt b 8).testBit 1,
         upTo := u.writeIdx d.chan }] })).goDec d.chan)) ∧
  (∀ (s : State) (r : DescRef) (d : Desc) (a : Nat) (x : VidCtx) (k : MediaCmd), s.desc? r.part r.num = some d → d.op = 0x72 →
    d.startedAt = some a → d.fld 32 8 ≠ 0 → d.fld 32 8 ≤ s.now → s.ctx? d.chan = some x →
    x.cmds.find? (fun k => k.num == d.num) = some k →
    exec (.decodeTimeReached r) s =
      .next ((s.mediaDone d.chan k { result := k.written, cflags := k.cflags }).goDec d.chan)) ∧
  (∀ (s t u : State) (r : DescRef) (d : Desc) (b l : List Byte) (fs : List EncFrame), s.Ready r d → d.op = 0x73 →
    t = s.started r.part d → s.mediaCheck r.part d = none → kindOk (s.chan d.chan) 0x73 = true →
    s.readVa r.part none 0 (d.fld 20 6) 32 = .ok b → firstBad (encReqBad b) = none →
    s.ctxCheck r.part d (fieldAt b 0 6) true = none → s.listCheck r.part d b = none → t.peekVa r.part (d.fld 20 6) 32 = b →
    u = t.makeCtx r.part d (fieldAt b 0 6) true → l = u.peekVa r.part (fieldAt b 8 6) (32 * d.fld 28 4) →
    fs = listFrames d.num l (d.fld 28 4) →
    exec (.encode r) s = .next ((u.onCtx d.chan (fun y => { y with
      cmds := y.cmds ++ [{ num := d.num, count := d.fld 28 4, flush := (byteAt b 16).testBit 0 }], frames := y.frames ++ fs
      ptsq := y.ptsq ++ fs.map (fun f => f.pts), lastPts := match fs.getLast? with | some f => some f.pts | none => y.lastPts })).goEnc d.chan)) ∧
  (∀ (s u w t : State) (r : DescRef) (d : Desc) (b : List Byte) (x : VidCtx) (v : List (List (List F32))) (o : Done)
    (at_ : Nat → Nat → Nat × Bool), s.Ready r d → d.op = 0x74 → s.scaleCheck r.part d = none → u = s.started r.part d →
    w = u.atWork r.part d → w.readVa r.part none 0 (d.fld 20 6) 64 = .ok b → w.ctx? d.chan = some x →
    w.scaled r.part x ⟨b⟩ (w.picRecord d.chan x (fieldAt b 0 4)) = .ok v →
    at_ = (fun row col => encodeElem (ScaleBlock.mk b).tensor.fmt .rne false 0
      (if (fieldAt b 19 1).testBit 0 then ((v.getD (row % fieldAt b 14 2) []).getD col []).getD (row / fieldAt b 14 2) f32Zero
       else ((v.getD row []).getD (col / (ScaleBlock.mk b).chans) []).getD (col % (ScaleBlock.mk b).chans) f32Zero).num) →
    (({ w with video := { w.video with pixels := w.video.pixels + fieldAt b 12 2 * fieldAt b 14 2 } } : State).putOuts r.part d
      [(0, (ScaleBlock.mk b).tensor.build (fun i m n =>
        ((gridOf 1 (ScaleBlock.mk b).tensor.rows (ScaleBlock.mk b).tensor.cols (fun _ i j => at_ i j)).at_ (0, false) i m n).1))]
      { cflags := flagIf ((gridOf 1 (ScaleBlock.mk b).tensor.rows (ScaleBlock.mk b).tensor.cols (fun _ i j => at_ i j)).some_
        (fun v => v.2)) 0x04 }) = .ok (t, o) →
    exec (.scale r) s = .next (u.afterWork t r.part d o)) ∧
  (∀ (s : State) (n : Nat) (i : CodecItem), n < 8 → s.clocked 1 n = true → (s.video.cores.getD n {}).item = none → (s.unit 1 n).fenced = false →
    (s.unit 1 n).recov = .idle → s.pollAll.pickItem n (fun _ => true) = some i →
    exec (.codecCoreDispatch n) s = .next (s.pollAll.giveItem n i)) ∧
  (∀ (s : State) (n : Nat) (i x : CodecItem), s.video.preempt = true →
    ((((List.range 64).filterMap s.readyItem).filter (fun i => i.cls == 0)).foldl (fun a i => match a with
      | none => some i | some b => if s.itemBefore i b then some i else a) (none : Option CodecItem)) = some i →
    (∀ k, k < 8 → (s.video.cores.getD k {}).item.isSome = true) → s.longestCore i.part = some (n, x) →
    exec .codecPreempt s = .next (State.giveItem { s.chargeCore x with
      video := { (s.chargeCore x).video with
        saved := (s.chargeCore x).video.saved ++ [x]
        cores := updAt (s.chargeCore x).video.cores n (fun k => { k with item := none, preempts := satTo 16 (k.preempts + 1) }) } } n i)) ∧
  (∀ (s : State) (n : Nat) (i : CodecItem) (x : VidCtx) (us : List (List Byte)), (s.video.cores.getD n {}).item = some i →
    i.enc = false → s.clocked 1 n = true → s.ctx? i.chan = some x → s.unitsNow i.chan x = .ok us →
    x.parts.2 + 1 < s.partsOf i.chan x →
    exec (.pictureDone n) s = .next ((s.freeCore n i 0).onCtx i.chan (fun y => { y with parts := (y.parts.1, y.parts.2 + 1) }))) ∧
  (∀ (s t u : State) (n : Nat) (i : CodecItem) (x : VidCtx) (us : List (List Byte)) (r : PicParse) (b : Nat),
    (s.video.cores.getD n {}).item = some i → i.enc = false → s.clocked 1 n = true → s.ctx? i.chan = some x →
    s.unitsNow i.chan x = .ok us → s.partsOf i.chan x ≤ x.parts.2 + 1 → r = Config.parse x.block us x.picIn →
    b = x.bufs.findIdx (fun f => f.busy) →
    t = ((s.freeCore n i r.errors).onCtx i.chan (fun y => { y with parts := (0, 0) })).onCtx i.chan
      (fun y => { y with bufs := updAt y.bufs b (fun f => { f with busy := false }) }) →
    u = t.takePicture i.chan b x us r →
    exec (.pictureDone n) s = .next ((((if r.last then u.endUnit i.chan us else u).postCtx i.chan).goDec i.chan).progress 1 n)) ∧
  (∀ (s : State) (n : Nat) (i : CodecItem) (x : VidCtx), (s.video.cores.getD n {}).item = some i →
    i.enc = true → s.clocked 1 n = true → s.ctx? i.chan = some x → x.parts.2 + 1 < s.partsOf i.chan x →
    exec (.encodeUnitDone n) s = .next ((s.freeCore n i 0).onCtx i.chan (fun y => { y with parts := (y.parts.1, y.parts.2 + 1) }))) ∧
  (∀ (s t : State) (n : Nat) (i : CodecItem) (x : VidCtx) (f : EncFrame) (key : Bool) (kind : Nat),
    (s.video.cores.getD n {}).item = some i → i.enc = true → s.clocked 1 n = true → s.ctx? i.chan = some x →
    s.partsOf i.chan x ≤ x.parts.2 + 1 → x.nextFrame = some (f, key, kind) →
    t = (s.freeCore n i 0).onCtx i.chan (fun y => { y with parts := (0, 0) }) →
    exec (.encodeUnitDone n) s =
      .next (((t.onCtx i.chan (fun y => y.codedFrame f key kind)).goEnc i.chan).progress 1 n)) ∧
  (∀ (s : State) (c : Nat) (x : VidCtx), s.ctx? c = some x →
    exec (.readIdxPoll c) s = .next (if x.enc then s.goEnc c else (s.pollRead c).goDec c)) ∧
  (∀ (s : State) (c : Nat) (x : VidCtx) (a : Nat), s.ctx? c = some x → x.waitSince = some a → x.waitSent = false →
    a + 100000000 ≤ s.now →
    exec (.poolWait c) s =
      .next ((s.onCtx c (fun y => { y with waitSent := true })).raise (s.chan c).part 0x9A (toLe 1 c))) ∧
  (∀ (s : State) (v : Word), s.boot.stepEight = true → s.moduleDeep = false → 10 ≤ bitsOf v.toNat 9 0 →
    bitsOf v.toNat 9 0 ≤ 1000 → exec (.carouselWrite v) s = .next { s with
      video := { s.video with preempt := v.toNat.testBit 31, windowMs := bitsOf v.toNat 9 0 } })

/-- MODULE LINKS (R369 to R377, R389): each port's states from enabling to failing, the frames that a port takes, its replay
timer, the return of credits, and the dedicated pair link.
A BAD FRAME (R371): a frame of the wrong length, or whose CRC-32 differs, is discarded and counted, and nothing else
changes, whichever type the command names. -/
def Obligations.LinkCommandsComplete : Prop :=
  (∀ (s w : State) (n : Nat) (v : Word), s.boot.stepEight = true → n < 8 → bitsOf v.toNat 29 28 ≠ 3 → w = s.wakeDeep →
    (w.unit 2 n).fenced = false →
    (v.toNat.testBit 31 = true → exec (.linkPortEnable n v) s = .next ((w.onLp n (fun p =>
      { p with rate106 := v.toNat.testBit 30, widthMin := bitsOf v.toNat 29 28, enable := true })).tryTrain n)) ∧
    (v.toNat.testBit 31 = false → exec (.linkPortDisable n v) s = .next ((w.onLp n (fun p =>
      { p with rate106 := v.toNat.testBit 30, widthMin := bitsOf v.toNat 29 28, enable := false })).linkOff n))) ∧
  (∀ (s t : State) (n lanes : Nat) (slow : Bool), n < 8 → s.clocked 2 n = true → (s.lp n).st = .training → (s.lp n).helloOk = true →
    (s.lp n).widthMin < Nat.min (lanesWidth lanes) (s.lp n).offerWidth →
    t = s.onLp n (fun p => { p with
      st := .up, lanesOk := bitsOf lanes 3 0, width := Nat.min (lanesWidth lanes) (s.lp n).offerWidth
      slow := slow || p.rate106 || p.offerSlow, credits := (768, 192, 64), peerSeen := true, since := s.now }) →
    exec (.linkTrainingComplete n lanes slow) s =
      .next (((t.portEvent n 0xA0 (t.linkData n)).checkPair n).onLp n (fun p =>
        p.pump (t.portEvent n 0xA0 (t.linkData n)).now))) ∧
  (∀ (s : State) (n : Nat), n < 8 → (s.lp n).st = .training → (s.lp n).since + 2500000000 ≤ s.now →
    exec (.linkTrainingTimeout n) s = .next (s.linkFail n 1)) ∧
  (∀ (s : State) (n : Nat) (why : RetrainWhy), n < 8 → s.clocked 2 n = true → (s.lp n).st = .up → 8 ≤ (s.lp n).stuck →
    exec (.linkRetrain n why) s = .next ((s.onLp n (fun p => { p with
      st := .retraining, retrains := satTo 16 (p.retrains + 1), stuck := 0, helloOk := false, since := s.now })).sendHello n)) ∧
  (∀ (s : State) (n : Nat), n < 8 → (s.lp n).st = .retraining → (s.lp n).since + 1000000000 ≤ s.now →
    exec (.retrainTimeout n) s = .next (s.linkFail n 2)) ∧
  (∀ (s : State) (n : Nat) (b : List Byte) (f : Frame), n < 8 → s.clocked 2 n = true → (s.lp n).enable = true → (s.lp n).st = .up →
    Frame.ofBytes b = some f →
    (f.typ = 1 → exec (.dataFrame n b) s =
      .next ((s.progress 2 n).onLp n (fun p => p.carry (((p.takeFields s.now f).takeData s.now f).pump s.now)))) ∧
    (f.typ = 2 → exec (.nakFrame n b) s =
      .next (s.onLp n (fun p => ((p.takeFields s.now f).replay s.now f.seq).pump s.now))) ∧
    (f.typ = 4 → exec (.idleFrame n b) s = .next (s.onLp n (fun p => (p.takeFields s.now f).pump s.now)))) ∧
  (∀ (s : State) (n : Nat) (b : List Byte) (f : Frame), n < 8 → s.clocked 2 n = true → (s.lp n).enable = true → (s.lp n).st = .training →
    Frame.ofBytes b = some f → f.typ = 3 →
    exec (.helloFrame n b) s = .next (s.onLp n (fun p => { (p.record f.payload).takeFields s.now f with
      txNext := fieldAt f.payload 10 2, kept := [] }))) ∧
  (∀ (s : State) (n : Nat) (d : DataFrame) (l : List DataFrame), n < 8 → s.clocked 2 n = true → (s.lp n).st = .up → (s.lp n).kept = d :: l →
    (s.lp n).ackAt + 10000 ≤ s.now → exec (.replayTimer n) s = .next (s.onLp n (fun p => p.replay s.now d.seq))) ∧
  (∀ (s : State) (n : Nat) (d : DataFrame) (l : List DataFrame), (s.lp n).rxHeld = d :: l →
    exec (.creditReturn n) s =
      .next (s.onLp n (fun p => p.carry { p with rxHeld := l, owed := onCredit p.owed d.vc (fun x => x + 1) }))) ∧
  (∀ (s w : State) (v : Word), s.boot.stepEight = true → w = s.wakeDeep → w.sec.sealed = false →
    16 ≤ (w.lp (bitsOf v.toNat 2 0)).owner →
    exec (.linkPairWrite v) s = .next (({ w with
      links := { w.links with pairEn := v.toNat.testBit 31, pairPort := bitsOf v.toNat 2 0 } } : State).checkPair
        (bitsOf v.toNat 2 0))) ∧
  (∀ (s w : State) (v : Word), s.boot.stepEight = true → w = s.wakeDeep →
    (w.sec.sealed = true ∨ (w.lp (bitsOf v.toNat 2 0)).owner < 16) → exec (.linkPairWrite v) s = .next w) ∧
   (∀ (s : State) (n : Nat) (b : List Byte) (c : Instr), n < 8 → s.clocked 2 n = true → (s.lp n).enable = true →
      (s.lp n).st ∈ [LinkSt.up, .training, .retraining] →
      (b.length ≠ 528 ∨ crc32.bytes (b.take 524) ≠ b.drop 524) →
      c ∈ [Instr.dataFrame n b, .nakFrame n b, .helloFrame n b, .idleFrame n b] →
      exec c s = .next (s.onLp n (fun p => { p with crcErr := satTo 16 (p.crcErr + 1) })))

/-- PRECISION TIME AND PTM (R395, R217): the loss of Announce messages starts holdover, and the writes of the two control
registers. -/
def Obligations.TimeCommandsComplete : Prop :=
  (∀ (s : State), s.field.ptpEnable = true → s.field.holdover = false → s.field.ptp.master.isSome = true →
    s.field.announceAt + 3 * s.field.ptp.interval ≤ s.now →
    exec .ptpHoldover s = .next (s.onPtp (fun f =>
      { f with holdover := true, offsets := [], ptp := { f.ptp with master := none, sync := none } }))) ∧
  (∀ (s : State) (f : Field → Field), ∃ ps, s.onPtp f = { s with field := f s.field, parts := ps }) ∧
  (∀ (s w : State) (v : Word), s.boot.stepEight = true → bitsOf v.toNat 17 16 ≠ 3 → w = s.wakeDeep →
    ∃ t, exec (.ptpCtrlWrite v) s = .next t ∧ t.field.ptpEnable = v.toNat.testBit 31 ∧ t.field.transport = bitsOf v.toNat 17 16 ∧
      t.field.ptpPort = bitsOf v.toNat 12 12 ∧ t.field.delay = v.toNat.testBit 11 ∧ t.field.domain = bitsOf v.toNat 7 0 ∧
      t = { w with field := t.field, parts := t.parts } ∧ t.field.ports = w.field.ports ∧ t.field.chans = w.field.chans ∧
      t.field.crcs = w.field.crcs) ∧
  (∀ (s w : State) (v : Word), s.boot.stepEight = true → w = s.wakeDeep → 1 ≤ bitsOf v.toNat 6 0 → bitsOf v.toNat 6 0 ≤ 100 →
    exec (.ptmCtrlWrite v) s = .next { w with
      host := { w.host with ptmEnable := v.toNat.testBit 31, ptmPeriod := bitsOf v.toNat 6 0
                            ptmAt := if v.toNat.testBit 31 && w.host.ptmEnable then w.host.ptmAt else none } })

/-- POWER ENTRY (R129, R131 to R135, R142): the curtain protocol, orderly shutdown and its end, precharge and the input switch.
A connector voltage stands in tenths of a volt, and a switch that an overvoltage opened counts as a connector below 230 V. -/
def Obligations.PowerEntryCommandsComplete : Prop :=
  (∀ (s t : State) (dv us : Nat), (s.boot.st = .ready ∨ s.boot.st = .degraded) → s.power.shutdown = false →
    (dv < 2600 ∨ s.power.overvolt = true) → 2000 < us →
    t = { s.setModule .curtain with power := { (s.setModule .curtain).power.mark (fun r => { r with curtain := true }) with
      curtainOn := true, curtainParts := s.livePartitions } } →
    ∃ u, exec (.curtainEnter dv us) s = .next u ∧ u = ((t.raiseLive 0x21 []).raiseLive 0x23 []).resolveLevels ∧
      u.boot = t.boot ∧ u.mem = s.mem) ∧
  (∀ (s t : State) (dv ms : Nat), s.boot.st = .curtain → s.power.curtainOn = true → s.power.shutdown = false →
    s.power.overvolt = false → 2700 ≤ dv → 100 ≤ ms → t = s.setModule s.calm →
    ∃ u, exec (.curtainExit dv ms) s = .next u ∧
      u = (State.raiseCurtain { t with power := { t.power with curtainOn := false } } 0x22).resolveLevels ∧
      (u.boot.st = .ready ∨ u.boot.st = .degraded)) ∧
  (∀ (s : State) (dv ms nodeDv : Nat), ((dv < 2300 ∨ s.power.overvolt = true) ∧ 16 ≤ ms ∨ nodeDv ≤ 2150) →
    exec (.orderlyShutdown dv ms nodeDv) s = .next s.orderlyShutdown) ∧
  (∀ s : State, s.boot.st ∈ [ModSt.ready, .degraded, .curtain, .safe] → s.host.up = false →
    s.orderlyShutdown.power.shutdown = true ∧ s.orderlyShutdown.boot = s.boot) ∧
  (∀ s : State, s.power.shutdown = true → s.boot.st ≠ .off → (∀ d ∈ s.power.doms, d.volt = 0) →
    (∀ r ∈ s.power.rails.drop 1, r = .off) → ∃ t, exec .shutdownComplete s = .next t ∧ t = s.goOff ∧ t.boot.st = .off) ∧
  (∀ (s : State) (dv ms : Nat), s.boot.st = .off → 2700 ≤ dv → 1000 ≤ ms →
    exec (.prechargeStart dv ms) s = .next (State.setModule { s with
      power := { s.power with prechg := true }, boot := { s.boot with busPowerAt := s.now - ms * 1000000 } } .precharge)) ∧
  (∀ (s : State) (us : Nat), 50 ≤ us →
    exec (.prechgDeassert us) s = .next (State.orderlyShutdown { s with
      power := { s.power with prechg := false, switchOn := false } })) ∧
  (∀ (s : State) (dv nodeDv ms : Nat), s.power.switchOn = true → (4500 < dv ∨ 4100 < dv ∧ 100 < ms) →
    exec (.inputSwitchOpen dv nodeDv ms) s = .next { s with power := { s.power with
      switchOn := false, overvolt := true, overAt := some s.now
      pqOpen := s.power.pqOpen.map (fun r => if r.kind = .swell then { r with switch := true } else r) } }) ∧
  (∀ (s : State) (dv nodeDv ms : Nat), dv ≤ 4100 →
    exec (.inputSwitchOpen dv nodeDv ms) s =
      .next { s with power := { s.power with switchOn := s.power.switchOn && decide (nodeDv ≤ dv) } }) ∧
  (∀ (s : State) (dv ms nodeDv : Nat), s.power.switchOn = false → s.power.prechg = true → s.power.shutdown = false →
    s.boot.st ≠ .off → s.boot.st ≠ .precharge → dv ≤ 4100 → nodeDv ≤ dv → 1 ≤ ms →
    exec (.inputSwitchClose dv ms nodeDv) s = .next { s with power := { s.power with switchOn := true, overvolt := false } })

/-- THE POWER-QUALITY LOG, RAILS AND SHEDDING (R137, R138, R141, R146 to R148): a record opens with its condition, closes into
the ring of 1,024 and goes out under its START; a rail fault; the shed line. -/
def Obligations.PowerEventCommandsComplete : Prop :=
  (∀ (s : State) (m : PqMeasure), s.boot.st ≠ .off → pqOpens m = true →
    s.power.pqOpen.any (fun r => r.kind.family == m.kind.family) = false →
    exec (.pqRecordOpen m) s = .next { s with power := { s.power with pqOpen := s.power.pqOpen ++ [{
      kind := m.kind, extreme := m.extreme, prior := m.prior, nodeMin := m.nodeMin, start := s.now - m.lasted
      switch := m.kind == .swell && (match s.power.overAt with | some t => decide (s.now - m.lasted ≤ t) | none => false) }] } }) ∧
  (∀ (s : State) (m : PqMeasure) (r x : PqRec), s.power.pqOpen.find? (fun r => r.kind.family == m.kind.family) = some r →
    1000000 ≤ m.absent → s.power.pqRing.length < 1024 → x = { r.extend m with duration := m.lasted } →
    exec (.pqRecordClose m) s = .next (State.raiseAt { s with power := { s.power with
      pqOpen := s.power.pqOpen.filter (fun y => !(y.kind.family == x.kind.family)), pqRing := s.power.pqRing ++ [x]
      pqCount := countPq s.power.pqCount x.kind } } 0 0x20 0 x.start (x.bytes.take 8 ++ toLe 8 m.lasted))) ∧
  (∀ (s : State) (m : PqMeasure) (r : PqRec), s.power.pqOpen.find? (fun r => r.kind.family == m.kind.family) = some r →
    1000000 ≤ m.absent → s.power.pqRing.length = 1024 →
    ∃ t, exec (.pqRecordClose m) s = .next t ∧
      t.power.pqRing = s.power.pqRing.drop 1 ++ [{ r.extend m with duration := m.lasted }]) ∧
  (∀ (s : State) (us k : Nat), 50 < us → s.boot.st ≠ .off → k < 16 → (s.dom k).railFault = false →
    exec (.railFault (.vd k) us) s = .next (s.railOff k)) ∧
  (∀ (s : State) (us n : Nat), 50 < us → s.boot.st ≠ .off →
    exec (.railFault (.other n) us) s = .next (((s.logHealth 2 0xFF (16 + n) 0xFF 0).sinkAll .dark).enterSafe 2)) ∧
  (∀ (s t u : State), s.power.shed = false → s.boot.st ≠ .off →
    t = ({ s with power := { s.power with shed := true } } : State).resolveLevels →
    u = t.raise 0 0x25 (toLe 2 (Nat.max 400 (Nat.min 1600 (s.power.shedW.getD s.power.shedDefault)))) →
    exec .shedAssert s =
      .next ((u.livePartitions.filter (fun p => p ≠ 0)).foldl (fun (v : State) p => v.raise p 0x25 []) u) ∧
      u.host = s.host ∧ u.boot = s.boot ∧ u.power.shed = true) ∧
  (∀ s : State, s.power.shed = true →
    exec .shedDeassert s = .next (State.raiseLive
      (({ s with power := { s.power with shed := false, shedW := none } } : State).resolveLevels) 0x26 []))

/-- POWER STATES (R26 to R30, R143, R148 to R154): the resolution of precedence, the resumption of a fixed-rate partition, the
selection of a state, a wake, the end of a transition and one step of voltage. -/
def Obligations.PowerStateCommandsComplete : Prop :=
  (∀ (s : State) (r : PowerReport), s.boot.st.live = false →
    exec (.precedenceResolution r) s =
      .next (({ s with power := { s.power.backOff r.busDv r.nodeDv with report := r } } : State).notePower)) ∧
  (∀ (s : State) (r : PowerReport), s.boot.st.live = true →
    ∃ u : State, exec (.precedenceResolution r) s = .next u ∧ u.power.roomW = u.room ∧ u.power.report = r ∧ u.mem = s.mem ∧
      u.boot = s.boot ∧ u.host = s.host ∧ u.power.busDv = satTo 16 r.busDv ∧ u.power.powerDw = satTo 16 r.inputDw ∧
      u.power.nodeDv = satTo 16 r.nodeDv ∧ u.power.switchOn = (s.power.switchOn && decide (r.nodeDv ≤ r.busDv))) ∧
  (∀ (s t u : State) (p a : Nat), (s.part p).pwr.fitSince = some a → p < 16 →
    (List.range 16).find? (fun q => (s.part q).pwr.paused) = some p → a + 20000000 ≤ s.now →
    s.power.doms.any (fun d => d.shedRest) = false →
    t = s.onPart p (fun q => { q with pwr := { q.pwr with paused := false, fitSince := none } }) →
    u = (t.tilesOf p).foldl (fun (a : State) k => a.progress 0 k) t →
    exec (.fixedRateResume p) s = .next (((u.raiseBoth p 0x28 []).postPresence p).resolveLevels)) ∧
  (∀ (s : State) (p : Nat) (cadence : Option Nat), p < 16 → (s.part p).host.doze = .dozing → s.sec.steward = true →
    s.thermal.emergency = false → s.power.shutdown = false → s.boot.st.live = true →
    s.moduleMay .deep p cadence = false → s.moduleMay .dark p cadence = false →
    exec (.stateSelection p cadence) s = .next (((s.domsOf p).foldl (fun (t : State) k => t.wantDom (s.ownChoice p cadence) k)
      (s.planWake p (s.ownChoice p cadence) cadence)).resolveLevels)) ∧
  (∀ (s : State) (p : Nat) (cadence : Option Nat) (st : PState), p < 16 → (s.part p).host.doze = .dozing → s.sec.steward = true →
    s.thermal.emergency = false → s.power.shutdown = false → s.boot.st.live = true →
    (s.moduleMay .deep p cadence = true ∧ st = .deep ∨
      s.moduleMay .deep p cadence = false ∧ s.moduleMay .dark p cadence = true ∧ st = .dark) →
    exec (.stateSelection p cadence) s = .next (((List.range 16).foldl (fun (t : State) k => t.wantDom st k)
      (s.withDoms.foldl (fun (t : State) q => t.planWake q st (if q = p then cadence else none)) s)).resolveLevels)) ∧
  (∀ (s : State) (k : Nat) (why : WakeCause), k < 16 → s.wakeHolds k why = true →
    s.thermal.emergency = false → s.power.shutdown = false → s.boot.st.live = true → s.moduleAsleep = false →
    exec (.domainWake k why) s = .next ((s.onDom k (fun d => { d with wantSt := .run, clamp := 0 })).resolveLevels)) ∧
  (∀ (s : State) (k : Nat), k < 16 → (s.dom k).st ≠ (s.dom k).target → (s.dom k).target ∈ [PState.run, .hold] →
    220 ≤ (s.dom k).volt → (s.enterState k (s.dom k).target).thermal.emergency = false →
    (s.enterState k (s.dom k).target).power.shutdown = false →
    exec (.domainStateReached k) s = .next (s.enterState k (s.dom k).target)) ∧
  (∀ (s t : State) (k : Nat), k < 16 → t = s.settleDom k →
    exec (.voltageStep k) s = .next (t.onDom k (fun d => { d with volt :=
        if d.volt = d.setVolt then d.volt
        else if d.setVolt = 0 then 0
        else if d.volt = 0 then (if s.power.railsGood then 220 else 0)
        else if d.volt < d.setVolt then d.volt + 1 else d.volt - 1 })))

/-- SENSORS (R159 to R161, R164, R165): a sample, the suspicion and the return of a sensor, a stack's over-temperature and its
refresh rate. -/
def Obligations.SensorCommandsComplete : Prop :=
  (∀ (s : State) (x : Int), inRange x = true → s.thermal.inletFailed = false →
    exec (.sensorSample (.inlet (some x))) s =
      .next (State.noteCalm { s with thermal := { s.thermal with inlet := tenths x, inletSeen := true } })) ∧
  (∀ (s : State) (v : Option Int), (∀ x, v = some x → inRange x = false) →
    exec (.sensorSample (.inlet v)) s = .next (State.noteCalm { s with thermal := { s.thermal with inletFailed := true } })) ∧
  (∀ (s : State) (k n : Nat) (v : Option Int), k < 6 →
    exec (.sensorSample (.stack k n v)) s = .next
      (State.noteCalm (((s.onSpot (64 + k) (fun h => h.take s.now n v (s.power.report.stackWs.getD k 0))).noteLost (64 + k)
        (s.thermal.spot (64 + k))).stackValue k))) ∧
  (∀ (s : State) (t n : Nat) (v : Option Int), t < 64 →
    exec (.sensorSample (.tile t n v)) s = .next
      (State.noteCalm (((s.rollCycles.onSpot t (fun h => h.take s.now n v (s.dom (domOfTile t)).powerW)).noteLost t
        (s.thermal.spot t)).tileValue t))) ∧
  (∀ (h : HotSpot) (now n w : Nat) (v : Int) (l : List (Nat × Int × Nat)), n < 2 →
    sampled now (if n = 0 then h.hist0 else h.hist1) (some v) w = (l, false) →
    (if n = 0 then ((h.take now n (some v) w).r0 = tenths v ∧ (h.take now n (some v) w).fail0 = h.fail0)
     else ((h.take now n (some v) w).r1 = tenths v ∧ (h.take now n (some v) w).fail1 = h.fail1)) ∧
    (h.take now n (some v) w).ctl = (h.take now n (some v) w).value) ∧
  (∀ (h : HotSpot) (now n w : Nat) (v : Option Int) (l : List (Nat × Int × Nat)), n < 2 →
    sampled now (if n = 0 then h.hist0 else h.hist1) v w = (l, true) →
    (if n = 0 then ((h.take now n v w).r0 = h.r0 ∧ (h.take now n v w).fail0 = true)
     else ((h.take now n v w).r1 = h.r1 ∧ (h.take now n v w).fail1 = true))) ∧
  (∀ (now w : Nat) (l : List (Nat × Int × Nat)), (sampled now l none w).2 = true) ∧
  (∀ (now w : Nat) (l : List (Nat × Int × Nat)) (v : Int), inRange v = false → (sampled now l (some v) w).2 = true) ∧
  (∀ (s : State) (i a : Nat), i < 70 → (s.thermal.spot i).diffSince = some a → a + 100000000 < s.now →
    (s.thermal.spot i).far = false →
    ∃ t, exec (.sensorSuspect i) s = .next t ∧ t.thermal.evSuspected = true ∧ t.mem = s.mem ∧ t.hostMem = s.hostMem ∧
      t.thermal.flow = s.thermal.flow ∧ t.thermal.inlet = s.thermal.inlet ∧ t.power = s.power) ∧
  (∀ (s : State) (i a : Nat), i < 70 → (s.thermal.spot i).susp0 = true → (s.thermal.spot i).fail0 = false →
    (s.thermal.spot i).agreeSince = some a → a + 10000000000 ≤ s.now →
    exec (.sensorRestore i 0) s =
      .next (s.onSpot i (fun x => { x with susp0 := false, ctl := ({ x with susp0 := false } : HotSpot).value }))) ∧
  (∀ (s : State) (k a : Nat), (s.thermal.stackSpots.getD k {}).hotSince = some a → a + 10000000 ≤ s.now →
    s.power.shutdown = false → s.boot.st ≠ .off →
    exec (.stackOvertempShutdown k) s = .next (s.tripEvent (64 + k)).orderlyShutdown) ∧
  (∀ (s : State) (k a : Nat), (s.thermal.stackSpots.getD k {}).refresh2x = true →
    (s.thermal.stackSpots.getD k {}).coolSince = some a → a + 1000000000 ≤ s.now →
    exec (.refreshRestore k) s = .next (s.onSpot (64 + k) (fun x => { x with refresh2x := false })))

/-- FLOW AND THE WAY BACK (R162, R163, R166 to R171, R196): the predictor, the warning and the end of the limit, the clearing of
an emergency, its rearming, and the bulk tier's own temperature. -/
def Obligations.FlowCommandsComplete : Prop :=
  (∀ s : State, s.boot.st ≠ .off →
    exec .predictorUpdate s = .next (State.noteCalm ((((s.rollCycles.predict).takeAllowance).flowResponse).resolveLevels))) ∧
  (∀ s : State, s.predict.thermal.predicted = true ∧ s.predict.thermal.flow = s.thermal.flow ∧
    s.predict.thermal.inlet = s.thermal.inlet ∧ s.predict.mem = s.mem ∧ s.predict.boot = s.boot ∧ s.predict.host = s.host) ∧
  (∀ s : State, s.thermal.meterFault = false →
    s.takeAllowance.thermal.allowW = satTo 12 (s.thermal.allowance s.thermal.flow)) ∧
  (∀ (s : State) (a : Nat), s.thermal.lowSince = some a → a + 1000000000 ≤ s.now → s.thermal.flowWarn = false →
    exec .flowWarn s = .next (State.raise { s with thermal := { s.thermal with flowWarn := true, evWarned := true } } 0 0x30
      (toLe 4 s.thermal.flow))) ∧
  (∀ (s : State) (a : Nat), s.thermal.flowLimit = true → s.thermal.freeSince = some a → a + 1000000000 ≤ s.now →
    exec .flowLimitExit s =
      .next (State.allowEvent { s with thermal := { s.thermal with flowLimit := false } } 0x32)) ∧
  (∀ (s : State) (a : Nat), s.thermal.emergency = true → s.boot.st = .safe → s.boot.safeCause = 3 → s.thermal.rearmHold = false →
    s.power.shutdown = false → s.thermal.calmSince = some a → a + 10000000000 ≤ s.now →
    ∃ t, exec .thermalClear s = .next t ∧ t.thermal.emergency = false ∧ t.thermal.cause = 0 ∧
      t.thermal.clearAt = some s.now ∧ t.boot.st ∈ [ModSt.ready, .degraded] ∧ t.mem = s.mem) ∧
  (∀ s : State, s.boot.stepEight = true →
    exec .thermalRearm s = .next { s.wakeDeep with thermal := { s.wakeDeep.thermal with rearmHold := false } }) ∧
  (∀ (s : State) (c code : Nat), c < 8 → (s.mem.port (16 + c)).avail = true → s.boot.st ≠ .off →
    exec (.bulkMr4Read c code false) s = .next { s with mem := s.mem.onPort (16 + c) (fun q => { q with mr4 := code % 8 }) } ∧
    exec (.bulkMr4Read c code true) s =
      .next (State.orderlyShutdown { s with mem := s.mem.onPort (16 + c) (fun q => { q with mr4 := code % 8 }) }))

/-- RATES AND TIMEOUTS (R113 to R117, R253): the control of a rate page, a sample that is due, and a descriptor that its limit
ends. -/
def Obligations.RateCommandsComplete : Prop :=
  (∀ (s w : State) (v : Word), s.boot.stepEight = true → v.toNat.testBit 31 = true → 10 ≤ bitsOf v.toNat 16 0 →
    bitsOf v.toNat 16 0 ≤ 100000 → w = s.wakeDeep → w.sampling none = true → w.fabric.rate.enable = false →
    exec (.fabRateCtrlWrite none v) s = .next { w with fabric := { w.fabric with rate := { w.fabric.rate with
      enable := true, period := bitsOf v.toNat 16 0, first := true, next := some (w.now + bitsOf v.toNat 16 0 * 10000) } } }) ∧
  (∀ (s w : State) (v : Word), s.boot.stepEight = true → v.toNat.testBit 31 = false → w = s.wakeDeep →
    exec (.fabRateCtrlWrite none v) s = .next { w with fabric := { w.fabric with rate := { w.fabric.rate with
      enable := false, period := bitsOf v.toNat 16 0, next := none } } }) ∧
  (∀ (s : State) (p : Nat) (v : Word), s.boot.stepEight = true → p < 16 → (s.part p).sec.resetting = false →
    exec (.fabRateCtrlWrite (some p) v) s = .next (s.wakeDeep.writeRateCtrl (some p) v.toNat)) ∧
  (∀ (s : State) (v : Word), s.boot.stepEight = true → v.toNat.testBit 31 = true →
    (bitsOf v.toNat 16 0 < 10 ∨ 100000 < bitsOf v.toNat 16 0) → exec (.fabRateCtrlWrite none v) s = .next s.wakeDeep) ∧
  (∀ (s : State) (page : Option Nat) (a : Nat), (s.rateOf page).enable = true →
    s.sampling page = true → (s.rateOf page).next = some a → a ≤ s.now →
    exec (.rateSample page) s = .next (((List.range 64).foldl State.latchTile s).writeRatePage page)) ∧
  (∀ (s : State) (r : DescRef) (d : Desc), s.desc? r.part r.num = some d → s.overdue r.part d = true →
    exec (.descriptorTimeout r) s = .next (s.timeOut r.part d)) ∧
  (∀ (s : State) (p : Nat) (d : Desc), d.engineRun = false → d.timeout = 0 →
    s.limitOf p d = (if d.op = 0x01 ∨ d.op = 0x02 ∨ d.op = 0x04 ∨ d.op = 0x05 then none else some 60000))

/-- THE MESH (R180, R181, R183, R184, R446): a transaction on a physical address is carried to its queue where an order that it
may take is available and its port admits it, waits where none is, and is refused with ACCESS_REFUSED otherwise; one of the
confined class under a foreign tag is discarded. -/
def Obligations.MeshTransactionsComplete : Prop :=
  ∀ (s : State) (r : TxnReq) (t : Txn), txnOk r = true → r.virt = false → r.dims = [] →
    (s.translateReq r r.addr (sliceOf r.data 0 r.len)).2 = some t → s.mem.mayIssue t = true →
    t.src = r.src ∧ t.tag = r.tag ∧ t.op = r.op ∧ t.pa = r.addr ∧ t.len = r.len ∧ t.data = sliceOf r.data 0 r.len ∧
    t.num = s.mem.nextNum r.src ∧
    ((∀ a, r.src = some a → (s.tile a).part = some r.tag) →
      (s.goes t = .waits →
        exec (.meshTransactionIssue r) s = .next { s with mem := { s.mem with waiting := s.mem.waiting ++ [t] } }) ∧
      (s.goes t = .refused → exec (.meshTransactionIssue r) s = .next
        ((s.raisePf r.tag 0x43 (toLe 5 r.addr ++ toLe 1 r.tag ++ toLe 1 (srcCode r.src))).deliver
          { t with data := [], refused := true })) ∧
      (∀ i alt route, s.goes t = .reaches i alt route → t.gate = none → route.all s.routerUp = true →
        (s.admits r.tag r.addr = true → (s.mem.queued.getD i []).length < 1024 →
          exec (.meshTransactionIssue r) s = .next { s with
            mem := { s.mem with queued := updAt s.mem.queued i (fun q => q ++ [{ t with alt := alt, route := route }]) } }) ∧
        (s.admits r.tag r.addr = true → i < 16 → 1024 ≤ (s.mem.queued.getD i []).length →
          exec (.meshTransactionIssue r) s = .next { s with
            mem := { s.mem with flights := s.mem.flights ++ [{ txn := { t with alt := alt, route := route }, rest := [] }] } }) ∧
        (s.admits r.tag r.addr = false → exec (.meshTransactionIssue r) s = .next
          ((s.raisePf r.tag 0x43 (toLe 5 r.addr ++ toLe 1 r.tag ++ toLe 1 (srcCode r.src))).sendBack
            { t with alt := alt, route := route, data := [], refused := true })))) ∧
    (∀ a q, r.src = some a → (s.tile a).part = some q → q ≠ r.tag → t.confined = true →
      exec (.meshTransactionIssue r) s = .next ((s.logHealth 6 0 a (s.tilePart a) r.tag).faultPart q))

/-- THE ORDERS OF A ROUTE (R180, R181): a row's first order where it is available, its other order where only that one is, no
order otherwise; XY and YX orders join their ends and stay within the mesh.
THE AVAILABILITY MAP (R181): an update sets each router's bit by its domain's power state and its tile's reset, changes
nothing else, and lets every transaction that waits try again. -/
def Obligations.RoutesFollowTheMap : Prop :=
  (∀ (s : State) (t : Txn) (a b : Nat) (yx c : Bool) (first other : List Nat), s.wayOf t = .mesh a b yx c →
    first = (if yx then routeYX a b else routeXY a b) → other = (if yx then routeXY a b else routeYX a b) →
    (c = true ∨ (s.avoids t.tag first = true ∧ s.avoids t.tag other = true) →
      s.goes t = (if s.routeUp first then .reaches (s.queueOf t.pa) false first
        else if s.routeUp other then .reaches (s.queueOf t.pa) true other else .waits)) ∧
    (c = false → s.avoids t.tag first = false → s.avoids t.tag other = false → s.goes t = .refused) ∧
    (c = false → s.avoids t.tag first = false → s.avoids t.tag other = true →
      s.goes t = (if s.routeUp other then .reaches (s.queueOf t.pa) true other else .waits))) ∧
  (∀ a b : Nat, a < 64 → b < 64 →
    a ∈ routeXY a b ∧ b ∈ routeXY a b ∧ a ∈ routeYX a b ∧ b ∈ routeYX a b ∧
    a / 8 * 8 + b % 8 ∈ routeXY a b ∧ b / 8 * 8 + a % 8 ∈ routeYX a b ∧
    (∀ x ∈ routeXY a b, x < 64 ∧ (x / 8 = a / 8 ∨ x % 8 = b % 8)) ∧
    (∀ x ∈ routeYX a b, x < 64 ∧ (x % 8 = a % 8 ∨ x / 8 = b / 8))) ∧
   (∀ s : State, ∃ m : BitVec 64,
      exec .availabilityMapUpdate s = .next (State.relaunch { s with mem := { s.mem with avail := m } }) ∧
      ∀ i, i < 64 → m.getLsbD i = ((s.dom (domOfTile i)).st != .dark && (s.dom (domOfTile i)).st != .deep &&
        (s.tile i).st != .resetting))

/-- A MEMORY ACCESS (R186, R202, R203): a transaction that no older one of its queue meets is carried out: a write stores its
data, a clean read answers with the bytes it covers; one that an older one meets stays where it is. At a memory port it goes by
the crossings of the port (R124, R125).
MEMORY ERRORS (R202, R203): a corrected word counts at its port and changes no byte; an uncorrectable one is poisoned,
counted, and leaves the stored bytes as they are. -/
def Obligations.MemoryPortAccessCompletes : Prop :=
   (∀ (s : State) (i idx : Nat) (fs : List Nat) (t : Txn) (x : State × Txn), 16 ≤ i → i < 24 →
      (s.mem.queued.getD i [])[idx]? = some t →
      (((s.mem.queued.getD i []).take idx).any (fun y => y.meets t) = true →
        exec (.memoryPortAccess i idx fs) s = .next s) ∧
      (((s.mem.queued.getD i []).take idx).any (fun y => y.meets t) = false → s.dramUp i t = true →
        x = State.carryOut { s with mem := { s.mem with queued := updAt s.mem.queued i (fun l => l.eraseIdx idx) } } i t fs →
        exec (.memoryPortAccess i idx fs) s = .next ((x.1.sendBack x.2).relaunch))) ∧
   (∀ (s u : State) (i idx : Nat) (fs : List Nat) (t : Txn) (f : Flight) (x : State × Txn), i < 16 → i < s.mem.cross.length →
      s.crossing i = {} → s.lit (domOfTile (rimTile i)) = true → s.dramUp i t = true → entriesOf 128 [f] ≤ 96 →
      entriesOf 128 [{ f with back := true }] ≤ 96 → (s.mem.queued.getD i [])[idx]? = some t →
      ((s.mem.queued.getD i []).take idx).any (fun y => y.meets t) = false → f = { txn := t, rest := [] } →
      u = { s with mem := { s.mem with queued := updAt s.mem.queued i (fun l => l.eraseIdx idx) } } →
      x = u.carryOut i t fs → x.1.crossing i = {} → x.1.mem.cross = s.mem.cross →
      x.1.lit (domOfTile (rimTile i)) = true →
      exec (.memoryPortAccess i idx fs) s = .next ((x.1.sendBack x.2).relaunch)) ∧
   (∀ (s u : State) (i : Nat) (fs : List Nat) (t : Txn), i < 24 → u = s.progress (portUnit i).1 (portUnit i).2 →
      (u.admits t.tag t.pa = false → s.carryOut i t fs = (u.denied t, { t with data := [], refused := true })) ∧
      (u.admits t.tag t.pa = true → (t.tag < 16 → u.retiredEpoch t.tag t.pa = false) →
        (t.op = .write → s.carryOut i t fs = ({ u with mem := u.mem.store t.pa t.data }, t)) ∧
        (t.op = .read → (u.mem.port i).avail = true → (∀ w ∈ wordsOf t.pa t.len, u.verdict w fs = .clean) →
          s.carryOut i t fs = (u, { t with
            data := u.mem.cells.read t.pa t.len, poisoned := (wordsOf t.pa t.len).any u.mem.poisoned })))) ∧
   (∀ (s : State) (i w n : Nat) (fs : List Nat), i < 24 → s.mem.ports.length = 16 → s.mem.bchans.length = 8 →
      s.mem.poisoned w = false → wordOf w = w →
      (s.verdict w fs = .clean → s.decodeWord i w fs = s) ∧
      (s.verdict w fs = .corrected n → (s.decodeWord i w fs).mem.cells = s.mem.cells ∧
        ((s.decodeWord i w fs).mem.port i).corr = satTo 16 ((s.mem.port i).corr + (if i < 16 then 1 else n))) ∧
      (s.verdict w fs = .uncorrectable → (s.decodeWord i w fs).mem.cells = s.mem.cells ∧
        ((s.decodeWord i w fs).mem.port i).uncorr = satTo 8 ((s.mem.port i).uncorr + 1) ∧
        (s.decodeWord i w fs).mem.poisoned w = true)) ∧
   (∀ (s : State) (i w : Nat) (fs : List Nat), s.mem.poisoned w = true → s.decodeWord i w fs = s)

/-- SCRUB AND RECALIBRATION (R205, R206, R208): a step on an idle channel, the forced slices, and a recalibration due. -/
def Obligations.ScrubCommandsComplete : Prop :=
  (∀ (s : State) (i ch pa : Nat) (fs : List Nat), s.chanUp i ch = true → s.chanIdle i ch = true →
    s.mem.wordAt i ch (s.channel i ch).scrubPos = some pa → exec (.scrubStep i ch fs) s =
      .next ((s.decodeWord i pa fs).onChannel i ch (fun c =>
        { c with scrubPos := (c.scrubPos + 1) % chanWords i, scrubDone := c.scrubDone + 1 }))) ∧
  (∀ (s : State) (i ch us : Nat), s.chanUp i ch = true → s.slotOpen 0x11 = true → (s.channel i ch).forcedIn s.now + us ≤ 200 →
    (6 * 3600000000000 < s.mem.lagNs s.now i (s.channel i ch) → (s.channel i ch).scrubForced = false →
      exec (.scrubForcedSlice i ch us) s = .next (((s.onChannel i ch (fun c => { c with
        scrubForced := true, scrubWin := (s.now / 10000000, (s.channel i ch).forcedIn s.now + us) })).roust i 0).forcedUs i us)) ∧
    (s.mem.lagNs s.now i (s.channel i ch) ≤ 3600000000000 →
      exec (.scrubForcedSlice i ch us) s = .next (s.onChannel i ch (fun c => { c with
        scrubForced := false, scrubWin := (s.channel i ch).scrubWin })))) ∧
  (∀ (s : State) (i ch : Nat) (moved : Int), s.chanUp i ch = true → (s.channel i ch).cold = false →
    ((s.channel i ch).lastRecal + s.mem.recalS * 1000000000 ≤ s.now ∨
      (16 ≤ i ∧ 100 ≤ moved) ∨ (i < 16 ∧ 100 ≤ s.chanTemp i ch - (s.channel i ch).lastTemp)) →
    exec (.recalDue i ch moved) s = .next (if s.chanIdle i ch
      then (s.onChannel i ch (fun c => c.calibrated s.now (s.chanTemp i ch))).relaunch
      else s.onChannel i ch (fun c => { c with recalDue := some (c.recalDue.getD s.now) }))) ∧
  (∀ (s : State) (i ch t : Nat), s.chanUp i ch = true → s.slotOpen 0x11 = true → (s.channel i ch).recalDue = some t →
    t + 1800000000000 < s.now → (∀ u, (s.channel i ch).lastSlice = some u → u + 100000000 ≤ s.now) →
    exec (.recalForcedSlice i ch) s =
      .next (((if (s.channel i ch).recalForced then s else s.roust i 1).forcedUs i 1).onChannel i ch (fun c =>
        if c.recalSlices + 1 ≥ 16 then c.calibrated s.now (s.chanTemp i ch)
        else { c with recalForced := true, recalSlices := c.recalSlices + 1, lastSlice := some s.now })))

/-- TRANSLATION CACHES AND THE TABLE ROOT (R201, R209, R604): an invalidation leaves Pp no cached translation and clears BUSY,
for it alone; a write of the root outside RUNNING sets it, and a change of ENABLE discards what is cached. -/
def Obligations.TranslationCommandsComplete : Prop :=
  (∀ (s : State) (p : Nat), s.boot.stepEight = true → p < 16 → (s.part p).sec.resetting = false →
    ∃ t, exec (.xlatInvalidate p) s = .next t ∧ (p < s.parts.length → (t.part p).mem.xlat = [] ∧ (t.part p).mem.busy = false) ∧
      (∀ q, q ≠ p → t.part q = s.part q) ∧ t.mem = s.mem ∧ t.hostMem = s.hostMem) ∧
  (∀ (s u : State) (p : Nat) (v : Word), s.boot.stepEight = true → p < 16 → u = s.wakeDeep → p < u.parts.length →
    (s.part p).sec.resetting = false → (u.part p).sec.st ≠ .running →
    ∃ t, exec (.ptRootWrite p v) s = .next t ∧ (t.part p).mem.enable = v.toNat.testBit 0 ∧
      (t.part p).mem.root = (u.part p).mem.root / 2 ^ 32 * 2 ^ 32 + v.toNat / 4096 % 2 ^ 20 * 4096 ∧
      (v.toNat.testBit 0 ≠ (u.part p).mem.enable → (t.part p).mem.xlat = []) ∧
      (v.toNat.testBit 0 = (u.part p).mem.enable → (t.part p).mem.xlat = (u.part p).mem.xlat) ∧
      (∀ q, q ≠ p → t.part q = u.part q) ∧ t.mem = u.mem ∧ t.hostMem = u.hostMem) ∧
  (∀ (s : State) (p : Nat) (v : Word), s.boot.stepEight = true → p < 16 → (s.part p).sec.resetting = false →
    (s.wakeDeep.part p).sec.st = .running → exec (.ptRootWrite p v) s = .next s.wakeDeep) ∧
  (∀ (s : State) (p va t : Nat) (w : Bool), (s.part p).mem.enable = false → va < 2 ^ 40 →
    s.translate p none va w = .page (va / 0x10000 * 0x10000) 0x10000 (va / 0x10000 * 0x10000) true ∧
    s.translate p (some t) va w = .fault 5)

/-- BAR0 AND BAR2 (R220, R222): an access of a wrong size or place is only counted; the window carries writes and reads to the
partition's memory while it is open, and reads all ones while it is not.
CONFIGURATION REQUESTS (R488): before the endpoint serves them each is answered with Request Retry Status and changes
nothing; afterwards it is served. -/
def Obligations.WindowCommandsComplete : Prop :=
  (∀ (s : State) (fn off len : Nat), s.hasFn fn = true → ((len ≠ 4 ∧ len ≠ 8) ∨ off % len ≠ 0) →
    exec (.bar0AccessIgnored fn off len) s =
      .next { s.onHost fn (fun h => { h with badAccess := satTo 16 (h.badAccess + 1) }) with
        host := { s.host with badAccess := satTo 16 (s.host.badAccess + 1) } }) ∧
  (∀ (s t : State) (p off : Nat) (data : List Byte), p < 16 → off + data.length ≤ 2 ^ (s.host.bar2Log2.getD p 36) →
    s.windowOpen p = true → s.writeVa p none 0 (s.bar2Va p off) data = .ok t → exec (.bar2Write p off data) s = .next t) ∧
  (∀ (s : State) (p off : Nat) (data : List Byte), s.windowOpen p = false → exec (.bar2Write p off data) s = .next s) ∧
  (∀ (s : State) (p off len : Nat), s.hasFn p = true → off + len ≤ 2 ^ (s.host.bar2Log2.getD p 36) →
    (s.windowOpen p = false → exec (.bar2Read p off len) s =
      .next { s with host := { s.host with bar2Read := some (List.replicate len 0xFF#8, false) } }) ∧
    (∀ bs, s.windowOpen p = true → s.readVa p none 0 (s.bar2Va p off) len = .ok bs → exec (.bar2Read p off len) s =
      .next { s with host := { s.host with bar2Read := some (bs, false) } }) ∧
    (∀ f, s.windowOpen p = true → s.readVa p none 0 (s.bar2Va p off) len = .error f → (∀ a, f ≠ .poison a) →
      exec (.bar2Read p off len) s = .next { s.note p f with
        host := { (s.note p f).host with bar2Read := some (List.replicate len 0xFF#8, false) } })) ∧
  (∀ (s : State) (p : Nat), s.windowOpen p = (decide ((s.part p).host.apEnable = true) &&
    !(decide ((s.part p).sec.secMode = 2) && decide ((s.part p).sec.frozen = true)) && s.hasFn p)) ∧
  (∀ (s : State) (p : Nat), s.hasFn p = true ↔ p = 0 ∨ p < 16 ∧ p ≤ s.host.numVfs) ∧
   (∀ (s : State) (fn : Nat) (r : CfgReq), s.host.up = true → s.hasFn fn = true →
      (s.boot.served = false → exec (.configurationRequest fn r) s =
        .next { s with host := { s.host with cfgAnswer := some .retry } }) ∧
      (s.boot.served = true →
        (∀ o, r = .read o → exec (.configurationRequest fn r) s =
          .next { s with host := { s.host with cfgAnswer := some (.value (s.readCfg fn o)) } }) ∧
        (∀ v, r = .write .numVfs v → fn = 0 → bitsOf v 15 0 ≤ 15 → exec (.configurationRequest fn r) s =
          .next { s with host := { s.host with cfgAnswer := some .done, numVfs := bitsOf v 15 0 } }) ∧
        (∀ v k, r = .write .rebar v → fn = 0 → barSize v = some k → exec (.configurationRequest fn r) s =
          .next { s with host := { s.host with cfgAnswer := some .done, bar2Log2 := updAt s.host.bar2Log2 0 (fun _ => k) } }) ∧
        (∀ o v, r = .write o v → fn ≠ 0 → o ≠ .msix → exec (.configurationRequest fn r) s =
          .next { s with host := { s.host with cfgAnswer := some .done } })))

/-- RING STATES (R225, R244): the enable of an SQ that is valid, and one that is not; pause and resume; a disable with and
without fetched descriptors left, and the end of the drain. -/
def Obligations.RingCommandsComplete : Prop :=
  (∀ (s : State) (p q : Nat) (v : Word) (r : Sq), s.boot.stepEight = true → p < 16 → (s.part p).sec.resetting = false → q < 64 →
    (s.sq p q).st = .disabled → v.toNat.testBit 31 = true → v.toNat.testBit 30 = false →
    6 ≤ bitsOf v.toNat 20 16 → bitsOf v.toNat 20 16 ≤ 16 → bitsOf v.toNat 3 0 ≠ 0 → r = (s.sq p q).configure v.toNat →
    p < s.parts.length → q < (s.part p).host.sqs.length →
    (r.base ≠ 0 → (s.part p).host.dbValid = true → (s.cq p r.cq).st = .enabled →
      ∃ t, exec (.ringEnable p (.sq q) v) s = .next t ∧
        t.sq p q = { r with enable := true, st := .enabled, errCode := 0, head := 0, tail := 0, lastNum := none,
                            lastStatus := none, lastSeal := none, pause := false } ∧
        (s.host.up = true → s.hasFn p = true →
          t.hostMem = s.hostMem.write ((s.part p).host.dbBase + 0x400 + 4 * q) (zeros 4)) ∧
        (∀ x y, (x ≠ p ∨ y ≠ q) → t.sq x y = s.sq x y) ∧ (∀ x y, t.cq x y = s.cq x y) ∧ t.mem = s.mem) ∧
    ((r.base = 0 ∨ (s.part p).host.dbValid = false ∨ (s.cq p r.cq).st ≠ .enabled) →
      ∃ t, exec (.ringEnable p (.sq q) v) s = .next t ∧
        t.sq p q = { r with enable := true, errCode := 1, pause := false } ∧ t.hostMem = s.hostMem ∧
        (∀ x y, (x ≠ p ∨ y ≠ q) → t.sq x y = s.sq x y) ∧ (∀ x y, t.cq x y = s.cq x y) ∧ t.mem = s.mem)) ∧
  (∀ (s w : State) (p q : Nat), s.boot.stepEight = true → p < 16 → (s.part p).sec.resetting = false → w = s.wakeDeep →
    (exec (.ringPause p q) s = .next ((w.onSq p q (fun r =>
      { r with pause := true, st := if r.st == .enabled then .paused else r.st })).noteQuiet p)) ∧
    ((s.sq p q).st = .paused → p < s.parts.length → q < (s.part p).host.sqs.length →
      ∃ t, exec (.ringUnpause p q) s = .next t ∧ (t.sq p q).st = .enabled ∧ (t.sq p q).tail = (t.sq p q).head ∧
        (t.sq p q).head = (s.sq p q).head) ∧
    (s.sqBusy p q = true → (s.sq p q).st ≠ .disabled → exec (.ringDisable p (.sq q)) s =
      .next ((w.onSq p q (fun r => if r.st == .disabled then { r with enable := false }
        else { r with enable := false, draining := true })).noteQuiet p)) ∧
    (s.sqBusy p q = false → exec (.ringDisable p (.sq q)) s =
      .next ((w.onSq p q (fun r => if r.st == .disabled then { r with enable := false }
        else { r with enable := false, draining := false, st := .disabled })).noteQuiet p)) ∧
    (∀ c, (∃ x ∈ (s.part p).host.sqs, x.cq = c ∧ x.st ≠ .disabled) → exec (.ringDisable p (.cq c)) s = .next w) ∧
    (∀ c, (∀ x ∈ (s.part p).host.sqs, x.cq = c → x.st = .disabled) → exec (.ringDisable p (.cq c)) s =
      .next (w.onCq p c (fun r => { r with enable := false, st := .disabled }))) ∧
    exec (.ringDisable p .evt) s = .next (w.onEvt p (fun r => { r.dropQueue with enable := false, st := .disabled }))) ∧
  (∀ (s : State) (p q : Nat), (s.sq p q).draining = true → (∀ d ∈ (s.part p).fetched, d.act = none → d.sq ≠ q) →
    exec (.ringDrainDone p q) s = .next (s.onSq p q (fun r => { r with st := .disabled, draining := false })))

/-- DOORBELLS AND DOZES (R230, R232, R233, R215): what triggers a doorbell read, what ends a doze, and the doze sequence;
a tail in its ring is taken, one past it puts its SQ in ERROR with cause TAIL_RANGE. -/
def Obligations.DoorbellCommandsComplete : Prop :=
  (∀ (s w : State) (p : Nat), s.boot.stepEight = true → p < 16 → (s.part p).sec.resetting = false → w = s.wakeDeep →
    exec (.nudge p) s = .next (match (s.part p).host.doze with
      | .awake => w.doorbell p
      | .entering => w.onHost p (fun h => { h with wakePend := true })
      | .dozing => w.endDoze p)) ∧
  (∀ (s : State) (p : Nat), (s.part p).host.dbValid = true → s.hasFn p = true →
    s.doorbell p = s.onHost p (fun h => if !h.dbValid then h else if h.dbOut then { h with dbAgain := true }
      else { h with dbOut := true, lastDb := s.now })) ∧
  (∀ (s : State) (p : Nat), (s.part p).host.doze = .awake → (s.part p).host.pollUs ≠ 0 →
    (s.part p).host.lastDb + (s.part p).host.pollUs * 1000 ≤ s.now → exec (.pollExpiry p) s = .next (s.doorbell p)) ∧
  (∀ (s : State) (p : Nat), (s.part p).host.pollUs = 0 → exec (.pollExpiry p) s = .next s) ∧
  (∀ (s : State) (p : Nat) (bs : List Byte), (s.part p).host.dbOut = true →
    exec (.doorbellReadReturn p (.data bs)) s =
      .next ((((s.takeTails p bs).takeHeads p bs).takeEvtHead p bs).doorbellDone p)) ∧
  (∀ (s : State) (p : Nat) (f : HostRead), (s.part p).host.dbOut = true → f ∈ [HostRead.refused, .poisoned, .timedOut] →
    exec (.hostReadFailure p .doorbell f) s =
      .next (((((s.countRdErr p).onHost p (fun h => { h with dbFault := true })).allRingsError p 0x05)).doorbellDone p)) ∧
  (∀ (s : State) (p q : Nat) (f : HostRead), s.sqReady p q = true → f ∈ [HostRead.refused, .poisoned, .timedOut] →
    exec (.hostReadFailure p (.descriptor q) f) s = .next ((s.countRdErr p).sqError p q 0x04)) ∧
  (∀ (s : State) (p a : Nat), (s.part p).host.doze = .awake → (s.part p).host.dbOut = false →
    (s.part p).host.dbValid = true → s.hasFn p = true → (s.part p).host.eligibleSince = some a →
    a + (s.part p).host.dozeUs * 1000 ≤ s.now → s.quiet p = true →
    exec (.dozeSequence p) s =
      .next ((s.onHost p (fun h => { h with doze := .entering, dbOut := true, lastDb := s.now })).postPresence p)) ∧
  (∀ (s t : State) (p : Nat), (s.part p).host.doze = .entering → (s.part p).host.late = [] →
    t = (s.onHost p (fun h => { h with late := [] })).onHost p (fun x => { x with doze := .dozing, wakePend := false }) →
    ((s.part p).host.wakePend = true → s.settleDoze p = t.endDoze p) ∧
    ((s.part p).host.wakePend = false → (∃ q, q < 64 ∧ t.sqReady p q = true) →
      s.settleDoze p = (t.onHost p (fun h => { h with doze := .awake, eligibleSince := none })).postPresence p) ∧
    ((s.part p).host.wakePend = false → (∀ q, q < 64 → t.sqReady p q = false) → s.settleDoze p = t)) ∧
  (∀ (s : State) (p q : Nat) (bs : List Byte), q < 64 →
      ((s.sq p q).st.live = true → fieldAt bs (0xC0 + 4 * q) 4 < 2 ^ (s.sq p q).sizeLog2 →
        (s.takeTails p bs).sq p q = { s.sq p q with tail := fieldAt bs (0xC0 + 4 * q) 4 }) ∧
      ((s.sq p q).st.live = true → 2 ^ (s.sq p q).sizeLog2 ≤ fieldAt bs (0xC0 + 4 * q) 4 →
        (s.takeTails p bs).sq p q = { s.sq p q with st := .error, errCode := 0x02 }) ∧
      ((s.sq p q).st.live = false → (s.takeTails p bs).sq p q = s.sq p q))

/-- FETCH (R226 to R228): the SQ that the order serves gives the descriptor at its head; its head passes, its CQ keeps a slot
for the record, and the new head is written to the doorbell page. -/
def Obligations.DescriptorFetchCompletes : Prop :=
  (∀ (s : State) (p q left : Nat) (bs : List Byte), s.nextSq p = some (q, left) → s.isSealed p = false → bs.length = 64 →
    p < s.parts.length → q < (s.part p).host.sqs.length → (s.sq p q).cq < (s.part p).host.cqs.length →
    ∃ t d, exec (.descriptorFetch p (.data bs)) s = .next t ∧ (t.part p).fetched = (s.part p).fetched ++ [d] ∧
      d.bytes = bs ∧ d.sq = q ∧ d.slot = (s.sq p q).head ∧ d.cq = (s.sq p q).cq ∧ d.startedAt = none ∧
      d.num = (s.part p).host.nextNum ∧
      (t.sq p q).head = ((s.sq p q).head + 1) % 2 ^ (s.sq p q).sizeLog2 ∧
      (t.cq p (s.sq p q).cq).reserved = (s.cq p (s.sq p q).cq).reserved + 1 ∧
      (s.host.up = true → t.hostMem = s.hostMem.write ((s.part p).host.dbBase + 0x400 + 4 * q)
        (toLe 4 (((s.sq p q).head + 1) % 2 ^ (s.sq p q).sizeLog2))) ∧
      (∀ x, x ≠ p → t.part x = s.part x) ∧ t.mem = s.mem) ∧
  (∀ (s : State) (p q left : Nat), s.nextSq p = some (q, left) →
    s.mayFetch p q = true ∧ ∀ x, x < 64 → s.mayFetch p x = true → (s.sq p q).cls ≤ (s.sq p x).cls) ∧
  (∀ (s : State) (p q : Nat), s.mayFetch p q = true →
    (s.sq p q).st = .enabled ∧ 0 < (s.cq p (s.sq p q).cq).free ∧ (s.sq p q).tail ≠ (s.sq p q).head ∧
    ((s.part p).sec.st = .admitted ∨ (s.part p).sec.st = .running ∨
      (p = 0 ∧ q = 0 ∧ s.boot.st ∈ [ModSt.ready, .degraded, .curtain, .safe])))

/-- EVENT RECORDS, COMPLETION RECORDS AND MESSAGES (R235, R239 to R243): the oldest queued event enters the ring with the next SEQ, and presence follows;
a vector that is due sends its message or is marked pending. -/
def Obligations.EventCommandsComplete : Prop :=
  (∀ (s t : State) (p : Nat) (x : Event) (xs : List Event) (r : EvtRing), r = (s.part p).host.evt → r.queue = x :: xs →
    r.st = .enabled → r.split = false → 0 < ringFree r.sizeLog2 r.slot r.accepted → s.isSealed p = false → s.hasFn p = true →
    t = (s.hostWrite (r.base + 32 * r.slot) (eventRecord x r.lostFlag r.phase ((r.seq + 1) % 2 ^ 32))).onEvt p (fun r =>
      { r with queue := xs, seq := (r.seq + 1) % 2 ^ 32, lostFlag := false, slot := (r.slot + 1) % 2 ^ r.sizeLog2,
               phase := if r.slot + 1 = 2 ^ r.sizeLog2 then !r.phase else r.phase, due := r.due || r.irq }) →
    exec (.eventRecordWrite p) s = .next (t.postPresence p)) ∧
  (∀ (x : Event) (lost phase : Bool) (seq : Nat), (eventRecord x lost phase seq).length = 32 ∧
    fieldAt (eventRecord x lost phase seq) 0 1 = x.code % 256 ∧
    fieldAt (eventRecord x lost phase seq) 4 4 = seq % 2 ^ 32 ∧
    fieldAt (eventRecord x lost phase seq) 8 8 = x.time % 2 ^ 64 ∧
    fieldAt (eventRecord x lost phase seq) 1 1 = x.subject % 16 + 64 * b2n lost + 128 * b2n phase) ∧
  (∀ (d : Desc) (st cflags result beats : Nat) (phase : Bool), d.sq < 64 → (cqRecord d st cflags result beats phase).length = 16 ∧
    fieldAt (cqRecord d st cflags result beats phase) 0 4 = d.tag % 2 ^ 32 ∧
    fieldAt (cqRecord d st cflags result beats phase) 4 1 = st % 256 ∧
    fieldAt (cqRecord d st cflags result beats phase) 6 1 = d.sq + 128 * b2n phase ∧
    fieldAt (cqRecord d st cflags result beats phase) 8 4 = result % 2 ^ 32) ∧
  (∀ (s : State) (p c : Nat), (s.cq p c).due = true →
    (s.vectorHeld p (s.cq p c).vector = false → (∀ a, (s.cq p c).lastMsg = some a → a + (s.cq p c).modUs * 1000 ≤ s.now) →
      exec (.msixSend p (.cq c)) s =
        .next ((s.onCq p c (fun r => { r with due := false, lastMsg := some s.now })).message p (s.cq p c).vector)) ∧
    (s.vectorHeld p (s.cq p c).vector = true → exec (.msixSend p (.cq c)) s =
      .next ((s.onCq p c (fun r => { r with due := false, pended := true })).onHost p (fun h =>
        { h with msix := updAt h.msix (s.cq p c).vector (fun e => { e with pend := true }) })))) ∧
  (∀ (s : State) (p : Nat), (s.part p).host.evt.due = true → s.vectorHeld p (s.part p).host.evt.vector = false →
    (∀ a, (s.part p).host.evt.lastMsg = some a → a + (s.part p).host.evt.modUs * 1000 ≤ s.now) →
    exec (.msixSend p .evt) s =
      .next ((s.onEvt p (fun r => { r with due := false, lastMsg := some s.now })).message p (s.part p).host.evt.vector)) ∧
  (∀ (s : State) (p v : Nat), s.hasFn p = true →
    s.message p v = (s.onHost p (fun h => { h with msix := updAt h.msix v (fun e => { e with pend := false }) })).hostWrite
      ((s.part p).host.msix.getD v {}).addr (toLe 4 ((s.part p).host.msix.getD v {}).data)) ∧
  (∀ (s : State) (p v : Nat), s.vectorHeld p v = true ↔ ((s.host.cfg.getD p {}).msixOn = false ∨
    (s.host.cfg.getD p {}).msixMask = true ∨ ((s.part p).host.msix.getD v {}).masked = true))

/-- THE HOST LINK (R216, R217, R488): its loss, its return, a retrain, PERST#, and a PTM dialog. -/
def Obligations.HostLinkCommandsComplete : Prop :=
  (∀ s : State, s.host.up = true → exec .hostLinkDown s = .next s.linkDown) ∧
  (∀ s : State, (∀ p, ∀ d ∈ (s.part p).fetched, d.startedAt.isSome = true → readsHost d = false) →
    s.linkDown.host.up = false ∧ s.linkDown.mem = s.mem ∧ s.linkDown.boot.st = s.boot.st ∧
    s.linkDown.hostMem = s.hostMem ∧ s.linkDown.pair = s.pair) ∧
  (∀ (s : State) (speed width : Nat) (flit : Bool), s.host.up = true → (s.host.speed ≠ speed ∨ s.host.width ≠ width) →
    exec (.linkChange speed width flit) s = .next (State.raise { s with
      host := { s.host with speed := speed, width := width, flit := flit } } 0 0x02 (toLe 1 speed ++ toLe 1 width))) ∧
  (∀ s : State, s.host.up = true →
    exec .perstAssert s = .next (State.linkDown { s with host := { s.host with perst := true } })) ∧
  (∀ s : State, s.host.up = false → ∃ t, exec .perstAssert s = .next t ∧ t.host.perst = true ∧ t.host.numVfs = 0 ∧
    t = { s with host := t.host }) ∧
  (∀ s : State, exec .perstRelease s = .next { s with host := { s.host with perst := false } }) ∧
  (∀ (s : State) (speed width : Nat) (flit : Bool), s.host.up = false → s.host.perst = false → s.boot.guardUp = true →
    s.boot.held = [] → exec (.hostLinkUp speed width flit) s =
      .next { s with host := { s.host with up := true, speed := speed, width := width, flit := flit }
                     fabric := { s.fabric with locked := s.fabric.locked ||| 1 } }) ∧
  (∀ (s : State) (o : Int), s.host.ptmEnable = true → s.field.ptpEnable = false →
    (∀ a, s.host.ptmAt = some a → a + s.host.ptmPeriod * 1000000 ≤ s.now) →
    exec (.ptmDialog o) s = .next (if 10000 < o then { s with
        now := s.now + o.toNat, host := { s.host with
          ptmAt := some s.now, ptmOffsets := (o :: s.host.ptmOffsets).take 8, slew := 0, slewRun := 0
          stepAt := some (s.now + o.toNat) } }
      else { s with host := { s.host with ptmAt := some s.now, ptmOffsets := (o :: s.host.ptmOffsets).take 8, slew := o } })) ∧
  (∀ (s : State) (o : Int) (t : State), exec (.ptmDialog o) s = .next t → s.now ≤ t.now)

/-- REGISTER WRITES (R13, R156, R176, R210, R246, R461, R488, R582): settings in their stated ranges, values outside them ignored
whole, read-only and reserved offsets, the pages of virtual functions, a frozen partition's page, and start-up.
A FROZEN PARTITION'S PAGE (R461): the physical function's writes to it are ignored, whatever the register. -/
def Obligations.RegisterWritesComplete : Prop :=
  (∀ (s : State) (fn off : Nat) (v : Word), s.boot.stepEight = false → exec (.registerWrite fn off v) s = .next s) ∧
  (∀ (s w : State) (v : Word), s.boot.stepEight = true → w = s.wakeDeep →
    (400 ≤ bitsOf v.toNat 10 0 → bitsOf v.toNat 10 0 ≤ 1600 →
      exec (.registerWrite 0 0xA000 v) s = .next (State.resolveLevels { w with power := { w.power with capW := bitsOf v.toNat 10 0 } }) ∧
      exec (.registerWrite 0 0xA004 v) s = .next (State.resolveLevels { w with power := { w.power with shedDefault := bitsOf v.toNat 10 0 } }) ∧
      exec (.registerWrite 0 0xA008 v) s = .next (State.resolveLevels { w with power := { w.power with curtainW := bitsOf v.toNat 10 0 } })) ∧
    ((bitsOf v.toNat 10 0 < 400 ∨ 1600 < bitsOf v.toNat 10 0) →
      exec (.registerWrite 0 0xA000 v) s = .next w ∧ exec (.registerWrite 0 0xA004 v) s = .next w ∧
      exec (.registerWrite 0 0xA008 v) s = .next w) ∧
    (bitsOf v.toNat 4 0 ≤ 30 → exec (.registerWrite 0 0xB000 v) s =
      .next { w with thermal := { w.thermal with glycol := bitsOf v.toNat 4 0 } }) ∧
    (1 ≤ bitsOf v.toNat 6 0 → bitsOf v.toNat 6 0 ≤ 72 → exec (.registerWrite 0 0xC500 v) s =
      .next { w with mem := w.mem.repace s.now (bitsOf v.toNat 6 0) }) ∧
    (bitsOf v.toNat 6 0 = 0 ∨ 72 < bitsOf v.toNat 6 0 → exec (.registerWrite 0 0xC500 v) s = .next w) ∧
    (60 ≤ bitsOf v.toNat 11 0 → bitsOf v.toNat 11 0 ≤ 3600 → exec (.registerWrite 0 0xC504 v) s =
      .next { w with mem := { w.mem with recalS := bitsOf v.toNat 11 0 } }) ∧
    (bitsOf v.toNat 9 0 ≤ 1000 → exec (.registerWrite 0 0x7010 v) s =
      .next { w with health := { w.health with thresh := bitsOf v.toNat 9 0 } }) ∧
    exec (.registerWrite 0 0x9010 v) s =
      .next { w with fabric := { w.fabric with lockLoss := w.fabric.lockLoss &&& ~~~(BitVec.ofNat 26 v.toNat) } } ∧
    (∀ off, off ∈ [0x0, 0x4, 0x100, 0x1804, 0x2004, 0x3000, 0x6000, 0xA010, 0xC000, 0xD000] →
      exec (.registerWrite 0 off v) s = .next w)) ∧
  (∀ (s w : State) (p : Nat) (v : Word), s.boot.stepEight = true → w = s.wakeDeep → s.hasFn p = true → p < 16 → 0 < p →
    exec (.registerWrite p 0x300 v) s = .next w ∧
    ((s.part p).sec.resetting = true → ∀ off, off < 0x10000 → off % 4 = 0 → exec (.registerWrite p off v) s = .next w) ∧
    ((s.part p).sec.resetting = false →
      exec (.registerWrite p 0 v) s = .next (w.nudge p) ∧
      exec (.registerWrite p 0xC00 v) s = .next (w.onPart p (fun q => { q with actSel := bitsOf v.toNat 5 0 })) ∧
      (∀ q, q < 64 → exec (.registerWrite p (0x1000 + 32 * q) v) s = .next (w.onSq p q (fun r =>
        if r.st = .disabled then { r with base := r.base / 2 ^ 32 * 2 ^ 32 + v.toNat / 0x1000 * 0x1000 } else r))) ∧
      (∀ q, q < 64 → exec (.registerWrite p (0x1000 + 32 * q + 8) v) s = .next (w.writeSqCfg p q v.toNat)) ∧
      (∀ c, c < 16 → exec (.registerWrite p (0x1800 + 32 * c + 8) v) s = .next (w.writeCqCfg p c v.toNat)) ∧
      exec (.registerWrite p 0x1C v) s = .next (w.writeEvtCfg p v.toNat))) ∧
   (∀ (s w : State) (p off : Nat) (v : Word), s.boot.stepEight = true → w = s.wakeDeep → p < 16 → off < 0x10000 → off % 4 = 0 →
      (s.part p).sec.frozen = true → exec (.registerWrite 0 (0x100000 + 0x10000 * p + off) v) s = .next w)

/-- THE SEAL (R13, R453): once SEALED reads 1, no register write of any function changes what the seal locks: the pair's and
the link pair's configuration, and engineer mode; and no register write clears the seal. -/
def Obligations.SealLocksConfiguration : Prop :=
  ∀ (s t : State) (fn off : Nat) (v : Word), s.sec.sealed = true →
    exec (.registerWrite fn off v) s = .next t →
    t.sec.sealed = true ∧ t.mon.engineerEn = s.mon.engineerEn ∧ t.pair.enable = s.pair.enable ∧ t.pair.warm = s.pair.warm ∧
      t.pair.part = s.pair.part ∧ t.links.pairEn = s.links.pairEn ∧ t.links.pairPort = s.links.pairPort

/-- HANGS AND DUMPS (R500 to R506): a progress watchdog that expires on a unit with work, unexcused, declares a hang on the
unit that is to blame; a dump that is complete is written and the reset asserted; a reset is requested by HLT.RESET. -/
def Obligations.HangCommandsComplete : Prop :=
  (∀ (s : State) (h : HangReport) (f : Nat × Nat), h.unit < unitCount h.kind → f.2 < unitCount f.1 →
    f = (match (s.lostAt h).bind lockUnit with
      | some g => g
      | none => s.blame (h.kind, h.unit) (h.kind, h.unit) 8 h.waits) →
    (s.unit h.kind h.unit).seenAt + s.health.windowMs * 1000000 ≤ s.now → s.hasWork h.kind h.unit = true →
    s.excused h = false → (s.unit f.1 f.2).recov = .idle → (s.unit f.1 f.2).fenced = false →
    exec (.progressWatchdogExpiry h) s =
      .next ((s.declareHang f (s.hangCause h) (s.parentOf h)).progress h.kind h.unit)) ∧
  (∀ (s : State) (u f w : Nat × Nat) (b : Bool) (steps : Nat) (ws : List (Nat × Nat × Bool)), s.blame u f steps [] = f ∧
    s.blame u f (steps + 1) ((w.1, w.2, true) :: ws) = f ∧
    (s.moving w.1 w.2 = true → s.blame u f (steps + 1) ((w.1, w.2, b) :: ws) = f) ∧
    s.blame u f (steps + 1) ((u.1, u.2, false) :: ws) = f ∧
    (w ≠ u → s.moving w.1 w.2 = false → s.blame u f (steps + 1) ((w.1, w.2, false) :: ws) = s.blame u w steps ws)) ∧
  (∀ (s : State) (kind unit : Nat) (r : DumpRead), unit < unitCount kind → (s.unit kind unit).recov = .dumping →
    r.tiles.map Prod.fst = s.dumpTiles kind unit →
    exec (.dumpComplete kind unit r) s = .next ((s.writeDump kind unit r).assertReset kind unit)) ∧
  (∀ (s w : State) (v : Word) (kind unit : Nat), s.boot.stepEight = true → w = s.wakeDeep → v.toNat.testBit 31 = true →
    kind = bitsOf v.toNat 10 8 → unit = bitsOf v.toNat 5 0 → unit < unitCount kind →
    ((s.unit kind unit).fenced = false → exec (.hltResetWrite v) s = .next (w.requestReset kind unit 3 [] false false)) ∧
    ((s.unit kind unit).fenced = true → v.toNat.testBit 30 = true → kind ≠ 0 →
      exec (.hltResetWrite v) s = .next (w.requestReset kind unit 3 [] false true)) ∧
    ((s.unit kind unit).fenced = true → (v.toNat.testBit 30 = false ∨ kind = 0) → exec (.hltResetWrite v) s = .next w)) ∧
  (∀ (s : State) (t source : Nat) (hang : List Byte) (c b : Bool), (s.unit 0 t).recov = .idle → t < s.fabric.tiles.length →
    (s.tile t).st ≠ .fenced → ((s.requestReset 0 t source hang c b).tile t).st = .resetting) ∧
  (∀ (s : State) (kind unit source : Nat) (hang : List Byte) (c b : Bool), (s.unit kind unit).recov ≠ .idle →
    s.requestReset kind unit source hang c b = s)

/-- RECOVERIES AND CLOCKS (R499, R509, R510): a recovery that completes, one that is overdue, and a clock that loses lock. -/
def Obligations.RecoveryCommandsComplete : Prop :=
  (∀ (s : State) (kind unit : Nat) (r : RecoveryReport), unit < unitCount kind → (s.unit kind unit).recov = .recovering →
    (kind = 0 → (s.dom (domOfTile unit)).st = .run) →
    exec (.recoveryComplete kind unit r) s = .next (match clockOf kind unit with
      | some n => (s.recovered kind unit r.pass r.lost).relock n
      | none => s.recovered kind unit r.pass r.lost)) ∧
  (∀ (s u : State) (t : Nat), t < 64 → (s.unit 0 t).recov = .recovering → (s.unit 0 t).fenced = false →
    (s.unit 0 t).resetAt + 2 * (recoveryNs 0 t + (s.dom (domOfTile t)).st.wakeNs) ≤ s.now →
    u = (((s.onUnit 0 t (fun x => { x with recov := .idle, testing := false, cascade := false })).logOpen 14 0 t
      ((s.onUnit 0 t (fun x => { x with recov := .idle, testing := false, cascade := false })).tilePart t)).onTile t
        (fun x => { x with fencePending := none })).fenceTile t 3 →
    exec (.recoveryOverdue 0 t) s = .next ((s.tile t).part.toList.foldl (fun x p => x.faultPart p) u)) ∧
  (∀ (s : State) (n : Nat), n < 26 →
    exec (.clockLockLoss n) s = .next ((State.logOpen { s with fabric := { s.fabric with
      locked := s.fabric.locked &&& ~~~(BitVec.ofNat 26 (1 <<< n))
      lockLoss := s.fabric.lockLoss ||| BitVec.ofNat 26 (1 <<< n) } } 7 0xFF n 0xFF).lockAction n)) ∧
  (∀ s : State, s.lockAction 24 = s.relock 24 ∧ s.lockAction 19 = s.announceReset ∧
    s.lockAction 22 = s.restartSteward ∧ (s.host.up = false → s.lockAction 0 = s))

/-- CONTINUOUS SELF-TEST (R515 to R517): a striker round starts, passes and fails; a tile that is overdue; a memory test
slice. -/
def Obligations.SelfTestCommandsComplete : Prop :=
  (∀ (s : State) (t : Nat), s.testable t = true → (s.health.striker = true ∨ s.thermal.keepWarm = true ∨ (s.unit 0 t).queued = true) →
    ((s.tile t).st = .idle → exec (.strikerRoundStart t) s =
      .next (s.onUnit 0 t (fun u => { u with
        striking := true, queued := false, saved := some (s.mem.cells.read (winBase + t * 0x1000000 + 0x3C0000) 0x40000) }))) ∧
    ((s.tile t).st ≠ .idle → exec (.strikerRoundStart t) s =
      .next ((s.spoilPa (winBase + t * 0x1000000) 0x400000).onUnit 0 t (fun u => { u with
        striking := true, queued := false, saved := none })))) ∧
  (∀ (s : State) (t failed : Nat), t < 64 → (s.unit 0 t).striking = true →
    (failed % 64 = 0 → exec (.strikerRoundDone t failed) s = .next ((s.endRound t).onUnit 0 t (fun u =>
      { u with failRow := 0, passedAt := (s.endRound t).now, overdue := false }))) ∧
    (failed % 64 ≠ 0 → exec (.strikerRoundDone t failed) s =
      .next ((s.endRound t).roundFailed 0 t (lowestTest failed) (failed % 64)))) ∧
  (∀ (s : State) (t : Nat) (bs : List Byte), (s.unit 0 t).saved = some bs →
    (s.endRound t).mem = { s.mem with cells := s.mem.cells.write (winBase + t * 0x1000000 + 0x3C0000) bs }) ∧
  (∀ (s : State) (t : Nat), t < 64 → (s.unit 0 t).overdue = false → (s.unit 0 t).passedAt + 7 * dayNs ≤ s.now →
    exec (.strikerOverdue t) s = .next ((s.onUnit 0 t (fun u => { u with overdue := true })).raise 0 0x5A (toLe 1 t))) ∧
  (∀ (s : State) (i slice : Nat), i < 24 → (s.mem.port i).avail = true → (s.unit (portUnit i).1 (portUnit i).2).recov = .idle →
    s.sliceFree i slice = true →
    (∀ a, (s.unit (portUnit i).1 (portUnit i).2).testedAt = some a → a + 3600000000000 ≤ s.now) →
    ∃ t, t = s.onUnit (portUnit i).1 (portUnit i).2 (fun x => { x with testedAt := some s.now }) ∧
      exec (.memoryTestSlice i slice true) s = .next (t.onUnit (portUnit i).1 (portUnit i).2 (fun u =>
        { u with failRow := 0, passedAt := t.now, overdue := false })) ∧
      exec (.memoryTestSlice i slice false) s = .next (t.roundFailed (portUnit i).1 (portUnit i).2 7 0))

/-- SCORES, EXPULSION AND BACKGROUND TASKS (R518 to R520, R566 to R569).
SCORES LIE BETWEEN 0 AND 1,000 (R518): whatever has been counted against a unit. -/
def Obligations.HealthCommandsComplete : Prop :=
  (∀ s : State, exec .scoreRecompute s = .next (s.pruneHealth.reviewHealth false)) ∧
  (∀ s : State, s.pruneHealth.mem = s.mem ∧ s.pruneHealth.parts = s.parts ∧ s.pruneHealth.hostMem = s.hostMem ∧
    s.pruneHealth.health.log = s.health.log ∧ s.pruneHealth.now = s.now) ∧
  (∀ s w : State, s.boot.stepEight = true → s.health.expelThresh ≤ 1000 → w = s.wakeDeep → w.expelWhy = none →
    exec .expelClear s = .next { w with health := { w.health with expelled := false, expelCause := 0 } }) ∧
  (∀ (s : State) (c : Nat), s.boot.stepEight = true → s.health.expelThresh ≤ 1000 → s.wakeDeep.expelWhy = some c →
    s.health.expelled = true → ∃ t, exec .expelClear s = .next t ∧ t.health.expelled = true) ∧
  (∀ (s : State) (ms : Nat), (s.part 0).fetched = [] → exec (.flashWearLevel ms) s = .next { s with health := { s.health with
    wear := s.health.wear + 1, wearAt := s.now
    flashMs := if s.health.wearAt + dayNs ≤ s.now then satTo 16 (s.health.flashMs + ms) else s.health.flashMs } }) ∧
  (∀ (s : State) (d : Desc) (ms : Nat), d ∈ (s.part 0).fetched → d.op = 0x98 → d.startedAt.isSome = true →
    exec (.flashWearLevel ms) s = .next s) ∧
  (∀ (s : State) (us : Nat), ((∀ u ∈ s.health.units, u.recov ≠ .dumping) ∨ s.health.telemAt + 10000000000 ≤ s.now) →
    exec (.telemetrySweep us) s = .next { s with health := { s.health with
      telemAt := s.now
      telemUs := if s.health.telemAt + 10000000000 ≤ s.now then s.health.telemUs + Nat.min us 200 else s.health.telemUs } }) ∧
   (∀ (s : State), ∀ u ∈ s.rescore.health.units, u.score ≤ 1000)

/-- CYCLIC ACTS (R525 to R534): the start of a cycle and its skipping while lanes run, the comparison's two outcomes, and the
deadline of a cycle that owes its publication. -/
def Obligations.CycleCommandsComplete : Prop :=
  (∀ (s : State) (p n : Nat) (c : Cyclic), (s.act p n).cyc = some c → (s.act p n).st = .scheduled → c.start c.next ≤ s.now →
    c.left ≠ some 0 → c.periodUs ≠ 0 → (c.paired = true → s.pair.role = .active) → c.loading = false →
    (∀ k, c.running = some k → exec (.cycleStart p n) s =
      .next ((((s.onCyc p n (fun x => { x.counted with last := 4 })).countLate p n 2 c.next)).endCycle p n)) ∧
    (c.running = none → c.next < c.unskipped s → exec (.cycleStart p n) s =
      .next (((((List.range (c.unskipped s - c.next)).map (fun i => c.next + i)).foldl
        (fun (t : State) k => (t.onCyc p n (fun x => { x.counted with last := 4 })).countLate p n 2 k) s).publishHeld p n
          (c.unskipped s - 1)).endCycle p n)) ∧
    (c.running = none → c.unskipped s ≤ c.next → exec (.cycleStart p n) s =
      .next ((((s.snapshot p c).startLanes p n c).onAct p n (fun x => { x with cycles := x.cycles + 1 })).onCyc p n
        (fun x => { x.counted with running := some c.next, owed := some c.next, late := false, retried := false,
                                   holding := false })))) ∧
  (∀ (s : State) (p n k : Nat) (c : Cyclic), (s.act p n).cyc = some c → c.running = some k → s.actDescs p n = [] →
    (∀ dig, s.matched p n c = some dig → exec (.laneComplete p n) s = .next (s.laneMatch p n k c dig)) ∧
    (s.matched p n c = none → exec (.laneComplete p n) s = .next (s.laneMismatch p n k c))) ∧
  (∀ (s : State) (p n k : Nat) (c : Cyclic), (s.act p n).cyc = some c → c.owed = some k → c.deadline k ≤ s.now →
    c.paired = false → c.retried = true → c.running = none → exec (.cycleDeadline p n) s =
      .next (((s.publishHeld p n k).onCyc p n (fun x => { x with owed := none, last := 3, late := true })).endCycle p n)) ∧
  (∀ (s : State) (p n k : Nat) (c : Cyclic), (s.act p n).cyc = some c → c.owed = some k → c.deadline k ≤ s.now →
    c.paired = false → c.retried = false → exec (.cycleDeadline p n) s =
      .next ((((s.publishHeld p n k).onCyc p n (fun x => { x with owed := none, last := 2, late := true })).countLate p n 1 k).endCycle p n)) ∧
  (∀ (s : State) (c : Cyclic), (∀ a, s.host.stepAt = some a → a < c.start c.next) →
    c.unskipped s = s.now / (c.periodUs * 1000)) ∧
  (∀ c : Cyclic, ∀ k, c.deadline k = k * c.periodUs * 1000 + c.publishUs * 1000 ∧ c.start k = k * c.periodUs * 1000)

/-- LANES MUST AGREE (R530): the comparison matches only where every act descriptor of every lane completed well and the
digests of all lanes' outputs and state are equal. -/
def Obligations.LanesMatchOnlyWhenEqual : Prop :=
  ∀ (s : State) (p n : Nat) (c : Cyclic) (dig : List Byte), s.matched p n c = some dig →
    (∀ o ∈ (s.act p n).outs, statusGood o.status = true) ∧
    (s.act p n).outs.length = (s.act p n).count * c.lanes.length ∧
    (∀ o ∈ (s.act p n).outs, ∀ q ∈ (s.act p n).outs, o.idx = q.idx → o.cflags = q.cflags) ∧
    ∀ l ∈ c.lanes, ∃ r, s.laneRegions p c l = some r ∧ digestOf r = dig

/-- THE PAIR (R535 to R541, R544): roles and claims, the partner line, rearming and handover, the loading of state, and the
copies of warm mode.
THE GATE (R536): with the own line deasserted or the partner line asserted a paired act publishes nothing. -/
def Obligations.PairCommandsComplete : Prop :=
  (∀ (s w : State) (v : Word), s.boot.stepEight = true → w = s.wakeDeep →
    (s.sec.sealed = true → exec (.pairCfgWrite v) s = .next w) ∧
    (s.sec.sealed = false → v.toNat.testBit 31 = true → v.toNat.testBit 30 = false → s.pair.enable = false →
      exec (.pairCfgWrite v) s = .next { w with pair := { w.pair with
        enable := true, warm := false, part := bitsOf v.toNat 19 16, role := .standby } })) ∧
  (∀ s : State, s.readyToClaim = true → s.pair.notBefore ≤ s.now →
    exec .claimStart s = .next { s with pair := { s.pair with partner := false, role := .claiming, own := true, claimAt := s.now } }) ∧
  (∀ s : State, s.pair.role = .claiming → s.pair.claimAt + 100000 ≤ s.now →
    (s.pair.partner = true → exec .claimCheck s = .next (State.pairEvent { s with pair := { s.pair with
      role := .standby, own := false, collisions := satTo 16 (s.pair.collisions + 1)
      notBefore := s.now + (if s.position % 2 = 0 then 2000000 else 6000000) } } 0x75 (toLe 1 1))) ∧
    (s.pair.partner = false → ∃ t, exec .claimCheck s = .next t ∧ t.pair.role = .active ∧
      t.pair.takeovers = satTo 16 (s.pair.takeovers + 1) ∧ t.pair.own = s.pair.own ∧ t.mem = s.mem)) ∧
  (∀ s : State, s.pair.role ≠ .active → exec .partnerLineAssert s =
    .next { s with pair := { s.pair with partner := true, partnerSeen := true } }) ∧
  (∀ s : State, s.pair.role = .active → ∃ t, exec .partnerLineAssert s = .next t ∧ t.pair.role = .standby ∧ t.pair.own = false ∧
    t.pair.collisions = satTo 16 (s.pair.collisions + 1) ∧ t.pair.partner = true) ∧
  (∀ s w : State, s.boot.stepEight = true → w = s.wakeDeep →
    (s.pair.role = .failed → exec .pairRearm s = .next { w with pair := { w.pair with role := .standby } }) ∧
    (s.pair.role ≠ .failed → exec .pairRearm s = .next w)) ∧
  (∀ s w : State, s.boot.stepEight = true → w = s.wakeDeep → s.pair.role = .active →
    exec .pairHandover s = .next ((w.standDown 1).idlePaired)) ∧
  (∀ (s t : State) (n past : Nat) (c : Cyclic) (a b img : HostRead), (s.act s.pair.part n).cyc = some c → c.loading = true →
    c.paired = true → s.pair.role = .active → s.host.up = true → (∀ r ∈ [a, b, img], readFails r = false) → imageOf img = none →
    past = (if s.now < c.publishUs * 1000 ∨ c.periodUs = 0 then 0 else (s.now - c.publishUs * 1000) / (c.periodUs * 1000)) →
    t = s.publishHeld s.pair.part n (Nat.max (c.pubCycle + 1) past) → (t.pair.warm = false ∨ c.warm = none) →
    (newerSave (saveOk (regionLen c.regions [4]) a) (saveOk (regionLen c.regions [4]) b) = none →
      exec (.stateLoaded n a b img) s = .next ((t.onCyc s.pair.part n (fun x => { x with
        loading := false, miss := false, stateFrom := none, next := x.firstAfter t.now })).actEvent s.pair.part n 0x76 2
          (2 ^ 64 - 1))) ∧
    (∀ k st u, newerSave (saveOk (regionLen c.regions [4]) a) (saveOk (regionLen c.regions [4]) b) = some (k, st) →
      u = t.layState s.pair.part c.lanes false (c.entries 4) st →
      exec (.stateLoaded n a b img) s = .next ((u.onCyc s.pair.part n (fun x => { x with
          loading := false, miss := false, stateFrom := some k, next := x.firstAfter u.now })).actEvent s.pair.part n 0x76 0 k))) ∧
  (∀ a b : Nat × List Byte, newerSave (some a) (some b) = if a.1 < b.1 then some b else some a) ∧
  (∀ (s t : State) (n : Nat) (c : Cyclic) (m : List Byte), s.pair.warm = true → s.pair.role ≠ .active → n = byteAt m 0 →
    (s.act s.pair.part n).cyc = some c → c.paired = true → 32 ≤ m.length →
    t = (if c.copying.isSome then { s with pair := { s.pair with copiesLost := s.pair.copiesLost + 1 } } else s) →
    exec (.stateCopyReceive m true false) s =
      .next ((t.onCyc s.pair.part n (fun x => { x with
        copying := some (fieldAt m 8 8, fieldAt m 4 4, sliceOf m 16 16, []) })).takeCopy s.pair.part n
          { c with copying := some (fieldAt m 8 8, fieldAt m 4 4, sliceOf m 16 16, []) } (m.drop 32) false)) ∧
   (∀ (s : State) (p n k : Nat) (c : Cyclic) (held : Bool) (img : Nat × List Byte × Nat × List Byte),
      (s.act p n).cyc = some c → c.paired = true → (s.pair.own = false ∨ s.pair.partner = true) →
      (s.publish p n k held img).1 = s)

/-- SAVED STATE (R540, R541): a save slot that the model writes passes the checks of its load, and gives its cycle and state
(the digest that a slot carries is the model's reading, notes/assumptions/20.md). -/
def Obligations.SaveSlotLoads : Prop :=
  ∀ (k : Nat) (st : List Byte), k < 2 ^ 64 → st.length < 2 ^ 32 → saveOk st.length (.data (saveSlot k st)) = some (k, st)

/-- ENGINE AND HUB (R250): an engine-run opcode must name an engine 0 to 63, a hub-run one must carry 0xFF, COPY and FILL may do
either; the wrong kind of value completes with BAD_DESCRIPTOR. -/
def Obligations.EngineFieldChecked : Prop :=
  (∀ (inAct : Bool) (bs : List Byte) (op eng : Nat), op = byteAt bs 0 → eng = byteAt bs 2 →
    ((op ∈ [0x10, 0x11, 0x12, 0x13, 0x14, 0x15, 0x16, 0x17, 0x18, 0x1B, 0x40, 0x41, 0x42, 0x43, 0x44, 0x45, 0x46, 0x50, 0x51,
        0x52, 0x60, 0x61, 0x62, 0x63, 0x64] ∧ 64 ≤ eng) ∨
      (op ∈ [0x00, 0x01, 0x02, 0x03, 0x04, 0x05, 0x06, 0x07, 0x53, 0x6F, 0x70, 0x71, 0x72, 0x73, 0x74, 0x75, 0x80, 0x81, 0x82,
        0x90, 0x91, 0x92, 0x93, 0x94, 0x95, 0x96, 0x97, 0x98, 0x99] ∧ eng ≠ 0xFF) ∨
      (op ∈ [0x19, 0x1A] ∧ 64 ≤ eng ∧ eng ≠ 0xFF)) →
    ∃ x, staticFail inAct bs = some (.status 0x11 x)) ∧
  (∀ (inAct : Bool) (bs : List Byte) (info : OpInfo), opInfo (byteAt bs 0) = some info →
    ((info.on = .engine ∧ byteAt bs 2 < 64) ∨ (info.on = .hub ∧ byteAt bs 2 = 0xFF) ∨
      (info.on = .either ∧ (byteAt bs 2 < 64 ∨ byteAt bs 2 = 0xFF))) →
    (true, 2) ∉ headerBad inAct info bs) ∧
  (∀ (s : State) (r : DescRef) (d : Desc) (x failed : Nat) (h : HostRead) (peers : List RankMsg)
    (chunks : List (List Byte)) (c : Instr) (mine : Desc → Bool),
    (c, mine) ∈
     [(Instr.nop r, isOp 0x00), (.barrier r, isOp 0x01), (.fence r, isOp 0x02), (.eventSignal r, isOp 0x03),
      (.eventWait r, isOp 0x04), (.timerWait r, isOp 0x05), (.actRun r, isOp 0x06), (.actStop r, isOp 0x07), (.matmul r, isOp 0x10),
      (.conv r, isOp 0x11), (.eltwise r, isOp 0x12), (.reduce r, isOp 0x13), (.norm r, isOp 0x14), (.softmax r, isOp 0x15),
      (.convert r, isOp 0x16), (.gather r, isOp 0x17), (.scatter r, isOp 0x18), (.copy r h, isOp 0x19), (.fill r, isOp 0x1A),
      (.digest r, isOp 0x1B)] ++
     [(Instr.attend r, isOp 0x40), (.kvAppend r, isOp 0x41), (.kvLookup r, isOp 0x42), (.kvPark r, isOp 0x43),
      (.kvResume r, isOp 0x44), (.kvFreeSeq r, isKvFree 0), (.kvFreeAll r, isKvFree 1), (.kvFreeFormat r, isKvFree 2),
      (.kvFreeDetach r, isKvFree 3), (.kvFreeRehash r, isKvFree 4), (.kvCopy r, isOp 0x46), (.step r, isOp 0x50), (.sample r, isOp 0x51),
      (.verify r, isOp 0x52), (.cancel r, isOp 0x53), (.allReduce r peers, isOp 0x60), (.reduceScatter r peers, isOp 0x61),
      (.allGather r peers, isOp 0x62), (.allToAll r peers, isOp 0x63), (.broadcast r peers, isOp 0x64), (.groupSet r, isOp 0x6F)] ++
     [(Instr.streamOpen r, isOp 0x70), (.streamClose r, isOp 0x71), (.decode r, isOp 0x72), (.encode r, isOp 0x73), (.scale r, isOp 0x74),
      (.resultFrame r, isOp 0x75), (.checkpoint r, isOp 0x80), (.restore r h, isOp 0x81), (.stepCommit r, isCommit false),
      (.stepCommitEndJob r, isCommit true), (.partConfig r, isOp 0x90), (.partStateAdmit r, isAction 1), (.partStateRun r, isAction 2),
      (.partStateQuiesce r, isAction 3), (.partStateReset r, isAction 4), (.partStateUnconfigure r, isAction 5)] ++
     [(Instr.memGrant r, isOp 0x92), (.memRelease r, isOp 0x93), (.engineConfig r, isOp 0x94), (.engineRelease r, isOp 0x95),
      (.tileFence r, fun y => isOp 0x96 y && y.fld 17 1 != 0), (.tileUnfence r failed, fun y => isOp 0x96 y && y.fld 17 1 == 0),
      (.keyOpRotate r, isKeyOp 1), (.keyOpRetire r, isKeyOp 2), (.keyOpClearRetired r, isKeyOp 3), (.keyOpBindLoad r, isKeyOp 4),
      (.keyOpWeightLoad r chunks, isKeyOp 5), (.keyOpContentDrop r, isKeyOp 6), (.fwStage r h, isOp 0x98), (.fwActivate r, isOp 0x99)] →
    s.desc? r.part r.num = some d → mine d = true → d.startedAt = none → s.mayStart r.part d = true → d.chain = false →
    (s.part r.part).running = [] → staticFail d.act.isSome d.bytes = some (.status 0x11 x) →
    exec c s = .next (s.failDesc r.part d (.status 0x11 x)))

/-- THE DEVICE PHYSICAL MAP (R197): stacked DRAM, the bulk tier, the scratchpad windows and the ranges marked None, to which a
transaction is refused; what is granted is a granule of 1 GiB, and a window follows its tile. -/
def Obligations.DevicePhysicalMapHolds : Prop :=
  (∀ pa, pa ≤ 0x23FFFFFFFF → placeOf pa = .stacked (pa / 0x40000000) (pa % 0x40000000)) ∧
  (∀ pa, 0x2400000000 ≤ pa → pa ≤ 0x3FFFFFFFFF → placeOf pa = .none) ∧
  (∀ pa, 0x4000000000 ≤ pa → pa ≤ 0x99FFFFFFFF →
    placeOf pa = .bulk ((pa - 0x4000000000) / 0x40000000) ((pa - 0x4000000000) % 0x40000000)) ∧
  (∀ pa, 0x9A00000000 ≤ pa → pa ≤ 0xEFFFFFFFFF → placeOf pa = .none) ∧
  (∀ t o, t < 64 → o < 0x1000000 →
    placeOf (0xF000000000 + t * 0x1000000 + o) = if o < 0x400000 then .window t o else .none) ∧
  (∀ pa, 0xF040000000 ≤ pa → placeOf pa = .none) ∧
  (∀ (s : State) (p pa : Nat), p < 16 → pa ≤ 0x23FFFFFFFF →
    (s.admits p pa = true ↔ (s.mem.grans.getD (pa / 0x40000000) {}).owner = p)) ∧
  (∀ (s : State) (p pa : Nat), p < 16 → 0x4000000000 ≤ pa → pa ≤ 0x99FFFFFFFF →
    (s.admits p pa = true ↔ (s.mem.bulk.getD ((pa - 0x4000000000) / 0x40000000) {}).owner = p)) ∧
  (∀ (s : State) (p t o : Nat), p < 16 → t < 64 → o < 0x400000 →
    (s.admits p (0xF000000000 + t * 0x1000000 + o) = true ↔ (s.tile t).part = some p)) ∧
  (∀ (s : State) (r : TxnReq) (t : Txn), txnOk r = true → r.virt = false → r.dims = [] → placeOf r.addr = .none →
    (s.translateReq r r.addr r.data).2 = some t → s.mem.mayIssue t = true →
    (∀ a, r.src = some a → (s.tile a).part = some r.tag) →
    exec (.meshTransactionIssue r) s =
      .next ((s.raisePf r.tag 0x43 (toLe 5 r.addr ++ toLe 1 r.tag ++ toLe 1 (srcCode r.src))).deliver
        { t with data := [], refused := true }))

/-- A CQ IN ERROR (R244): every live SQ bound to it enters ERROR with cause CQ_ERR, the CQ with its own cause, and no other
ring changes. -/
def Obligations.CqErrorReachesItsSqs : Prop :=
  ∀ (s : State) (p c cause : Nat), (s.cq p c).st.live = true →
    ((s.cqError p c cause).cq p c = { s.cq p c with st := .error, errCode := cause }) ∧
    (∀ q, q < 64 → (s.sq p q).cq = c → (s.sq p q).st.live = true →
      (s.cqError p c cause).sq p q = { s.sq p q with st := .error, errCode := 0x06 }) ∧
    (∀ q, ((s.sq p q).cq ≠ c ∨ (s.sq p q).st.live = false) → (s.cqError p c cause).sq p q = s.sq p q) ∧
    (∀ x, x ≠ c → (s.cqError p c cause).cq p x = s.cq p x) ∧
    (∀ x, x ≠ p → x ≠ 0 → (s.cqError p c cause).part x = s.part x)

/-- MEMORY (the model's byte memory in canonical form): what is written reads back, nothing else changes, and two memories that
read alike are equal data. -/
def Obligations.MemoryReadsBack : Prop :=
  (∀ (m : Cells) (a x : Nat) (b : Byte), m.wf = true → (m.set a b).get x = if x = a then b else m.get x) ∧
  (∀ (m : Cells) (a x : Nat) (bs : List Byte), m.wf = true →
    (m.write a bs).get x = if a ≤ x ∧ x < a + bs.length then bs.getD (x - a) 0#8 else m.get x) ∧
  (∀ (m : Cells) (a : Nat) (bs : List Byte), m.wf = true → (m.write a bs).read a bs.length = bs) ∧
  (∀ (m : Cells) (lo hi x : Nat), m.wf = true → (m.clear lo hi).get x = if lo ≤ x ∧ x < hi then 0#8 else m.get x) ∧
  (∀ m n : Cells, m.wf = true → n.wf = true → (∀ a, m.get a = n.get a) → m = n)

/-- A STEP RUNS THE COMMAND IN FRONT: step of a state with a command at the front of its queue is exec of that command on the
state with the queue's rest. With none waiting module time moves on by 1 ns (the model's choice, notes/assumptions/2.md), except while
PTM steering slews it (R217); nothing is queued, and a module with no slew, whose rails are where they are to be and whose link ports are all
short of UP, changes in nothing else. -/
def Obligations.StepRunsTheFrontCommand : Prop :=
  (∀ (s : State) (c : Instr) (cs : List Instr), s.pending = c :: cs → step s = exec c { s with pending := cs }) ∧
  (∀ s : State, s.pending = [] → ∃ t, step s = .next t ∧ t.pending = [] ∧ s.now ≤ t.now) ∧
  (∀ s : State, s.pending = [] → s.host.slew = 0 → (∀ i, i < 12 → s.power.rails.getD i .off = if s.railWanted i then .good else .off) →
    (∀ p, p ∈ s.links.ports → p.st ≠ .up) → step s = .next { s with now := s.now + 1 })

/-- RESET (R10, R246, R247, R581, R583): what the register index gives the module as it leaves OFF: registers read their reset
values, every partition is UNCONFIGURED, every ring DISABLED, and nothing waits. -/
def Obligations.ResetLeavesResetValues : Prop :=
  State.reset.boot.st = .guardBoot ∧ State.reset.now = 0 ∧ State.reset.pending = [] ∧ State.reset.mem.cells = [] ∧
  State.reset.hostMem = [] ∧ State.reset.host.up = false ∧ State.reset.pair.role = .off ∧ State.reset.sec.sealed = false ∧
  (∀ p, p < 16 → (State.reset.part p).sec.st = .unconfigured ∧ (State.reset.part p).fetched = [] ∧
    (State.reset.part p).host.evt.st = .disabled ∧ (State.reset.part p).host.dbValid = false ∧
    (∀ q, q < 64 → (State.reset.sq p q).st = .disabled) ∧ (∀ c, c < 16 → (State.reset.cq p c).st = .disabled) ∧
    (∀ n, n < 256 → State.reset.counter p n = 0#64) ∧ (∀ n, n < 64 → (State.reset.act p n).st = .free)) ∧
  (∀ q, q < 64 → State.reset.readPage 3 (0x1000 + 0x20 * q + 8) = 0x00060011) ∧
  (∀ c, c < 16 → State.reset.readPage 3 (0x1800 + 0x20 * c + 8) = 0x00060000 ∧
    State.reset.readPage 3 (0x1800 + 0x20 * c + 0x10) = 0x00010000) ∧
  State.reset.readPage 3 0x1C = 0x20060000 ∧ State.reset.readOwn 0x1800 = 0xE0000000

/-- THE INVARIANT HOLDS AT RESET: the memories after reset are in canonical form. -/
def Obligations.ResetMeetsTheInvariant : Prop := State.reset.Inv

/-- EVERY STEP KEEPS THE INVARIANT: from any state whose device memory and host memory are in canonical form, whatever command
stands in front, the next state's memories are in canonical form. -/
def Obligations.StepKeepsTheInvariant : Prop :=
  ∀ s t : State, s.Inv → step s = .next t → t.Inv
end

