-- ==== Sys2Proof/Laws/State.lean ====
section
/-! SUPPORT. What each named update of the state leaves as it was: one lemma for each field, true by unfolding. -/

namespace Sys2Proof.Machine

variable (s : State)

/-! `State.onPart` -/

@[simp] theorem State.onPart_now (p : Nat) (f : Part → Part) : (s.onPart p f).now = s.now := rfl
@[simp] theorem State.onPart_fresh (p : Nat) (f : Part → Part) : (s.onPart p f).fresh = s.fresh := rfl
@[simp] theorem State.onPart_racing (p : Nat) (f : Part → Part) : (s.onPart p f).racing = s.racing := rfl
@[simp] theorem State.onPart_boot (p : Nat) (f : Part → Part) : (s.onPart p f).boot = s.boot := rfl
@[simp] theorem State.onPart_power (p : Nat) (f : Part → Part) : (s.onPart p f).power = s.power := rfl
@[simp] theorem State.onPart_thermal (p : Nat) (f : Part → Part) : (s.onPart p f).thermal = s.thermal := rfl
@[simp] theorem State.onPart_fabric (p : Nat) (f : Part → Part) : (s.onPart p f).fabric = s.fabric := rfl
@[simp] theorem State.onPart_mem (p : Nat) (f : Part → Part) : (s.onPart p f).mem = s.mem := rfl
@[simp] theorem State.onPart_host (p : Nat) (f : Part → Part) : (s.onPart p f).host = s.host := rfl
@[simp] theorem State.onPart_sec (p : Nat) (f : Part → Part) : (s.onPart p f).sec = s.sec := rfl
@[simp] theorem State.onPart_health (p : Nat) (f : Part → Part) : (s.onPart p f).health = s.health := rfl
@[simp] theorem State.onPart_links (p : Nat) (f : Part → Part) : (s.onPart p f).links = s.links := rfl
@[simp] theorem State.onPart_field (p : Nat) (f : Part → Part) : (s.onPart p f).field = s.field := rfl
@[simp] theorem State.onPart_video (p : Nat) (f : Part → Part) : (s.onPart p f).video = s.video := rfl
@[simp] theorem State.onPart_mon (p : Nat) (f : Part → Part) : (s.onPart p f).mon = s.mon := rfl
@[simp] theorem State.onPart_pair (p : Nat) (f : Part → Part) : (s.onPart p f).pair = s.pair := rfl
@[simp] theorem State.onPart_hostMem (p : Nat) (f : Part → Part) : (s.onPart p f).hostMem = s.hostMem := rfl
@[simp] theorem State.onPart_pending (p : Nat) (f : Part → Part) : (s.onPart p f).pending = s.pending := rfl

/-! `State.onHost` -/

@[simp] theorem State.onHost_now (p : Nat) (f : PartHost → PartHost) : (s.onHost p f).now = s.now := rfl
@[simp] theorem State.onHost_fresh (p : Nat) (f : PartHost → PartHost) : (s.onHost p f).fresh = s.fresh := rfl
@[simp] theorem State.onHost_racing (p : Nat) (f : PartHost → PartHost) : (s.onHost p f).racing = s.racing := rfl
@[simp] theorem State.onHost_boot (p : Nat) (f : PartHost → PartHost) : (s.onHost p f).boot = s.boot := rfl
@[simp] theorem State.onHost_power (p : Nat) (f : PartHost → PartHost) : (s.onHost p f).power = s.power := rfl
@[simp] theorem State.onHost_thermal (p : Nat) (f : PartHost → PartHost) : (s.onHost p f).thermal = s.thermal := rfl
@[simp] theorem State.onHost_fabric (p : Nat) (f : PartHost → PartHost) : (s.onHost p f).fabric = s.fabric := rfl
@[simp] theorem State.onHost_mem (p : Nat) (f : PartHost → PartHost) : (s.onHost p f).mem = s.mem := rfl
@[simp] theorem State.onHost_host (p : Nat) (f : PartHost → PartHost) : (s.onHost p f).host = s.host := rfl
@[simp] theorem State.onHost_sec (p : Nat) (f : PartHost → PartHost) : (s.onHost p f).sec = s.sec := rfl
@[simp] theorem State.onHost_health (p : Nat) (f : PartHost → PartHost) : (s.onHost p f).health = s.health := rfl
@[simp] theorem State.onHost_links (p : Nat) (f : PartHost → PartHost) : (s.onHost p f).links = s.links := rfl
@[simp] theorem State.onHost_field (p : Nat) (f : PartHost → PartHost) : (s.onHost p f).field = s.field := rfl
@[simp] theorem State.onHost_video (p : Nat) (f : PartHost → PartHost) : (s.onHost p f).video = s.video := rfl
@[simp] theorem State.onHost_mon (p : Nat) (f : PartHost → PartHost) : (s.onHost p f).mon = s.mon := rfl
@[simp] theorem State.onHost_pair (p : Nat) (f : PartHost → PartHost) : (s.onHost p f).pair = s.pair := rfl
@[simp] theorem State.onHost_hostMem (p : Nat) (f : PartHost → PartHost) : (s.onHost p f).hostMem = s.hostMem := rfl
@[simp] theorem State.onHost_pending (p : Nat) (f : PartHost → PartHost) : (s.onHost p f).pending = s.pending := rfl

/-! `State.onSec` -/

@[simp] theorem State.onSec_now (p : Nat) (f : PartSec → PartSec) : (s.onSec p f).now = s.now := rfl
@[simp] theorem State.onSec_fresh (p : Nat) (f : PartSec → PartSec) : (s.onSec p f).fresh = s.fresh := rfl
@[simp] theorem State.onSec_racing (p : Nat) (f : PartSec → PartSec) : (s.onSec p f).racing = s.racing := rfl
@[simp] theorem State.onSec_boot (p : Nat) (f : PartSec → PartSec) : (s.onSec p f).boot = s.boot := rfl
@[simp] theorem State.onSec_power (p : Nat) (f : PartSec → PartSec) : (s.onSec p f).power = s.power := rfl
@[simp] theorem State.onSec_thermal (p : Nat) (f : PartSec → PartSec) : (s.onSec p f).thermal = s.thermal := rfl
@[simp] theorem State.onSec_fabric (p : Nat) (f : PartSec → PartSec) : (s.onSec p f).fabric = s.fabric := rfl
@[simp] theorem State.onSec_mem (p : Nat) (f : PartSec → PartSec) : (s.onSec p f).mem = s.mem := rfl
@[simp] theorem State.onSec_host (p : Nat) (f : PartSec → PartSec) : (s.onSec p f).host = s.host := rfl
@[simp] theorem State.onSec_sec (p : Nat) (f : PartSec → PartSec) : (s.onSec p f).sec = s.sec := rfl
@[simp] theorem State.onSec_health (p : Nat) (f : PartSec → PartSec) : (s.onSec p f).health = s.health := rfl
@[simp] theorem State.onSec_links (p : Nat) (f : PartSec → PartSec) : (s.onSec p f).links = s.links := rfl
@[simp] theorem State.onSec_field (p : Nat) (f : PartSec → PartSec) : (s.onSec p f).field = s.field := rfl
@[simp] theorem State.onSec_video (p : Nat) (f : PartSec → PartSec) : (s.onSec p f).video = s.video := rfl
@[simp] theorem State.onSec_mon (p : Nat) (f : PartSec → PartSec) : (s.onSec p f).mon = s.mon := rfl
@[simp] theorem State.onSec_pair (p : Nat) (f : PartSec → PartSec) : (s.onSec p f).pair = s.pair := rfl
@[simp] theorem State.onSec_hostMem (p : Nat) (f : PartSec → PartSec) : (s.onSec p f).hostMem = s.hostMem := rfl
@[simp] theorem State.onSec_pending (p : Nat) (f : PartSec → PartSec) : (s.onSec p f).pending = s.pending := rfl

/-! `State.onEvt` -/

@[simp] theorem State.onEvt_now (p : Nat) (f : EvtRing → EvtRing) : (s.onEvt p f).now = s.now := rfl
@[simp] theorem State.onEvt_fresh (p : Nat) (f : EvtRing → EvtRing) : (s.onEvt p f).fresh = s.fresh := rfl
@[simp] theorem State.onEvt_racing (p : Nat) (f : EvtRing → EvtRing) : (s.onEvt p f).racing = s.racing := rfl
@[simp] theorem State.onEvt_boot (p : Nat) (f : EvtRing → EvtRing) : (s.onEvt p f).boot = s.boot := rfl
@[simp] theorem State.onEvt_power (p : Nat) (f : EvtRing → EvtRing) : (s.onEvt p f).power = s.power := rfl
@[simp] theorem State.onEvt_thermal (p : Nat) (f : EvtRing → EvtRing) : (s.onEvt p f).thermal = s.thermal := rfl
@[simp] theorem State.onEvt_fabric (p : Nat) (f : EvtRing → EvtRing) : (s.onEvt p f).fabric = s.fabric := rfl
@[simp] theorem State.onEvt_mem (p : Nat) (f : EvtRing → EvtRing) : (s.onEvt p f).mem = s.mem := rfl
@[simp] theorem State.onEvt_host (p : Nat) (f : EvtRing → EvtRing) : (s.onEvt p f).host = s.host := rfl
@[simp] theorem State.onEvt_sec (p : Nat) (f : EvtRing → EvtRing) : (s.onEvt p f).sec = s.sec := rfl
@[simp] theorem State.onEvt_health (p : Nat) (f : EvtRing → EvtRing) : (s.onEvt p f).health = s.health := rfl
@[simp] theorem State.onEvt_links (p : Nat) (f : EvtRing → EvtRing) : (s.onEvt p f).links = s.links := rfl
@[simp] theorem State.onEvt_field (p : Nat) (f : EvtRing → EvtRing) : (s.onEvt p f).field = s.field := rfl
@[simp] theorem State.onEvt_video (p : Nat) (f : EvtRing → EvtRing) : (s.onEvt p f).video = s.video := rfl
@[simp] theorem State.onEvt_mon (p : Nat) (f : EvtRing → EvtRing) : (s.onEvt p f).mon = s.mon := rfl
@[simp] theorem State.onEvt_pair (p : Nat) (f : EvtRing → EvtRing) : (s.onEvt p f).pair = s.pair := rfl
@[simp] theorem State.onEvt_hostMem (p : Nat) (f : EvtRing → EvtRing) : (s.onEvt p f).hostMem = s.hostMem := rfl
@[simp] theorem State.onEvt_pending (p : Nat) (f : EvtRing → EvtRing) : (s.onEvt p f).pending = s.pending := rfl

/-! `State.onSq` -/

@[simp] theorem State.onSq_now (p q : Nat) (f : Sq → Sq) : (s.onSq p q f).now = s.now := rfl
@[simp] theorem State.onSq_fresh (p q : Nat) (f : Sq → Sq) : (s.onSq p q f).fresh = s.fresh := rfl
@[simp] theorem State.onSq_racing (p q : Nat) (f : Sq → Sq) : (s.onSq p q f).racing = s.racing := rfl
@[simp] theorem State.onSq_boot (p q : Nat) (f : Sq → Sq) : (s.onSq p q f).boot = s.boot := rfl
@[simp] theorem State.onSq_power (p q : Nat) (f : Sq → Sq) : (s.onSq p q f).power = s.power := rfl
@[simp] theorem State.onSq_thermal (p q : Nat) (f : Sq → Sq) : (s.onSq p q f).thermal = s.thermal := rfl
@[simp] theorem State.onSq_fabric (p q : Nat) (f : Sq → Sq) : (s.onSq p q f).fabric = s.fabric := rfl
@[simp] theorem State.onSq_mem (p q : Nat) (f : Sq → Sq) : (s.onSq p q f).mem = s.mem := rfl
@[simp] theorem State.onSq_host (p q : Nat) (f : Sq → Sq) : (s.onSq p q f).host = s.host := rfl
@[simp] theorem State.onSq_sec (p q : Nat) (f : Sq → Sq) : (s.onSq p q f).sec = s.sec := rfl
@[simp] theorem State.onSq_health (p q : Nat) (f : Sq → Sq) : (s.onSq p q f).health = s.health := rfl
@[simp] theorem State.onSq_links (p q : Nat) (f : Sq → Sq) : (s.onSq p q f).links = s.links := rfl
@[simp] theorem State.onSq_field (p q : Nat) (f : Sq → Sq) : (s.onSq p q f).field = s.field := rfl
@[simp] theorem State.onSq_video (p q : Nat) (f : Sq → Sq) : (s.onSq p q f).video = s.video := rfl
@[simp] theorem State.onSq_mon (p q : Nat) (f : Sq → Sq) : (s.onSq p q f).mon = s.mon := rfl
@[simp] theorem State.onSq_pair (p q : Nat) (f : Sq → Sq) : (s.onSq p q f).pair = s.pair := rfl
@[simp] theorem State.onSq_hostMem (p q : Nat) (f : Sq → Sq) : (s.onSq p q f).hostMem = s.hostMem := rfl
@[simp] theorem State.onSq_pending (p q : Nat) (f : Sq → Sq) : (s.onSq p q f).pending = s.pending := rfl

/-! `State.onCq` -/

@[simp] theorem State.onCq_now (p c : Nat) (f : Cq → Cq) : (s.onCq p c f).now = s.now := rfl
@[simp] theorem State.onCq_fresh (p c : Nat) (f : Cq → Cq) : (s.onCq p c f).fresh = s.fresh := rfl
@[simp] theorem State.onCq_racing (p c : Nat) (f : Cq → Cq) : (s.onCq p c f).racing = s.racing := rfl
@[simp] theorem State.onCq_boot (p c : Nat) (f : Cq → Cq) : (s.onCq p c f).boot = s.boot := rfl
@[simp] theorem State.onCq_power (p c : Nat) (f : Cq → Cq) : (s.onCq p c f).power = s.power := rfl
@[simp] theorem State.onCq_thermal (p c : Nat) (f : Cq → Cq) : (s.onCq p c f).thermal = s.thermal := rfl
@[simp] theorem State.onCq_fabric (p c : Nat) (f : Cq → Cq) : (s.onCq p c f).fabric = s.fabric := rfl
@[simp] theorem State.onCq_mem (p c : Nat) (f : Cq → Cq) : (s.onCq p c f).mem = s.mem := rfl
@[simp] theorem State.onCq_host (p c : Nat) (f : Cq → Cq) : (s.onCq p c f).host = s.host := rfl
@[simp] theorem State.onCq_sec (p c : Nat) (f : Cq → Cq) : (s.onCq p c f).sec = s.sec := rfl
@[simp] theorem State.onCq_health (p c : Nat) (f : Cq → Cq) : (s.onCq p c f).health = s.health := rfl
@[simp] theorem State.onCq_links (p c : Nat) (f : Cq → Cq) : (s.onCq p c f).links = s.links := rfl
@[simp] theorem State.onCq_field (p c : Nat) (f : Cq → Cq) : (s.onCq p c f).field = s.field := rfl
@[simp] theorem State.onCq_video (p c : Nat) (f : Cq → Cq) : (s.onCq p c f).video = s.video := rfl
@[simp] theorem State.onCq_mon (p c : Nat) (f : Cq → Cq) : (s.onCq p c f).mon = s.mon := rfl
@[simp] theorem State.onCq_pair (p c : Nat) (f : Cq → Cq) : (s.onCq p c f).pair = s.pair := rfl
@[simp] theorem State.onCq_hostMem (p c : Nat) (f : Cq → Cq) : (s.onCq p c f).hostMem = s.hostMem := rfl
@[simp] theorem State.onCq_pending (p c : Nat) (f : Cq → Cq) : (s.onCq p c f).pending = s.pending := rfl

/-! `State.onAct` -/

@[simp] theorem State.onAct_now (p n : Nat) (f : ActSlot → ActSlot) : (s.onAct p n f).now = s.now := rfl
@[simp] theorem State.onAct_fresh (p n : Nat) (f : ActSlot → ActSlot) : (s.onAct p n f).fresh = s.fresh := rfl
@[simp] theorem State.onAct_racing (p n : Nat) (f : ActSlot → ActSlot) : (s.onAct p n f).racing = s.racing := rfl
@[simp] theorem State.onAct_boot (p n : Nat) (f : ActSlot → ActSlot) : (s.onAct p n f).boot = s.boot := rfl
@[simp] theorem State.onAct_power (p n : Nat) (f : ActSlot → ActSlot) : (s.onAct p n f).power = s.power := rfl
@[simp] theorem State.onAct_thermal (p n : Nat) (f : ActSlot → ActSlot) : (s.onAct p n f).thermal = s.thermal := rfl
@[simp] theorem State.onAct_fabric (p n : Nat) (f : ActSlot → ActSlot) : (s.onAct p n f).fabric = s.fabric := rfl
@[simp] theorem State.onAct_mem (p n : Nat) (f : ActSlot → ActSlot) : (s.onAct p n f).mem = s.mem := rfl
@[simp] theorem State.onAct_host (p n : Nat) (f : ActSlot → ActSlot) : (s.onAct p n f).host = s.host := rfl
@[simp] theorem State.onAct_sec (p n : Nat) (f : ActSlot → ActSlot) : (s.onAct p n f).sec = s.sec := rfl
@[simp] theorem State.onAct_health (p n : Nat) (f : ActSlot → ActSlot) : (s.onAct p n f).health = s.health := rfl
@[simp] theorem State.onAct_links (p n : Nat) (f : ActSlot → ActSlot) : (s.onAct p n f).links = s.links := rfl
@[simp] theorem State.onAct_field (p n : Nat) (f : ActSlot → ActSlot) : (s.onAct p n f).field = s.field := rfl
@[simp] theorem State.onAct_video (p n : Nat) (f : ActSlot → ActSlot) : (s.onAct p n f).video = s.video := rfl
@[simp] theorem State.onAct_mon (p n : Nat) (f : ActSlot → ActSlot) : (s.onAct p n f).mon = s.mon := rfl
@[simp] theorem State.onAct_pair (p n : Nat) (f : ActSlot → ActSlot) : (s.onAct p n f).pair = s.pair := rfl
@[simp] theorem State.onAct_hostMem (p n : Nat) (f : ActSlot → ActSlot) : (s.onAct p n f).hostMem = s.hostMem := rfl
@[simp] theorem State.onAct_pending (p n : Nat) (f : ActSlot → ActSlot) : (s.onAct p n f).pending = s.pending := rfl

/-! `State.onTile` -/

@[simp] theorem State.onTile_now (t : Nat) (f : Tile → Tile) : (s.onTile t f).now = s.now := rfl
@[simp] theorem State.onTile_fresh (t : Nat) (f : Tile → Tile) : (s.onTile t f).fresh = s.fresh := rfl
@[simp] theorem State.onTile_racing (t : Nat) (f : Tile → Tile) : (s.onTile t f).racing = s.racing := rfl
@[simp] theorem State.onTile_boot (t : Nat) (f : Tile → Tile) : (s.onTile t f).boot = s.boot := rfl
@[simp] theorem State.onTile_power (t : Nat) (f : Tile → Tile) : (s.onTile t f).power = s.power := rfl
@[simp] theorem State.onTile_thermal (t : Nat) (f : Tile → Tile) : (s.onTile t f).thermal = s.thermal := rfl
@[simp] theorem State.onTile_mem (t : Nat) (f : Tile → Tile) : (s.onTile t f).mem = s.mem := rfl
@[simp] theorem State.onTile_host (t : Nat) (f : Tile → Tile) : (s.onTile t f).host = s.host := rfl
@[simp] theorem State.onTile_sec (t : Nat) (f : Tile → Tile) : (s.onTile t f).sec = s.sec := rfl
@[simp] theorem State.onTile_health (t : Nat) (f : Tile → Tile) : (s.onTile t f).health = s.health := rfl
@[simp] theorem State.onTile_links (t : Nat) (f : Tile → Tile) : (s.onTile t f).links = s.links := rfl
@[simp] theorem State.onTile_field (t : Nat) (f : Tile → Tile) : (s.onTile t f).field = s.field := rfl
@[simp] theorem State.onTile_video (t : Nat) (f : Tile → Tile) : (s.onTile t f).video = s.video := rfl
@[simp] theorem State.onTile_mon (t : Nat) (f : Tile → Tile) : (s.onTile t f).mon = s.mon := rfl
@[simp] theorem State.onTile_pair (t : Nat) (f : Tile → Tile) : (s.onTile t f).pair = s.pair := rfl
@[simp] theorem State.onTile_parts (t : Nat) (f : Tile → Tile) : (s.onTile t f).parts = s.parts := rfl
@[simp] theorem State.onTile_hostMem (t : Nat) (f : Tile → Tile) : (s.onTile t f).hostMem = s.hostMem := rfl
@[simp] theorem State.onTile_pending (t : Nat) (f : Tile → Tile) : (s.onTile t f).pending = s.pending := rfl

/-! `State.onDom` -/

@[simp] theorem State.onDom_now (k : Nat) (f : Domain → Domain) : (s.onDom k f).now = s.now := rfl
@[simp] theorem State.onDom_fresh (k : Nat) (f : Domain → Domain) : (s.onDom k f).fresh = s.fresh := rfl
@[simp] theorem State.onDom_racing (k : Nat) (f : Domain → Domain) : (s.onDom k f).racing = s.racing := rfl
@[simp] theorem State.onDom_boot (k : Nat) (f : Domain → Domain) : (s.onDom k f).boot = s.boot := rfl
@[simp] theorem State.onDom_thermal (k : Nat) (f : Domain → Domain) : (s.onDom k f).thermal = s.thermal := rfl
@[simp] theorem State.onDom_fabric (k : Nat) (f : Domain → Domain) : (s.onDom k f).fabric = s.fabric := rfl
@[simp] theorem State.onDom_mem (k : Nat) (f : Domain → Domain) : (s.onDom k f).mem = s.mem := rfl
@[simp] theorem State.onDom_host (k : Nat) (f : Domain → Domain) : (s.onDom k f).host = s.host := rfl
@[simp] theorem State.onDom_sec (k : Nat) (f : Domain → Domain) : (s.onDom k f).sec = s.sec := rfl
@[simp] theorem State.onDom_health (k : Nat) (f : Domain → Domain) : (s.onDom k f).health = s.health := rfl
@[simp] theorem State.onDom_links (k : Nat) (f : Domain → Domain) : (s.onDom k f).links = s.links := rfl
@[simp] theorem State.onDom_field (k : Nat) (f : Domain → Domain) : (s.onDom k f).field = s.field := rfl
@[simp] theorem State.onDom_video (k : Nat) (f : Domain → Domain) : (s.onDom k f).video = s.video := rfl
@[simp] theorem State.onDom_mon (k : Nat) (f : Domain → Domain) : (s.onDom k f).mon = s.mon := rfl
@[simp] theorem State.onDom_pair (k : Nat) (f : Domain → Domain) : (s.onDom k f).pair = s.pair := rfl
@[simp] theorem State.onDom_parts (k : Nat) (f : Domain → Domain) : (s.onDom k f).parts = s.parts := rfl
@[simp] theorem State.onDom_hostMem (k : Nat) (f : Domain → Domain) : (s.onDom k f).hostMem = s.hostMem := rfl
@[simp] theorem State.onDom_pending (k : Nat) (f : Domain → Domain) : (s.onDom k f).pending = s.pending := rfl

/-! `State.onChan` -/

@[simp] theorem State.onChan_now (c : Nat) (f : Channel → Channel) : (s.onChan c f).now = s.now := rfl
@[simp] theorem State.onChan_fresh (c : Nat) (f : Channel → Channel) : (s.onChan c f).fresh = s.fresh := rfl
@[simp] theorem State.onChan_racing (c : Nat) (f : Channel → Channel) : (s.onChan c f).racing = s.racing := rfl
@[simp] theorem State.onChan_boot (c : Nat) (f : Channel → Channel) : (s.onChan c f).boot = s.boot := rfl
@[simp] theorem State.onChan_power (c : Nat) (f : Channel → Channel) : (s.onChan c f).power = s.power := rfl
@[simp] theorem State.onChan_thermal (c : Nat) (f : Channel → Channel) : (s.onChan c f).thermal = s.thermal := rfl
@[simp] theorem State.onChan_fabric (c : Nat) (f : Channel → Channel) : (s.onChan c f).fabric = s.fabric := rfl
@[simp] theorem State.onChan_mem (c : Nat) (f : Channel → Channel) : (s.onChan c f).mem = s.mem := rfl
@[simp] theorem State.onChan_host (c : Nat) (f : Channel → Channel) : (s.onChan c f).host = s.host := rfl
@[simp] theorem State.onChan_sec (c : Nat) (f : Channel → Channel) : (s.onChan c f).sec = s.sec := rfl
@[simp] theorem State.onChan_health (c : Nat) (f : Channel → Channel) : (s.onChan c f).health = s.health := rfl
@[simp] theorem State.onChan_links (c : Nat) (f : Channel → Channel) : (s.onChan c f).links = s.links := rfl
@[simp] theorem State.onChan_video (c : Nat) (f : Channel → Channel) : (s.onChan c f).video = s.video := rfl
@[simp] theorem State.onChan_mon (c : Nat) (f : Channel → Channel) : (s.onChan c f).mon = s.mon := rfl
@[simp] theorem State.onChan_pair (c : Nat) (f : Channel → Channel) : (s.onChan c f).pair = s.pair := rfl
@[simp] theorem State.onChan_parts (c : Nat) (f : Channel → Channel) : (s.onChan c f).parts = s.parts := rfl
@[simp] theorem State.onChan_hostMem (c : Nat) (f : Channel → Channel) : (s.onChan c f).hostMem = s.hostMem := rfl
@[simp] theorem State.onChan_pending (c : Nat) (f : Channel → Channel) : (s.onChan c f).pending = s.pending := rfl

/-! `State.onLp` -/

@[simp] theorem State.onLp_now (n : Nat) (f : LinkPort → LinkPort) : (s.onLp n f).now = s.now := rfl
@[simp] theorem State.onLp_fresh (n : Nat) (f : LinkPort → LinkPort) : (s.onLp n f).fresh = s.fresh := rfl
@[simp] theorem State.onLp_racing (n : Nat) (f : LinkPort → LinkPort) : (s.onLp n f).racing = s.racing := rfl
@[simp] theorem State.onLp_boot (n : Nat) (f : LinkPort → LinkPort) : (s.onLp n f).boot = s.boot := rfl
@[simp] theorem State.onLp_power (n : Nat) (f : LinkPort → LinkPort) : (s.onLp n f).power = s.power := rfl
@[simp] theorem State.onLp_thermal (n : Nat) (f : LinkPort → LinkPort) : (s.onLp n f).thermal = s.thermal := rfl
@[simp] theorem State.onLp_fabric (n : Nat) (f : LinkPort → LinkPort) : (s.onLp n f).fabric = s.fabric := rfl
@[simp] theorem State.onLp_mem (n : Nat) (f : LinkPort → LinkPort) : (s.onLp n f).mem = s.mem := rfl
@[simp] theorem State.onLp_host (n : Nat) (f : LinkPort → LinkPort) : (s.onLp n f).host = s.host := rfl
@[simp] theorem State.onLp_sec (n : Nat) (f : LinkPort → LinkPort) : (s.onLp n f).sec = s.sec := rfl
@[simp] theorem State.onLp_health (n : Nat) (f : LinkPort → LinkPort) : (s.onLp n f).health = s.health := rfl
@[simp] theorem State.onLp_field (n : Nat) (f : LinkPort → LinkPort) : (s.onLp n f).field = s.field := rfl
@[simp] theorem State.onLp_video (n : Nat) (f : LinkPort → LinkPort) : (s.onLp n f).video = s.video := rfl
@[simp] theorem State.onLp_mon (n : Nat) (f : LinkPort → LinkPort) : (s.onLp n f).mon = s.mon := rfl
@[simp] theorem State.onLp_pair (n : Nat) (f : LinkPort → LinkPort) : (s.onLp n f).pair = s.pair := rfl
@[simp] theorem State.onLp_parts (n : Nat) (f : LinkPort → LinkPort) : (s.onLp n f).parts = s.parts := rfl
@[simp] theorem State.onLp_hostMem (n : Nat) (f : LinkPort → LinkPort) : (s.onLp n f).hostMem = s.hostMem := rfl
@[simp] theorem State.onLp_pending (n : Nat) (f : LinkPort → LinkPort) : (s.onLp n f).pending = s.pending := rfl

/-! `State.onUnit` -/

@[simp] theorem State.onUnit_now (kind unit : Nat) (f : Unit → Unit) : (s.onUnit kind unit f).now = s.now := rfl
@[simp] theorem State.onUnit_fresh (kind unit : Nat) (f : Unit → Unit) : (s.onUnit kind unit f).fresh = s.fresh := rfl
@[simp] theorem State.onUnit_racing (kind unit : Nat) (f : Unit → Unit) : (s.onUnit kind unit f).racing = s.racing := rfl
@[simp] theorem State.onUnit_boot (kind unit : Nat) (f : Unit → Unit) : (s.onUnit kind unit f).boot = s.boot := rfl
@[simp] theorem State.onUnit_power (kind unit : Nat) (f : Unit → Unit) : (s.onUnit kind unit f).power = s.power := rfl
@[simp] theorem State.onUnit_thermal (kind unit : Nat) (f : Unit → Unit) : (s.onUnit kind unit f).thermal = s.thermal := rfl
@[simp] theorem State.onUnit_fabric (kind unit : Nat) (f : Unit → Unit) : (s.onUnit kind unit f).fabric = s.fabric := rfl
@[simp] theorem State.onUnit_mem (kind unit : Nat) (f : Unit → Unit) : (s.onUnit kind unit f).mem = s.mem := rfl
@[simp] theorem State.onUnit_host (kind unit : Nat) (f : Unit → Unit) : (s.onUnit kind unit f).host = s.host := rfl
@[simp] theorem State.onUnit_sec (kind unit : Nat) (f : Unit → Unit) : (s.onUnit kind unit f).sec = s.sec := rfl
@[simp] theorem State.onUnit_links (kind unit : Nat) (f : Unit → Unit) : (s.onUnit kind unit f).links = s.links := rfl
@[simp] theorem State.onUnit_field (kind unit : Nat) (f : Unit → Unit) : (s.onUnit kind unit f).field = s.field := rfl
@[simp] theorem State.onUnit_video (kind unit : Nat) (f : Unit → Unit) : (s.onUnit kind unit f).video = s.video := rfl
@[simp] theorem State.onUnit_mon (kind unit : Nat) (f : Unit → Unit) : (s.onUnit kind unit f).mon = s.mon := rfl
@[simp] theorem State.onUnit_pair (kind unit : Nat) (f : Unit → Unit) : (s.onUnit kind unit f).pair = s.pair := rfl
@[simp] theorem State.onUnit_parts (kind unit : Nat) (f : Unit → Unit) : (s.onUnit kind unit f).parts = s.parts := rfl
@[simp] theorem State.onUnit_hostMem (kind unit : Nat) (f : Unit → Unit) : (s.onUnit kind unit f).hostMem = s.hostMem := rfl
@[simp] theorem State.onUnit_pending (kind unit : Nat) (f : Unit → Unit) : (s.onUnit kind unit f).pending = s.pending := rfl

/-! `State.tick` -/

@[simp] theorem State.tick_now : (s.tick).now = s.now := rfl
@[simp] theorem State.tick_racing : (s.tick).racing = s.racing := rfl
@[simp] theorem State.tick_boot : (s.tick).boot = s.boot := rfl
@[simp] theorem State.tick_power : (s.tick).power = s.power := rfl
@[simp] theorem State.tick_thermal : (s.tick).thermal = s.thermal := rfl
@[simp] theorem State.tick_fabric : (s.tick).fabric = s.fabric := rfl
@[simp] theorem State.tick_mem : (s.tick).mem = s.mem := rfl
@[simp] theorem State.tick_host : (s.tick).host = s.host := rfl
@[simp] theorem State.tick_sec : (s.tick).sec = s.sec := rfl
@[simp] theorem State.tick_health : (s.tick).health = s.health := rfl
@[simp] theorem State.tick_links : (s.tick).links = s.links := rfl
@[simp] theorem State.tick_field : (s.tick).field = s.field := rfl
@[simp] theorem State.tick_video : (s.tick).video = s.video := rfl
@[simp] theorem State.tick_mon : (s.tick).mon = s.mon := rfl
@[simp] theorem State.tick_pair : (s.tick).pair = s.pair := rfl
@[simp] theorem State.tick_parts : (s.tick).parts = s.parts := rfl
@[simp] theorem State.tick_hostMem : (s.tick).hostMem = s.hostMem := rfl
@[simp] theorem State.tick_pending : (s.tick).pending = s.pending := rfl

/-! `State.raiseAt` -/

@[simp] theorem State.raiseAt_now (p code subject time : Nat) (data : List Byte) : (s.raiseAt p code subject time data).now = s.now := rfl
@[simp] theorem State.raiseAt_fresh (p code subject time : Nat) (data : List Byte) : (s.raiseAt p code subject time data).fresh = s.fresh := rfl
@[simp] theorem State.raiseAt_racing (p code subject time : Nat) (data : List Byte) : (s.raiseAt p code subject time data).racing = s.racing := rfl
@[simp] theorem State.raiseAt_boot (p code subject time : Nat) (data : List Byte) : (s.raiseAt p code subject time data).boot = s.boot := rfl
@[simp] theorem State.raiseAt_power (p code subject time : Nat) (data : List Byte) : (s.raiseAt p code subject time data).power = s.power := rfl
@[simp] theorem State.raiseAt_thermal (p code subject time : Nat) (data : List Byte) : (s.raiseAt p code subject time data).thermal = s.thermal := rfl
@[simp] theorem State.raiseAt_fabric (p code subject time : Nat) (data : List Byte) : (s.raiseAt p code subject time data).fabric = s.fabric := rfl
@[simp] theorem State.raiseAt_mem (p code subject time : Nat) (data : List Byte) : (s.raiseAt p code subject time data).mem = s.mem := rfl
@[simp] theorem State.raiseAt_host (p code subject time : Nat) (data : List Byte) : (s.raiseAt p code subject time data).host = s.host := rfl
@[simp] theorem State.raiseAt_sec (p code subject time : Nat) (data : List Byte) : (s.raiseAt p code subject time data).sec = s.sec := rfl
@[simp] theorem State.raiseAt_health (p code subject time : Nat) (data : List Byte) : (s.raiseAt p code subject time data).health = s.health := rfl
@[simp] theorem State.raiseAt_links (p code subject time : Nat) (data : List Byte) : (s.raiseAt p code subject time data).links = s.links := rfl
@[simp] theorem State.raiseAt_field (p code subject time : Nat) (data : List Byte) : (s.raiseAt p code subject time data).field = s.field := rfl
@[simp] theorem State.raiseAt_video (p code subject time : Nat) (data : List Byte) : (s.raiseAt p code subject time data).video = s.video := rfl
@[simp] theorem State.raiseAt_mon (p code subject time : Nat) (data : List Byte) : (s.raiseAt p code subject time data).mon = s.mon := rfl
@[simp] theorem State.raiseAt_pair (p code subject time : Nat) (data : List Byte) : (s.raiseAt p code subject time data).pair = s.pair := rfl
@[simp] theorem State.raiseAt_hostMem (p code subject time : Nat) (data : List Byte) : (s.raiseAt p code subject time data).hostMem = s.hostMem := rfl
@[simp] theorem State.raiseAt_pending (p code subject time : Nat) (data : List Byte) : (s.raiseAt p code subject time data).pending = s.pending := rfl

/-! `State.raise` -/

@[simp] theorem State.raise_now (p code : Nat) (data : List Byte) : (s.raise p code data).now = s.now := rfl
@[simp] theorem State.raise_fresh (p code : Nat) (data : List Byte) : (s.raise p code data).fresh = s.fresh := rfl
@[simp] theorem State.raise_racing (p code : Nat) (data : List Byte) : (s.raise p code data).racing = s.racing := rfl
@[simp] theorem State.raise_boot (p code : Nat) (data : List Byte) : (s.raise p code data).boot = s.boot := rfl
@[simp] theorem State.raise_power (p code : Nat) (data : List Byte) : (s.raise p code data).power = s.power := rfl
@[simp] theorem State.raise_thermal (p code : Nat) (data : List Byte) : (s.raise p code data).thermal = s.thermal := rfl
@[simp] theorem State.raise_fabric (p code : Nat) (data : List Byte) : (s.raise p code data).fabric = s.fabric := rfl
@[simp] theorem State.raise_mem (p code : Nat) (data : List Byte) : (s.raise p code data).mem = s.mem := rfl
@[simp] theorem State.raise_host (p code : Nat) (data : List Byte) : (s.raise p code data).host = s.host := rfl
@[simp] theorem State.raise_sec (p code : Nat) (data : List Byte) : (s.raise p code data).sec = s.sec := rfl
@[simp] theorem State.raise_health (p code : Nat) (data : List Byte) : (s.raise p code data).health = s.health := rfl
@[simp] theorem State.raise_links (p code : Nat) (data : List Byte) : (s.raise p code data).links = s.links := rfl
@[simp] theorem State.raise_field (p code : Nat) (data : List Byte) : (s.raise p code data).field = s.field := rfl
@[simp] theorem State.raise_video (p code : Nat) (data : List Byte) : (s.raise p code data).video = s.video := rfl
@[simp] theorem State.raise_mon (p code : Nat) (data : List Byte) : (s.raise p code data).mon = s.mon := rfl
@[simp] theorem State.raise_pair (p code : Nat) (data : List Byte) : (s.raise p code data).pair = s.pair := rfl
@[simp] theorem State.raise_hostMem (p code : Nat) (data : List Byte) : (s.raise p code data).hostMem = s.hostMem := rfl
@[simp] theorem State.raise_pending (p code : Nat) (data : List Byte) : (s.raise p code data).pending = s.pending := rfl

/-! `State.raisePf` -/

@[simp] theorem State.raisePf_now (p code : Nat) (data : List Byte) : (s.raisePf p code data).now = s.now := rfl
@[simp] theorem State.raisePf_fresh (p code : Nat) (data : List Byte) : (s.raisePf p code data).fresh = s.fresh := rfl
@[simp] theorem State.raisePf_racing (p code : Nat) (data : List Byte) : (s.raisePf p code data).racing = s.racing := rfl
@[simp] theorem State.raisePf_boot (p code : Nat) (data : List Byte) : (s.raisePf p code data).boot = s.boot := rfl
@[simp] theorem State.raisePf_power (p code : Nat) (data : List Byte) : (s.raisePf p code data).power = s.power := rfl
@[simp] theorem State.raisePf_thermal (p code : Nat) (data : List Byte) : (s.raisePf p code data).thermal = s.thermal := rfl
@[simp] theorem State.raisePf_fabric (p code : Nat) (data : List Byte) : (s.raisePf p code data).fabric = s.fabric := rfl
@[simp] theorem State.raisePf_mem (p code : Nat) (data : List Byte) : (s.raisePf p code data).mem = s.mem := rfl
@[simp] theorem State.raisePf_host (p code : Nat) (data : List Byte) : (s.raisePf p code data).host = s.host := rfl
@[simp] theorem State.raisePf_sec (p code : Nat) (data : List Byte) : (s.raisePf p code data).sec = s.sec := rfl
@[simp] theorem State.raisePf_health (p code : Nat) (data : List Byte) : (s.raisePf p code data).health = s.health := rfl
@[simp] theorem State.raisePf_links (p code : Nat) (data : List Byte) : (s.raisePf p code data).links = s.links := rfl
@[simp] theorem State.raisePf_field (p code : Nat) (data : List Byte) : (s.raisePf p code data).field = s.field := rfl
@[simp] theorem State.raisePf_video (p code : Nat) (data : List Byte) : (s.raisePf p code data).video = s.video := rfl
@[simp] theorem State.raisePf_mon (p code : Nat) (data : List Byte) : (s.raisePf p code data).mon = s.mon := rfl
@[simp] theorem State.raisePf_pair (p code : Nat) (data : List Byte) : (s.raisePf p code data).pair = s.pair := rfl
@[simp] theorem State.raisePf_hostMem (p code : Nat) (data : List Byte) : (s.raisePf p code data).hostMem = s.hostMem := rfl
@[simp] theorem State.raisePf_pending (p code : Nat) (data : List Byte) : (s.raisePf p code data).pending = s.pending := rfl

/-! `State.doorbell` -/

@[simp] theorem State.doorbell_now (p : Nat) : (s.doorbell p).now = s.now := rfl
@[simp] theorem State.doorbell_fresh (p : Nat) : (s.doorbell p).fresh = s.fresh := rfl
@[simp] theorem State.doorbell_racing (p : Nat) : (s.doorbell p).racing = s.racing := rfl
@[simp] theorem State.doorbell_boot (p : Nat) : (s.doorbell p).boot = s.boot := rfl
@[simp] theorem State.doorbell_power (p : Nat) : (s.doorbell p).power = s.power := rfl
@[simp] theorem State.doorbell_thermal (p : Nat) : (s.doorbell p).thermal = s.thermal := rfl
@[simp] theorem State.doorbell_fabric (p : Nat) : (s.doorbell p).fabric = s.fabric := rfl
@[simp] theorem State.doorbell_mem (p : Nat) : (s.doorbell p).mem = s.mem := rfl
@[simp] theorem State.doorbell_host (p : Nat) : (s.doorbell p).host = s.host := rfl
@[simp] theorem State.doorbell_sec (p : Nat) : (s.doorbell p).sec = s.sec := rfl
@[simp] theorem State.doorbell_health (p : Nat) : (s.doorbell p).health = s.health := rfl
@[simp] theorem State.doorbell_links (p : Nat) : (s.doorbell p).links = s.links := rfl
@[simp] theorem State.doorbell_field (p : Nat) : (s.doorbell p).field = s.field := rfl
@[simp] theorem State.doorbell_video (p : Nat) : (s.doorbell p).video = s.video := rfl
@[simp] theorem State.doorbell_mon (p : Nat) : (s.doorbell p).mon = s.mon := rfl
@[simp] theorem State.doorbell_pair (p : Nat) : (s.doorbell p).pair = s.pair := rfl
@[simp] theorem State.doorbell_hostMem (p : Nat) : (s.doorbell p).hostMem = s.hostMem := rfl
@[simp] theorem State.doorbell_pending (p : Nat) : (s.doorbell p).pending = s.pending := rfl

/-! `State.alert` -/

@[simp] theorem State.alert_now (bit : Nat) : (s.alert bit).now = s.now := rfl
@[simp] theorem State.alert_fresh (bit : Nat) : (s.alert bit).fresh = s.fresh := rfl
@[simp] theorem State.alert_racing (bit : Nat) : (s.alert bit).racing = s.racing := rfl
@[simp] theorem State.alert_power (bit : Nat) : (s.alert bit).power = s.power := rfl
@[simp] theorem State.alert_thermal (bit : Nat) : (s.alert bit).thermal = s.thermal := rfl
@[simp] theorem State.alert_fabric (bit : Nat) : (s.alert bit).fabric = s.fabric := rfl
@[simp] theorem State.alert_mem (bit : Nat) : (s.alert bit).mem = s.mem := rfl
@[simp] theorem State.alert_host (bit : Nat) : (s.alert bit).host = s.host := rfl
@[simp] theorem State.alert_sec (bit : Nat) : (s.alert bit).sec = s.sec := rfl
@[simp] theorem State.alert_health (bit : Nat) : (s.alert bit).health = s.health := rfl
@[simp] theorem State.alert_links (bit : Nat) : (s.alert bit).links = s.links := rfl
@[simp] theorem State.alert_field (bit : Nat) : (s.alert bit).field = s.field := rfl
@[simp] theorem State.alert_video (bit : Nat) : (s.alert bit).video = s.video := rfl
@[simp] theorem State.alert_mon (bit : Nat) : (s.alert bit).mon = s.mon := rfl
@[simp] theorem State.alert_pair (bit : Nat) : (s.alert bit).pair = s.pair := rfl
@[simp] theorem State.alert_parts (bit : Nat) : (s.alert bit).parts = s.parts := rfl
@[simp] theorem State.alert_hostMem (bit : Nat) : (s.alert bit).hostMem = s.hostMem := rfl
@[simp] theorem State.alert_pending (bit : Nat) : (s.alert bit).pending = s.pending := rfl

/-! `State.raiseBoth` -/

@[simp] theorem State.raiseBoth_now (p code : Nat) (data : List Byte) : (s.raiseBoth p code data).now = s.now := by
  unfold State.raiseBoth; split <;> simp
@[simp] theorem State.raiseBoth_fresh (p code : Nat) (data : List Byte) : (s.raiseBoth p code data).fresh = s.fresh := by
  unfold State.raiseBoth; split <;> simp
@[simp] theorem State.raiseBoth_racing (p code : Nat) (data : List Byte) : (s.raiseBoth p code data).racing = s.racing := by
  unfold State.raiseBoth; split <;> simp
@[simp] theorem State.raiseBoth_boot (p code : Nat) (data : List Byte) : (s.raiseBoth p code data).boot = s.boot := by
  unfold State.raiseBoth; split <;> simp
@[simp] theorem State.raiseBoth_power (p code : Nat) (data : List Byte) : (s.raiseBoth p code data).power = s.power := by
  unfold State.raiseBoth; split <;> simp
@[simp] theorem State.raiseBoth_thermal (p code : Nat) (data : List Byte) : (s.raiseBoth p code data).thermal = s.thermal := by
  unfold State.raiseBoth; split <;> simp
@[simp] theorem State.raiseBoth_fabric (p code : Nat) (data : List Byte) : (s.raiseBoth p code data).fabric = s.fabric := by
  unfold State.raiseBoth; split <;> simp
@[simp] theorem State.raiseBoth_mem (p code : Nat) (data : List Byte) : (s.raiseBoth p code data).mem = s.mem := by
  unfold State.raiseBoth; split <;> simp
@[simp] theorem State.raiseBoth_host (p code : Nat) (data : List Byte) : (s.raiseBoth p code data).host = s.host := by
  unfold State.raiseBoth; split <;> simp
@[simp] theorem State.raiseBoth_sec (p code : Nat) (data : List Byte) : (s.raiseBoth p code data).sec = s.sec := by
  unfold State.raiseBoth; split <;> simp
@[simp] theorem State.raiseBoth_health (p code : Nat) (data : List Byte) : (s.raiseBoth p code data).health = s.health := by
  unfold State.raiseBoth; split <;> simp
@[simp] theorem State.raiseBoth_links (p code : Nat) (data : List Byte) : (s.raiseBoth p code data).links = s.links := by
  unfold State.raiseBoth; split <;> simp
@[simp] theorem State.raiseBoth_field (p code : Nat) (data : List Byte) : (s.raiseBoth p code data).field = s.field := by
  unfold State.raiseBoth; split <;> simp
@[simp] theorem State.raiseBoth_video (p code : Nat) (data : List Byte) : (s.raiseBoth p code data).video = s.video := by
  unfold State.raiseBoth; split <;> simp
@[simp] theorem State.raiseBoth_mon (p code : Nat) (data : List Byte) : (s.raiseBoth p code data).mon = s.mon := by
  unfold State.raiseBoth; split <;> simp
@[simp] theorem State.raiseBoth_pair (p code : Nat) (data : List Byte) : (s.raiseBoth p code data).pair = s.pair := by
  unfold State.raiseBoth; split <;> simp
@[simp] theorem State.raiseBoth_hostMem (p code : Nat) (data : List Byte) : (s.raiseBoth p code data).hostMem = s.hostMem := by
  unfold State.raiseBoth; split <;> simp
@[simp] theorem State.raiseBoth_pending (p code : Nat) (data : List Byte) : (s.raiseBoth p code data).pending = s.pending := by
  unfold State.raiseBoth; split <;> simp

/-! `State.hostWrite` -/

@[simp] theorem State.hostWrite_now (addr : Nat) (bs : List Byte) : (s.hostWrite addr bs).now = s.now := by
  unfold State.hostWrite; split <;> simp
@[simp] theorem State.hostWrite_fresh (addr : Nat) (bs : List Byte) : (s.hostWrite addr bs).fresh = s.fresh := by
  unfold State.hostWrite; split <;> simp
@[simp] theorem State.hostWrite_racing (addr : Nat) (bs : List Byte) : (s.hostWrite addr bs).racing = s.racing := by
  unfold State.hostWrite; split <;> simp
@[simp] theorem State.hostWrite_boot (addr : Nat) (bs : List Byte) : (s.hostWrite addr bs).boot = s.boot := by
  unfold State.hostWrite; split <;> simp
@[simp] theorem State.hostWrite_power (addr : Nat) (bs : List Byte) : (s.hostWrite addr bs).power = s.power := by
  unfold State.hostWrite; split <;> simp
@[simp] theorem State.hostWrite_thermal (addr : Nat) (bs : List Byte) : (s.hostWrite addr bs).thermal = s.thermal := by
  unfold State.hostWrite; split <;> simp
@[simp] theorem State.hostWrite_fabric (addr : Nat) (bs : List Byte) : (s.hostWrite addr bs).fabric = s.fabric := by
  unfold State.hostWrite; split <;> simp
@[simp] theorem State.hostWrite_mem (addr : Nat) (bs : List Byte) : (s.hostWrite addr bs).mem = s.mem := by
  unfold State.hostWrite; split <;> simp
@[simp] theorem State.hostWrite_host (addr : Nat) (bs : List Byte) : (s.hostWrite addr bs).host = s.host := by
  unfold State.hostWrite; split <;> simp
@[simp] theorem State.hostWrite_sec (addr : Nat) (bs : List Byte) : (s.hostWrite addr bs).sec = s.sec := by
  unfold State.hostWrite; split <;> simp
@[simp] theorem State.hostWrite_health (addr : Nat) (bs : List Byte) : (s.hostWrite addr bs).health = s.health := by
  unfold State.hostWrite; split <;> simp
@[simp] theorem State.hostWrite_links (addr : Nat) (bs : List Byte) : (s.hostWrite addr bs).links = s.links := by
  unfold State.hostWrite; split <;> simp
@[simp] theorem State.hostWrite_field (addr : Nat) (bs : List Byte) : (s.hostWrite addr bs).field = s.field := by
  unfold State.hostWrite; split <;> simp
@[simp] theorem State.hostWrite_video (addr : Nat) (bs : List Byte) : (s.hostWrite addr bs).video = s.video := by
  unfold State.hostWrite; split <;> simp
@[simp] theorem State.hostWrite_mon (addr : Nat) (bs : List Byte) : (s.hostWrite addr bs).mon = s.mon := by
  unfold State.hostWrite; split <;> simp
@[simp] theorem State.hostWrite_pair (addr : Nat) (bs : List Byte) : (s.hostWrite addr bs).pair = s.pair := by
  unfold State.hostWrite; split <;> simp
@[simp] theorem State.hostWrite_parts (addr : Nat) (bs : List Byte) : (s.hostWrite addr bs).parts = s.parts := by
  unfold State.hostWrite; split <;> simp
@[simp] theorem State.hostWrite_pending (addr : Nat) (bs : List Byte) : (s.hostWrite addr bs).pending = s.pending := by
  unfold State.hostWrite; split <;> simp

/-! `State.trigger` -/

@[simp] theorem State.trigger_now (p : Nat) : (s.trigger p).now = s.now := by
  unfold State.trigger; split <;> simp
@[simp] theorem State.trigger_fresh (p : Nat) : (s.trigger p).fresh = s.fresh := by
  unfold State.trigger; split <;> simp
@[simp] theorem State.trigger_racing (p : Nat) : (s.trigger p).racing = s.racing := by
  unfold State.trigger; split <;> simp
@[simp] theorem State.trigger_boot (p : Nat) : (s.trigger p).boot = s.boot := by
  unfold State.trigger; split <;> simp
@[simp] theorem State.trigger_power (p : Nat) : (s.trigger p).power = s.power := by
  unfold State.trigger; split <;> simp
@[simp] theorem State.trigger_thermal (p : Nat) : (s.trigger p).thermal = s.thermal := by
  unfold State.trigger; split <;> simp
@[simp] theorem State.trigger_fabric (p : Nat) : (s.trigger p).fabric = s.fabric := by
  unfold State.trigger; split <;> simp
@[simp] theorem State.trigger_mem (p : Nat) : (s.trigger p).mem = s.mem := by
  unfold State.trigger; split <;> simp
@[simp] theorem State.trigger_host (p : Nat) : (s.trigger p).host = s.host := by
  unfold State.trigger; split <;> simp
@[simp] theorem State.trigger_sec (p : Nat) : (s.trigger p).sec = s.sec := by
  unfold State.trigger; split <;> simp
@[simp] theorem State.trigger_health (p : Nat) : (s.trigger p).health = s.health := by
  unfold State.trigger; split <;> simp
@[simp] theorem State.trigger_links (p : Nat) : (s.trigger p).links = s.links := by
  unfold State.trigger; split <;> simp
@[simp] theorem State.trigger_field (p : Nat) : (s.trigger p).field = s.field := by
  unfold State.trigger; split <;> simp
@[simp] theorem State.trigger_video (p : Nat) : (s.trigger p).video = s.video := by
  unfold State.trigger; split <;> simp
@[simp] theorem State.trigger_mon (p : Nat) : (s.trigger p).mon = s.mon := by
  unfold State.trigger; split <;> simp
@[simp] theorem State.trigger_pair (p : Nat) : (s.trigger p).pair = s.pair := by
  unfold State.trigger; split <;> simp
@[simp] theorem State.trigger_hostMem (p : Nat) : (s.trigger p).hostMem = s.hostMem := by
  unfold State.trigger; split <;> simp
@[simp] theorem State.trigger_pending (p : Nat) : (s.trigger p).pending = s.pending := by
  unfold State.trigger; split <;> simp

/-! `State.appendHealth` -/

@[simp] theorem State.appendHealth_now (r : HealthRec) : (s.appendHealth r).now = s.now := by simp [State.appendHealth]
@[simp] theorem State.appendHealth_fresh (r : HealthRec) : (s.appendHealth r).fresh = s.fresh := by simp [State.appendHealth]
@[simp] theorem State.appendHealth_racing (r : HealthRec) : (s.appendHealth r).racing = s.racing := by simp [State.appendHealth]
@[simp] theorem State.appendHealth_boot (r : HealthRec) : (s.appendHealth r).boot = s.boot := by simp [State.appendHealth]
@[simp] theorem State.appendHealth_power (r : HealthRec) : (s.appendHealth r).power = s.power := by simp [State.appendHealth]
@[simp] theorem State.appendHealth_thermal (r : HealthRec) : (s.appendHealth r).thermal = s.thermal := by simp [State.appendHealth]
@[simp] theorem State.appendHealth_fabric (r : HealthRec) : (s.appendHealth r).fabric = s.fabric := by simp [State.appendHealth]
@[simp] theorem State.appendHealth_mem (r : HealthRec) : (s.appendHealth r).mem = s.mem := by simp [State.appendHealth]
@[simp] theorem State.appendHealth_host (r : HealthRec) : (s.appendHealth r).host = s.host := by simp [State.appendHealth]
@[simp] theorem State.appendHealth_sec (r : HealthRec) : (s.appendHealth r).sec = s.sec := by simp [State.appendHealth]
@[simp] theorem State.appendHealth_links (r : HealthRec) : (s.appendHealth r).links = s.links := by simp [State.appendHealth]
@[simp] theorem State.appendHealth_field (r : HealthRec) : (s.appendHealth r).field = s.field := by simp [State.appendHealth]
@[simp] theorem State.appendHealth_video (r : HealthRec) : (s.appendHealth r).video = s.video := by simp [State.appendHealth]
@[simp] theorem State.appendHealth_mon (r : HealthRec) : (s.appendHealth r).mon = s.mon := by simp [State.appendHealth]
@[simp] theorem State.appendHealth_pair (r : HealthRec) : (s.appendHealth r).pair = s.pair := by simp [State.appendHealth]
@[simp] theorem State.appendHealth_hostMem (r : HealthRec) : (s.appendHealth r).hostMem = s.hostMem := by simp [State.appendHealth]
@[simp] theorem State.appendHealth_pending (r : HealthRec) : (s.appendHealth r).pending = s.pending := by simp [State.appendHealth]

/-! `State.logHealth` -/

@[simp] theorem State.logHealth_now (k u v p d : Nat) : (s.logHealth k u v p d).now = s.now := by simp [State.logHealth]
@[simp] theorem State.logHealth_fresh (k u v p d : Nat) : (s.logHealth k u v p d).fresh = s.fresh := by simp [State.logHealth]
@[simp] theorem State.logHealth_racing (k u v p d : Nat) : (s.logHealth k u v p d).racing = s.racing := by simp [State.logHealth]
@[simp] theorem State.logHealth_boot (k u v p d : Nat) : (s.logHealth k u v p d).boot = s.boot := by simp [State.logHealth]
@[simp] theorem State.logHealth_power (k u v p d : Nat) : (s.logHealth k u v p d).power = s.power := by simp [State.logHealth]
@[simp] theorem State.logHealth_thermal (k u v p d : Nat) : (s.logHealth k u v p d).thermal = s.thermal := by simp [State.logHealth]
@[simp] theorem State.logHealth_fabric (k u v p d : Nat) : (s.logHealth k u v p d).fabric = s.fabric := by simp [State.logHealth]
@[simp] theorem State.logHealth_mem (k u v p d : Nat) : (s.logHealth k u v p d).mem = s.mem := by simp [State.logHealth]
@[simp] theorem State.logHealth_host (k u v p d : Nat) : (s.logHealth k u v p d).host = s.host := by simp [State.logHealth]
@[simp] theorem State.logHealth_sec (k u v p d : Nat) : (s.logHealth k u v p d).sec = s.sec := by simp [State.logHealth]
@[simp] theorem State.logHealth_links (k u v p d : Nat) : (s.logHealth k u v p d).links = s.links := by simp [State.logHealth]
@[simp] theorem State.logHealth_field (k u v p d : Nat) : (s.logHealth k u v p d).field = s.field := by simp [State.logHealth]
@[simp] theorem State.logHealth_video (k u v p d : Nat) : (s.logHealth k u v p d).video = s.video := by simp [State.logHealth]
@[simp] theorem State.logHealth_mon (k u v p d : Nat) : (s.logHealth k u v p d).mon = s.mon := by simp [State.logHealth]
@[simp] theorem State.logHealth_pair (k u v p d : Nat) : (s.logHealth k u v p d).pair = s.pair := by simp [State.logHealth]
@[simp] theorem State.logHealth_hostMem (k u v p d : Nat) : (s.logHealth k u v p d).hostMem = s.hostMem := by simp [State.logHealth]
@[simp] theorem State.logHealth_pending (k u v p d : Nat) : (s.logHealth k u v p d).pending = s.pending := by simp [State.logHealth]

/-! `State.logOpen` -/

@[simp] theorem State.logOpen_now (k u v p : Nat) : (s.logOpen k u v p).now = s.now := by simp [State.logOpen]
@[simp] theorem State.logOpen_racing (k u v p : Nat) : (s.logOpen k u v p).racing = s.racing := by simp [State.logOpen]
@[simp] theorem State.logOpen_boot (k u v p : Nat) : (s.logOpen k u v p).boot = s.boot := by simp [State.logOpen]
@[simp] theorem State.logOpen_power (k u v p : Nat) : (s.logOpen k u v p).power = s.power := by simp [State.logOpen]
@[simp] theorem State.logOpen_thermal (k u v p : Nat) : (s.logOpen k u v p).thermal = s.thermal := by simp [State.logOpen]
@[simp] theorem State.logOpen_fabric (k u v p : Nat) : (s.logOpen k u v p).fabric = s.fabric := by simp [State.logOpen]
@[simp] theorem State.logOpen_mem (k u v p : Nat) : (s.logOpen k u v p).mem = s.mem := by simp [State.logOpen]
@[simp] theorem State.logOpen_host (k u v p : Nat) : (s.logOpen k u v p).host = s.host := by simp [State.logOpen]
@[simp] theorem State.logOpen_sec (k u v p : Nat) : (s.logOpen k u v p).sec = s.sec := by simp [State.logOpen]
@[simp] theorem State.logOpen_links (k u v p : Nat) : (s.logOpen k u v p).links = s.links := by simp [State.logOpen]
@[simp] theorem State.logOpen_field (k u v p : Nat) : (s.logOpen k u v p).field = s.field := by simp [State.logOpen]
@[simp] theorem State.logOpen_video (k u v p : Nat) : (s.logOpen k u v p).video = s.video := by simp [State.logOpen]
@[simp] theorem State.logOpen_mon (k u v p : Nat) : (s.logOpen k u v p).mon = s.mon := by simp [State.logOpen]
@[simp] theorem State.logOpen_pair (k u v p : Nat) : (s.logOpen k u v p).pair = s.pair := by simp [State.logOpen]
@[simp] theorem State.logOpen_hostMem (k u v p : Nat) : (s.logOpen k u v p).hostMem = s.hostMem := by simp [State.logOpen]
@[simp] theorem State.logOpen_pending (k u v p : Nat) : (s.logOpen k u v p).pending = s.pending := by simp [State.logOpen]

/-! ### Waking out of module DEEP (R154) -/

/-- Domains changed one after another leave all else as it is. -/
theorem State.foldl_onDom (l : List Nat) (f : Domain → Domain) (g : State → Nat → Bool) (s : State) :
    ∃ ds, l.foldl (fun (t : State) k => if g s k then t.onDom k f else t) s = { s with power := { s.power with doms := ds } } := by
  suffices h : ∀ t ds, t = { s with power := { s.power with doms := ds } } →
      ∃ es, l.foldl (fun (t : State) k => if g s k then t.onDom k f else t) t = { s with power := { s.power with doms := es } } from
    h s s.power.doms rfl
  induction l with
  | nil => exact fun t ds h => ⟨ds, h⟩
  | cons k l ih =>
    intro t ds h
    subst h
    cases hk : g s k <;> simp only [List.foldl_cons, hk, Bool.false_eq_true, if_false, if_true]
    · exact ih _ ds rfl
    · exact ih _ (updAt ds k f) rfl

/-- A register access wakes the module out of DEEP by its domains alone. -/
theorem State.wakeDeep_eq (s : State) : s.wakeDeep = { s with power := { s.power with doms := s.wakeDeep.power.doms } } := by
  unfold State.wakeDeep
  split
  · unfold State.wantRun
    obtain ⟨ds, h⟩ := State.foldl_onDom (List.range 16) (fun d => { d with wantSt := .run, clamp := 0 })
      (fun t k => (t.domOwner k).isSome) s
    simp only [] at h
    rw [h]
  · rfl

/-- Out of DEEP it changes nothing. -/
theorem State.wakeDeep_awake (s : State) (h : s.moduleDeep = false) : s.wakeDeep = s := by simp [State.wakeDeep, h]

@[simp] theorem State.wakeDeep_now (s : State) : s.wakeDeep.now = s.now := by rw [s.wakeDeep_eq]
@[simp] theorem State.wakeDeep_fresh (s : State) : s.wakeDeep.fresh = s.fresh := by rw [s.wakeDeep_eq]
@[simp] theorem State.wakeDeep_racing (s : State) : s.wakeDeep.racing = s.racing := by rw [s.wakeDeep_eq]
@[simp] theorem State.wakeDeep_boot (s : State) : s.wakeDeep.boot = s.boot := by rw [s.wakeDeep_eq]
@[simp] theorem State.wakeDeep_thermal (s : State) : s.wakeDeep.thermal = s.thermal := by rw [s.wakeDeep_eq]
@[simp] theorem State.wakeDeep_fabric (s : State) : s.wakeDeep.fabric = s.fabric := by rw [s.wakeDeep_eq]
@[simp] theorem State.wakeDeep_mem (s : State) : s.wakeDeep.mem = s.mem := by rw [s.wakeDeep_eq]
@[simp] theorem State.wakeDeep_host (s : State) : s.wakeDeep.host = s.host := by rw [s.wakeDeep_eq]
@[simp] theorem State.wakeDeep_sec (s : State) : s.wakeDeep.sec = s.sec := by rw [s.wakeDeep_eq]
@[simp] theorem State.wakeDeep_health (s : State) : s.wakeDeep.health = s.health := by rw [s.wakeDeep_eq]
@[simp] theorem State.wakeDeep_links (s : State) : s.wakeDeep.links = s.links := by rw [s.wakeDeep_eq]
@[simp] theorem State.wakeDeep_field (s : State) : s.wakeDeep.field = s.field := by rw [s.wakeDeep_eq]
@[simp] theorem State.wakeDeep_video (s : State) : s.wakeDeep.video = s.video := by rw [s.wakeDeep_eq]
@[simp] theorem State.wakeDeep_mon (s : State) : s.wakeDeep.mon = s.mon := by rw [s.wakeDeep_eq]
@[simp] theorem State.wakeDeep_pair (s : State) : s.wakeDeep.pair = s.pair := by rw [s.wakeDeep_eq]
@[simp] theorem State.wakeDeep_parts (s : State) : s.wakeDeep.parts = s.parts := by rw [s.wakeDeep_eq]
@[simp] theorem State.wakeDeep_hostMem (s : State) : s.wakeDeep.hostMem = s.hostMem := by rw [s.wakeDeep_eq]
@[simp] theorem State.wakeDeep_pending (s : State) : s.wakeDeep.pending = s.pending := by rw [s.wakeDeep_eq]

end Sys2Proof.Machine
end

