-- ==== Sys2Proof/Laws/Course.lean ====
section
/-! SUPPORT. What a descriptor's command does from a state that is ready for it, and what the named updates of a partition, a
ring and a list read back. -/

namespace Sys2Proof.Machine

/-! ### Lists -/

/-- Reading a list after one of its elements is changed. -/
theorem getD_updAt {α : Type} (l : List α) (i j : Nat) (f : α → α) (d : α) :
    (updAt l i f).getD j d = if j = i ∧ i < l.length then f (l.getD j d) else l.getD j d := by
  simp only [updAt, List.getD, List.getElem?_modify]
  by_cases h : j = i
  · subst h
    by_cases h2 : j < l.length <;> simp [h2]
  · have : ¬ i = j := fun x => h x.symm
    simp [h, this]

/-- The bits of a mask of tile numbers. -/
theorem testBit_maskOf (l : List Nat) (i : Nat) : (maskOf l).testBit i = l.contains i := by
  have h : ∀ (l : List Nat) (a : Nat), (l.foldl (fun a t => a ||| 1 <<< t) a).testBit i = (a.testBit i || l.contains i) := by
    intro l
    induction l with
    | nil => simp
    | cons x l ih =>
      intro a
      rw [List.foldl_cons, ih, Nat.testBit_or, Nat.one_shiftLeft, Nat.testBit_two_pow, List.contains_cons]
      by_cases h : x = i
      · simp [h]
      · have : (i == x) = false := beq_eq_false_iff_ne.mpr fun e => h e.symm
        simp [h, this]
  simpa [maskOf] using h l 0

/-! ### Parts and rings -/

/-- Reading a partition after one is changed. -/
theorem State.part_onPart (s : State) (p q : Nat) (f : Part → Part) :
    (s.onPart p f).part q = if q = p ∧ p < s.parts.length then f (s.part q) else s.part q :=
  getD_updAt _ _ _ _ _

/-- Reading a submission queue after one is changed. -/
theorem State.sq_onSq (s : State) (p q x y : Nat) (f : Sq → Sq) : (s.onSq p q f).sq x y =
    if x = p ∧ p < s.parts.length ∧ y = q ∧ q < (s.part p).host.sqs.length then f (s.sq x y) else s.sq x y := by
  simp only [State.onSq, State.onHost, State.sq, State.part_onPart]
  split
  · rename_i h
    obtain ⟨rfl, h⟩ := h
    simp only [getD_updAt, h, true_and]
  · rename_i h
    rw [if_neg (fun h2 => h ⟨h2.1, h2.2.1⟩)]

/-- Reading a completion queue after one is changed. -/
theorem State.cq_onCq (s : State) (p q x y : Nat) (f : Cq → Cq) : (s.onCq p q f).cq x y =
    if x = p ∧ p < s.parts.length ∧ y = q ∧ q < (s.part p).host.cqs.length then f (s.cq x y) else s.cq x y := by
  simp only [State.onCq, State.onHost, State.cq, State.part_onPart]
  split
  · rename_i h
    obtain ⟨rfl, h⟩ := h
    simp only [getD_updAt, h, true_and]
  · rename_i h
    rw [if_neg (fun h2 => h ⟨h2.1, h2.2.1⟩)]

/-- Events to several partitions change the partitions alone. -/
theorem State.foldl_raise (l : List Nat) (code : Nat) (data : List Byte) (s : State) :
    ∃ ps, l.foldl (fun t p => t.raise p code data) s = { s with parts := ps } := by
  induction l generalizing s with
  | nil => exact ⟨s.parts, rfl⟩
  | cons x xs ih =>
    obtain ⟨ps, h⟩ := ih (s.raise x code data)
    exact ⟨ps, by simpa using h⟩

/-- A change of the field block with its PTP state's event changes the block and the partitions' event rings alone. -/
theorem State.onPtp_eq (s : State) (f : Field → Field) : ∃ ps, s.onPtp f = { s with field := f s.field, parts := ps } := by
  unfold State.onPtp
  dsimp only
  split <;> exact ⟨_, rfl⟩

/-! ### Descriptors -/

variable {s : State} {r : DescRef} {d : Desc} {mine : Desc → Bool}

/-- A ready descriptor of the row whose own checks pass opens and ends. -/
theorem State.runDesc_ready (h : s.Ready r d) {c : Course} (hm : mine d = true) (hc : c.check s r.part d = none) :
    s.runDesc r mine c = (c.opens (s.started r.part d) r.part d).finish r.part d c := by
  simp [State.runDesc, h.fetched, hm, h.unstarted, h.mayStart, h.checks, hc, h.toEnd]

/-- A started descriptor whose operation answers ends with that outcome. -/
theorem State.finish_done {c : Course} {t : State} {o : Done} {p : Nat} (h : c.run (s.atWork p d) p d = .ok (t, o)) :
    s.finish p d c = s.afterWork t p d o := by
  unfold State.atWork at h
  simp only [State.finish, h, State.afterWork]

/-- A ready descriptor of the row whose own checks pass and whose operation answers completes with its outcome. -/
theorem State.runDesc_done (h : s.Ready r d) {c : Course} {t u : State} {o : Done} (hm : mine d = true)
    (hc : c.check s r.part d = none) (hu : c.opens (s.started r.part d) r.part d = u)
    (hr : c.run (u.atWork r.part d) r.part d = .ok (t, o)) : s.runDesc r mine c = u.afterWork t r.part d o := by
  rw [State.runDesc_ready h hm hc, hu, State.finish_done hr]

/-- A ready descriptor of the row whose own checks pass is carried out at its start. -/
theorem State.startDesc_ready (h : s.Ready r d) {ck : State → Nat → Desc → Option Fail} {go : State → Nat → Desc → State}
    (hm : mine d = true) (hc : ck s r.part d = none) : s.startDesc r mine ck go = go (s.started r.part d) r.part d := by
  simp [State.startDesc, h.fetched, hm, h.unstarted, h.mayStart, h.checks, hc]

/-- A ready descriptor of the row whose own checks fail completes with their status. -/
theorem State.startDesc_barred (h : s.Ready r d) {ck : State → Nat → Desc → Option Fail} {go : State → Nat → Desc → State} {f : Fail}
    (hm : mine d = true) (hc : ck s r.part d = some f) : s.startDesc r mine ck go = s.failDesc r.part d f := by
  simp [State.startDesc, h.fetched, hm, h.unstarted, h.mayStart, h.checks, hc]

/-- A ready KV command of a partition in which no STEP runs. -/
theorem State.runKv_ready (h : s.Ready r d) (h2 : (s.part r.part).running = []) {off : Nat}
    {names : Kv → Desc → List Nat} {c : Course} (hm : mine d = true) (hc : c.check s r.part d = none) :
    s.runKv r mine off names c = (c.opens (s.started r.part d) r.part d).finish r.part d c := by
  unfold State.runKv
  simp only [h.fetched, h2]
  rw [State.runDesc_ready h hm hc]
  cases s.kv? r.part (d.fld off 1 % 16) <;> simp

/-- The start of a hub-run descriptor marks it started, and changes nothing else. -/
theorem State.started_hub (s : State) (p : Nat) (d : Desc) (h : d.engine = 0xFF) :
    s.started p d = s.onPart p (fun q => { q with fetched := q.fetched.map (fun e =>
      if e.num == d.num then { e with startedAt := some s.now } else e) }) := by
  simp [State.started, Desc.engineRun, h]

/-- It leaves the counters. -/
theorem State.counter_started (s : State) (p c : Nat) (d : Desc) (h : d.engine = 0xFF) :
    (s.started p d).counter p c = s.counter p c := by
  rw [State.started_hub _ _ _ h]
  simp only [State.counter, State.part_onPart]
  split <;> rfl

/-- It leaves the acts. -/
theorem State.act_started (s : State) (p n : Nat) (d : Desc) (h : d.engine = 0xFF) : (s.started p d).act p n = s.act p n := by
  rw [State.started_hub _ _ _ h]
  simp only [State.act, State.part_onPart]
  split <;> rfl

/-- It takes no module time. -/
theorem State.now_started (s : State) (p : Nat) (d : Desc) (h : d.engine = 0xFF) : (s.started p d).now = s.now := by
  rw [State.started_hub _ _ _ h]
  rfl

end Sys2Proof.Machine
end

