-- ==== Sys2Proof/Laws/Memory.lean ====
section
/-! SUPPORT. Byte memories keep their canonical form under every operation, and what keeps the invariant of `Safety`. -/

namespace Sys2Proof.Machine

/-- A memory in form from `lo` on is in form from any lower bound on. -/
theorem cellsFrom_mono {lo lo' : Nat} (h : lo' ≤ lo) {m : Cells} (hm : cellsFrom lo m = true) : cellsFrom lo' m = true := by
  cases m with
  | nil => rfl
  | cons c cs =>
    simp only [cellsFrom, Bool.and_eq_true, decide_eq_true_eq] at hm ⊢
    exact ⟨⟨Nat.le_trans h hm.1.1, hm.1.2⟩, hm.2⟩

/-- A write of one byte keeps the form from every bound at or below its address. -/
theorem cellsFrom_set {lo a : Nat} (b : Byte) {m : Cells} (hm : cellsFrom lo m = true) (ha : lo ≤ a) :
    cellsFrom lo (m.set a b) = true := by
  induction m generalizing lo with
  | nil =>
    unfold Cells.set
    split
    · rfl
    · rename_i hb
      simp [cellsFrom, ha, hb]
  | cons c cs ih =>
    have hm' := hm
    simp only [cellsFrom, Bool.and_eq_true, decide_eq_true_eq] at hm'
    unfold Cells.set
    split
    · rename_i hlt
      split
      · exact hm
      · rename_i hb
        have hc : a + 1 ≤ c.1 := hlt
        simp only [cellsFrom, Bool.and_eq_true, decide_eq_true_eq]
        exact ⟨⟨ha, by simpa using hb⟩, ⟨hc, hm'.1.2⟩, hm'.2⟩
    · rename_i hge
      split
      · rename_i heq
        split
        · exact cellsFrom_mono (by omega) hm'.2
        · rename_i hb
          simp only [cellsFrom, Bool.and_eq_true, decide_eq_true_eq]
          exact ⟨⟨ha, by simpa using hb⟩, heq ▸ hm'.2⟩
      · rename_i hne
        simp only [cellsFrom, Bool.and_eq_true, decide_eq_true_eq]
        exact ⟨hm'.1, ih hm'.2 (by omega)⟩

/-- A write of one byte keeps the canonical form. -/
theorem Cells.set_wf {m : Cells} (hm : m.wf = true) (a : Nat) (b : Byte) : (m.set a b).wf = true :=
  cellsFrom_set b hm (Nat.zero_le a)

/-- A write of a run of bytes keeps the canonical form. -/
theorem Cells.write_wf {m : Cells} (hm : m.wf = true) (a : Nat) (bs : List Byte) : (m.write a bs).wf = true := by
  induction bs generalizing m a with
  | nil => exact hm
  | cons b bs ih => exact ih (Cells.set_wf hm a b) (a + 1)

/-- What is left of a memory after some of its bytes are zeroed keeps the form. -/
theorem cellsFrom_filter {lo : Nat} {m : Cells} (f : Host.Cell → Bool) (hm : cellsFrom lo m = true) :
    cellsFrom lo (m.filter f) = true := by
  induction m generalizing lo with
  | nil => rfl
  | cons c cs ih =>
    simp only [cellsFrom, Bool.and_eq_true, decide_eq_true_eq] at hm
    rw [List.filter_cons]
    split
    · simp only [cellsFrom, Bool.and_eq_true, decide_eq_true_eq]
      exact ⟨hm.1, ih hm.2⟩
    · exact ih (cellsFrom_mono (by omega) hm.2)

/-- Zeroing a range keeps the canonical form. -/
theorem Cells.clear_wf {m : Cells} (hm : m.wf = true) (lo hi : Nat) : (m.clear lo hi).wf = true := cellsFrom_filter _ hm

/-- Storing bytes keeps the canonical form. -/
theorem MemSys.store_wf {m : MemSys} (hm : m.cells.wf = true) (pa : Nat) (bs : List Byte) : (m.store pa bs).cells.wf = true := by
  unfold MemSys.store
  generalize bs.zipIdx = l
  dsimp only
  generalize m.cells = c at hm
  induction l generalizing c with
  | nil => exact hm
  | cons x l ih =>
    rw [List.foldl_cons]
    apply ih
    split
    · exact Cells.set_wf hm _ _
    · exact hm

/-- Storing bytes in pieces keeps the canonical form. -/
theorem MemSys.storePieces_wf {m : MemSys} (hm : m.cells.wf = true) (ps : List (Nat × Nat)) (bs : List Byte) :
    (m.storePieces ps bs).cells.wf = true := by
  induction ps generalizing m bs with
  | nil => exact hm
  | cons c cs ih => exact ih (MemSys.store_wf hm _ _) _

/-- Zeroing a range of device memory keeps the canonical form. -/
theorem MemSys.zero_wf {m : MemSys} (hm : m.cells.wf = true) (lo hi : Nat) : (m.zero lo hi).cells.wf = true :=
  Cells.clear_wf hm lo hi

/-- A change of a port leaves the bytes as they are. -/
@[simp] theorem MemSys.onPort_cells (m : MemSys) (i : Nat) (f : MemPort → MemPort) : (m.onPort i f).cells = m.cells := by
  unfold MemSys.onPort; split <;> rfl

/-- A poison mark leaves the bytes as they are. -/
@[simp] theorem MemSys.poisonWord_cells (m : MemSys) (pa : Nat) : (m.poisonWord pa).cells = m.cells := by
  unfold MemSys.poisonWord; split <;> rfl

/-- The invariant of a state written out. -/
theorem State.inv_mk (now fresh racing boot power thermal fabric mem host sec health links field video mon pair parts hostMem pending) :
    State.Inv ⟨now, fresh, racing, boot, power, thermal, fabric, mem, host, sec, health, links, field, video, mon, pair, parts, hostMem,
      pending⟩ ↔ (mem.cells.wf = true ∧ hostMem.wf = true) := Iff.rfl

/-- A state whose memories are those of another, device memory but for what keeps its form. -/
theorem State.Inv.fold {s : State} {m : Cells} (h : s.Inv) (hm : s.mem.cells.wf = true → m.wf = true) :
    m.wf = true ∧ s.hostMem.wf = true := ⟨hm h.1, h.2⟩

/-- A sequence of changes that each keep the invariant keeps it. -/
theorem State.foldl_inv {α : Type} (f : State → α → State) (l : List α) {s : State} (h : s.Inv)
    (hf : ∀ t x, t.Inv → (f t x).Inv) : (l.foldl f s).Inv := by
  induction l generalizing s with
  | nil => exact h
  | cons x l ih => exact ih (hf s x h)

/-- The same for changes that carry something along. -/
theorem State.foldl_inv_fst {α β : Type} (f : State × β → α → State × β) (l : List α) {a : State × β} (h : a.1.Inv)
    (hf : ∀ b x, b.1.Inv → (f b x).1.Inv) : (l.foldl f a).1.Inv := by
  induction l generalizing a with
  | nil => exact h
  | cons x l ih => exact ih (hf a x h)

/-! ### What a computation that can fail gives -/

/-- An `if` between two states that keep the invariant. -/
theorem State.ite_inv {c : Prop} [Decidable c] {a b : State} (ha : a.Inv) (hb : b.Inv) : (if c then a else b).Inv := by
  split
  · exact ha
  · exact hb

/-- Every value that a computation gives satisfies P. -/
def okSat {ε α : Type} (P : α → Prop) (x : Except ε α) : Prop := ∀ a, x = .ok a → P a

/-- The value satisfies P where there is one. -/
def someSat {α : Type} (P : α → Prop) (x : Option α) : Prop := ∀ a, x = some a → P a

theorem okSat.ok {ε α : Type} {P : α → Prop} {a : α} (h : P a) : okSat P (.ok a : Except ε α) := by
  intro b hb; cases hb; exact h

theorem okSat.error {ε α : Type} {P : α → Prop} {e : ε} : okSat P (.error e : Except ε α) := by
  intro b hb; cases hb

theorem okSat.bind {ε α β : Type} {P : β → Prop} {x : Except ε α} {f : α → Except ε β} (h : ∀ a, x = .ok a → okSat P (f a)) :
    okSat P (x >>= f) := by
  intro b hb
  cases x with
  | error e => cases hb
  | ok a => exact h a rfl b hb

theorem okSat.bind' {ε α β : Type} {P : β → Prop} {x : Except ε α} {f : α → Except ε β} (h : ∀ a, x = .ok a → okSat P (f a)) :
    okSat P (x.bind f) := okSat.bind h

theorem okSat.map {ε α β : Type} {P : β → Prop} {x : Except ε α} {f : α → β} (h : ∀ a, x = .ok a → P (f a)) :
    okSat P (x.map f) := by
  intro b hb
  cases x with
  | error e => cases hb
  | ok a => cases hb; exact h a rfl

/-- The state that a computation gives. -/
theorem okSat.state {ε : Type} {x : Except ε State} {t : State} (h : okSat State.Inv x) (he : x = .ok t) : t.Inv := h _ he

/-- A success is one state only. -/
theorem okSat.same {t u : State} (h : t.Inv) (he : (.ok t : Except Fail State) = .ok u) : u.Inv := by
  cases he
  exact h

/-- The state in the pair that a computation gives. -/
theorem okSat.pair {ε β : Type} {x : Except ε (State × β)} {r : State × β} (h : okSat (fun r => r.1.Inv) x)
    (he : x = .ok r) : r.1.Inv := h _ he

/-- The same where the pair is taken apart. -/
theorem okSat.fst {ε β : Type} {x : Except ε (State × β)} {t : State} {b : β} (h : okSat (fun r => r.1.Inv) x)
    (he : x = .ok (t, b)) : t.Inv := h _ he

theorem someSat.some {α : Type} {P : α → Prop} {a : α} (h : P a) : someSat P (some a) := by
  intro b hb; cases hb; exact h

theorem someSat.none {α : Type} {P : α → Prop} : someSat P (none : Option α) := by
  intro b hb; cases hb

theorem someSat.map {α β : Type} {P : β → Prop} {x : Option α} {f : α → β} (h : ∀ a, x = Option.some a → P (f a)) :
    someSat P (x.map f) := by
  intro b hb
  cases x with
  | none => cases hb
  | some a => cases hb; exact h a rfl

/-- The state that is found. -/
theorem someSat.state {x : Option State} {t : State} (h : someSat State.Inv x) (he : x = Option.some t) : t.Inv := h _ he

/-- The state in the pair that is found. -/
theorem someSat.pair {β : Type} {x : Option (State × β)} {r : State × β} (h : someSat (fun r => r.1.Inv) x)
    (he : x = Option.some r) : r.1.Inv := h _ he

/-- The same where the pair is taken apart. -/
theorem someSat.fst {β : Type} {x : Option (State × β)} {t : State} {b : β} (h : someSat (fun r => r.1.Inv) x)
    (he : x = Option.some (t, b)) : t.Inv := h _ he

/-- A course of a descriptor keeps the invariant: its opening, its run and what a failure leaves do. -/
structure Course.Keeps (c : Course) : Prop where
  /-- The opening does -/
  opens : ∀ s p d, s.Inv → (c.opens s p d).Inv
  /-- The run does where it succeeds -/
  run : ∀ s p d, s.Inv → okSat (fun r => r.1.Inv) (c.run s p d)
  /-- What a failure leaves does -/
  leaves : ∀ s p d f, s.Inv → (c.leaves s p d f).Inv

end Sys2Proof.Machine
end

