-- ==== Sys2Proof/Laws/Inv1.lean ====
section
/-! SUPPORT. Every operation and meaning of these files of Machine keeps the memories in canonical form (`State.Inv`): State, Access, Virtual, Operands, LinkTx, Score, Ops, Tensor, Kv. -/

namespace Sys2Proof.Machine

/-! ### State -/

theorem State.reset_inv : State.reset.Inv := ⟨rfl, rfl⟩

/-! ### Access -/

theorem State.onPart_inv {s : State} (hs : s.Inv) (p : Nat) (f : Part → Part) : (s.onPart p f).Inv := by
  unfold State.onPart
  repeat' (with_reducible first | assumption | apply State.Inv.fold | (simp only [State.inv_mk]) | exact fun h => h)

theorem State.onHost_inv {s : State} (hs : s.Inv) (p : Nat) (f : PartHost → PartHost) : (s.onHost p f).Inv := by
  unfold State.onHost
  repeat' (with_reducible first | assumption | apply State.onPart_inv)

theorem State.onSec_inv {s : State} (hs : s.Inv) (p : Nat) (f : PartSec → PartSec) : (s.onSec p f).Inv := by
  unfold State.onSec
  repeat' (with_reducible first | assumption | apply State.onPart_inv)

theorem State.onEvt_inv {s : State} (hs : s.Inv) (p : Nat) (f : EvtRing → EvtRing) : (s.onEvt p f).Inv := by
  unfold State.onEvt
  repeat' (with_reducible first | assumption | apply State.onHost_inv)

theorem State.onSq_inv {s : State} (hs : s.Inv) (p q : Nat) (f : Sq → Sq) : (s.onSq p q f).Inv := by
  unfold State.onSq
  repeat' (with_reducible first | assumption | apply State.onHost_inv)

theorem State.onCq_inv {s : State} (hs : s.Inv) (p c : Nat) (f : Cq → Cq) : (s.onCq p c f).Inv := by
  unfold State.onCq
  repeat' (with_reducible first | assumption | apply State.onHost_inv)

theorem State.onAct_inv {s : State} (hs : s.Inv) (p n : Nat) (f : ActSlot → ActSlot) : (s.onAct p n f).Inv := by
  unfold State.onAct
  repeat' (with_reducible first | assumption | apply State.onPart_inv)

theorem State.onTile_inv {s : State} (hs : s.Inv) (t : Nat) (f : Tile → Tile) : (s.onTile t f).Inv := by
  unfold State.onTile
  repeat' (with_reducible first | assumption | apply State.Inv.fold | (simp only [State.inv_mk]) | exact fun h => h)

theorem State.onDom_inv {s : State} (hs : s.Inv) (k : Nat) (f : Domain → Domain) : (s.onDom k f).Inv := by
  unfold State.onDom
  repeat' (with_reducible first | assumption | apply State.Inv.fold | (simp only [State.inv_mk]) | exact fun h => h)

theorem State.onChan_inv {s : State} (hs : s.Inv) (c : Nat) (f : Channel → Channel) : (s.onChan c f).Inv := by
  unfold State.onChan
  repeat' (with_reducible first | assumption | apply State.Inv.fold | (simp only [State.inv_mk]) | exact fun h => h)

theorem State.onLp_inv {s : State} (hs : s.Inv) (n : Nat) (f : LinkPort → LinkPort) : (s.onLp n f).Inv := by
  unfold State.onLp
  repeat' (with_reducible first | assumption | apply State.Inv.fold | (simp only [State.inv_mk]) | exact fun h => h)

theorem State.onUnit_inv {s : State} (hs : s.Inv) (kind unit : Nat) (f : Unit → Unit) : (s.onUnit kind unit f).Inv := by
  unfold State.onUnit
  repeat' (with_reducible first | assumption | apply State.Inv.fold | (simp only [State.inv_mk]) | exact fun h => h)

theorem State.progress_inv {s : State} (hs : s.Inv) (kind unit : Nat) : (s.progress kind unit).Inv := by
  unfold State.progress
  repeat' (with_reducible first | assumption | apply State.onUnit_inv)

theorem State.forEach_inv {α : Type} {s : State} (hs : s.Inv) (l : List α) (f : State → α → State)
    (hf : ∀ t a, t.Inv → (f t a).Inv) : (s.forEach l f).Inv := State.foldl_inv f l hs hf

theorem State.crcUnbind_inv {s : State} (hs : s.Inv) (a1 : CrcCtx) : (s.crcUnbind a1).Inv := by
  unfold State.crcUnbind
  repeat' (with_reducible first | assumption | apply State.Inv.fold | (simp only [State.inv_mk]) | exact fun h => h)

theorem State.tick_inv {s : State} (hs : s.Inv) : (s.tick).Inv := by
  unfold State.tick
  repeat' (with_reducible first | assumption | apply State.Inv.fold | (simp only [State.inv_mk]) | exact fun h => h)

/-! ### Virtual -/

theorem State.writePieces_inv {s : State} (hs : s.Inv) (p : Nat) (ps : List (Nat × Nat)) (bs : List Byte) : okSat State.Inv
    (s.writePieces p ps bs) := by
  unfold State.writePieces
  repeat' (with_reducible first
    | assumption | apply okSat.ok | apply okSat.error | apply State.Inv.fold | (simp only [State.inv_mk])
    | (intro hm; first | exact MemSys.store_wf hm _ _ | exact MemSys.storePieces_wf hm _ _ | exact MemSys.zero_wf hm _ _ | simpa using hm)
    | (split <;> try dsimp only))

theorem State.writeVa_inv {s : State} (hs : s.Inv) (p : Nat) (src : Option Nat) (slot va : Nat) (bs : List Byte)
    : okSat State.Inv (s.writeVa p src slot va bs) := by
  unfold State.writeVa
  repeat' (with_reducible first | assumption | apply State.writePieces_inv | apply okSat.error | (split <;> try dsimp only))

theorem State.tryWriteVa_inv {s : State} (hs : s.Inv) (p va : Nat) (bs : List Byte) : (s.tryWriteVa p va bs).Inv := by
  unfold State.tryWriteVa
  repeat' (with_reducible first
    | assumption | refine okSat.state (State.writePieces_inv ?_ _ _ _) (by assumption) | (split <;> try dsimp only))

theorem State.spoil_inv {s : State} (hs : s.Inv) (p : Nat) (src : Option Nat) (va len : Nat) : (s.spoil p src va len).Inv := by
  unfold State.spoil
  repeat' (with_reducible first
    | assumption | apply State.Inv.fold | (simp only [State.inv_mk])
    | (intro hm; first | exact MemSys.store_wf hm _ _ | exact MemSys.storePieces_wf hm _ _ | exact MemSys.zero_wf hm _ _ | simpa using hm)
    | (split <;> try dsimp only))

theorem State.moveSome_inv {s : State} (hs : s.Inv) (p : Nat) (src : Option Nat) (va : Nat) (l : List Byte) :
    (s.moveSome p src va l).Inv := by
  induction l generalizing s va with
  | nil => exact hs
  | cons b bs ih =>
    unfold State.moveSome
    split
    · exact ih hs _
    · refine ih ?_ _
      split
      · exact ⟨MemSys.storePieces_wf hs.1 _ _, hs.2⟩
      · exact hs

theorem State.copySome_inv {s : State} (hs : s.Inv) (p : Nat) (src : Option Nat) (sv va n : Nat) :
    (s.copySome p src sv va n).Inv := by
  induction n generalizing s sv va with
  | zero => exact hs
  | succ n ih =>
    unfold State.copySome
    split
    · exact ih hs _ _
    · exact ih (State.moveSome_inv hs _ _ _ _) _ _

theorem State.taint_inv {s : State} (hs : s.Inv) (p va len : Nat) : (s.taint p va len).Inv := by
  have hf : ∀ (l : List Nat) (m : MemSys), m.cells.wf = true → (l.foldl (fun m w => m.poisonWord w) m).cells.wf = true := by
    intro l
    induction l with
    | nil => exact fun m hm => hm
    | cons x l ih => exact fun m hm => ih _ (by simpa using hm)
  exact ⟨hf _ _ hs.1, hs.2⟩

/-! ### Operands -/

theorem State.writeRows_inv {s : State} (hs : s.Inv) (p : Nat) (src : Option Nat) (slot : Nat) (l : List (Nat × List Byte)) :
    okSat State.Inv (State.writeRows s p src slot l) := by
  induction l generalizing s with
  | nil => exact okSat.ok hs
  | cons x xs ih =>
    unfold State.writeRows
    exact okSat.bind fun t ht => ih (okSat.state (State.writeVa_inv hs _ _ _ _ _) ht)

theorem State.writeTensor_inv {s : State} (hs : s.Inv) (p : Nat) (src : Option Nat) (slot : Nat) (t : Tensor) : okSat State.Inv
    (s.writeTensor p src slot t) := by
  unfold State.writeTensor
  repeat' (with_reducible first | assumption | apply State.writeRows_inv)

/-! ### LinkTx -/

theorem State.sendHello_inv {s : State} (hs : s.Inv) (n : Nat) : (s.sendHello n).Inv := by
  unfold State.sendHello
  repeat' (with_reducible first | assumption | apply State.onLp_inv)

theorem State.linkSend_inv {s : State} (hs : s.Inv) (n vc : Nat) (msg : List Byte) : (s.linkSend n vc msg).Inv := by
  unfold State.linkSend
  repeat' (with_reducible first | assumption | apply State.onLp_inv)

theorem State.sendAbort_inv {s : State} (hs : s.Inv) (p : Nat) (d : Desc) : (s.sendAbort p d).Inv := by
  unfold State.sendAbort
  repeat' (with_reducible first
    | assumption | apply State.linkSend_inv | apply State.foldl_inv | (intro _; intros; try dsimp only)
    | (split <;> try dsimp only))

/-! ### Score -/

theorem State.rescore_inv {s : State} (hs : s.Inv) : (s.rescore).Inv := by
  unfold State.rescore
  repeat' (with_reducible first | assumption | apply State.Inv.fold | (simp only [State.inv_mk]) | exact fun h => h)

/-! ### Ops -/

theorem State.hostWrite_inv {s : State} (hs : s.Inv) (addr : Nat) (bs : List Byte) : (s.hostWrite addr bs).Inv := by
  unfold State.hostWrite
  split
  · exact ⟨hs.1, Cells.write_wf hs.2 _ _⟩
  · exact hs

theorem State.hostWriteAs_inv {s : State} (hs : s.Inv) (p addr : Nat) (bs : List Byte) : (s.hostWriteAs p addr bs).Inv := by
  unfold State.hostWriteAs
  repeat' (with_reducible first | assumption | apply State.hostWrite_inv | (split <;> try dsimp only))

theorem State.countRdErr_inv {s : State} (hs : s.Inv) (p : Nat) : (s.countRdErr p).Inv := by
  unfold State.countRdErr
  repeat' (with_reducible first
    | assumption | apply State.onHost_inv | apply State.Inv.fold | (simp only [State.inv_mk]) | exact fun h => h)

theorem State.putUnit_inv {s : State} (hs : s.Inv) (p kind num unit : Nat) (clear : Option Nat) (addr sealAt : Nat) (bs
    : List Byte) : (s.putUnit p kind num unit clear addr sealAt bs).Inv := by
  unfold State.putUnit
  repeat' (with_reducible first | assumption | apply State.onSec_inv | apply State.hostWriteAs_inv | (split <;> try dsimp only))

theorem State.putRegion_inv {s : State} (hs : s.Inv) (p num addr : Nat) (bs : List Byte) : (s.putRegion p num addr bs).Inv := by
  unfold State.putRegion
  repeat' (with_reducible first
    | assumption | apply State.putUnit_inv | apply State.hostWrite_inv | apply State.foldl_inv
    | (intro _; intros; try dsimp only) | (split <;> try dsimp only))

theorem State.raiseAt_inv {s : State} (hs : s.Inv) (p code subject time : Nat) (data : List Byte) :
    (s.raiseAt p code subject time data).Inv := by
  unfold State.raiseAt
  repeat' (with_reducible first | assumption | apply State.onEvt_inv)

theorem State.raise_inv {s : State} (hs : s.Inv) (p code : Nat) (data : List Byte) : (s.raise p code data).Inv := by
  unfold State.raise
  repeat' (with_reducible first | assumption | apply State.raiseAt_inv)

theorem State.raisePf_inv {s : State} (hs : s.Inv) (p code : Nat) (data : List Byte) : (s.raisePf p code data).Inv := by
  unfold State.raisePf
  repeat' (with_reducible first | assumption | apply State.raiseAt_inv)

theorem State.raiseBoth_inv {s : State} (hs : s.Inv) (p code : Nat) (data : List Byte) : (s.raiseBoth p code data).Inv := by
  unfold State.raiseBoth
  repeat' (with_reducible first | assumption | apply State.raise_inv | apply State.raisePf_inv | (split <;> try dsimp only))

theorem State.raiseLive_inv {s : State} (hs : s.Inv) (code : Nat) (data : List Byte) : (s.raiseLive code data).Inv := by
  unfold State.raiseLive
  repeat' (with_reducible first
    | assumption | apply State.raise_inv | apply State.foldl_inv | (intro _; intros; try dsimp only))

theorem State.raiseMem_inv {s : State} (hs : s.Inv) (code pa : Nat) : (s.raiseMem code pa).Inv := by
  unfold State.raiseMem
  repeat' (with_reducible first | assumption | apply State.raiseBoth_inv | apply State.raisePf_inv | (split <;> try dsimp only))

theorem State.alert_inv {s : State} (hs : s.Inv) (bit : Nat) : (s.alert bit).Inv := by
  unfold State.alert
  repeat' (with_reducible first | assumption | apply State.Inv.fold | (simp only [State.inv_mk]) | exact fun h => h)

theorem State.appendHealth_inv {s : State} (hs : s.Inv) (r : HealthRec) : (s.appendHealth r).Inv := by
  unfold State.appendHealth
  repeat' (with_reducible first
    | assumption | apply State.raisePf_inv | apply State.Inv.fold | (simp only [State.inv_mk]) | exact fun h => h)

theorem State.logHealth_inv {s : State} (hs : s.Inv) (kind unitKind unit part detail : Nat) :
    (s.logHealth kind unitKind unit part detail).Inv := by
  unfold State.logHealth
  repeat' (with_reducible first | assumption | apply State.appendHealth_inv)

theorem State.logOpen_inv {s : State} (hs : s.Inv) (kind unitKind unit part : Nat) :
    (s.logOpen kind unitKind unit part).Inv := by
  unfold State.logOpen
  repeat' (with_reducible first | assumption | apply State.tick_inv | apply State.logHealth_inv)

theorem State.wantRun_inv {s : State} (hs : s.Inv) : (s.wantRun).Inv := by
  unfold State.wantRun
  repeat' (with_reducible first
    | assumption | apply State.onDom_inv | apply State.foldl_inv | (intro _; intros; try dsimp only)
    | (split <;> try dsimp only))

theorem State.wakeDeep_inv {s : State} (hs : s.Inv) : (s.wakeDeep).Inv := by
  unfold State.wakeDeep
  repeat' (with_reducible first | assumption | apply State.wantRun_inv | (split <;> try dsimp only))

theorem State.setModule_inv {s : State} (hs : s.Inv) (st : ModSt) : (s.setModule st).Inv := by
  unfold State.setModule
  repeat' (with_reducible first
    | assumption | apply State.raise_inv | apply State.Inv.fold | (simp only [State.inv_mk]) | exact fun h => h
    | (split <;> try dsimp only))

theorem State.reviewDown_inv {s : State} (hs : s.Inv) : (s.reviewDown).Inv := by
  unfold State.reviewDown
  repeat' (with_reducible first | assumption | apply State.setModule_inv | (split <;> try dsimp only))

theorem State.reviewUp_inv {s : State} (hs : s.Inv) : (s.reviewUp).Inv := by
  unfold State.reviewUp
  repeat' (with_reducible first | assumption | apply State.setModule_inv | (split <;> try dsimp only))

theorem State.healthLow_inv {s : State} (hs : s.Inv) : (s.healthLow).Inv := by
  unfold State.healthLow
  repeat' (with_reducible first | assumption | apply State.raise_inv | apply State.alert_inv)

theorem State.checkExpel_inv {s : State} (hs : s.Inv) : (s.checkExpel).Inv := by
  unfold State.checkExpel
  repeat' (with_reducible first
    | assumption | apply State.healthLow_inv | apply State.Inv.fold | (simp only [State.inv_mk]) | exact fun h => h
    | (split <;> try dsimp only))

theorem State.reviewHealth_inv {s : State} (hs : s.Inv) (forced : Bool) : (s.reviewHealth forced).Inv := by
  unfold State.reviewHealth
  repeat' (with_reducible first
    | assumption | apply State.rescore_inv | apply State.checkExpel_inv | apply State.healthLow_inv
    | (split <;> try dsimp only))

theorem State.settleTile_inv {s : State} (hs : s.Inv) (t : Nat) : (s.settleTile t).Inv := by
  unfold State.settleTile
  dsimp only
  repeat' (with_reducible first | assumption | apply State.tick_inv | apply State.onTile_inv | (split <;> try dsimp only))

theorem State.settleDom_inv {s : State} (hs : s.Inv) (k : Nat) : (s.settleDom k).Inv := by
  unfold State.settleDom
  repeat' (with_reducible first
    | assumption | apply State.settleTile_inv | apply State.foldl_inv | (intro _; intros; try dsimp only))

theorem State.chargeItem_inv {s : State} (hs : s.Inv) (t : Nat) : (s.chargeItem t).Inv := by
  unfold State.chargeItem
  dsimp only
  repeat' (with_reducible first
    | assumption | apply State.settleTile_inv | apply State.onPart_inv | apply State.onTile_inv | (split <;> try dsimp only))

theorem State.raiseTile_inv {s : State} (hs : s.Inv) (t code : Nat) (data : List Byte) : (s.raiseTile t code data).Inv := by
  unfold State.raiseTile
  repeat' (with_reducible first | assumption | apply State.raiseBoth_inv | apply State.raise_inv | (split <;> try dsimp only))

theorem State.noteShrunk_inv {s : State} (hs : s.Inv) (p i : Nat) : (s.noteShrunk p i).Inv := by
  unfold State.noteShrunk
  repeat' (with_reducible first | assumption | apply State.onPart_inv | apply State.raiseBoth_inv | (split <;> try dsimp only))

theorem State.fenceTile_inv {s : State} (hs : s.Inv) (t reason : Nat) : (s.fenceTile t reason).Inv := by
  unfold State.fenceTile
  repeat' (with_reducible first
    | assumption | apply State.chargeItem_inv | apply State.onTile_inv | apply State.onUnit_inv | apply State.noteShrunk_inv
    | apply State.raiseTile_inv | apply State.reviewHealth_inv | apply State.reviewDown_inv | apply State.logOpen_inv
    | (split <;> try dsimp only))

theorem State.settleFence_inv {s : State} (hs : s.Inv) (t : Nat) : (s.settleFence t).Inv := by
  unfold State.settleFence
  repeat' (with_reducible first | assumption | apply State.fenceTile_inv | (split <;> try dsimp only))

theorem State.postPresence_inv {s : State} (hs : s.Inv) (p : Nat) : (s.postPresence p).Inv := by
  unfold State.postPresence
  repeat' (with_reducible first | assumption | apply State.hostWriteAs_inv | (split <;> try dsimp only))

theorem State.doorbell_inv {s : State} (hs : s.Inv) (p : Nat) : (s.doorbell p).Inv := by
  unfold State.doorbell
  repeat' (with_reducible first | assumption | apply State.onHost_inv)

theorem State.trigger_inv {s : State} (hs : s.Inv) (p : Nat) : (s.trigger p).Inv := by
  unfold State.trigger
  repeat' (with_reducible first | assumption | apply State.doorbell_inv | (split <;> try dsimp only))

theorem State.endDoze_inv {s : State} (hs : s.Inv) (p : Nat) : (s.endDoze p).Inv := by
  unfold State.endDoze
  repeat' (with_reducible first
    | assumption | apply State.onHost_inv | apply State.doorbell_inv | apply State.postPresence_inv
    | (split <;> try dsimp only))

theorem State.noteQuiet_inv {s : State} (hs : s.Inv) (p : Nat) : (s.noteQuiet p).Inv := by
  unfold State.noteQuiet
  repeat' (with_reducible first | assumption | apply State.onHost_inv)

theorem State.sqError_inv {s : State} (hs : s.Inv) (p q cause : Nat) : (s.sqError p q cause).Inv := by
  unfold State.sqError
  repeat' (with_reducible first | assumption | apply State.raiseBoth_inv | apply State.onSq_inv | (split <;> try dsimp only))

theorem State.cqError_inv {s : State} (hs : s.Inv) (p c cause : Nat) : (s.cqError p c cause).Inv := by
  unfold State.cqError
  repeat' (with_reducible first
    | assumption | apply State.onCq_inv | apply State.raiseBoth_inv | apply State.sqError_inv | apply State.foldl_inv
    | (intro _; intros; try dsimp only) | (split <;> try dsimp only))

theorem State.evtError_inv {s : State} (hs : s.Inv) (p cause : Nat) : (s.evtError p cause).Inv := by
  unfold State.evtError
  repeat' (with_reducible first | assumption | apply State.raisePf_inv | apply State.onEvt_inv | (split <;> try dsimp only))

theorem State.allRingsError_inv {s : State} (hs : s.Inv) (p cause : Nat) : (s.allRingsError p cause).Inv := by
  unfold State.allRingsError
  repeat' (with_reducible first
    | assumption | apply State.cqError_inv | apply State.sqError_inv | apply State.evtError_inv | apply State.foldl_inv
    | (intro _; intros; try dsimp only))

theorem State.writeRecord_inv {s : State} (hs : s.Inv) (p : Nat) (d : Desc) (st cflags result beats : Nat) :
    (s.writeRecord p d st cflags result beats).Inv := by
  unfold State.writeRecord
  dsimp only
  repeat' (with_reducible first
    | assumption | apply State.hostWriteAs_inv | apply State.putUnit_inv | apply State.onCq_inv | (split <;> try dsimp only))

theorem State.dropMedia_inv {s : State} (hs : s.Inv) (p num : Nat) (keep : Bool) : (s.dropMedia p num keep).Inv := by
  unfold State.dropMedia
  repeat' (with_reducible first | assumption | apply State.Inv.fold | (simp only [State.inv_mk]) | exact fun h => h)

theorem State.forget_inv {s : State} (hs : s.Inv) (p num st : Nat) : (s.forget p num st).Inv := by
  unfold State.forget
  repeat' (with_reducible first | assumption | apply State.onPart_inv | apply State.dropMedia_inv | apply State.crcUnbind_inv)

theorem State.leftItems_inv {s : State} (hs : s.Inv) (t : Nat) (items : List (Nat × Nat)) : (s.leftItems t items).Inv := by
  unfold State.leftItems
  dsimp only
  repeat' (with_reducible first
    | assumption | apply State.onTile_inv | apply State.progress_inv | apply State.settleFence_inv
    | (split <;> try dsimp only))

theorem State.dropItem_inv {s : State} (hs : s.Inv) (p num t : Nat) : (s.dropItem p num t).Inv := by
  unfold State.dropItem
  repeat' (with_reducible first
    | assumption | apply State.leftItems_inv | apply State.chargeItem_inv | apply State.onTile_inv
    | (split <;> try dsimp only))

theorem State.dropItems_inv {s : State} (hs : s.Inv) (p num : Nat) : (s.dropItems p num).Inv := by
  unfold State.dropItems
  repeat' (with_reducible first
    | assumption | apply State.dropItem_inv | apply State.foldl_inv | (intro _; intros; try dsimp only))

theorem State.closeBatch_inv {s : State} (hs : s.Inv) (p : Nat) : (s.closeBatch p).Inv := by
  unfold State.closeBatch
  repeat' (with_reducible first | assumption | apply State.doorbell_inv | apply State.endDoze_inv | (split <;> try dsimp only))

theorem State.inBatchOf_inv {s : State} (hs : s.Inv) (p c : Nat) : (s.inBatchOf p c).Inv := by
  unfold State.inBatchOf
  repeat' (with_reducible first | assumption | apply State.closeBatch_inv | apply State.onHost_inv | (split <;> try dsimp only))

theorem State.batched_inv {s : State} (hs : s.Inv) (p : Nat) (f : State → State) (hf : ∀ (v0 : State), v0.Inv → (f v0).Inv) :
    (s.batched p f).Inv := by
  unfold State.batched
  repeat' (with_reducible first
    | assumption | apply hf | apply State.onHost_inv | apply State.closeBatch_inv | apply State.foldl_inv
    | (intro _; intros; try dsimp only) | (split <;> try dsimp only))

theorem State.recordOut_inv {s : State} (hs : s.Inv) (p : Nat) (r : LateRec) : (s.recordOut p r).Inv := by
  unfold State.recordOut
  repeat' (with_reducible first | assumption | apply State.onCq_inv | apply State.writeRecord_inv)

theorem State.completeRing_inv {s : State} (hs : s.Inv) (p : Nat) (d : Desc) (o : Done) (beats : Nat) :
    (s.completeRing p d o beats).Inv := by
  unfold State.completeRing
  dsimp only
  repeat' (with_reducible first
    | assumption | apply State.forget_inv | apply State.onSq_inv | apply State.onHost_inv | apply State.noteQuiet_inv
    | apply State.recordOut_inv | apply State.inBatchOf_inv | (split <;> try dsimp only))

theorem State.spoilAll_inv {s : State} (hs : s.Inv) (p : Nat) (src : Option Nat) (l : List (Nat × Nat)) :
    (s.spoilAll p src l).Inv := by
  unfold State.spoilAll
  repeat' (with_reducible first
    | assumption | apply State.spoil_inv | apply State.foldl_inv | (intro _; intros; try dsimp only))

theorem State.spoilHost_inv {s : State} (hs : s.Inv) (l : List (Nat × Nat)) : (s.spoilHost l).Inv := by
  unfold State.spoilHost
  repeat' (with_reducible first
    | assumption | apply State.hostWrite_inv | apply State.foldl_inv | apply State.Inv.fold | (simp only [State.inv_mk])
    | (intro _; intros; try dsimp only))

theorem State.freeAct_inv {s : State} (hs : s.Inv) (p n cycles : Nat) : (s.freeAct p n cycles).Inv := by
  unfold State.freeAct
  repeat' (with_reducible first
    | assumption | apply State.onAct_inv | apply State.batched_inv | apply State.completeRing_inv | apply State.foldl_inv
    | (intro _; intros; try dsimp only) | (split <;> try dsimp only))

theorem State.actCheck_inv {s : State} (hs : s.Inv) (p n : Nat) : (s.actCheck p n).Inv := by
  unfold State.actCheck
  dsimp only
  repeat' (with_reducible first
    | assumption | apply State.spoilHost_inv | apply State.spoilAll_inv | apply State.batched_inv | apply State.freeAct_inv
    | apply State.completeRing_inv | apply State.noteQuiet_inv | (intro _; intros; try dsimp only)
    | (split <;> try dsimp only))

theorem State.complete_inv {s : State} (hs : s.Inv) (p : Nat) (d : Desc) (o : Done) : (s.complete p d o).Inv := by
  unfold State.complete
  repeat' (with_reducible first
    | assumption | apply State.dropItems_inv | apply State.sendAbort_inv | apply State.completeRing_inv
    | apply State.forget_inv | apply State.onAct_inv | apply State.actCheck_inv | (split <;> try dsimp only))

theorem State.completeNum_inv {s : State} (hs : s.Inv) (p num : Nat) (o : Done) : (s.completeNum p num o).Inv := by
  unfold State.completeNum
  repeat' (with_reducible first | assumption | apply State.complete_inv | (split <;> try dsimp only))

theorem State.note_inv {s : State} (hs : s.Inv) (p : Nat) (a2 : Fail) : (s.note p a2).Inv := by
  unfold State.note
  repeat' (with_reducible first
    | assumption | apply State.onPart_inv | apply State.raisePf_inv | apply State.raiseMem_inv | apply State.foldl_inv
    | apply State.Inv.fold | (simp only [State.inv_mk]) | (intro _; intros; try dsimp only) | (split <;> try dsimp only))

theorem State.failDesc_inv {s : State} (hs : s.Inv) (p : Nat) (d : Desc) (f : Fail) : (s.failDesc p d f).Inv := by
  unfold State.failDesc
  repeat' (with_reducible first | assumption | apply State.complete_inv | apply State.note_inv | (split <;> try dsimp only))

theorem State.untest_inv {s : State} (hs : s.Inv) (t : Nat) : (s.untest t).Inv := by
  unfold State.untest
  refine State.onUnit_inv ?_ _ _ _
  split
  · exact ⟨Cells.write_wf hs.1 _ _, hs.2⟩
  · exact hs

theorem State.started_inv {s : State} (hs : s.Inv) (p : Nat) (d : Desc) : (s.started p d).Inv := by
  unfold State.started
  repeat' (with_reducible first
    | assumption | apply State.onPart_inv | apply State.progress_inv | apply State.onTile_inv | apply State.untest_inv
    | apply State.settleTile_inv | apply State.foldl_inv | (intro _; intros; try dsimp only) | (split <;> try dsimp only))

theorem State.spoilOut_inv {s : State} (hs : s.Inv) (p : Nat) (d : Desc) : (s.spoilOut p d).Inv := by
  unfold State.spoilOut
  repeat' (with_reducible first | assumption | apply State.spoilHost_inv | apply State.spoilAll_inv)

theorem State.spoilFor_inv {s : State} (hs : s.Inv) (p : Nat) (d : Desc) (f : Fail) : (s.spoilFor p d f).Inv := by
  unfold State.spoilFor
  repeat' (with_reducible first
    | assumption | apply State.taint_inv | apply State.spoilOut_inv | apply State.foldl_inv
    | (intro _; intros; try dsimp only) | (split <;> try dsimp only))

theorem Course.opens_inv {c : Course} (hc : c.Keeps) {s : State} (hs : s.Inv) (p : Nat) (d : Desc) : (c.opens s p d).Inv :=
  hc.opens _ _ _ hs

theorem Course.run_inv {c : Course} (hc : c.Keeps) {s : State} (hs : s.Inv) (p : Nat) (d : Desc) :
    okSat (fun r => r.1.Inv) (c.run s p d) := hc.run _ _ _ hs

theorem Course.leaves_inv {c : Course} (hc : c.Keeps) {s : State} (hs : s.Inv) (p : Nat) (d : Desc) (f : Fail) :
    (c.leaves s p d f).Inv :=
  hc.leaves _ _ _ _ hs

theorem State.endRace_inv {s : State} (hs : s.Inv) (p : Nat) (d : Desc) : (s.endRace p d).Inv := by
  unfold State.endRace
  repeat' (with_reducible first
    | assumption | apply State.onPart_inv | apply State.Inv.fold | (simp only [State.inv_mk]) | exact fun h => h
    | (split <;> try dsimp only))

theorem State.plug_inv {s : State} (hs : s.Inv) (d : Desc) (on : Bool) : (s.plug d on).Inv := by
  unfold State.plug
  repeat' (with_reducible first
    | assumption | apply State.Inv.fold | (simp only [State.inv_mk]) | exact fun h => h | (split <;> try dsimp only))

theorem State.finish_inv {s : State} (hs : s.Inv) (p : Nat) (d : Desc) {c : Course} (hc : c.Keeps) : (s.finish p d c).Inv := by
  unfold State.finish
  repeat' (with_reducible first
    | assumption | apply hc.leaves | refine okSat.pair (hc.run _ _ _ ?_) (by assumption) | apply State.plug_inv
    | apply State.complete_inv | apply State.endRace_inv | apply State.failDesc_inv | apply State.Inv.fold
    | (simp only [State.inv_mk]) | exact fun h => h | (split <;> try dsimp only))

theorem State.runDesc_inv {s : State} (hs : s.Inv) (r : DescRef) (mine : Desc → Bool) {c : Course} (hc : c.Keeps) :
    (s.runDesc r mine c).Inv := by
  unfold State.runDesc
  repeat' (with_reducible first
    | assumption | apply hc.opens | apply State.finish_inv | apply State.failDesc_inv | apply State.started_inv
    | (split <;> try dsimp only))

theorem State.startDesc_inv {s : State} (hs : s.Inv) (r : DescRef) (mine : Desc → Bool) (check
    : State → Nat → Desc → Option Fail) (go : State → Nat → Desc → State) (hgo : ∀ (v0 : State) (v1 : Nat) (v2 : Desc), v0.Inv →
    (go v0 v1 v2).Inv) : (s.startDesc r mine check go).Inv := by
  unfold State.startDesc
  repeat' (with_reducible first
    | assumption | apply hgo | apply State.failDesc_inv | apply State.started_inv | (split <;> try dsimp only))

theorem okDone_inv {s : State} (hs : s.Inv) : okSat (fun r => r.1.Inv) (okDone s) := by
  unfold okDone
  repeat' (with_reducible first | assumption | apply okSat.ok)

/-! ### Tensor -/

theorem tensorCourse_inv (bad : Desc → List Byte → List (Bool × Nat)) (run : State → Nat → Desc → List Byte → Except Fail
    (State × Done)) (hrun : ∀ (v0 : State) (v1 : Nat) (v2 : Desc) (v3 : List Byte), v0.Inv → okSat (fun r => r.1.Inv)
    (run v0 v1 v2 v3)) : (tensorCourse bad run).Keeps := by
  unfold tensorCourse
  repeat' (with_reducible first
    | assumption | apply hrun | apply State.spoilFor_inv | apply okSat.bind | refine ⟨?_, ?_, ?_⟩
    | (intro _; intros; try dsimp only))

theorem Course.withLists_inv {c : Course} (lists : State → Nat → Desc → List Byte → Option Fail) (hc : c.Keeps) :
    (Course.withLists c lists).Keeps := by
  unfold Course.withLists
  repeat' (with_reducible first | apply hc.opens | apply hc.run | apply hc.leaves | refine ⟨?_, ?_, ?_⟩)

theorem State.writeOuts_inv {s : State} (hs : s.Inv) (p : Nat) (src : Option Nat) (l : List (Nat × Tensor)) :
    okSat State.Inv (State.writeOuts s p src l) := by
  induction l generalizing s with
  | nil => exact okSat.ok hs
  | cons x xs ih =>
    unfold State.writeOuts
    exact okSat.bind fun t ht => ih (okSat.state (State.writeTensor_inv hs _ _ _ _) ht)

theorem State.writeDigest_inv {s : State} (hs : s.Inv) (p : Nat) (d : Desc) (regions : List (List Byte)) : okSat State.Inv
    (s.writeDigest p d regions) := by
  unfold State.writeDigest
  repeat' (with_reducible first | assumption | apply State.writeVa_inv | apply okSat.ok | (split <;> try dsimp only))

theorem State.putOuts_inv {s : State} (hs : s.Inv) (p : Nat) (d : Desc) (outs : List (Nat × Tensor)) (o : Done) : okSat
    (fun r => r.1.Inv) (s.putOuts p d outs o) := by
  unfold State.putOuts
  repeat' (with_reducible first
    | assumption | refine okSat.state (State.writeOuts_inv ?_ _ _ _) (by assumption)
    | refine okSat.state (State.writeDigest_inv ?_ _ _ _) (by assumption) | apply okSat.ok | apply okSat.bind
    | (intro _; intros; try dsimp only))

theorem State.runProd_inv {s : State} (hs : s.Inv) (p : Nat) (d : Desc) (bl : List Byte) (exact : Bool) (q : Prod_) (g
    : ProdArgs) : okSat (fun r => r.1.Inv) (s.runProd p d bl exact q g) := by
  unfold State.runProd
  repeat' (with_reducible first | assumption | apply State.putOuts_inv | apply okSat.error | (split <;> try dsimp only))

theorem State.runMatmul_inv {s : State} (hs : s.Inv) (p : Nat) (d : Desc) (bl : List Byte) : okSat (fun r => r.1.Inv)
    (s.runMatmul p d bl) := by
  unfold State.runMatmul
  repeat' (with_reducible first
    | assumption | apply State.runProd_inv | apply okSat.error | apply okSat.bind | (intro _; intros; try dsimp only)
    | (split <;> try dsimp only))

theorem State.runConv_inv {s : State} (hs : s.Inv) (p : Nat) (d : Desc) (bl : List Byte) : okSat (fun r => r.1.Inv)
    (s.runConv p d bl) := by
  unfold State.runConv
  repeat' (with_reducible first
    | assumption | apply State.runProd_inv | apply okSat.error | apply okSat.bind | (intro _; intros; try dsimp only)
    | (split <;> try dsimp only))

theorem prodCourse_inv (bad : Desc → List Byte → List (Bool × Nat)) (inner : Desc → List Byte → Nat) (run
    : State → Nat → Desc → List Byte → Except Fail (State × Done)) (hrun : ∀ (v0 : State) (v1 : Nat) (v2 : Desc) (v3
    : List Byte), v0.Inv → okSat (fun r => r.1.Inv) (run v0 v1 v2 v3)) : (prodCourse bad inner run).Keeps := by
  unfold prodCourse
  repeat' (with_reducible first
    | assumption | apply tensorCourse_inv | apply Course.opens_inv | apply Course.run_inv | apply Course.leaves_inv
    | refine ⟨?_, ?_, ?_⟩ | (intro _; intros; try dsimp only))

theorem State.runEltwise_inv {s : State} (hs : s.Inv) (p : Nat) (d : Desc) (bl : List Byte) : okSat (fun r => r.1.Inv)
    (s.runEltwise p d bl) := by
  unfold State.runEltwise
  repeat' (with_reducible first
    | assumption | apply State.putOuts_inv | apply okSat.bind | (intro _; intros; try dsimp only) | (split <;> try dsimp only))

theorem State.runReduce_inv {s : State} (hs : s.Inv) (p : Nat) (d : Desc) (bl : List Byte) : okSat (fun r => r.1.Inv)
    (s.runReduce p d bl) := by
  unfold State.runReduce
  repeat' (with_reducible first | assumption | apply State.putOuts_inv | apply okSat.bind | (intro _; intros; try dsimp only))

theorem State.runNorm_inv {s : State} (hs : s.Inv) (p : Nat) (d : Desc) (bl : List Byte) : okSat (fun r => r.1.Inv)
    (s.runNorm p d bl) := by
  unfold State.runNorm
  repeat' (with_reducible first | assumption | apply State.putOuts_inv | apply okSat.bind | (intro _; intros; try dsimp only))

theorem State.runSoftmax_inv {s : State} (hs : s.Inv) (p : Nat) (d : Desc) (bl : List Byte) : okSat (fun r => r.1.Inv)
    (s.runSoftmax p d bl) := by
  unfold State.runSoftmax
  repeat' (with_reducible first | assumption | apply State.putOuts_inv | apply okSat.bind | (intro _; intros; try dsimp only))

theorem State.runConvert_inv {s : State} (hs : s.Inv) (p : Nat) (d : Desc) (bl : List Byte) : okSat (fun r => r.1.Inv)
    (s.runConvert p d bl) := by
  unfold State.runConvert
  repeat' (with_reducible first
    | assumption | apply State.putOuts_inv | apply okSat.error | apply okSat.bind | (intro _; intros; try dsimp only)
    | (split <;> try dsimp only))

theorem State.runGather_inv {s : State} (hs : s.Inv) (p : Nat) (d : Desc) (bl : List Byte) : okSat (fun r => r.1.Inv)
    (s.runGather p d bl) := by
  unfold State.runGather
  repeat' (with_reducible first
    | assumption | apply State.putOuts_inv | apply okSat.error | apply okSat.bind | (intro _; intros; try dsimp only)
    | (split <;> try dsimp only))

theorem State.runScatter_inv {s : State} (hs : s.Inv) (p : Nat) (d : Desc) (bl : List Byte) :
    okSat (fun r => r.1.Inv) (State.runScatter s p d bl) := by
  unfold State.runScatter
  dsimp only
  repeat' (with_reducible first
    | (refine okSat.same ?_ (by assumption)) | assumption
    | refine okSat.state (State.writeRows_inv ?_ _ _ _ _) (by assumption)
    | refine okSat.state (State.writeDigest_inv ?_ _ _ _) (by assumption) | apply okSat.ok | apply okSat.error
    | apply okSat.bind | (intro _; intros; try dsimp only) | (split <;> try dsimp only))

theorem State.noteHostRead_inv {s : State} (hs : s.Inv) (p : Nat) (a2 : HostRead) : (s.noteHostRead p a2).Inv := by
  unfold State.noteHostRead
  repeat' (with_reducible first | assumption | apply State.onSec_inv | apply State.countRdErr_inv | (split <;> try dsimp only))

theorem State.hostRows_inv {s : State} (hs : s.Inv) (p addr : Nat) (t : Tensor) : (s.hostRows p addr t).Inv := by
  unfold State.hostRows
  repeat' (with_reducible first
    | assumption | apply State.putRegion_inv | apply State.hostWriteAs_inv | apply State.foldl_inv
    | (intro _; intros; try dsimp only) | (split <;> try dsimp only))

theorem State.runCopy_inv {s : State} (hs : s.Inv) (p : Nat) (d : Desc) (a3 : HostRead) (bl : List Byte) : okSat
    (fun r => r.1.Inv) (s.runCopy p d a3 bl) := by
  unfold State.runCopy
  repeat' (with_reducible first
    | assumption | refine okSat.state (State.writeRows_inv ?_ _ _ _ _) (by assumption) | apply State.hostRows_inv
    | refine okSat.state (State.writeDigest_inv ?_ _ _ _) (by assumption) | apply State.putOuts_inv | apply okSat.ok
    | apply okSat.error | apply okSat.bind | (intro _; intros; try dsimp only) | (split <;> try dsimp only))

theorem State.runFill_inv {s : State} (hs : s.Inv) (p : Nat) (d : Desc) (bl : List Byte) : okSat (fun r => r.1.Inv)
    (s.runFill p d bl) := by
  unfold State.runFill
  repeat' (with_reducible first | assumption | apply State.putOuts_inv)

theorem State.runDigest_inv {s : State} (hs : s.Inv) (p : Nat) (d : Desc) (bl : List Byte) : okSat (fun r => r.1.Inv)
    (s.runDigest p d bl) := by
  unfold State.runDigest
  repeat' (with_reducible first
    | assumption | refine okSat.state (State.writeVa_inv ?_ _ _ _ _ _) (by assumption) | apply okSat.ok | apply okSat.bind
    | (intro _; intros; try dsimp only))

theorem execMatmul_inv (d : DescRef) {s : State} (hs : s.Inv) : ∃ t', execMatmul d s = .next t' ∧ t'.Inv := by
  refine ⟨_, rfl, ?_⟩
  repeat' (with_reducible first
    | assumption | apply State.runDesc_inv | apply Course.withLists_inv | apply prodCourse_inv | apply State.runMatmul_inv
    | (intro _; intros; try dsimp only))

theorem execConv_inv (d : DescRef) {s : State} (hs : s.Inv) : ∃ t', execConv d s = .next t' ∧ t'.Inv := by
  refine ⟨_, rfl, ?_⟩
  repeat' (with_reducible first
    | assumption | apply State.runDesc_inv | apply prodCourse_inv | apply State.runConv_inv
    | (intro _; intros; try dsimp only))

theorem execEltwise_inv (d : DescRef) {s : State} (hs : s.Inv) : ∃ t', execEltwise d s = .next t' ∧ t'.Inv := by
  refine ⟨_, rfl, ?_⟩
  repeat' (with_reducible first
    | assumption | apply State.runDesc_inv | apply tensorCourse_inv | apply State.runEltwise_inv
    | (intro _; intros; try dsimp only))

theorem execReduce_inv (d : DescRef) {s : State} (hs : s.Inv) : ∃ t', execReduce d s = .next t' ∧ t'.Inv := by
  refine ⟨_, rfl, ?_⟩
  repeat' (with_reducible first
    | assumption | apply State.runDesc_inv | apply tensorCourse_inv | apply State.runReduce_inv
    | (intro _; intros; try dsimp only))

theorem execNorm_inv (d : DescRef) {s : State} (hs : s.Inv) : ∃ t', execNorm d s = .next t' ∧ t'.Inv := by
  refine ⟨_, rfl, ?_⟩
  repeat' (with_reducible first
    | assumption | apply State.runDesc_inv | apply tensorCourse_inv | apply State.runNorm_inv
    | (intro _; intros; try dsimp only))

theorem execSoftmax_inv (d : DescRef) {s : State} (hs : s.Inv) : ∃ t', execSoftmax d s = .next t' ∧ t'.Inv := by
  refine ⟨_, rfl, ?_⟩
  repeat' (with_reducible first
    | assumption | apply State.runDesc_inv | apply tensorCourse_inv | apply State.runSoftmax_inv
    | (intro _; intros; try dsimp only))

theorem execConvert_inv (d : DescRef) {s : State} (hs : s.Inv) : ∃ t', execConvert d s = .next t' ∧ t'.Inv := by
  refine ⟨_, rfl, ?_⟩
  repeat' (with_reducible first
    | assumption | apply State.runDesc_inv | apply tensorCourse_inv | apply State.runConvert_inv
    | (intro _; intros; try dsimp only))

theorem execGather_inv (d : DescRef) {s : State} (hs : s.Inv) : ∃ t', execGather d s = .next t' ∧ t'.Inv := by
  refine ⟨_, rfl, ?_⟩
  repeat' (with_reducible first
    | assumption | apply State.runDesc_inv | apply tensorCourse_inv | apply State.runGather_inv
    | (intro _; intros; try dsimp only))

theorem execScatter_inv (d : DescRef) {s : State} (hs : s.Inv) : ∃ t', execScatter d s = .next t' ∧ t'.Inv := by
  refine ⟨_, rfl, ?_⟩
  repeat' (with_reducible first
    | assumption | apply State.runDesc_inv | apply tensorCourse_inv | apply State.runScatter_inv
    | (intro _; intros; try dsimp only))

theorem State.copyLeft_inv {s : State} (hs : s.Inv) (p : Nat) (d : Desc) (f : Fail) : (s.copyLeft p d f).Inv := by
  unfold State.copyLeft
  dsimp only
  repeat' (with_reducible first
    | assumption | apply State.copySome_inv | apply State.spoilFor_inv | apply State.foldl_inv
    | (intro _; intros; try dsimp only) | (split <;> try dsimp only))

theorem State.fillLeft_inv {s : State} (hs : s.Inv) (p : Nat) (d : Desc) (f : Fail) : (s.fillLeft p d f).Inv := by
  unfold State.fillLeft
  repeat' (with_reducible first
    | assumption | apply State.moveSome_inv | apply State.spoilFor_inv | apply State.foldl_inv
    | (intro _; intros; try dsimp only) | (split <;> try dsimp only))

theorem execCopy_inv (d : DescRef) (a1 : HostRead) {s : State} (hs : s.Inv) : ∃ t', execCopy d a1 s = .next t' ∧ t'.Inv := by
  refine ⟨_, rfl, ?_⟩
  repeat' (with_reducible first
    | assumption | apply tensorCourse_inv | apply State.runCopy_inv | apply Course.opens_inv | apply Course.run_inv
    | apply State.copyLeft_inv | apply State.runDesc_inv | apply State.noteHostRead_inv | refine ⟨?_, ?_, ?_⟩
    | (intro _; intros; try dsimp only) | (split <;> try dsimp only))

theorem execFill_inv (d : DescRef) {s : State} (hs : s.Inv) : ∃ t', execFill d s = .next t' ∧ t'.Inv := by
  refine ⟨_, rfl, ?_⟩
  repeat' (with_reducible first
    | assumption | apply State.runDesc_inv | apply tensorCourse_inv | apply State.runFill_inv | apply Course.opens_inv
    | apply Course.run_inv | apply State.fillLeft_inv | refine ⟨?_, ?_, ?_⟩ | (intro _; intros; try dsimp only))

theorem execDigest_inv (d : DescRef) {s : State} (hs : s.Inv) : ∃ t', execDigest d s = .next t' ∧ t'.Inv := by
  refine ⟨_, rfl, ?_⟩
  repeat' (with_reducible first
    | assumption | apply State.runDesc_inv | apply tensorCourse_inv | apply State.runDigest_inv
    | (intro _; intros; try dsimp only))

/-! ### Kv -/

theorem State.setPg_inv {s : State} (hs : s.Inv) (k : Kv) (n off len v : Nat) : (s.setPg k n off len v).Inv := by
  unfold State.setPg
  repeat' (with_reducible first | assumption | apply State.tryWriteVa_inv)

theorem State.setSqf_inv {s : State} (hs : s.Inv) (k : Kv) (q off len v : Nat) : (s.setSqf k q off len v).Inv := by
  unfold State.setSqf
  repeat' (with_reducible first | assumption | apply State.tryWriteVa_inv)

theorem State.setSeq_inv {s : State} (hs : s.Inv) (k : Kv) (q st : Nat) (run lost : Bool) : (s.setSeq k q st run lost).Inv := by
  unfold State.setSeq
  repeat' (with_reducible first | assumption | apply State.setSqf_inv)

theorem State.listPage_inv {s : State} (hs : s.Inv) (k : Kv) (q b page : Nat) : someSat State.Inv (s.listPage k q b page) := by
  unfold State.listPage
  repeat' (with_reducible first
    | assumption | apply State.tryWriteVa_inv | apply State.setSqf_inv | apply someSat.some | apply someSat.none
    | (split <;> try dsimp only))

theorem State.trimChunks_inv {s : State} (hs : s.Inv) (k : Kv) (q n : Nat) : (s.trimChunks k q n).Inv := by
  unfold State.trimChunks
  repeat' (with_reducible first
    | assumption | apply State.setSqf_inv | apply State.foldl_inv | (intro _; intros; try dsimp only))

theorem State.ixInsert_inv {s : State} (hs : s.Inv) (k : Kv) (n : Nat) (a3 : List Byte) : (s.ixInsert k n a3).1.Inv := by
  unfold State.ixInsert
  dsimp only
  repeat' (with_reducible first | assumption | apply State.tryWriteVa_inv | (split <;> try dsimp only))

theorem State.ixRemove_inv {s : State} (hs : s.Inv) (k : Kv) (n : Nat) : (s.ixRemove k n).Inv := by
  unfold State.ixRemove
  repeat' (with_reducible first | assumption | apply State.tryWriteVa_inv | (split <;> try dsimp only))

theorem State.copyVa_inv {s : State} (hs : s.Inv) (p src dst len : Nat) : (s.copyVa p src dst len).Inv := by
  have hf : ∀ (l : List Nat) (f : Nat → Nat) (m : MemSys), m.cells.wf = true →
      (l.foldl (fun m i => m.poisonWord (f i)) m).cells.wf = true := by
    intro l f
    induction l with
    | nil => exact fun m hm => hm
    | cons x l ih => exact fun m hm => ih _ (by simpa using hm)
  unfold State.copyVa
  dsimp only
  split
  · exact ⟨hf _ _ _ (MemSys.storePieces_wf hs.1 _ _), hs.2⟩
  · exact hs

theorem State.movePage_inv {s : State} (hs : s.Inv) (k : Kv) (n i : Nat) : (s.movePage k n i).1.Inv := by
  unfold State.movePage
  repeat' (with_reducible first
    | assumption | apply State.raise_inv | apply State.setPg_inv | apply State.copyVa_inv | (split <;> try dsimp only))

theorem State.moveReq_inv {s : State} (hs : s.Inv) (k : Kv) (n i : Nat) : (s.moveReq k n i).1.Inv := by
  unfold State.moveReq
  repeat' (with_reducible first | assumption | apply State.setPg_inv | apply State.movePage_inv | (split <;> try dsimp only))

theorem State.moveAll_inv {s : State} (hs : s.Inv) (k : Kv) (i : Nat) (pages : List Nat) : (s.moveAll k i pages).1.Inv := by
  unfold State.moveAll
  repeat' (with_reducible first
    | assumption | apply State.moveReq_inv | apply State.foldl_inv_fst | (intro _; intros; try dsimp only))

theorem State.dropRef_inv {s : State} (hs : s.Inv) (k : Kv) (n : Nat) : (s.dropRef k n).1.Inv := by
  unfold State.dropRef
  dsimp only
  repeat' (with_reducible first | assumption | apply State.setPg_inv | apply State.ixRemove_inv | (split <;> try dsimp only))

theorem State.dropRefs_inv {s : State} (hs : s.Inv) (k : Kv) (pages : List Nat) : (s.dropRefs k pages).1.Inv := by
  unfold State.dropRefs
  repeat' (with_reducible first
    | assumption | apply State.dropRef_inv | apply State.foldl_inv_fst | (intro _; intros; try dsimp only))

theorem State.unpin_inv {s : State} (hs : s.Inv) (k : Kv) (n : Nat) : (s.unpin k n).Inv := by
  unfold State.unpin
  dsimp only
  repeat' (with_reducible first | assumption | apply State.setPg_inv | apply State.movePage_inv | (split <;> try dsimp only))

theorem State.dropList_inv {s : State} (hs : s.Inv) (k : Kv) (q : Nat) : (s.dropList k q).1.Inv := by
  unfold State.dropList
  repeat' (with_reducible first | assumption | apply State.dropRefs_inv | apply State.trimChunks_inv | apply State.setSqf_inv)

theorem State.newPage_inv {s : State} (hs : s.Inv) (k : Kv) (pool model variant : Nat) : someSat (fun r => r.1.Inv)
    (s.newPage k pool model variant) := by
  unfold State.newPage
  repeat' (with_reducible first
    | assumption | apply State.tryWriteVa_inv | apply someSat.some | apply someSat.none | (split <;> try dsimp only))

theorem State.truncateSeq_inv {s : State} (hs : s.Inv) (k : Kv) (q keep : Nat) : (s.truncateSeq k q keep).Inv := by
  unfold State.truncateSeq
  repeat' (with_reducible first
    | assumption | apply State.dropRefs_inv | apply State.ixRemove_inv | apply State.setPg_inv | apply State.trimChunks_inv
    | apply State.setSqf_inv | (split <;> try dsimp only))

theorem State.settleHandle_inv {s : State} (hs : s.Inv) (k : Kv) {before : State} (hbefore : before.Inv) (t q : Nat) :
    (s.settleHandle k before t q).Inv := by
  unfold State.settleHandle
  dsimp only
  repeat' (with_reducible first
    | assumption | apply State.moveAll_inv | apply State.setSqf_inv | apply State.setSeq_inv | (split <;> try dsimp only))

theorem State.postCounters_inv {s : State} (hs : s.Inv) (k : Kv) : (s.postCounters k).Inv := by
  unfold State.postCounters
  repeat' (with_reducible first | assumption | apply State.tryWriteVa_inv | apply State.spoil_inv)

theorem State.settle_inv {s : State} (hs : s.Inv) (k : Kv) {before : State} (hbefore : before.Inv) (t : Nat) :
    (s.settle k before t).Inv := by
  unfold State.settle
  repeat' (with_reducible first
    | assumption | apply State.postCounters_inv | apply State.settleHandle_inv | apply State.foldl_inv
    | (intro _; intros; try dsimp only))

theorem State.expireSeq_inv {s : State} (hs : s.Inv) (k : Kv) (q : Nat) : (s.expireSeq k q).Inv := by
  unfold State.expireSeq
  repeat' (with_reducible first
    | assumption | apply State.setSeq_inv | apply State.dropList_inv | apply State.settle_inv | apply State.raiseAt_inv)

theorem State.expireUntil_inv {s : State} (hs : s.Inv) (k : Kv) (t n : Nat) : (s.expireUntil k t n).Inv := by
  induction n generalizing s with
  | zero => exact hs
  | succ n ih => 
    unfold State.expireUntil
    split
    · exact ih (State.expireSeq_inv hs _ _)
    · exact hs

theorem State.kvNow_inv {s : State} (hs : s.Inv) (k : Kv) : (s.kvNow k).Inv := by
  unfold State.kvNow
  repeat' (with_reducible first | assumption | apply State.expireUntil_inv)

theorem State.kvOpen_inv {s : State} (hs : s.Inv) (p : Nat) (r : Resolved) : (s.kvOpen p r).Inv := by
  unfold State.kvOpen
  repeat' (with_reducible first | assumption | apply State.onPart_inv)

theorem kvCourse_inv (off : Nat) (bad : State → Kv → Desc → Option Fail) (go : State → Kv → Desc → State × Done) (hgo : ∀ (v0
    : State) (v1 : Kv) (v2 : Desc), v0.Inv → (go v0 v1 v2).1.Inv) : (kvCourse off bad go).Keeps := by
  unfold kvCourse
  repeat' (with_reducible first
    | assumption | apply hgo | apply State.kvNow_inv | apply State.kvOpen_inv | apply State.settle_inv
    | apply State.spoilFor_inv | apply okSat.ok | refine ⟨?_, ?_, ?_⟩ | (intro _; intros; try dsimp only)
    | (split <;> try dsimp only))

theorem State.runKv_inv {s : State} (hs : s.Inv) (r : DescRef) (mine : Desc → Bool) (off : Nat) (names : Kv → Desc → List Nat)
    {c : Course} (hc : c.Keeps) : (s.runKv r mine off names c).Inv := by
  unfold State.runKv
  repeat' (with_reducible first | assumption | apply State.runDesc_inv | (split <;> try dsimp only))

theorem State.openSeq_inv {s : State} (hs : s.Inv) (k : Kv) (q len model variant : Nat) (pages : List Nat) :
    (s.openSeq k q len model variant pages).Inv := by
  unfold State.openSeq
  repeat' (with_reducible first
    | assumption | apply State.trimChunks_inv | apply State.setSqf_inv | apply State.setSeq_inv
    | refine someSat.state (State.listPage_inv ?_ _ _ _ _) (by assumption) | apply State.setPg_inv | apply State.foldl_inv
    | (intro _; intros; try dsimp only) | (split <;> try dsimp only))

theorem execKvLookup_inv (d : DescRef) {s : State} (hs : s.Inv) : ∃ t', execKvLookup d s = .next t' ∧ t'.Inv := by
  refine ⟨_, rfl, ?_⟩
  repeat' (with_reducible first
    | assumption | apply State.runKv_inv | apply kvCourse_inv | apply State.tryWriteVa_inv | apply State.openSeq_inv
    | apply State.moveAll_inv | (intro _; intros; try dsimp only) | (split <;> try dsimp only))

theorem State.parkSeq_inv {s : State} (hs : s.Inv) (k : Kv) (q ttl : Nat) : (s.parkSeq k q ttl).1.Inv := by
  unfold State.parkSeq
  repeat' (with_reducible first | assumption | apply State.moveAll_inv | apply State.setSqf_inv | apply State.setSeq_inv)

theorem execKvPark_inv (d : DescRef) {s : State} (hs : s.Inv) : ∃ t', execKvPark d s = .next t' ∧ t'.Inv := by
  refine ⟨_, rfl, ?_⟩
  repeat' (with_reducible first
    | assumption | apply State.runKv_inv | apply kvCourse_inv | apply State.parkSeq_inv | (intro _; intros; try dsimp only))

theorem execKvResume_inv (d : DescRef) {s : State} (hs : s.Inv) : ∃ t', execKvResume d s = .next t' ∧ t'.Inv := by
  refine ⟨_, rfl, ?_⟩
  repeat' (with_reducible first
    | assumption | apply State.runKv_inv | apply kvCourse_inv | apply State.setSeq_inv | apply State.moveAll_inv
    | (intro _; intros; try dsimp only) | (split <;> try dsimp only))

theorem execKvCopy_inv (d : DescRef) {s : State} (hs : s.Inv) : ∃ t', execKvCopy d s = .next t' ∧ t'.Inv := by
  refine ⟨_, rfl, ?_⟩
  repeat' (with_reducible first
    | assumption | apply State.runKv_inv | apply kvCourse_inv | apply State.openSeq_inv | apply State.moveAll_inv
    | (intro _; intros; try dsimp only) | (split <;> try dsimp only))

theorem State.freeSeq_inv {s : State} (hs : s.Inv) (k : Kv) (q : Nat) : (s.freeSeq k q).1.Inv := by
  unfold State.freeSeq
  repeat' (with_reducible first | assumption | apply State.dropList_inv | apply State.setSeq_inv)

theorem execKvFreeSeq_inv (d : DescRef) {s : State} (hs : s.Inv) : ∃ t', execKvFreeSeq d s = .next t' ∧ t'.Inv := by
  refine ⟨_, rfl, ?_⟩
  repeat' (with_reducible first
    | assumption | apply State.runKv_inv | apply kvCourse_inv | apply State.freeSeq_inv | (intro _; intros; try dsimp only))

theorem execKvFreeAll_inv (d : DescRef) {s : State} (hs : s.Inv) : ∃ t', execKvFreeAll d s = .next t' ∧ t'.Inv := by
  refine ⟨_, rfl, ?_⟩
  repeat' (with_reducible first
    | assumption | apply State.runKv_inv | apply kvCourse_inv | apply State.freeSeq_inv | apply State.foldl_inv_fst
    | (intro _; intros; try dsimp only))

theorem execKvFreeDetach_inv (d : DescRef) {s : State} (hs : s.Inv) : ∃ t', execKvFreeDetach d s = .next t' ∧ t'.Inv := by
  refine ⟨_, rfl, ?_⟩
  repeat' (with_reducible first
    | assumption | apply State.runDesc_inv | apply okDone_inv | apply State.onPart_inv | apply State.spoilFor_inv
    | refine ⟨?_, ?_, ?_⟩ | (intro _; intros; try dsimp only))

theorem State.rehashPage_inv {s : State} (hs : s.Inv) (k : Kv) (a2 : Nat × List Byte × List Byte) :
    (s.rehashPage k a2).Inv := by
  unfold State.rehashPage
  repeat' (with_reducible first | assumption | apply State.tryWriteVa_inv | apply State.ixInsert_inv | apply State.setPg_inv)

theorem execKvFreeRehash_inv (d : DescRef) {s : State} (hs : s.Inv) : ∃ t', execKvFreeRehash d s = .next t' ∧ t'.Inv := by
  refine ⟨_, rfl, ?_⟩
  repeat' (with_reducible first
    | assumption | apply State.runDesc_inv | apply kvCourse_inv | apply State.tryWriteVa_inv | apply State.rehashPage_inv
    | apply State.foldl_inv | (intro _; intros; try dsimp only) | (split <;> try dsimp only))

theorem State.fillVa_inv {s : State} (hs : s.Inv) (p va : Nat) (unit : List Byte) (n : Nat) : (s.fillVa p va unit n).Inv := by
  induction n generalizing s va with
  | zero => exact hs
  | succ n ih => exact ih (State.tryWriteVa_inv hs _ _ _) _

theorem State.emptyKv_inv {s : State} (hs : s.Inv) (k : Kv) : (s.emptyKv k).Inv := by
  unfold State.emptyKv
  repeat' (with_reducible first
    | assumption | apply State.fillVa_inv | apply State.postCounters_inv | apply State.tryWriteVa_inv)

theorem execKvFreeFormat_inv (d : DescRef) {s : State} (hs : s.Inv) : ∃ t', execKvFreeFormat d s = .next t' ∧ t'.Inv := by
  refine ⟨_, rfl, ?_⟩
  repeat' (with_reducible first
    | assumption | apply State.runDesc_inv | apply State.onPart_inv | apply okDone_inv | apply State.emptyKv_inv
    | apply State.spoilFor_inv | apply okSat.bind | refine ⟨?_, ?_, ?_⟩ | (intro _; intros; try dsimp only))

theorem State.copyPage_inv {s : State} (hs : s.Inv) (k : Kv) (q b pool n t : Nat) : someSat (fun r => r.1.Inv)
    (s.copyPage k q b pool n t) := by
  unfold State.copyPage
  repeat' (with_reducible first
    | assumption | refine someSat.pair (State.newPage_inv ?_ _ _ _ _) (by assumption) | apply State.copyVa_inv
    | apply State.setPg_inv | apply State.tryWriteVa_inv
    | refine someSat.state (State.listPage_inv ?_ _ _ _ _) (by assumption) | apply State.dropRef_inv | apply someSat.some
    | apply someSat.none | (split <;> try dsimp only))

theorem State.pageFor_inv {s : State} (hs : s.Inv) (k : Kv) (q b pool t : Nat) : someSat (fun r => r.1.Inv)
    (s.pageFor k q b pool t) := by
  unfold State.pageFor
  repeat' (with_reducible first
    | assumption | refine someSat.pair (State.newPage_inv ?_ _ _ _ _) (by assumption)
    | refine someSat.state (State.listPage_inv ?_ _ _ _ _) (by assumption)
    | refine someSat.pair (State.copyPage_inv ?_ _ _ _ _ _ _) (by assumption) | apply State.ixRemove_inv
    | apply State.setPg_inv | apply someSat.some | apply someSat.none | apply someSat.map | (intro _; intros; try dsimp only)
    | (split <;> try dsimp only))

theorem State.fullPage_inv {s : State} (hs : s.Inv) (k : Kv) (q b n : Nat) (index : Bool) : (s.fullPage k q b n index).Inv := by
  unfold State.fullPage
  repeat' (with_reducible first
    | assumption | apply State.tryWriteVa_inv | apply State.ixInsert_inv | apply State.setPg_inv | (split <;> try dsimp only))

theorem State.writeTokens_inv {s : State} (hs : s.Inv) (k : Kv) (src : Option Nat) (a : AppendData) (l : List NewToken) (ow
    : Bool) :
    okSat (fun r => r.1.Inv) (s.writeTokens k src a l ow) := by
  induction l generalizing s ow with
  | nil => exact okSat.ok hs
  | cons x l ih =>
    unfold State.writeTokens
    exact okSat.bind fun b hb => okSat.bind fun t ht => okSat.bind fun u hu =>
      ih (okSat.state (State.writeVa_inv (okSat.state (State.writeVa_inv hs _ _ _ _ _) ht) _ _ _ _ _) hu) _

theorem State.spoilTokens_inv {s : State} (hs : s.Inv) (k : Kv) (ts : List (Nat × Nat)) : (s.spoilTokens k ts).Inv := by
  unfold State.spoilTokens
  repeat' (with_reducible first
    | assumption | apply State.spoil_inv | apply State.foldl_inv | (intro _; intros; try dsimp only))

/-- The records of one token keep it. -/
theorem Appended.token_inv {a : Appended} (ha : a.st.Inv) (k : Kv) (q pool : Nat) (index : Bool) (at_ row tok : Nat) :
    someSat (fun b => b.st.Inv) (a.token k q pool index at_ row tok) := by
  unfold Appended.token
  dsimp only
  split
  · exact someSat.none
  · rename_i s n new h
    have hs : s.Inv := someSat.fst (State.pageFor_inv ha _ _ _ _ _) h
    refine someSat.some ?_
    have hx := State.setSqf_inv (State.setPg_inv (State.setPg_inv hs k n (64 + 4 * (at_ % 64)) 4 tok) k n 2 2 (at_ % 64 + 1)) k q 4 4
      (at_ + 1)
    dsimp only
    split
    · exact State.fullPage_inv hx ..
    · exact hx

/-- The records of an entry's tokens keep it. -/
theorem Appended.tokens_inv (k : Kv) (e : AppendEntry) (index : Bool) (from_ : Nat) (tok : Nat → Nat) (n i : Nat) {a : Appended}
    (ha : a.st.Inv) : someSat (fun b => b.st.Inv) (a.tokens k e index from_ tok n i) := by
  induction n generalizing a i with
  | zero => exact someSat.some ha
  | succ n ih =>
    unfold Appended.tokens
    split
    · rename_i h
      exact ih _ (Appended.token_inv ha _ _ _ _ _ _ _ _ h)
    · exact someSat.none

/-- The records of one entry keep it. -/
theorem Appended.entry_inv {a : Appended} (ha : a.st.Inv) (k : Kv) (index : Bool) (tok : Nat → Nat) (e : AppendEntry) :
    someSat (fun b => b.st.Inv) (a.entry k index tok e) := by
  unfold Appended.entry
  dsimp only
  refine Appended.tokens_inv _ _ _ _ _ _ _ ?_
  dsimp only
  split
  · exact State.setSqf_inv (State.setSqf_inv (State.setSqf_inv (State.setSeq_inv ha ..) ..) ..) ..
  split
  · exact State.truncateSeq_inv ha ..
  · exact ha

/-- The records of an append keep it. -/
theorem State.appendRecords_inv {s : State} (hs : s.Inv) (k : Kv) (index : Bool) (es : List AppendEntry) (tok : Nat → Nat) :
    someSat (fun b => b.st.Inv) (s.appendRecords k index es tok) := by
  have h : ∀ (l : List AppendEntry) (x : Option Appended), someSat (fun b => b.st.Inv) x → someSat (fun b => b.st.Inv)
      (l.foldl (fun (a : Option Appended) e => match a with | some x => x.entry k index tok e | none => none) x) := by
    intro l
    induction l with
    | nil => exact fun x hx => hx
    | cons e l ih =>
      intro x hx
      refine ih _ ?_
      cases x with
      | none => exact someSat.none
      | some a => exact Appended.entry_inv (hx _ rfl) _ _ _ _
  exact h es _ (someSat.some hs)

theorem State.appendGo_inv {s : State} (hs : s.Inv) (k : Kv) (d : Desc) (bl : List Byte) (g : AppendArgs) :
    (s.appendGo k d bl g).1.Inv := by
  unfold State.appendGo
  dsimp only
  split
  · exact hs
  rename_i a h
  have ha : a.st.Inv := State.appendRecords_inv hs _ _ _ _ _ h
  split
  · rename_i r hr
    cases hd : (do
      .ok ({ lat := ← s.slotTensor k.part d bl g.base, side := ← s.slotTensor? k.part d bl (g.base + 1),
             sr := g.sr, seed := g.seed } : AppendData) : Except Fail AppendData) with
    | error f => rw [hd] at hr; cases hr
    | ok x =>
      rw [hd] at hr
      exact State.writeTokens_inv ha _ _ _ _ _ _ hr
  · exact State.note_inv (State.spoilTokens_inv ha _ _) _ _

theorem kvAppendCourse_inv  : (kvAppendCourse).Keeps := by
  unfold kvAppendCourse
  repeat' (with_reducible first
    | assumption | apply State.kvNow_inv | apply State.appendGo_inv | apply State.kvOpen_inv | apply State.settle_inv
    | apply State.spoilFor_inv | apply okSat.ok | refine ⟨?_, ?_, ?_⟩ | (intro _; intros; try dsimp only)
    | (split <;> try dsimp only))

theorem execKvAppend_inv (d : DescRef) {s : State} (hs : s.Inv) : ∃ t', execKvAppend d s = .next t' ∧ t'.Inv := by
  refine ⟨_, rfl, ?_⟩
  repeat' (with_reducible first | assumption | apply State.runKv_inv | apply kvAppendCourse_inv)

theorem State.kvAbandon_inv {s : State} (hs : s.Inv) (p num : Nat) : (s.kvAbandon p num).Inv := by
  unfold State.kvAbandon
  repeat' (with_reducible first
    | assumption | apply State.spoilTokens_inv | apply State.unpin_inv | apply State.settle_inv | apply State.foldl_inv
    | (intro _; intros; try dsimp only) | (split <;> try dsimp only))

theorem execKvExpiry_inv (p space seq : Nat) {s : State} (hs : s.Inv)
    : ∃ t', execKvExpiry p space seq s = .next t' ∧ t'.Inv := by
  refine ⟨_, rfl, ?_⟩
  repeat' (with_reducible first | assumption | apply State.expireUntil_inv | (split <;> try dsimp only))

theorem State.kvLose_inv {s : State} (hs : s.Inv) (k : Kv) : (s.kvLose k).Inv := by
  unfold State.kvLose
  dsimp only
  repeat' (with_reducible first
    | assumption | apply State.setSeq_inv | apply State.dropList_inv | apply State.raise_inv | apply State.settle_inv
    | apply State.foldl_inv | (intro _; intros; try dsimp only) | (split <;> try dsimp only))

theorem State.kvWake_inv {s : State} (hs : s.Inv) (p : Nat) (inDram : Nat → Bool) : (s.kvWake p inDram).Inv := by
  unfold State.kvWake
  repeat' (with_reducible first
    | assumption | apply State.raise_inv | apply State.onPart_inv | apply State.kvLose_inv | apply State.foldl_inv
    | (intro _; intros; try dsimp only) | (split <;> try dsimp only))

end Sys2Proof.Machine
end

