-- ==== Sys2Proof/Laws/Inv2.lean ====
section
/-! SUPPORT. Every operation and meaning of these files of Machine keeps the memories in canonical form (`State.Inv`): Attend, Net, Acts, Control, Links, Ptp, Streams, Host, Recover. -/

namespace Sys2Proof.Machine

/-! ### Attend -/

theorem State.attCompute_inv {s : State} (hs : s.Inv) (p : Nat) (d : Desc) (q : AttShape) (bl : List Byte) (seqs : List
    (Nat × Nat × List Nat)) : okSat (fun r => r.1.Inv) (s.attCompute p d q bl seqs) := by
  unfold State.attCompute
  repeat' (with_reducible first | assumption | apply State.putOuts_inv | apply okSat.bind | (intro _; intros; try dsimp only))

theorem State.attResolve_inv {s : State} (hs : s.Inv) (k : Kv) (d : Desc) (bl : List Byte) (out : Done) (slots : List
    (Nat × Nat)) : (s.attResolve k d bl out slots).Inv := by
  unfold State.attResolve
  dsimp only
  repeat' (with_reducible first
    | assumption | apply State.setPg_inv | apply State.kvOpen_inv | apply State.foldl_inv | (intro _; intros; try dsimp only)
    | (split <;> try dsimp only))

theorem State.attOpen_inv {s : State} (hs : s.Inv) (p : Nat) (d : Desc) : (s.attOpen p d).Inv := by
  unfold State.attOpen
  repeat' (with_reducible first
    | assumption | apply State.kvNow_inv | apply State.appendGo_inv | apply State.postCounters_inv
    | apply State.attResolve_inv | apply State.settle_inv | (split <;> try dsimp only))

theorem State.attRun_inv {s : State} (hs : s.Inv) (p : Nat) (d : Desc) : okSat (fun r => r.1.Inv) (s.attRun p d) := by
  have hg : ∀ r k, okSat (fun r => r.1.Inv) (do
      let bl ← s.paramBlock p d
      let qc ← s.qcounts p d bl
      s.attCompute p d (attShape d (some k)) bl
        ((List.zip (r : Resolved).seqs qc).map (fun x => (x.1.2.1, x.2, x.1.2.2))) : Except Fail (State × Done)) :=
    fun r k => okSat.bind fun _ _ => okSat.bind fun _ _ => State.attCompute_inv hs _ _ _ _ _
  unfold State.attRun
  dsimp only
  repeat' (with_reducible first
    | exact okSat.pair (hg _ _) (by assumption) | assumption | apply State.attCompute_inv | apply State.settle_inv
    | apply State.unpin_inv | apply State.spoilOut_inv | apply State.spoilTokens_inv | apply State.note_inv | apply okSat.ok
    | apply okSat.error | apply okSat.bind | apply State.foldl_inv | (intro _; intros; try dsimp only)
    | (split <;> try dsimp only))

theorem attendCourse_inv  : (attendCourse).Keeps := by
  unfold attendCourse
  repeat' (with_reducible first
    | assumption | apply State.attOpen_inv | apply State.attRun_inv | apply State.spoilFor_inv | refine ⟨?_, ?_, ?_⟩
    | (intro _; intros; try dsimp only) | (split <;> try dsimp only))

theorem execAttend_inv (d : DescRef) {s : State} (hs : s.Inv) : ∃ t', execAttend d s = .next t' ∧ t'.Inv := by
  refine ⟨_, rfl, ?_⟩
  repeat' (with_reducible first | assumption | apply State.runKv_inv | apply attendCourse_inv)

/-! ### Net -/

theorem State.txFrame_inv {s : State} (hs : s.Inv) (n : Nat) (f : List Byte) : (s.txFrame n f).Inv := by
  unfold State.txFrame
  repeat' (with_reducible first | assumption | apply State.Inv.fold | (simp only [State.inv_mk]) | exact fun h => h)

theorem State.dropFrame_inv {s : State} (hs : s.Inv) (n : Nat) : (s.dropFrame n).Inv := by
  unfold State.dropFrame
  repeat' (with_reducible first | assumption | apply State.Inv.fold | (simp only [State.inv_mk]) | exact fun h => h)

theorem State.dropBad_inv {s : State} (hs : s.Inv) (n : Nat) : (s.dropBad n).Inv := by
  unfold State.dropBad
  repeat' (with_reducible first
    | assumption | apply State.dropFrame_inv | apply State.Inv.fold | (simp only [State.inv_mk]) | exact fun h => h)

theorem State.reportGroup_inv {s : State} (hs : s.Inv) (c : Channel) : (s.reportGroup c).Inv := by
  unfold State.reportGroup
  repeat' (with_reducible first | assumption | apply State.txFrame_inv | (split <;> try dsimp only))

theorem State.answerArp_inv {s : State} (hs : s.Inv) (n : Nat) (e : Eth) : (s.answerArp n e).Inv := by
  unfold State.answerArp
  dsimp only
  repeat' (with_reducible first | assumption | apply State.txFrame_inv | apply State.dropFrame_inv | (split <;> try dsimp only))

theorem State.answer_inv {s : State} (hs : s.Inv) (n : Nat) (e : Eth) (v6 : Bool) (src dst proto hops : Nat) (m : List Byte) :
    (s.answer n e v6 src dst proto hops m).Inv := by
  unfold State.answer
  repeat' (with_reducible first | assumption | apply State.txFrame_inv)

theorem State.answerIp_inv {s : State} (hs : s.Inv) (n : Nat) (e : Eth) (d : Dgram) : (s.answerIp n e d).Inv := by
  unfold State.answerIp
  repeat' (with_reducible first
    | assumption | apply State.reportGroup_inv | apply State.answer_inv | apply State.dropFrame_inv | apply State.foldl_inv
    | (intro _; intros; try dsimp only) | (split <;> try dsimp only))

theorem State.handleOther_inv {s : State} (hs : s.Inv) (n : Nat) (e : Eth) : (s.handleOther n e).Inv := by
  unfold State.handleOther
  repeat' (with_reducible first
    | assumption | apply State.answerArp_inv | apply State.answerIp_inv | apply State.dropFrame_inv
    | (split <;> try dsimp only))

theorem State.sendSensor_inv {s : State} (hs : s.Inv) (c flags stamp nsamp fmt nchan : Nat) (payload : List Byte) :
    (s.sendSensor c flags stamp nsamp fmt nchan payload).Inv := by
  unfold State.sendSensor
  repeat' (with_reducible first
    | assumption | apply State.onChan_inv | apply State.txFrame_inv | apply State.Inv.fold | (simp only [State.inv_mk])
    | exact fun h => h | (split <;> try dsimp only))

/-! ### Acts -/

theorem State.pairEvent_inv {s : State} (hs : s.Inv) (code : Nat) (data : List Byte) : (s.pairEvent code data).Inv := by
  unfold State.pairEvent
  repeat' (with_reducible first | assumption | apply State.raiseBoth_inv)

theorem State.standDown_inv {s : State} (hs : s.Inv) (why : Nat) : (s.standDown why).Inv := by
  unfold State.standDown
  repeat' (with_reducible first
    | assumption | apply State.pairEvent_inv | apply State.Inv.fold | (simp only [State.inv_mk]) | exact fun h => h
    | (split <;> try dsimp only))

theorem State.freeCyclic_inv {s : State} (hs : s.Inv) (p n : Nat) : (s.freeCyclic p n).Inv := by
  unfold State.freeCyclic
  dsimp only
  repeat' (with_reducible first | assumption | apply State.freeAct_inv | apply State.standDown_inv | (split <;> try dsimp only))

theorem State.settleAct_inv {s : State} (hs : s.Inv) (p n : Nat) : (s.settleAct p n).Inv := by
  unfold State.settleAct
  dsimp only
  repeat' (with_reducible first
    | assumption | apply State.actCheck_inv | apply State.freeCyclic_inv | (split <;> try dsimp only))

theorem State.endActDescs_inv {s : State} (hs : s.Inv) (p n st : Nat) : (s.endActDescs p n st).Inv := by
  unfold State.endActDescs
  repeat' (with_reducible first
    | assumption | apply State.kvAbandon_inv | apply State.spoilOut_inv | apply State.sendAbort_inv | apply State.forget_inv
    | apply State.dropItems_inv | apply State.onAct_inv | apply State.foldl_inv | (intro _; intros; try dsimp only)
    | (split <;> try dsimp only))

theorem State.stopAct_inv {s : State} (hs : s.Inv) (p n : Nat) (now : Bool) : (s.stopAct p n now).Inv := by
  unfold State.stopAct
  repeat' (with_reducible first
    | assumption | apply State.onAct_inv | apply State.endActDescs_inv | apply State.settleAct_inv
    | (split <;> try dsimp only))

theorem State.addLane_inv {s : State} (hs : s.Inv) (p n lane : Nat) (d : Desc) (ds : List (List Byte)) :
    (s.addLane p n lane d ds).Inv := by
  unfold State.addLane
  repeat' (with_reducible first
    | assumption | apply State.onHost_inv | apply State.onPart_inv | apply State.foldl_inv | (intro _; intros; try dsimp only))

/-! ### Control -/

theorem plainCourse_inv  : (plainCourse).Keeps := by
  unfold plainCourse
  repeat' (with_reducible first
    | assumption | apply okDone_inv | apply State.spoilFor_inv | refine ⟨?_, ?_, ?_⟩ | (intro _; intros; try dsimp only))

theorem execNop_inv (d : DescRef) {s : State} (hs : s.Inv) : ∃ t', execNop d s = .next t' ∧ t'.Inv := by
  refine ⟨_, rfl, ?_⟩
  repeat' (with_reducible first | assumption | apply State.runDesc_inv | apply plainCourse_inv)

theorem execBarrier_inv (d : DescRef) {s : State} (hs : s.Inv) : ∃ t', execBarrier d s = .next t' ∧ t'.Inv := by
  refine ⟨_, rfl, ?_⟩
  repeat' (with_reducible first | assumption | apply State.runDesc_inv | apply plainCourse_inv)

theorem State.dropXlat_inv {s : State} (hs : s.Inv) (p : Nat) : (s.dropXlat p).Inv := by
  unfold State.dropXlat
  repeat' (with_reducible first | assumption | apply State.onPart_inv)

theorem execFence_inv (d : DescRef) {s : State} (hs : s.Inv) : ∃ t', execFence d s = .next t' ∧ t'.Inv := by
  refine ⟨_, rfl, ?_⟩
  repeat' (with_reducible first
    | assumption | apply State.runDesc_inv | apply okDone_inv | apply State.dropXlat_inv | apply State.spoilFor_inv
    | refine ⟨?_, ?_, ?_⟩ | (intro _; intros; try dsimp only) | (split <;> try dsimp only))

theorem State.wakeWaiters_inv {s : State} (hs : s.Inv) (p c : Nat) : (s.wakeWaiters p c).Inv := by
  unfold State.wakeWaiters
  repeat' (with_reducible first
    | assumption | apply State.complete_inv | apply State.foldl_inv | (intro _; intros; try dsimp only))

theorem execEventSignal_inv (d : DescRef) {s : State} (hs : s.Inv) : ∃ t', execEventSignal d s = .next t' ∧ t'.Inv := by
  refine ⟨_, rfl, ?_⟩
  repeat' (with_reducible first
    | assumption | apply State.startDesc_inv | apply State.onPart_inv | apply State.wakeWaiters_inv | apply State.complete_inv
    | (intro _; intros; try dsimp only))

theorem execEventWait_inv (d : DescRef) {s : State} (hs : s.Inv) : ∃ t', execEventWait d s = .next t' ∧ t'.Inv := by
  refine ⟨_, rfl, ?_⟩
  repeat' (with_reducible first
    | assumption | apply State.startDesc_inv | apply State.complete_inv | (intro _; intros; try dsimp only)
    | (split <;> try dsimp only))

theorem execEventWaitDeadline_inv (d : DescRef) {s : State} (hs : s.Inv)
    : ∃ t', execEventWaitDeadline d s = .next t' ∧ t'.Inv := by
  refine ⟨_, rfl, ?_⟩
  repeat' (with_reducible first | assumption | apply State.complete_inv | (split <;> try dsimp only))

theorem execTimerWait_inv (d : DescRef) {s : State} (hs : s.Inv) : ∃ t', execTimerWait d s = .next t' ∧ t'.Inv := by
  refine ⟨_, rfl, ?_⟩
  repeat' (with_reducible first
    | assumption | apply State.startDesc_inv | apply State.complete_inv | (intro _; intros; try dsimp only)
    | (split <;> try dsimp only))

theorem execTimerWaitExpiry_inv (d : DescRef) {s : State} (hs : s.Inv) : ∃ t', execTimerWaitExpiry d s = .next t' ∧ t'.Inv := by
  refine ⟨_, rfl, ?_⟩
  repeat' (with_reducible first | assumption | apply State.complete_inv | (split <;> try dsimp only))

theorem execBadOpcode_inv (d : DescRef) {s : State} (hs : s.Inv) : ∃ t', execBadOpcode d s = .next t' ∧ t'.Inv := by
  refine ⟨_, rfl, ?_⟩
  repeat' (with_reducible first | assumption | apply State.runDesc_inv | apply plainCourse_inv)

theorem State.openAct_inv {s : State} (hs : s.Inv) (p : Nat) (d : Desc) : (s.openAct p d).Inv := by
  unfold State.openAct
  repeat' (with_reducible first
    | assumption | apply State.failDesc_inv | apply State.complete_inv | apply State.onAct_inv | apply State.addLane_inv
    | (split <;> try dsimp only))

theorem execActRun_inv (d : DescRef) {s : State} (hs : s.Inv) : ∃ t', execActRun d s = .next t' ∧ t'.Inv := by
  refine ⟨_, rfl, ?_⟩
  repeat' (with_reducible first
    | assumption | apply State.startDesc_inv | apply State.openAct_inv | (intro _; intros; try dsimp only))

theorem execActStop_inv (d : DescRef) {s : State} (hs : s.Inv) : ∃ t', execActStop d s = .next t' ∧ t'.Inv := by
  refine ⟨_, rfl, ?_⟩
  repeat' (with_reducible first
    | assumption | apply State.startDesc_inv | apply State.stopAct_inv | apply State.onAct_inv
    | (intro _; intros; try dsimp only))

/-! ### Links -/

theorem State.portEvent_inv {s : State} (hs : s.Inv) (n code : Nat) (data : List Byte) : (s.portEvent n code data).Inv := by
  unfold State.portEvent
  dsimp only
  repeat' (with_reducible first | assumption | apply State.raiseBoth_inv | apply State.raise_inv | (split <;> try dsimp only))

theorem State.endCollective_inv {s : State} (hs : s.Inv) (p : Nat) (d : Desc) : (s.endCollective p d).Inv := by
  unfold State.endCollective
  repeat' (with_reducible first | assumption | apply State.raise_inv | apply State.complete_inv | apply State.spoilAll_inv)

theorem State.endOnPort_inv {s : State} (hs : s.Inv) (n : Nat) : (s.endOnPort n).Inv := by
  unfold State.endOnPort
  repeat' (with_reducible first
    | assumption | apply State.endCollective_inv | apply State.foldl_inv | (intro _; intros; try dsimp only))

theorem State.trainLink_inv {s : State} (hs : s.Inv) (n : Nat) : (s.trainLink n).Inv := by
  unfold State.trainLink
  repeat' (with_reducible first | assumption | apply State.sendHello_inv | apply State.onLp_inv)

theorem State.tryTrain_inv {s : State} (hs : s.Inv) (n : Nat) : (s.tryTrain n).Inv := by
  unfold State.tryTrain
  repeat' (with_reducible first | assumption | apply State.trainLink_inv | (split <;> try dsimp only))

theorem State.linkOff_inv {s : State} (hs : s.Inv) (n : Nat) : (s.linkOff n).Inv := by
  unfold State.linkOff
  repeat' (with_reducible first
    | assumption | apply State.onLp_inv | apply State.portEvent_inv | apply State.endOnPort_inv | (split <;> try dsimp only))

theorem State.linkFail_inv {s : State} (hs : s.Inv) (n cause : Nat) : (s.linkFail n cause).Inv := by
  unfold State.linkFail
  repeat' (with_reducible first | assumption | apply State.onLp_inv | apply State.portEvent_inv | apply State.endOnPort_inv)

theorem State.writePortCfg_inv {s : State} (hs : s.Inv) (n v : Nat) : (s.writePortCfg n v).Inv := by
  unfold State.writePortCfg
  repeat' (with_reducible first
    | assumption | apply State.onLp_inv | apply State.tryTrain_inv | apply State.linkOff_inv | (split <;> try dsimp only))

theorem execLinkPortEnable_inv (n : Nat) (v : Word) {s : State} (hs : s.Inv)
    : ∃ t', execLinkPortEnable n v s = .next t' ∧ t'.Inv := by
  refine ⟨_, rfl, ?_⟩
  repeat' (with_reducible first
    | assumption | apply State.writePortCfg_inv | apply State.wakeDeep_inv | (split <;> try dsimp only))

theorem execLinkPortDisable_inv (n : Nat) (v : Word) {s : State} (hs : s.Inv)
    : ∃ t', execLinkPortDisable n v s = .next t' ∧ t'.Inv := by
  refine ⟨_, rfl, ?_⟩
  repeat' (with_reducible first
    | assumption | apply State.writePortCfg_inv | apply State.wakeDeep_inv | (split <;> try dsimp only))

theorem State.checkPair_inv {s : State} (hs : s.Inv) (n : Nat) : (s.checkPair n).Inv := by
  unfold State.checkPair
  repeat' (with_reducible first
    | assumption | apply State.portEvent_inv | apply State.raiseBoth_inv | (split <;> try dsimp only))

theorem execLinkTrainingComplete_inv (n lanes : Nat) (slow : Bool) {s : State} (hs : s.Inv)
    : ∃ t', execLinkTrainingComplete n lanes slow s = .next t' ∧ t'.Inv := by
  refine ⟨_, rfl, ?_⟩
  repeat' (with_reducible first
    | assumption | apply State.onLp_inv | apply State.portEvent_inv | apply State.checkPair_inv | (split <;> try dsimp only))

theorem execLinkTrainingTimeout_inv (n : Nat) {s : State} (hs : s.Inv)
    : ∃ t', execLinkTrainingTimeout n s = .next t' ∧ t'.Inv := by
  refine ⟨_, rfl, ?_⟩
  repeat' (with_reducible first | assumption | apply State.linkFail_inv | (split <;> try dsimp only))

theorem execLinkRetrain_inv (n : Nat) (why : RetrainWhy) {s : State} (hs : s.Inv)
    : ∃ t', execLinkRetrain n why s = .next t' ∧ t'.Inv := by
  refine ⟨_, rfl, ?_⟩
  repeat' (with_reducible first | assumption | apply State.sendHello_inv | apply State.onLp_inv | (split <;> try dsimp only))

theorem execRetrainTimeout_inv (n : Nat) {s : State} (hs : s.Inv) : ∃ t', execRetrainTimeout n s = .next t' ∧ t'.Inv := by
  refine ⟨_, rfl, ?_⟩
  repeat' (with_reducible first | assumption | apply State.linkFail_inv | (split <;> try dsimp only))

theorem State.takeFrame_inv {s : State} (hs : s.Inv) (n typ : Nat) (b : List Byte) (states : List LinkSt) (k
    : Frame → State → State) (hk : ∀ (v0 : Frame) (v1 : State), v1.Inv → (k v0 v1).Inv) :
    (s.takeFrame n typ b states k).Inv := by
  unfold State.takeFrame
  repeat' (with_reducible first
    | assumption | apply hk | apply State.onLp_inv | apply State.progress_inv | (split <;> try dsimp only))

theorem execDataFrame_inv (n : Nat) (f : List Byte) {s : State} (hs : s.Inv)
    : ∃ t', execDataFrame n f s = .next t' ∧ t'.Inv := by
  refine ⟨_, rfl, ?_⟩
  repeat' (with_reducible first
    | assumption | apply State.takeFrame_inv | apply State.onLp_inv | (intro _; intros; try dsimp only))

theorem execNakFrame_inv (n : Nat) (f : List Byte) {s : State} (hs : s.Inv) : ∃ t', execNakFrame n f s = .next t' ∧ t'.Inv := by
  refine ⟨_, rfl, ?_⟩
  repeat' (with_reducible first
    | assumption | apply State.takeFrame_inv | apply State.onLp_inv | (intro _; intros; try dsimp only))

theorem execIdleFrame_inv (n : Nat) (f : List Byte) {s : State} (hs : s.Inv)
    : ∃ t', execIdleFrame n f s = .next t' ∧ t'.Inv := by
  refine ⟨_, rfl, ?_⟩
  repeat' (with_reducible first
    | assumption | apply State.takeFrame_inv | apply State.onLp_inv | (intro _; intros; try dsimp only))

theorem execHelloFrame_inv (n : Nat) (b : List Byte) {s : State} (hs : s.Inv)
    : ∃ t', execHelloFrame n b s = .next t' ∧ t'.Inv := by
  refine ⟨_, rfl, ?_⟩
  repeat' (with_reducible first
    | assumption | apply State.takeFrame_inv | apply State.onLp_inv | apply State.portEvent_inv | apply State.checkPair_inv
    | apply State.endOnPort_inv | (intro _; intros; try dsimp only) | (split <;> try dsimp only))

theorem execReplayTimer_inv (n : Nat) {s : State} (hs : s.Inv) : ∃ t', execReplayTimer n s = .next t' ∧ t'.Inv := by
  refine ⟨_, rfl, ?_⟩
  repeat' (with_reducible first | assumption | apply State.onLp_inv | (split <;> try dsimp only))

theorem execCreditReturn_inv (n : Nat) {s : State} (hs : s.Inv) : ∃ t', execCreditReturn n s = .next t' ∧ t'.Inv := by
  refine ⟨_, rfl, ?_⟩
  repeat' (with_reducible first | assumption | apply State.onLp_inv | (split <;> try dsimp only))

theorem State.writePair_inv {s : State} (hs : s.Inv) (v : Nat) : (s.writePair v).Inv := by
  unfold State.writePair
  repeat' (with_reducible first
    | assumption | apply State.checkPair_inv | apply State.Inv.fold | (simp only [State.inv_mk]) | exact fun h => h
    | (split <;> try dsimp only))

theorem execLinkPairWrite_inv (v : Word) {s : State} (hs : s.Inv) : ∃ t', execLinkPairWrite v s = .next t' ∧ t'.Inv := by
  refine ⟨_, rfl, ?_⟩
  repeat' (with_reducible first
    | assumption | apply State.writePair_inv | apply State.wakeDeep_inv | (split <;> try dsimp only))

theorem execCollAbort_inv (n gid seq : Nat) {s : State} (hs : s.Inv) : ∃ t', execCollAbort n gid seq s = .next t' ∧ t'.Inv := by
  refine ⟨_, rfl, ?_⟩
  repeat' (with_reducible first
    | assumption | apply State.endCollective_inv | apply State.foldl_inv | (intro _; intros; try dsimp only)
    | (split <;> try dsimp only))

/-! ### Ptp -/

theorem State.steer_inv {s : State} (hs : s.Inv) (offset : Int) : (s.steer offset).Inv := by
  unfold State.steer
  repeat' (with_reducible first
    | assumption | apply State.Inv.fold | (simp only [State.inv_mk]) | exact fun h => h | (split <;> try dsimp only))

theorem State.slewed_inv {s : State} (hs : s.Inv) : (s.slewed).Inv := by
  unfold State.slewed
  repeat' (with_reducible first
    | assumption | apply State.Inv.fold | (simp only [State.inv_mk]) | exact fun h => h | (split <;> try dsimp only))

theorem State.onPtp_inv {s : State} (hs : s.Inv) (f : Field → Field) : (s.onPtp f).Inv := by
  unfold State.onPtp
  repeat' (with_reducible first
    | assumption | apply State.raise_inv | apply State.Inv.fold | (simp only [State.inv_mk]) | exact fun h => h
    | (split <;> try dsimp only))

theorem State.ptpSend_inv {s : State} (hs : s.Inv) (peer : Bool) (m : List Byte) : (s.ptpSend peer m).Inv := by
  unfold State.ptpSend
  repeat' (with_reducible first | assumption | apply State.txFrame_inv)

theorem State.ptpOffset_inv {s : State} (hs : s.Inv) (o : Int) : (s.ptpOffset o).Inv := by
  unfold State.ptpOffset
  repeat' (with_reducible first | assumption | apply State.steer_inv | apply State.onPtp_inv)

theorem State.ptpSync_inv {s : State} (hs : s.Inv) (t1 : Int) (t2 : Int) : (s.ptpSync t1 t2).Inv := by
  unfold State.ptpSync
  repeat' (with_reducible first
    | assumption | apply State.onPtp_inv | apply State.ptpOffset_inv | apply State.ptpSend_inv | (split <;> try dsimp only))

theorem State.ptpAnnounce_inv {s : State} (hs : s.Inv) (m : List Byte) : (s.ptpAnnounce m).Inv := by
  unfold State.ptpAnnounce
  repeat' (with_reducible first | assumption | apply State.onPtp_inv | (split <;> try dsimp only))

theorem State.ptpMessage_inv {s : State} (hs : s.Inv) (m : List Byte) : (s.ptpMessage m).Inv := by
  unfold State.ptpMessage
  repeat' (with_reducible first
    | assumption | apply State.onPtp_inv | apply State.ptpSync_inv | apply State.ptpSend_inv | apply State.ptpAnnounce_inv
    | (split <;> try dsimp only))

theorem execPtpHoldover_inv {s : State} (hs : s.Inv) : ∃ t', execPtpHoldover s = .next t' ∧ t'.Inv := by
  refine ⟨_, rfl, ?_⟩
  repeat' (with_reducible first | assumption | apply State.onPtp_inv | (split <;> try dsimp only))

theorem State.writePtpCtrl_inv {s : State} (hs : s.Inv) (v : Nat) : (s.writePtpCtrl v).Inv := by
  unfold State.writePtpCtrl
  repeat' (with_reducible first | assumption | apply State.onPtp_inv | (split <;> try dsimp only))

theorem execPtpCtrlWrite_inv (v : Word) {s : State} (hs : s.Inv) : ∃ t', execPtpCtrlWrite v s = .next t' ∧ t'.Inv := by
  refine ⟨_, rfl, ?_⟩
  repeat' (with_reducible first
    | assumption | apply State.writePtpCtrl_inv | apply State.wakeDeep_inv | (split <;> try dsimp only))

theorem State.writePtmCtrl_inv {s : State} (hs : s.Inv) (v : Nat) : (s.writePtmCtrl v).Inv := by
  unfold State.writePtmCtrl
  repeat' (with_reducible first
    | assumption | apply State.Inv.fold | (simp only [State.inv_mk]) | exact fun h => h | (split <;> try dsimp only))

theorem execPtmCtrlWrite_inv (v : Word) {s : State} (hs : s.Inv) : ∃ t', execPtmCtrlWrite v s = .next t' ∧ t'.Inv := by
  refine ⟨_, rfl, ?_⟩
  repeat' (with_reducible first
    | assumption | apply State.writePtmCtrl_inv | apply State.wakeDeep_inv | (split <;> try dsimp only))

/-! ### Streams -/

theorem State.crcBind_inv {s : State} (hs : s.Inv) (u : Nat) (a2 : CrcCtx) : (s.crcBind u a2).Inv := by
  unfold State.crcBind
  repeat' (with_reducible first | assumption | apply State.Inv.fold | (simp only [State.inv_mk]) | exact fun h => h)

theorem State.crcCount_inv {s : State} (hs : s.Inv) (u : Nat) (bad : Bool) : (s.crcCount u bad).Inv := by
  unfold State.crcCount
  repeat' (with_reducible first | assumption | apply State.Inv.fold | (simp only [State.inv_mk]) | exact fun h => h)

theorem State.postChan_inv {s : State} (hs : s.Inv) (c : Nat) : (s.postChan c).Inv := by
  unfold State.postChan
  repeat' (with_reducible first | assumption | apply State.onChan_inv | apply State.tryWriteVa_inv)

theorem State.putUnitRec_inv {s : State} (hs : s.Inv) (c off : Nat) (u : UnitRec) (payload : List Byte) :
    (s.putUnitRec c off u payload).Inv := by
  unfold State.putUnitRec
  repeat' (with_reducible first | assumption | apply State.tryWriteVa_inv | apply State.postChan_inv | apply State.onChan_inv)

theorem State.overrun_inv {s : State} (hs : s.Inv) (c : Nat) : (s.overrun c).Inv := by
  unfold State.overrun
  dsimp only
  repeat' (with_reducible first | assumption | apply State.onChan_inv | apply State.raise_inv | (split <;> try dsimp only))

theorem State.releaseUnit_inv {s : State} (hs : s.Inv) (c : Nat) : (s.releaseUnit c).Inv := by
  unfold State.releaseUnit
  dsimp only
  repeat' (with_reducible first
    | assumption | apply State.onChan_inv | apply State.putUnitRec_inv | apply State.overrun_inv | (split <;> try dsimp only))

theorem State.releaseTo_inv {s : State} (hs : s.Inv) (c t n : Nat) : (s.releaseTo c t n).Inv := by
  induction n generalizing s with
  | zero => exact hs
  | succ n ih =>
    unfold State.releaseTo
    dsimp only
    split
    · exact ih (State.releaseUnit_inv hs _)
    · exact hs

theorem State.releaseDue_inv {s : State} (hs : s.Inv) (c t : Nat) : (s.releaseDue c t).Inv := by
  unfold State.releaseDue
  repeat' (with_reducible first | assumption | apply State.releaseTo_inv)

theorem State.acceptPkt_inv {s : State} (hs : s.Inv) (c : Nat) (k : Pkt) : (s.acceptPkt c k).Inv := by
  unfold State.acceptPkt
  dsimp only
  repeat' (with_reducible first | assumption | apply State.onChan_inv | apply State.releaseDue_inv | (split <;> try dsimp only))

theorem State.takeRtp_inv {s : State} (hs : s.Inv) (c arrival src sport : Nat) (b : List Byte) :
    (s.takeRtp c arrival src sport b).Inv := by
  unfold State.takeRtp
  repeat' (with_reducible first | assumption | apply State.onChan_inv | apply State.acceptPkt_inv | (split <;> try dsimp only))

theorem State.takeRtcp_inv {s : State} (hs : s.Inv) (c arrival src : Nat) (b : List Byte) : (s.takeRtcp c arrival src b).Inv := by
  unfold State.takeRtcp
  dsimp only
  repeat' (with_reducible first | assumption | apply State.onChan_inv | (split <;> try dsimp only))

theorem State.checkFail_inv {s : State} (hs : s.Inv) (c u : Nat) : (s.checkFail c u).Inv := by
  unfold State.checkFail
  dsimp only
  repeat' (with_reducible first | assumption | apply State.onChan_inv | apply State.raise_inv | (split <;> try dsimp only))

theorem State.takeSensor_inv {s : State} (hs : s.Inv) (c arrival src sport : Nat) (b : List Byte) :
    (s.takeSensor c arrival src sport b).Inv := by
  unfold State.takeSensor
  dsimp only
  repeat' (with_reducible first
    | assumption | apply State.onChan_inv | apply State.crcCount_inv | apply State.checkFail_inv | apply State.acceptPkt_inv
    | (split <;> try dsimp only))

theorem State.takePacket_inv {s : State} (hs : s.Inv) (c : Nat) (a : Nat × List Byte) : (s.takePacket c a).Inv := by
  unfold State.takePacket
  dsimp only
  repeat' (with_reducible first
    | assumption | apply State.releaseDue_inv | apply State.takeRtcp_inv | apply State.takeRtp_inv
    | apply State.takeSensor_inv | (split <;> try dsimp only))

theorem execFieldFrameReceive_inv (n : Nat) (f : List Byte) {s : State} (hs : s.Inv)
    : ∃ t', execFieldFrameReceive n f s = .next t' ∧ t'.Inv := by
  refine ⟨_, rfl, ?_⟩
  repeat' (with_reducible first
    | assumption | apply State.ptpMessage_inv | apply State.Inv.fold | (simp only [State.inv_mk]) | exact fun h => h
    | (split <;> try dsimp only))

theorem State.demuxOne_inv {s : State} (hs : s.Inv) (n : Nat) (a : Nat × List Byte) : (s.demuxOne n a).Inv := by
  unfold State.demuxOne
  repeat' (with_reducible first
    | assumption | apply State.dropBad_inv | apply State.dropFrame_inv | apply State.onChan_inv | apply State.handleOther_inv
    | (split <;> try dsimp only))

theorem State.demux_inv {s : State} (hs : s.Inv) : (s.demux).Inv := by
  unfold State.demux
  repeat' (with_reducible first
    | assumption | apply State.demuxOne_inv | apply State.foldl_inv | apply State.Inv.fold | (simp only [State.inv_mk])
    | (intro _; intros; try dsimp only))

theorem execProtocolEngineSlice_inv {s : State} (hs : s.Inv) : ∃ t', execProtocolEngineSlice s = .next t' ∧ t'.Inv := by
  refine ⟨_, rfl, ?_⟩
  repeat' (with_reducible first
    | assumption | apply State.demux_inv | apply State.onChan_inv | apply State.postChan_inv | apply State.takePacket_inv
    | apply State.foldl_inv | (intro _; intros; try dsimp only) | (split <;> try dsimp only))

theorem execUnitDeadline_inv (c : Nat) {s : State} (hs : s.Inv) : ∃ t', execUnitDeadline c s = .next t' ∧ t'.Inv := by
  refine ⟨_, rfl, ?_⟩
  repeat' (with_reducible first
    | assumption | apply State.postChan_inv | apply State.releaseDue_inv | (split <;> try dsimp only))

theorem State.fieldLink_inv {s : State} (hs : s.Inv) (n : Nat) (up : Bool) (fec : Nat) : (s.fieldLink n up fec).Inv := by
  unfold State.fieldLink
  repeat' (with_reducible first
    | assumption | apply State.raise_inv | apply State.foldl_inv | apply State.Inv.fold | (simp only [State.inv_mk])
    | (intro _; intros; try dsimp only) | (split <;> try dsimp only))

theorem execFieldLink_inv (n : Nat) (up : Bool) (fec : Nat) {s : State} (hs : s.Inv)
    : ∃ t', execFieldLink n up fec s = .next t' ∧ t'.Inv := by
  refine ⟨_, rfl, ?_⟩
  repeat' (with_reducible first | assumption | apply State.fieldLink_inv)

theorem execStreamStall_inv (c : Nat) {s : State} (hs : s.Inv) : ∃ t', execStreamStall c s = .next t' ∧ t'.Inv := by
  refine ⟨_, rfl, ?_⟩
  repeat' (with_reducible first | assumption | apply State.raise_inv | apply State.onChan_inv | (split <;> try dsimp only))

theorem execRtcpReport_inv (c : Nat) {s : State} (hs : s.Inv) : ∃ t', execRtcpReport c s = .next t' ∧ t'.Inv := by
  refine ⟨_, rfl, ?_⟩
  repeat' (with_reducible first
    | assumption | apply State.tick_inv | apply State.onChan_inv | apply State.txFrame_inv | (split <;> try dsimp only))

theorem State.openChan_inv {s : State} (hs : s.Inv) (p : Nat) (d : Desc) (b : List Byte) : (s.openChan p d b).Inv := by
  unfold State.openChan
  repeat' (with_reducible first
    | assumption | apply State.crcBind_inv | apply State.onChan_inv | apply State.tryWriteVa_inv | apply State.reportGroup_inv
    | apply State.postChan_inv | (split <;> try dsimp only))

theorem execStreamOpen_inv (d : DescRef) {s : State} (hs : s.Inv) : ∃ t', execStreamOpen d s = .next t' ∧ t'.Inv := by
  refine ⟨_, rfl, ?_⟩
  repeat' (with_reducible first
    | assumption | apply State.runDesc_inv | apply okDone_inv | apply State.openChan_inv | apply State.spoilFor_inv
    | apply okSat.bind | refine ⟨?_, ?_, ?_⟩ | (intro _; intros; try dsimp only))

theorem State.endContext_inv {s : State} (hs : s.Inv) (c st : Nat) : (s.endContext c st).Inv := by
  unfold State.endContext
  repeat' (with_reducible first
    | assumption | apply State.complete_inv | apply State.foldl_inv | apply State.Inv.fold | (simp only [State.inv_mk])
    | (intro _; intros; try dsimp only))

theorem State.closeChan_inv {s : State} (hs : s.Inv) (c st : Nat) : (s.closeChan c st).Inv := by
  unfold State.closeChan
  repeat' (with_reducible first
    | assumption | apply State.onChan_inv | apply State.crcUnbind_inv | apply State.endContext_inv
    | (split <;> try dsimp only))

theorem State.closeChans_inv {s : State} (hs : s.Inv) (p st : Nat) : (s.closeChans p st).Inv := by
  unfold State.closeChans
  repeat' (with_reducible first
    | assumption | apply State.closeChan_inv | apply State.foldl_inv | (intro _; intros; try dsimp only))

theorem execStreamClose_inv (d : DescRef) {s : State} (hs : s.Inv) : ∃ t', execStreamClose d s = .next t' ∧ t'.Inv := by
  refine ⟨_, rfl, ?_⟩
  repeat' (with_reducible first
    | assumption | apply State.runDesc_inv | apply State.closeChan_inv | apply State.spoilFor_inv | apply okSat.ok
    | refine ⟨?_, ?_, ?_⟩ | (intro _; intros; try dsimp only))

theorem execResultFrame_inv (d : DescRef) {s : State} (hs : s.Inv) : ∃ t', execResultFrame d s = .next t' ∧ t'.Inv := by
  refine ⟨_, rfl, ?_⟩
  repeat' (with_reducible first
    | assumption | apply State.runDesc_inv | apply State.sendSensor_inv | apply State.spoilFor_inv | apply okSat.ok
    | apply okSat.bind | refine ⟨?_, ?_, ?_⟩ | (intro _; intros; try dsimp only))

/-! ### Host -/

theorem State.enableSq_inv {s : State} (hs : s.Inv) (p q : Nat) : (s.enableSq p q).Inv := by
  unfold State.enableSq
  dsimp only
  repeat' (with_reducible first | assumption | apply State.hostWriteAs_inv | apply State.onSq_inv | (split <;> try dsimp only))

theorem State.enableCq_inv {s : State} (hs : s.Inv) (p c : Nat) : (s.enableCq p c).Inv := by
  unfold State.enableCq
  dsimp only
  repeat' (with_reducible first | assumption | apply State.onCq_inv | (split <;> try dsimp only))

theorem State.enableEvt_inv {s : State} (hs : s.Inv) (p : Nat) : (s.enableEvt p).Inv := by
  unfold State.enableEvt
  dsimp only
  repeat' (with_reducible first
    | assumption | apply State.postPresence_inv | apply State.onEvt_inv | (split <;> try dsimp only))

theorem State.pauseSq_inv {s : State} (hs : s.Inv) (p q : Nat) (on : Bool) : (s.pauseSq p q on).Inv := by
  unfold State.pauseSq
  repeat' (with_reducible first | assumption | apply State.noteQuiet_inv | apply State.onSq_inv)

theorem State.disableSq_inv {s : State} (hs : s.Inv) (p q : Nat) : (s.disableSq p q).Inv := by
  unfold State.disableSq
  repeat' (with_reducible first | assumption | apply State.noteQuiet_inv | apply State.onSq_inv)

theorem State.disableCq_inv {s : State} (hs : s.Inv) (p c : Nat) : (s.disableCq p c).Inv := by
  unfold State.disableCq
  repeat' (with_reducible first | assumption | apply State.onCq_inv | (split <;> try dsimp only))

theorem State.disableEvt_inv {s : State} (hs : s.Inv) (p : Nat) : (s.disableEvt p).Inv := by
  unfold State.disableEvt
  repeat' (with_reducible first | assumption | apply State.onEvt_inv)

theorem State.writeSqCfg_inv {s : State} (hs : s.Inv) (p q v : Nat) : (s.writeSqCfg p q v).Inv := by
  unfold State.writeSqCfg
  repeat' (with_reducible first
    | assumption | apply State.onSq_inv | apply State.disableSq_inv | apply State.enableSq_inv | apply State.pauseSq_inv
    | (split <;> try dsimp only))

theorem State.writeCqCfg_inv {s : State} (hs : s.Inv) (p c v : Nat) : (s.writeCqCfg p c v).Inv := by
  unfold State.writeCqCfg
  repeat' (with_reducible first
    | assumption | apply State.onCq_inv | apply State.disableCq_inv | apply State.enableCq_inv | (split <;> try dsimp only))

theorem State.writeEvtCfg_inv {s : State} (hs : s.Inv) (p v : Nat) : (s.writeEvtCfg p v).Inv := by
  unfold State.writeEvtCfg
  repeat' (with_reducible first
    | assumption | apply State.onEvt_inv | apply State.disableEvt_inv | apply State.enableEvt_inv | (split <;> try dsimp only))

theorem execRingEnable_inv (p : Nat) (r : RingId) (v : Word) {s : State} (hs : s.Inv)
    : ∃ t', execRingEnable p r v s = .next t' ∧ t'.Inv := by
  refine ⟨_, rfl, ?_⟩
  repeat' (with_reducible first
    | assumption | apply State.writeSqCfg_inv | apply State.wakeDeep_inv | apply State.writeCqCfg_inv
    | apply State.writeEvtCfg_inv | (split <;> try dsimp only))

theorem execRingPause_inv (p q : Nat) {s : State} (hs : s.Inv) : ∃ t', execRingPause p q s = .next t' ∧ t'.Inv := by
  refine ⟨_, rfl, ?_⟩
  repeat' (with_reducible first | assumption | apply State.pauseSq_inv | apply State.wakeDeep_inv | (split <;> try dsimp only))

theorem execRingUnpause_inv (p q : Nat) {s : State} (hs : s.Inv) : ∃ t', execRingUnpause p q s = .next t' ∧ t'.Inv := by
  refine ⟨_, rfl, ?_⟩
  repeat' (with_reducible first | assumption | apply State.pauseSq_inv | apply State.wakeDeep_inv | (split <;> try dsimp only))

theorem execRingDisable_inv (p : Nat) (r : RingId) {s : State} (hs : s.Inv)
    : ∃ t', execRingDisable p r s = .next t' ∧ t'.Inv := by
  refine ⟨_, rfl, ?_⟩
  repeat' (with_reducible first
    | assumption | apply State.disableSq_inv | apply State.wakeDeep_inv | apply State.disableCq_inv
    | apply State.disableEvt_inv | (split <;> try dsimp only))

theorem execRingDrainDone_inv (p q : Nat) {s : State} (hs : s.Inv) : ∃ t', execRingDrainDone p q s = .next t' ∧ t'.Inv := by
  refine ⟨_, rfl, ?_⟩
  repeat' (with_reducible first | assumption | apply State.onSq_inv | (split <;> try dsimp only))

theorem State.nudge_inv {s : State} (hs : s.Inv) (p : Nat) : (s.nudge p).Inv := by
  unfold State.nudge
  repeat' (with_reducible first
    | assumption | apply State.doorbell_inv | apply State.onHost_inv | apply State.endDoze_inv | (split <;> try dsimp only))

theorem execNudge_inv (p : Nat) {s : State} (hs : s.Inv) : ∃ t', execNudge p s = .next t' ∧ t'.Inv := by
  refine ⟨_, rfl, ?_⟩
  repeat' (with_reducible first | assumption | apply State.nudge_inv | apply State.wakeDeep_inv | (split <;> try dsimp only))

theorem execPollExpiry_inv (p : Nat) {s : State} (hs : s.Inv) : ∃ t', execPollExpiry p s = .next t' ∧ t'.Inv := by
  refine ⟨_, rfl, ?_⟩
  repeat' (with_reducible first | assumption | apply State.doorbell_inv | (split <;> try dsimp only))

theorem State.takeTails_inv {s : State} (hs : s.Inv) (p : Nat) (bs : List Byte) : (s.takeTails p bs).Inv := by
  unfold State.takeTails
  repeat' (with_reducible first
    | assumption | apply State.sqError_inv | apply State.onSq_inv | apply State.foldl_inv | (intro _; intros; try dsimp only)
    | (split <;> try dsimp only))

theorem State.takeHeads_inv {s : State} (hs : s.Inv) (p : Nat) (bs : List Byte) : (s.takeHeads p bs).Inv := by
  unfold State.takeHeads
  repeat' (with_reducible first
    | assumption | apply State.cqError_inv | apply State.onCq_inv | apply State.foldl_inv | (intro _; intros; try dsimp only)
    | (split <;> try dsimp only))

theorem State.takeEvtHead_inv {s : State} (hs : s.Inv) (p : Nat) (bs : List Byte) : (s.takeEvtHead p bs).Inv := by
  unfold State.takeEvtHead
  dsimp only
  repeat' (with_reducible first | assumption | apply State.evtError_inv | apply State.onEvt_inv | (split <;> try dsimp only))

theorem State.takeDoorbell_inv {s : State} (hs : s.Inv) (p : Nat) (r : HostRead) : (s.takeDoorbell p r).Inv := by
  unfold State.takeDoorbell
  repeat' (with_reducible first
    | assumption | apply State.takeEvtHead_inv | apply State.takeHeads_inv | apply State.takeTails_inv
    | apply State.allRingsError_inv | apply State.onHost_inv | apply State.countRdErr_inv | (split <;> try dsimp only))

theorem State.writeLate_inv {s : State} (hs : s.Inv) (p : Nat) : (s.writeLate p).Inv := by
  unfold State.writeLate
  repeat' (with_reducible first
    | assumption | apply State.recordOut_inv | apply State.onHost_inv | apply State.foldl_inv
    | (intro _; intros; try dsimp only))

theorem State.settleDoze_inv {s : State} (hs : s.Inv) (p : Nat) : (s.settleDoze p).Inv := by
  unfold State.settleDoze
  dsimp only
  repeat' (with_reducible first
    | assumption | apply State.onHost_inv | apply State.writeLate_inv | apply State.endDoze_inv | apply State.postPresence_inv
    | (split <;> try dsimp only))

theorem State.doorbellDone_inv {s : State} (hs : s.Inv) (p : Nat) : (s.doorbellDone p).Inv := by
  unfold State.doorbellDone
  repeat' (with_reducible first | assumption | apply State.onHost_inv | apply State.settleDoze_inv | apply State.noteQuiet_inv)

theorem execDoorbellReadReturn_inv (p : Nat) (r : HostRead) {s : State} (hs : s.Inv)
    : ∃ t', execDoorbellReadReturn p r s = .next t' ∧ t'.Inv := by
  refine ⟨_, rfl, ?_⟩
  repeat' (with_reducible first
    | assumption | apply State.doorbellDone_inv | apply State.takeDoorbell_inv | (split <;> try dsimp only))

theorem execDozeSequence_inv (p : Nat) {s : State} (hs : s.Inv) : ∃ t', execDozeSequence p s = .next t' ∧ t'.Inv := by
  refine ⟨_, rfl, ?_⟩
  repeat' (with_reducible first
    | assumption | apply State.postPresence_inv | apply State.onHost_inv | (split <;> try dsimp only))

theorem State.fetched_inv {s : State} (hs : s.Inv) (p q left : Nat) (bytes : List Byte) (tagOnly : Bool) :
    (s.fetched p q left bytes tagOnly).Inv := by
  unfold State.fetched
  repeat' (with_reducible first
    | assumption | apply State.onSq_inv | apply State.onCq_inv | apply State.onHost_inv | apply State.onPart_inv
    | apply State.hostWriteAs_inv | apply State.noteQuiet_inv)

theorem State.fetchBroken_inv {s : State} (hs : s.Inv) (p q left : Nat) : (s.fetchBroken p q left).Inv := by
  unfold State.fetchBroken
  repeat' (with_reducible first | assumption | apply State.fetched_inv | apply State.completeNum_inv)

theorem execDescriptorFetch_inv (p : Nat) (r : HostRead) {s : State} (hs : s.Inv)
    : ∃ t', execDescriptorFetch p r s = .next t' ∧ t'.Inv := by
  refine ⟨_, rfl, ?_⟩
  repeat' (with_reducible first
    | assumption | apply State.fetched_inv | apply State.onSec_inv | apply State.onSq_inv | apply State.fetchBroken_inv
    | apply State.sqError_inv | apply State.countRdErr_inv | (split <;> try dsimp only))

theorem execEventRecordWrite_inv (p : Nat) {s : State} (hs : s.Inv) : ∃ t', execEventRecordWrite p s = .next t' ∧ t'.Inv := by
  refine ⟨_, rfl, ?_⟩
  repeat' (with_reducible first
    | assumption | apply State.hostWriteAs_inv | apply State.putUnit_inv | apply State.onEvt_inv
    | apply State.postPresence_inv | (split <;> try dsimp only))

theorem State.message_inv {s : State} (hs : s.Inv) (p v : Nat) : (s.message p v).Inv := by
  unfold State.message
  repeat' (with_reducible first | assumption | apply State.hostWriteAs_inv | apply State.onHost_inv)

theorem State.pend_inv {s : State} (hs : s.Inv) (p v : Nat) : (s.pend p v).Inv := by
  unfold State.pend
  repeat' (with_reducible first | assumption | apply State.onHost_inv)

theorem State.unmask_inv {s : State} (hs : s.Inv) (p v : Nat) : (s.unmask p v).Inv := by
  unfold State.unmask
  dsimp only
  repeat' (with_reducible first | assumption | apply State.onHost_inv | apply State.message_inv | (split <;> try dsimp only))

theorem execMsixSend_inv (p : Nat) (r : RingId) {s : State} (hs : s.Inv) : ∃ t', execMsixSend p r s = .next t' ∧ t'.Inv := by
  refine ⟨_, rfl, ?_⟩
  repeat' (with_reducible first
    | assumption | apply State.pend_inv | apply State.onCq_inv | apply State.message_inv | apply State.onEvt_inv
    | (split <;> try dsimp only))

theorem execHostReadFailure_inv (p : Nat) (what : ReadOf) (r : HostRead) {s : State} (hs : s.Inv)
    : ∃ t', execHostReadFailure p what r s = .next t' ∧ t'.Inv := by
  refine ⟨_, rfl, ?_⟩
  repeat' (with_reducible first
    | assumption | apply State.doorbellDone_inv | apply State.takeDoorbell_inv | apply State.sqError_inv
    | apply State.countRdErr_inv | apply State.failDesc_inv | apply State.spoilOut_inv | (split <;> try dsimp only))

theorem State.failHostReads_inv {s : State} (hs : s.Inv) (p : Nat) : (s.failHostReads p).Inv := by
  unfold State.failHostReads
  repeat' (with_reducible first
    | assumption | apply State.failDesc_inv | apply State.spoilOut_inv | apply State.countRdErr_inv | apply State.foldl_inv
    | (intro _; intros; try dsimp only))

theorem State.resetConfig_inv {s : State} (hs : s.Inv) : (s.resetConfig).Inv := by
  unfold State.resetConfig
  repeat' (with_reducible first | assumption | apply State.Inv.fold | (simp only [State.inv_mk]) | exact fun h => h)

theorem State.dropLink_inv {s : State} (hs : s.Inv) (p : Nat) : (s.dropLink p).Inv := by
  unfold State.dropLink
  repeat' (with_reducible first
    | assumption | apply State.writeLate_inv | apply State.allRingsError_inv | apply State.onHost_inv
    | apply State.failHostReads_inv | apply State.onPart_inv)

theorem State.linkDown_inv {s : State} (hs : s.Inv) : (s.linkDown).Inv := by
  unfold State.linkDown
  repeat' (with_reducible first
    | assumption | apply State.resetConfig_inv | apply State.dropLink_inv | apply State.foldl_inv | apply State.Inv.fold
    | (simp only [State.inv_mk]) | (intro _; intros; try dsimp only))

theorem execHostLinkDown_inv {s : State} (hs : s.Inv) : ∃ t', execHostLinkDown s = .next t' ∧ t'.Inv := by
  refine ⟨_, rfl, ?_⟩
  repeat' (with_reducible first | assumption | apply State.linkDown_inv | (split <;> try dsimp only))

theorem execLinkChange_inv (speed width : Nat) (flit : Bool) {s : State} (hs : s.Inv)
    : ∃ t', execLinkChange speed width flit s = .next t' ∧ t'.Inv := by
  refine ⟨_, rfl, ?_⟩
  repeat' (with_reducible first
    | assumption | apply State.raise_inv | apply State.Inv.fold | (simp only [State.inv_mk]) | exact fun h => h
    | (split <;> try dsimp only))

theorem execPerstAssert_inv {s : State} (hs : s.Inv) : ∃ t', execPerstAssert s = .next t' ∧ t'.Inv := by
  refine ⟨_, rfl, ?_⟩
  repeat' (with_reducible first
    | assumption | apply State.linkDown_inv | apply State.resetConfig_inv | apply State.Inv.fold | (simp only [State.inv_mk])
    | exact fun h => h | (split <;> try dsimp only))

theorem execPerstRelease_inv {s : State} (hs : s.Inv) : ∃ t', execPerstRelease s = .next t' ∧ t'.Inv := by
  refine ⟨_, rfl, ?_⟩
  repeat' (with_reducible first | assumption | apply State.Inv.fold | (simp only [State.inv_mk]) | exact fun h => h)

theorem execHostLinkUp_inv (speed width : Nat) (flit : Bool) {s : State} (hs : s.Inv)
    : ∃ t', execHostLinkUp speed width flit s = .next t' ∧ t'.Inv := by
  refine ⟨_, rfl, ?_⟩
  repeat' (with_reducible first
    | assumption | apply State.onEvt_inv | apply State.foldl_inv | apply State.Inv.fold | (simp only [State.inv_mk])
    | (intro _; intros; try dsimp only) | (split <;> try dsimp only))

theorem execPtmDialog_inv (offset : Int) {s : State} (hs : s.Inv) : ∃ t', execPtmDialog offset s = .next t' ∧ t'.Inv := by
  refine ⟨_, rfl, ?_⟩
  repeat' (with_reducible first
    | assumption | apply State.steer_inv | apply State.Inv.fold | (simp only [State.inv_mk]) | exact fun h => h
    | (split <;> try dsimp only))

theorem execBar0AccessIgnored_inv (fn off len : Nat) {s : State} (hs : s.Inv)
    : ∃ t', execBar0AccessIgnored fn off len s = .next t' ∧ t'.Inv := by
  refine ⟨_, rfl, ?_⟩
  repeat' (with_reducible first
    | assumption | apply State.onHost_inv | apply State.Inv.fold | (simp only [State.inv_mk]) | exact fun h => h
    | (split <;> try dsimp only))

theorem execBar2Write_inv (p off : Nat) (data : List Byte) {s : State} (hs : s.Inv)
    : ∃ t', execBar2Write p off data s = .next t' ∧ t'.Inv := by
  refine ⟨_, rfl, ?_⟩
  repeat' (with_reducible first
    | assumption | refine okSat.state (State.writeVa_inv ?_ _ _ _ _ _) (by assumption) | apply State.note_inv
    | (split <;> try dsimp only))

theorem execBar2Read_inv (p off len : Nat) {s : State} (hs : s.Inv) : ∃ t', execBar2Read p off len s = .next t' ∧ t'.Inv := by
  refine ⟨_, rfl, ?_⟩
  repeat' (with_reducible first
    | assumption | apply State.note_inv | apply State.Inv.fold | (simp only [State.inv_mk]) | exact fun h => h
    | (split <;> try dsimp only))

/-! ### Recover -/

theorem State.endEarly_inv {s : State} (hs : s.Inv) (p num : Nat) (o : Done) : (s.endEarly p num o).Inv := by
  unfold State.endEarly
  repeat' (with_reducible first
    | assumption | apply State.complete_inv | apply State.kvAbandon_inv | apply State.spoilOut_inv
    | (split <;> try dsimp only))

theorem State.endEach_inv {s : State} (hs : s.Inv) (p : Nat) (ds : List Desc) (o : Done) : (s.endEach p ds o).Inv := by
  unfold State.endEach
  repeat' (with_reducible first
    | assumption | apply State.batched_inv | apply State.endEarly_inv | apply State.foldl_inv
    | (intro _; intros; try dsimp only))

theorem State.endAll_inv {s : State} (hs : s.Inv) (p st : Nat) : (s.endAll p st).Inv := by
  unfold State.endAll
  repeat' (with_reducible first
    | assumption | apply State.endActDescs_inv | apply State.endEach_inv | apply State.foldl_inv
    | (intro _; intros; try dsimp only) | (split <;> try dsimp only))

theorem State.portLost_inv {s : State} (hs : s.Inv) (i : Nat) : (s.portLost i).Inv := by
  unfold State.portLost
  repeat' (with_reducible first
    | assumption | apply State.onPart_inv | apply State.raise_inv | apply State.foldl_inv | apply State.Inv.fold
    | (simp only [State.inv_mk])
    | (intro hm; first | exact MemSys.store_wf hm _ _ | exact MemSys.storePieces_wf hm _ _ | exact MemSys.zero_wf hm _ _ | simpa using hm)
    | (intro _; intros; try dsimp only) | (split <;> try dsimp only))

theorem State.portBack_inv {s : State} (hs : s.Inv) (i : Nat) : (s.portBack i).Inv := by
  unfold State.portBack
  repeat' (with_reducible first
    | assumption | apply State.Inv.fold | (simp only [State.inv_mk])
    | (intro hm; first | exact MemSys.store_wf hm _ _ | exact MemSys.storePieces_wf hm _ _ | exact MemSys.zero_wf hm _ _ | simpa using hm)
    | (split <;> try dsimp only))

theorem State.channelsLost_inv {s : State} (hs : s.Inv) (i : Nat) (lost : List Nat) : (s.channelsLost i lost).Inv := by
  unfold State.channelsLost
  repeat' (with_reducible first
    | assumption | apply State.Inv.fold | (simp only [State.inv_mk])
    | (intro hm; first | exact MemSys.store_wf hm _ _ | exact MemSys.storePieces_wf hm _ _ | exact MemSys.zero_wf hm _ _ | simpa using hm)
    | (split <;> try dsimp only))

theorem State.dropQueued_inv {s : State} (hs : s.Inv) (kind unit i : Nat) : (s.dropQueued kind unit i).Inv := by
  unfold State.dropQueued
  repeat' (with_reducible first | assumption | apply State.Inv.fold | (simp only [State.inv_mk]) | exact fun h => h)

theorem State.dropMover_inv {s : State} (hs : s.Inv) (t : Nat) : (s.dropMover t).Inv := by
  unfold State.dropMover
  repeat' (with_reducible first | assumption | apply State.Inv.fold | (simp only [State.inv_mk]) | exact fun h => h)

theorem State.zeroTile_inv {s : State} (hs : s.Inv) (t : Nat) : (s.zeroTile t).Inv := by
  unfold State.zeroTile
  repeat' (with_reducible first
    | assumption | apply State.Inv.fold | (simp only [State.inv_mk])
    | (intro hm; first | exact MemSys.store_wf hm _ _ | exact MemSys.storePieces_wf hm _ _ | exact MemSys.zero_wf hm _ _ | simpa using hm))

theorem State.freeTile_inv {s : State} (hs : s.Inv) (t : Nat) : (s.freeTile t).Inv := by
  unfold State.freeTile
  repeat' (with_reducible first
    | assumption | apply State.onUnit_inv | apply State.dropMover_inv | apply State.settleTile_inv
    | apply State.settleFence_inv | apply State.onTile_inv | apply State.zeroTile_inv)

theorem State.fenceHub_inv {s : State} (hs : s.Inv) (kind unit reason : Nat) : (s.fenceHub kind unit reason).Inv := by
  unfold State.fenceHub
  repeat' (with_reducible first
    | assumption | apply State.onUnit_inv | apply State.onLp_inv | apply State.linkOff_inv | apply State.portLost_inv
    | apply State.raise_inv | apply State.reviewHealth_inv | apply State.reviewDown_inv | apply State.logOpen_inv
    | apply State.Inv.fold | (simp only [State.inv_mk]) | exact fun h => h | (split <;> try dsimp only))

theorem State.endFenced_inv {s : State} (hs : s.Inv) (t : Nat) : (s.endFenced t).Inv := by
  unfold State.endFenced
  repeat' (with_reducible first | assumption | apply State.endEach_inv | (split <;> try dsimp only))

theorem State.fenceUnit_inv {s : State} (hs : s.Inv) (kind unit reason : Nat) : (s.fenceUnit kind unit reason).Inv := by
  unfold State.fenceUnit
  repeat' (with_reducible first
    | assumption | apply State.fenceHub_inv | apply State.onUnit_inv | apply State.settleFence_inv | apply State.onTile_inv
    | apply State.endFenced_inv | (split <;> try dsimp only))

theorem State.unfence_inv {s : State} (hs : s.Inv) (kind unit : Nat) : (s.unfence kind unit).Inv := by
  unfold State.unfence
  repeat' (with_reducible first
    | assumption | apply State.onUnit_inv | apply State.onTile_inv | apply State.zeroTile_inv | apply State.portBack_inv
    | apply State.raiseTile_inv | apply State.raise_inv | apply State.reviewHealth_inv | apply State.reviewUp_inv
    | (split <;> try dsimp only))

theorem State.faultPart_inv {s : State} (hs : s.Inv) (p : Nat) : (s.faultPart p).Inv := by
  unfold State.faultPart
  repeat' (with_reducible first
    | assumption | apply State.checkExpel_inv | apply State.endAll_inv | apply State.onSec_inv | (split <;> try dsimp only))

theorem State.requestReset_inv {s : State} (hs : s.Inv) (kind unit source : Nat) (hang : List Byte) (cascade testing : Bool) :
    (s.requestReset kind unit source hang cascade testing).Inv := by
  unfold State.requestReset
  repeat' (with_reducible first
    | assumption | apply State.onUnit_inv | apply State.onTile_inv | apply State.chargeItem_inv | (split <;> try dsimp only))

theorem State.wipeUnit_inv {s : State} (hs : s.Inv) (kind unit : Nat) : (s.wipeUnit kind unit).Inv := by
  unfold State.wipeUnit
  repeat' (with_reducible first
    | assumption | apply State.onTile_inv | apply State.dropMover_inv | apply State.zeroTile_inv | apply State.dropQueued_inv
    | apply State.trainLink_inv | apply State.Inv.fold | (simp only [State.inv_mk]) | exact fun h => h
    | (split <;> try dsimp only))

theorem State.countReset_inv {s : State} (hs : s.Inv) (kind unit : Nat) : (s.countReset kind unit).Inv := by
  unfold State.countReset
  dsimp only
  repeat' (with_reducible first
    | assumption | apply State.onUnit_inv | apply State.fenceUnit_inv | apply State.onPart_inv | apply State.faultPart_inv
    | (split <;> try dsimp only))

theorem State.assertReset_inv {s : State} (hs : s.Inv) (kind unit : Nat) : (s.assertReset kind unit).Inv := by
  unfold State.assertReset
  repeat' (with_reducible first
    | assumption | apply State.endEarly_inv | apply State.wipeUnit_inv | apply State.onUnit_inv | apply State.raiseTile_inv
    | apply State.raise_inv | apply State.countReset_inv | apply State.logOpen_inv | apply State.foldl_inv
    | apply State.Inv.fold | (simp only [State.inv_mk]) | (intro _; intros; try dsimp only) | (split <;> try dsimp only))

theorem State.queueLoad_inv {s : State} (hs : s.Inv) (p i : Nat) : (s.queueLoad p i).Inv := by
  unfold State.queueLoad
  repeat' (with_reducible first | assumption | apply State.Inv.fold | (simp only [State.inv_mk]) | exact fun h => h)

theorem State.recovered_inv {s : State} (hs : s.Inv) (kind unit : Nat) (pass : Bool) (lost : List Nat) :
    (s.recovered kind unit pass lost).Inv := by
  unfold State.recovered
  repeat' (with_reducible first
    | assumption | apply State.onUnit_inv | apply State.channelsLost_inv | apply State.queueLoad_inv
    | apply State.settleFence_inv | apply State.onTile_inv | apply State.fenceHub_inv | apply State.unfence_inv
    | apply State.raiseTile_inv | apply State.raise_inv | (split <;> try dsimp only))

theorem State.zeroGranules_inv {s : State} (hs : s.Inv) (p : Nat) : (s.zeroGranules p).Inv := by
  have hf : ∀ (l : List Nat) (f : MemSys → Nat → MemSys), (∀ m g, m.cells.wf = true → (f m g).cells.wf = true) →
      ∀ m : MemSys, m.cells.wf = true → (l.foldl f m).cells.wf = true := by
    intro l f h
    induction l with
    | nil => exact fun m hm => hm
    | cons x l ih => exact fun m hm => ih _ (h _ _ hm)
  unfold State.zeroGranules
  generalize List.range 144 = l
  generalize List.range 360 = l'
  refine ⟨hf _ _ ?_ _ (hf _ _ ?_ _ hs.1), hs.2⟩ <;>
  · intro m g hm
    split
    · exact MemSys.zero_wf hm _ _
    · exact hm

theorem State.pairPartReset_inv {s : State} (hs : s.Inv) (p : Nat) : (s.pairPartReset p).Inv := by
  unfold State.pairPartReset
  repeat' (with_reducible first
    | assumption | apply State.Inv.fold | (simp only [State.inv_mk]) | exact fun h => h | (split <;> try dsimp only))

theorem State.resetPart_inv {s : State} (hs : s.Inv) (p : Nat) : (s.resetPart p).Inv := by
  unfold State.resetPart
  repeat' (with_reducible first
    | assumption | apply State.endAll_inv | apply State.closeChans_inv | apply State.pairPartReset_inv
    | apply State.freeTile_inv | apply State.tick_inv | apply State.zeroGranules_inv | apply State.onPart_inv
    | apply State.foldl_inv | (intro _; intros; try dsimp only))

theorem State.resetPage_inv {s : State} (hs : s.Inv) (p : Nat) : (s.resetPage p).Inv := by
  unfold State.resetPage
  repeat' (with_reducible first | assumption | apply State.endAll_inv | apply State.onPart_inv)

theorem State.restart_inv {s : State} (hs : s.Inv) (off : Bool) : (s.restart off).Inv := ⟨rfl, hs.2⟩

theorem State.writeBack_inv {s : State} (hs : s.Inv) : (s.writeBack).Inv := by
  unfold State.writeBack
  repeat' (with_reducible first
    | assumption | apply State.Inv.fold | (simp only [State.inv_mk]) | exact fun h => h | (split <;> try dsimp only))

theorem State.moduleReset_inv {s : State} (hs : s.Inv) : (s.moduleReset).Inv := by
  unfold State.moduleReset
  repeat' (with_reducible first
    | assumption | apply State.restart_inv | apply State.settleTile_inv | apply State.setModule_inv | apply State.foldl_inv
    | apply State.Inv.fold | (simp only [State.inv_mk]) | (intro _; intros; try dsimp only))

theorem State.goOff_inv {s : State} (hs : s.Inv) : (s.goOff).Inv := by
  unfold State.goOff
  repeat' (with_reducible first
    | assumption | apply State.restart_inv | apply State.Inv.fold | (simp only [State.inv_mk]) | exact fun h => h)

theorem State.announceReset_inv {s : State} (hs : s.Inv) : (s.announceReset).Inv := by
  unfold State.announceReset
  repeat' (with_reducible first
    | assumption | apply State.raiseLive_inv | apply State.Inv.fold | (simp only [State.inv_mk]) | exact fun h => h
    | (split <;> try dsimp only))

theorem State.enterSafe_inv {s : State} (hs : s.Inv) (cause : Nat) : (s.enterSafe cause).Inv := by
  unfold State.enterSafe
  repeat' (with_reducible first
    | assumption | apply State.checkExpel_inv | apply State.setModule_inv | apply State.Inv.fold | (simp only [State.inv_mk])
    | exact fun h => h)

end Sys2Proof.Machine
end

