-- ==== Sys2Proof/Laws/Inv3.lean ====
section
/-! SUPPORT. Every operation and meaning of these files of Machine keeps the memories in canonical form (`State.Inv`): Health, Mesh, Engines, Parts, Resolve, Power. -/

namespace Sys2Proof.Machine

/-! ### Health -/

theorem State.raiseHang_inv {s : State} (hs : s.Inv) (p : Option Nat) (data : List Byte) : (s.raiseHang p data).Inv := by
  unfold State.raiseHang
  repeat' (with_reducible first | assumption | apply State.raise_inv | apply State.raisePf_inv | (split <;> try dsimp only))

theorem State.sendHang_inv {s : State} (hs : s.Inv) (f : Nat × Nat) (cause : Nat) (parent : Option (Nat × Nat)) :
    (s.sendHang f cause parent).Inv := by
  unfold State.sendHang
  repeat' (with_reducible first | assumption | apply State.raiseHang_inv)

theorem State.declareHang_inv {s : State} (hs : s.Inv) (f : Nat × Nat) (cause : Nat) (parent : Option (Nat × Nat)) :
    (s.declareHang f cause parent).Inv := by
  unfold State.declareHang
  repeat' (with_reducible first
    | assumption | apply State.logHealth_inv | apply State.raiseHang_inv | apply State.requestReset_inv | apply State.Inv.fold
    | (simp only [State.inv_mk]) | exact fun h => h)

theorem execProgressWatchdogExpiry_inv (a0 : HangReport) {s : State} (hs : s.Inv)
    : ∃ t', execProgressWatchdogExpiry a0 s = .next t' ∧ t'.Inv := by
  refine ⟨_, rfl, ?_⟩
  repeat' (with_reducible first
    | assumption | apply State.progress_inv | apply State.sendHang_inv | apply State.declareHang_inv
    | (split <;> try dsimp only))

theorem State.dumpTo_inv {s : State} (hs : s.Inv) (p va size log2 next : Nat) (recs : List (List Byte)) :
    (s.dumpTo p va size log2 next recs).1.Inv := by
  unfold State.dumpTo
  repeat' (with_reducible first
    | assumption | apply State.tryWriteVa_inv | apply State.foldl_inv_fst | (intro _; intros; try dsimp only))

theorem State.dumpPart_inv {s : State} (hs : s.Inv) (p : Nat) (recs : List (List Byte)) : (s.dumpPart p recs).1.Inv := by
  unfold State.dumpPart
  dsimp only
  repeat' (with_reducible first | assumption | apply State.dumpTo_inv | apply State.onPart_inv | (split <;> try dsimp only))

theorem State.dumpModule_inv {s : State} (hs : s.Inv) (recs : List (List Byte)) : (s.dumpModule recs).1.Inv := by
  unfold State.dumpModule
  repeat' (with_reducible first
    | assumption | apply State.dumpTo_inv | apply State.Inv.fold | (simp only [State.inv_mk]) | exact fun h => h
    | (split <;> try dsimp only))

theorem State.writeDump_inv {s : State} (hs : s.Inv) (kind unit : Nat) (r : DumpRead) : (s.writeDump kind unit r).Inv := by
  unfold State.writeDump
  repeat' (with_reducible first
    | assumption | apply State.dumpPart_inv | apply State.dumpModule_inv | apply State.raiseTile_inv | apply State.raise_inv
    | apply State.Inv.fold | (simp only [State.inv_mk]) | exact fun h => h | (split <;> try dsimp only))

theorem execDumpComplete_inv (kind unit : Nat) (r : DumpRead) {s : State} (hs : s.Inv)
    : ∃ t', execDumpComplete kind unit r s = .next t' ∧ t'.Inv := by
  refine ⟨_, rfl, ?_⟩
  repeat' (with_reducible first
    | assumption | apply State.assertReset_inv | apply State.writeDump_inv | (split <;> try dsimp only))

theorem State.writeHltReset_inv {s : State} (hs : s.Inv) (v : Nat) : (s.writeHltReset v).Inv := by
  unfold State.writeHltReset
  dsimp only
  repeat' (with_reducible first | assumption | apply State.requestReset_inv | (split <;> try dsimp only))

theorem execHltResetWrite_inv (v : Word) {s : State} (hs : s.Inv) : ∃ t', execHltResetWrite v s = .next t' ∧ t'.Inv := by
  refine ⟨_, rfl, ?_⟩
  repeat' (with_reducible first
    | assumption | apply State.writeHltReset_inv | apply State.wakeDeep_inv | (split <;> try dsimp only))

theorem State.relock_inv {s : State} (hs : s.Inv) (n : Nat) : (s.relock n).Inv := by
  unfold State.relock
  repeat' (with_reducible first | assumption | apply State.Inv.fold | (simp only [State.inv_mk]) | exact fun h => h)

theorem execRecoveryComplete_inv (kind unit : Nat) (r : RecoveryReport) {s : State} (hs : s.Inv)
    : ∃ t', execRecoveryComplete kind unit r s = .next t' ∧ t'.Inv := by
  refine ⟨_, rfl, ?_⟩
  repeat' (with_reducible first | assumption | apply State.recovered_inv | apply State.relock_inv | (split <;> try dsimp only))

theorem execRecoveryOverdue_inv (kind unit : Nat) {s : State} (hs : s.Inv)
    : ∃ t', execRecoveryOverdue kind unit s = .next t' ∧ t'.Inv := by
  refine ⟨_, rfl, ?_⟩
  repeat' (with_reducible first
    | assumption | apply State.onUnit_inv | apply State.logOpen_inv | apply State.fenceTile_inv | apply State.onTile_inv
    | apply State.fenceHub_inv | apply State.faultPart_inv | apply State.foldl_inv | (intro _; intros; try dsimp only)
    | (split <;> try dsimp only))

theorem State.stopSteward_inv {s : State} (hs : s.Inv) : (s.stopSteward).Inv := by
  unfold State.stopSteward
  repeat' (with_reducible first | assumption | apply State.Inv.fold | (simp only [State.inv_mk]) | exact fun h => h)

theorem State.restartSteward_inv {s : State} (hs : s.Inv) : (s.restartSteward).Inv := by
  unfold State.restartSteward
  repeat' (with_reducible first
    | assumption | apply State.stopSteward_inv | apply State.logOpen_inv | apply State.Inv.fold | (simp only [State.inv_mk])
    | exact fun h => h | (split <;> try dsimp only))

theorem State.lockAction_inv {s : State} (hs : s.Inv) (n : Nat) : (s.lockAction n).Inv := by
  have hall : ∀ kind, ((List.range (unitCount kind)).foldl (fun (t : State) u =>
      if (t.unit kind u).fenced then t else t.requestReset kind u 5 [] false false) s).Inv := by
    intro kind
    refine State.foldl_inv _ _ hs fun t u ht => ?_
    split
    · exact ht
    · exact State.requestReset_inv ht _ _ _ _ _ _
  have hone : ∀ kind unit, (if (s.unit kind unit).fenced then s else s.requestReset kind unit 5 [] false false).Inv := by
    intro kind unit
    split
    · exact hs
    · exact State.requestReset_inv hs _ _ _ _ _ _
  unfold State.lockAction
  dsimp only
  repeat' (with_reducible first
    | exact hall _ | exact hone _ _ | apply State.ite_inv | assumption | apply State.linkDown_inv
    | apply State.restartSteward_inv | apply State.raise_inv | apply State.relock_inv | apply State.announceReset_inv
    | apply State.Inv.fold | (simp only [State.inv_mk]) | exact fun h => h)

theorem execClockLockLoss_inv (n : Nat) {s : State} (hs : s.Inv) : ∃ t', execClockLockLoss n s = .next t' ∧ t'.Inv := by
  refine ⟨_, rfl, ?_⟩
  repeat' (with_reducible first
    | assumption | apply State.lockAction_inv | apply State.logOpen_inv | apply State.Inv.fold | (simp only [State.inv_mk])
    | exact fun h => h | (split <;> try dsimp only))

theorem State.spoilPa_inv {s : State} (hs : s.Inv) (pa len : Nat) : (s.spoilPa pa len).Inv := ⟨Cells.write_wf hs.1 _ _, hs.2⟩

theorem execStrikerRoundStart_inv (t : Nat) {s : State} (hs : s.Inv) : ∃ t', execStrikerRoundStart t s = .next t' ∧ t'.Inv := by
  refine ⟨_, rfl, ?_⟩
  repeat' (with_reducible first | assumption | apply State.onUnit_inv | apply State.spoilPa_inv | (split <;> try dsimp only))

theorem State.endRound_inv {s : State} (hs : s.Inv) (t : Nat) : (s.endRound t).Inv := State.onUnit_inv
    (State.untest_inv hs t) _ _ _

theorem State.roundPassed_inv {s : State} (hs : s.Inv) (kind unit : Nat) : (s.roundPassed kind unit).Inv := by
  unfold State.roundPassed
  repeat' (with_reducible first | assumption | apply State.onUnit_inv)

theorem State.roundFailed_inv {s : State} (hs : s.Inv) (kind unit test mask : Nat) :
    (s.roundFailed kind unit test mask).Inv := by
  unfold State.roundFailed
  repeat' (with_reducible first
    | assumption | apply State.onUnit_inv | apply State.raiseTile_inv | apply State.raise_inv | apply State.fenceUnit_inv
    | apply State.requestReset_inv | (split <;> try dsimp only))

theorem execStrikerRoundDone_inv (t failed : Nat) {s : State} (hs : s.Inv)
    : ∃ t', execStrikerRoundDone t failed s = .next t' ∧ t'.Inv := by
  refine ⟨_, rfl, ?_⟩
  repeat' (with_reducible first
    | assumption | apply State.endRound_inv | apply State.roundPassed_inv | apply State.roundFailed_inv
    | (split <;> try dsimp only))

theorem execStrikerOverdue_inv (t : Nat) {s : State} (hs : s.Inv) : ∃ t', execStrikerOverdue t s = .next t' ∧ t'.Inv := by
  refine ⟨_, rfl, ?_⟩
  repeat' (with_reducible first | assumption | apply State.raise_inv | apply State.onUnit_inv | (split <;> try dsimp only))

theorem execMemoryTestSlice_inv (port slice : Nat) (pass : Bool) {s : State} (hs : s.Inv)
    : ∃ t', execMemoryTestSlice port slice pass s = .next t' ∧ t'.Inv := by
  refine ⟨_, rfl, ?_⟩
  repeat' (with_reducible first
    | assumption | apply State.onUnit_inv | apply State.roundPassed_inv | apply State.roundFailed_inv
    | (split <;> try dsimp only))

theorem State.pruneHealth_inv {s : State} (hs : s.Inv) : (s.pruneHealth).Inv := by
  unfold State.pruneHealth
  repeat' (with_reducible first | assumption | apply State.Inv.fold | (simp only [State.inv_mk]) | exact fun h => h)

theorem execScoreRecompute_inv {s : State} (hs : s.Inv) : ∃ t', execScoreRecompute s = .next t' ∧ t'.Inv := by
  refine ⟨_, rfl, ?_⟩
  repeat' (with_reducible first | assumption | apply State.reviewHealth_inv | apply State.pruneHealth_inv)

theorem State.writeExpel_inv {s : State} (hs : s.Inv) (v : Nat) : (s.writeExpel v).Inv := by
  unfold State.writeExpel
  repeat' (with_reducible first
    | assumption | apply State.checkExpel_inv | apply State.Inv.fold | (simp only [State.inv_mk]) | exact fun h => h
    | (split <;> try dsimp only))

theorem execExpelClear_inv {s : State} (hs : s.Inv) : ∃ t', execExpelClear s = .next t' ∧ t'.Inv := by
  refine ⟨_, rfl, ?_⟩
  repeat' (with_reducible first
    | assumption | apply State.writeExpel_inv | apply State.wakeDeep_inv | (split <;> try dsimp only))

theorem execFlashWearLevel_inv (ms : Nat) {s : State} (hs : s.Inv) : ∃ t', execFlashWearLevel ms s = .next t' ∧ t'.Inv := by
  refine ⟨_, rfl, ?_⟩
  repeat' (with_reducible first
    | assumption | apply State.Inv.fold | (simp only [State.inv_mk]) | exact fun h => h | (split <;> try dsimp only))

theorem execTelemetrySweep_inv (us : Nat) {s : State} (hs : s.Inv) : ∃ t', execTelemetrySweep us s = .next t' ∧ t'.Inv := by
  refine ⟨_, rfl, ?_⟩
  repeat' (with_reducible first
    | assumption | apply State.Inv.fold | (simp only [State.inv_mk]) | exact fun h => h | (split <;> try dsimp only))

/-! ### Mesh -/

theorem State.onCross_inv {s : State} (hs : s.Inv) (i : Nat) (f : Crossing → Crossing) : (s.onCross i f).Inv := by
  unfold State.onCross
  repeat' (with_reducible first | assumption | apply State.Inv.fold | (simp only [State.inv_mk]) | exact fun h => h)

theorem State.holdFlight_inv {s : State} (hs : s.Inv) (f : Flight) : (s.holdFlight f).Inv := by
  unfold State.holdFlight
  repeat' (with_reducible first | assumption | apply State.Inv.fold | (simp only [State.inv_mk]) | exact fun h => h)

theorem State.deliver_inv {s : State} (hs : s.Inv) (t : Txn) : (s.deliver t).Inv := by
  unfold State.deliver
  repeat' (with_reducible first
    | assumption | apply State.progress_inv | apply State.Inv.fold | (simp only [State.inv_mk]) | exact fun h => h
    | (split <;> try dsimp only))

theorem State.denied_inv {s : State} (hs : s.Inv) (t : Txn) : (s.denied t).Inv := by
  unfold State.denied
  repeat' (with_reducible first | assumption | apply State.raisePf_inv)

theorem State.back_inv {s : State} (hs : s.Inv) (t : Txn) (rest : List Nat) (crossed : Bool) : (s.back t rest crossed).Inv := by
  unfold State.back
  dsimp only
  repeat' (with_reducible first
    | assumption | apply State.onCross_inv | apply State.holdFlight_inv | apply State.deliver_inv | (split <;> try dsimp only))

theorem State.sendBack_inv {s : State} (hs : s.Inv) (t : Txn) : (s.sendBack t).Inv := by
  unfold State.sendBack
  repeat' (with_reducible first | assumption | apply State.back_inv)

theorem State.arrive_inv {s : State} (hs : s.Inv) (t : Txn) : (s.arrive t).Inv := by
  unfold State.arrive
  repeat' (with_reducible first
    | assumption | apply State.sendBack_inv | apply State.denied_inv | apply State.holdFlight_inv | apply State.Inv.fold
    | (simp only [State.inv_mk]) | exact fun h => h | (split <;> try dsimp only))

theorem State.travel_inv {s : State} (hs : s.Inv) (t : Txn) (rest : List Nat) : (s.travel t rest).Inv := by
  unfold State.travel
  dsimp only
  repeat' (with_reducible first
    | assumption | apply State.holdFlight_inv | apply State.onCross_inv | apply State.arrive_inv | (split <;> try dsimp only))

theorem State.launch_inv {s : State} (hs : s.Inv) (t : Txn) : (s.launch t).Inv := by
  unfold State.launch
  repeat' (with_reducible first
    | assumption | apply State.deliver_inv | apply State.denied_inv | apply State.onCross_inv | apply State.travel_inv
    | apply State.Inv.fold | (simp only [State.inv_mk]) | exact fun h => h | (split <;> try dsimp only))

theorem State.resume_inv {s : State} (hs : s.Inv) (f : Flight) : (s.resume f).Inv := by
  unfold State.resume
  repeat' (with_reducible first | assumption | apply State.back_inv | apply State.travel_inv | (split <;> try dsimp only))

theorem State.drainGate_inv {s : State} (hs : s.Inv) (g : Nat) : (s.drainGate g).Inv := by
  unfold State.drainGate
  repeat' (with_reducible first
    | assumption | apply State.resume_inv | apply State.onCross_inv | apply State.foldl_inv
    | (intro _; intros; try dsimp only) | (split <;> try dsimp only))

theorem State.relaunch_inv {s : State} (hs : s.Inv) : (s.relaunch).Inv := by
  unfold State.relaunch
  repeat' (with_reducible first
    | assumption | apply State.drainGate_inv | apply State.resume_inv | apply State.launch_inv | apply State.foldl_inv
    | apply State.Inv.fold | (simp only [State.inv_mk]) | (intro _; intros; try dsimp only))

theorem State.cacheXlat_inv {s : State} (hs : s.Inv) (p : Nat) (e : XlatEntry) : (s.cacheXlat p e).Inv := by
  unfold State.cacheXlat
  repeat' (with_reducible first
    | assumption | apply State.onPart_inv | apply State.Inv.fold | (simp only [State.inv_mk]) | exact fun h => h
    | (split <;> try dsimp only))

theorem State.translateReq_inv {s : State} (hs : s.Inv) (r : TxnReq) (addr : Nat) (data : List Byte) :
    (s.translateReq r addr data).1.Inv := by
  unfold State.translateReq
  repeat' (with_reducible first | assumption | apply State.note_inv | apply State.cacheXlat_inv | (split <;> try dsimp only))

theorem State.issuePart_inv {s : State} (hs : s.Inv) (r : TxnReq) (part : Nat × List Byte) : (s.issuePart r part).1.Inv := by
  unfold State.issuePart
  dsimp only
  repeat' (with_reducible first
    | assumption | apply State.translateReq_inv | apply State.launch_inv | apply State.logHealth_inv
    | apply State.faultPart_inv | (split <;> try dsimp only))

theorem State.issueAll_inv {s : State} (hs : s.Inv) (r : TxnReq) (l : List (Nat × List Byte)) : (s.issueAll r l).Inv := by
  induction l generalizing s with
  | nil => exact hs
  | cons x l ih =>
    unfold State.issueAll
    split
    · exact ih (State.issuePart_inv hs _ _)
    · exact State.issuePart_inv hs _ _

theorem execMeshTransactionIssue_inv (r : TxnReq) {s : State} (hs : s.Inv)
    : ∃ t', execMeshTransactionIssue r s = .next t' ∧ t'.Inv := by
  refine ⟨_, rfl, ?_⟩
  repeat' (with_reducible first | assumption | apply State.issueAll_inv | (split <;> try dsimp only))

theorem execAvailabilityMapUpdate_inv {s : State} (hs : s.Inv) : ∃ t', execAvailabilityMapUpdate s = .next t' ∧ t'.Inv := by
  refine ⟨_, rfl, ?_⟩
  repeat' (with_reducible first
    | assumption | apply State.relaunch_inv | apply State.Inv.fold | (simp only [State.inv_mk]) | exact fun h => h)

theorem State.onGran_inv {s : State} (hs : s.Inv) (pa : Nat) (f : Granule → Granule) : (s.onGran pa f).Inv := by
  unfold State.onGran
  repeat' (with_reducible first
    | assumption | apply State.Inv.fold | (simp only [State.inv_mk]) | exact fun h => h | (split <;> try dsimp only))

theorem State.onOwnerMem_inv {s : State} (hs : s.Inv) (pa : Nat) (f : PartMem → PartMem) : (s.onOwnerMem pa f).Inv := by
  unfold State.onOwnerMem
  repeat' (with_reducible first | assumption | apply State.onPart_inv | (split <;> try dsimp only))

theorem State.retireFrame_inv {s : State} (hs : s.Inv) (pa : Nat) (words : List Nat) : (s.retireFrame pa words).Inv := by
  unfold State.retireFrame
  dsimp only
  repeat' (with_reducible first
    | assumption | apply State.onGran_inv | apply State.raiseMem_inv | apply State.onOwnerMem_inv | (split <;> try dsimp only))

theorem State.logMem_inv {s : State} (hs : s.Inv) (i pa : Nat) : (s.logMem i pa).Inv := by
  unfold State.logMem
  repeat' (with_reducible first | assumption | apply State.logHealth_inv)

theorem State.unitErr_inv {s : State} (hs : s.Inv) (kind unit corr bad : Nat) : (s.unitErr kind unit corr bad).Inv := by
  unfold State.unitErr
  repeat' (with_reducible first | assumption | apply State.onUnit_inv)

theorem State.wordCorrected_inv {s : State} (hs : s.Inv) (i pa n : Nat) : (s.wordCorrected i pa n).Inv := by
  unfold State.wordCorrected
  repeat' (with_reducible first
    | assumption | apply State.onOwnerMem_inv | apply State.unitErr_inv | apply State.retireFrame_inv | apply State.logMem_inv
    | apply State.Inv.fold | (simp only [State.inv_mk])
    | (intro hm; first | exact MemSys.store_wf hm _ _ | exact MemSys.storePieces_wf hm _ _ | exact MemSys.zero_wf hm _ _ | simpa using hm)
    | (split <;> try dsimp only))

theorem State.wordLost_inv {s : State} (hs : s.Inv) (i pa : Nat) : (s.wordLost i pa).Inv := by
  unfold State.wordLost
  repeat' (with_reducible first
    | assumption | apply State.onOwnerMem_inv | apply State.unitErr_inv | apply State.retireFrame_inv | apply State.logMem_inv
    | apply State.raiseMem_inv | apply State.Inv.fold | (simp only [State.inv_mk])
    | (intro hm; first | exact MemSys.store_wf hm _ _ | exact MemSys.storePieces_wf hm _ _ | exact MemSys.zero_wf hm _ _ | simpa using hm))

theorem State.beyond_inv {s : State} (hs : s.Inv) (w : Nat) (lost : State → State) (hl : ∀ t, t.Inv → (lost t).Inv) :
    (s.beyond w lost).Inv := by
  unfold State.beyond
  split
  · exact hl _ (State.tick_inv hs)
  · exact ⟨Cells.write_wf hs.1 _ _, hs.2⟩

theorem State.decodeWord_inv {s : State} (hs : s.Inv) (i w : Nat) (flips : List Nat) : (s.decodeWord i w flips).Inv := by
  unfold State.decodeWord
  repeat' (with_reducible first
    | assumption | apply State.wordCorrected_inv | apply State.wordLost_inv | apply State.beyond_inv
    | (intro _; intros; try dsimp only) | (split <;> try dsimp only))

theorem State.scratchLost_inv {s : State} (hs : s.Inv) (t w : Nat) : (s.scratchLost t w).Inv := by
  unfold State.scratchLost
  repeat' (with_reducible first
    | assumption | apply State.unitErr_inv | apply State.onTile_inv | apply State.logHealth_inv | apply State.Inv.fold
    | (simp only [State.inv_mk])
    | (intro hm; first | exact MemSys.store_wf hm _ _ | exact MemSys.storePieces_wf hm _ _ | exact MemSys.zero_wf hm _ _ | simpa using hm))

theorem State.decodeScratch_inv {s : State} (hs : s.Inv) (t w : Nat) (flips : List Nat) : (s.decodeScratch t w flips).Inv := by
  unfold State.decodeScratch
  repeat' (with_reducible first
    | assumption | apply State.unitErr_inv | apply State.onTile_inv | apply State.logHealth_inv | apply State.scratchLost_inv
    | apply State.beyond_inv | (intro _; intros; try dsimp only) | (split <;> try dsimp only))

theorem State.carryOut_inv {s : State} (hs : s.Inv) (i : Nat) (t : Txn) (flips : List Nat) : (s.carryOut i t flips).1.Inv := by
  unfold State.carryOut
  repeat' (with_reducible first
    | assumption | apply State.progress_inv | apply State.denied_inv | apply State.decodeScratch_inv
    | apply State.decodeWord_inv | apply State.note_inv | apply State.foldl_inv | apply State.Inv.fold
    | (simp only [State.inv_mk])
    | (intro hm; first | exact MemSys.store_wf hm _ _ | exact MemSys.storePieces_wf hm _ _ | exact MemSys.zero_wf hm _ _ | simpa using hm)
    | (intro _; intros; try dsimp only) | (split <;> try dsimp only))

theorem State.dequeue_inv {s : State} (hs : s.Inv) (i idx : Nat) : (s.dequeue i idx).Inv := by
  unfold State.dequeue
  repeat' (with_reducible first | assumption | apply State.Inv.fold | (simp only [State.inv_mk]) | exact fun h => h)

theorem State.toPhy_inv {s : State} (hs : s.Inv) (i idx : Nat) : (s.toPhy i idx).Inv := by
  unfold State.toPhy
  repeat' (with_reducible first | assumption | apply State.onCross_inv | apply State.dequeue_inv | (split <;> try dsimp only))

theorem State.atPhy_inv {s : State} (hs : s.Inv) (i : Nat) (flips : List Nat) : (s.atPhy i flips).Inv := by
  unfold State.atPhy
  repeat' (with_reducible first | assumption | apply State.carryOut_inv | apply State.onCross_inv | (split <;> try dsimp only))

theorem State.fromPhy_inv {s : State} (hs : s.Inv) (i : Nat) : (s.fromPhy i).Inv := by
  unfold State.fromPhy
  repeat' (with_reducible first
    | assumption | apply State.sendBack_inv | apply State.onCross_inv | apply State.foldl_inv
    | (intro _; intros; try dsimp only) | (split <;> try dsimp only))

theorem execMemoryPortAccess_inv (i idx : Nat) (flips : List Nat) {s : State} (hs : s.Inv)
    : ∃ t', execMemoryPortAccess i idx flips s = .next t' ∧ t'.Inv := by
  refine ⟨_, rfl, ?_⟩
  repeat' (with_reducible first
    | assumption | apply State.relaunch_inv | apply State.fromPhy_inv | apply State.atPhy_inv | apply State.toPhy_inv
    | apply State.carryOut_inv | apply State.dequeue_inv | apply State.sendBack_inv | (split <;> try dsimp only))

theorem State.onChannel_inv {s : State} (hs : s.Inv) (i ch : Nat) (f : Chan → Chan) : (s.onChannel i ch f).Inv := by
  unfold State.onChannel
  repeat' (with_reducible first
    | assumption | apply State.Inv.fold | (simp only [State.inv_mk])
    | (intro hm; first | exact MemSys.store_wf hm _ _ | exact MemSys.storePieces_wf hm _ _ | exact MemSys.zero_wf hm _ _ | simpa using hm))

theorem execScrubStep_inv (i ch : Nat) (flips : List Nat) {s : State} (hs : s.Inv)
    : ∃ t', execScrubStep i ch flips s = .next t' ∧ t'.Inv := by
  refine ⟨_, rfl, ?_⟩
  repeat' (with_reducible first
    | assumption | apply State.decodeWord_inv | apply State.onChannel_inv | (split <;> try dsimp only))

theorem State.roust_inv {s : State} (hs : s.Inv) (i task : Nat) : (s.roust i task).Inv := by
  unfold State.roust
  repeat' (with_reducible first | assumption | apply State.raise_inv)

theorem State.forcedUs_inv {s : State} (hs : s.Inv) (i us : Nat) : (s.forcedUs i us).Inv := by
  unfold State.forcedUs
  repeat' (with_reducible first
    | assumption | apply State.Inv.fold | (simp only [State.inv_mk])
    | (intro hm; first | exact MemSys.store_wf hm _ _ | exact MemSys.storePieces_wf hm _ _ | exact MemSys.zero_wf hm _ _ | simpa using hm))

theorem execScrubForcedSlice_inv (i ch us : Nat) {s : State} (hs : s.Inv)
    : ∃ t', execScrubForcedSlice i ch us s = .next t' ∧ t'.Inv := by
  refine ⟨_, rfl, ?_⟩
  repeat' (with_reducible first
    | assumption | apply State.onChannel_inv | apply State.roust_inv | apply State.forcedUs_inv | (split <;> try dsimp only))

theorem execRecalDue_inv (i ch : Nat) (moved : Int) {s : State} (hs : s.Inv)
    : ∃ t', execRecalDue i ch moved s = .next t' ∧ t'.Inv := by
  refine ⟨_, rfl, ?_⟩
  repeat' (with_reducible first
    | assumption | apply State.relaunch_inv | apply State.onChannel_inv | (split <;> try dsimp only))

theorem execRecalForcedSlice_inv (i ch : Nat) {s : State} (hs : s.Inv)
    : ∃ t', execRecalForcedSlice i ch s = .next t' ∧ t'.Inv := by
  refine ⟨_, rfl, ?_⟩
  repeat' (with_reducible first
    | assumption | apply State.forcedUs_inv | apply State.roust_inv | apply State.onChannel_inv | (split <;> try dsimp only))

theorem State.startInval_inv {s : State} (hs : s.Inv) (p : Nat) : (s.startInval p).Inv := by
  unfold State.startInval
  repeat' (with_reducible first | assumption | apply State.onPart_inv)

theorem execXlatInvalidate_inv (p : Nat) {s : State} (hs : s.Inv) : ∃ t', execXlatInvalidate p s = .next t' ∧ t'.Inv := by
  refine ⟨_, rfl, ?_⟩
  repeat' (with_reducible first | assumption | apply State.onPart_inv | apply State.dropXlat_inv | (split <;> try dsimp only))

theorem State.writePtRootLo_inv {s : State} (hs : s.Inv) (p v : Nat) : (s.writePtRootLo p v).Inv := by
  unfold State.writePtRootLo
  repeat' (with_reducible first | assumption | apply State.dropXlat_inv | apply State.onPart_inv | (split <;> try dsimp only))

theorem State.writePtRootHi_inv {s : State} (hs : s.Inv) (p v : Nat) : (s.writePtRootHi p v).Inv := by
  unfold State.writePtRootHi
  repeat' (with_reducible first | assumption | apply State.onPart_inv | (split <;> try dsimp only))

theorem execPtRootWrite_inv (p : Nat) (v : Word) {s : State} (hs : s.Inv)
    : ∃ t', execPtRootWrite p v s = .next t' ∧ t'.Inv := by
  refine ⟨_, rfl, ?_⟩
  repeat' (with_reducible first
    | assumption | apply State.writePtRootLo_inv | apply State.wakeDeep_inv | (split <;> try dsimp only))

/-! ### Engines -/

theorem State.loadEngine_inv {s : State} (hs : s.Inv) (p : Nat) (e : EngSpec) (by_ : Option (Nat × Nat)) :
    (s.loadEngine p e by_).Inv := by
  unfold State.loadEngine
  repeat' (with_reducible first
    | assumption | apply State.queueLoad_inv | apply State.onPart_inv | apply State.onTile_inv | apply State.foldl_inv
    | (intro _; intros; try dsimp only))

theorem execEngineConfig_inv (d : DescRef) {s : State} (hs : s.Inv) : ∃ t', execEngineConfig d s = .next t' ∧ t'.Inv := by
  refine ⟨_, rfl, ?_⟩
  repeat' (with_reducible first
    | assumption | apply State.startDesc_inv | apply State.loadEngine_inv | (intro _; intros; try dsimp only))

theorem State.dropEngine_inv {s : State} (hs : s.Inv) (p i : Nat) : (s.dropEngine p i).Inv := by
  unfold State.dropEngine
  repeat' (with_reducible first
    | assumption | apply State.settleFence_inv | apply State.onTile_inv | apply State.settleTile_inv | apply State.onPart_inv
    | apply State.foldl_inv | (intro _; intros; try dsimp only))

theorem State.admitPart_inv {s : State} (hs : s.Inv) (p : Nat) : (s.admitPart p).Inv := by
  unfold State.admitPart
  repeat' (with_reducible first
    | assumption | apply State.onSec_inv | apply State.Inv.fold | (simp only [State.inv_mk]) | exact fun h => h
    | (split <;> try dsimp only))

theorem State.undoAdmit_inv {s : State} (hs : s.Inv) (p : Nat) : (s.undoAdmit p).Inv := by
  unfold State.undoAdmit
  repeat' (with_reducible first
    | assumption | apply State.dropEngine_inv | apply State.foldl_inv | (intro _; intros; try dsimp only))

theorem State.loadedFor_inv {s : State} (hs : s.Inv) (p : Nat) (by_ : Option (Nat × Nat)) : (s.loadedFor p by_).Inv := by
  unfold State.loadedFor
  repeat' (with_reducible first
    | assumption | apply State.complete_inv | apply State.admitPart_inv | apply State.undoAdmit_inv
    | (split <;> try dsimp only))

theorem State.loadFailed_inv {s : State} (hs : s.Inv) (p : Nat) (e : Engine) : (s.loadFailed p e).Inv := by
  unfold State.loadFailed
  repeat' (with_reducible first
    | assumption | apply State.dropEngine_inv | apply State.complete_inv | apply State.undoAdmit_inv
    | (split <;> try dsimp only))

theorem execEngineLoadComplete_inv (p i : Nat) (digestOk : Bool) {s : State} (hs : s.Inv)
    : ∃ t', execEngineLoadComplete p i digestOk s = .next t' ∧ t'.Inv := by
  refine ⟨_, rfl, ?_⟩
  repeat' (with_reducible first
    | assumption | apply State.loadFailed_inv | apply State.onPart_inv | apply State.settleFence_inv | apply State.onTile_inv
    | apply State.loadedFor_inv | apply State.foldl_inv | (intro _; intros; try dsimp only) | (split <;> try dsimp only))

theorem execEngineRelease_inv (d : DescRef) {s : State} (hs : s.Inv) : ∃ t', execEngineRelease d s = .next t' ∧ t'.Inv := by
  refine ⟨_, rfl, ?_⟩
  repeat' (with_reducible first
    | assumption | apply State.startDesc_inv | apply State.complete_inv | apply State.reviewHealth_inv
    | apply State.dropEngine_inv | (intro _; intros; try dsimp only))

theorem execWorkItemComplete_inv (t : Nat) {s : State} (hs : s.Inv) : ∃ t', execWorkItemComplete t s = .next t' ∧ t'.Inv := by
  refine ⟨_, rfl, ?_⟩
  repeat' (with_reducible first
    | assumption | apply State.leftItems_inv | apply State.chargeItem_inv | (split <;> try dsimp only))

theorem execTileFence_inv (d : DescRef) {s : State} (hs : s.Inv) : ∃ t', execTileFence d s = .next t' ∧ t'.Inv := by
  refine ⟨_, rfl, ?_⟩
  repeat' (with_reducible first
    | assumption | apply State.startDesc_inv | apply State.complete_inv | apply State.fenceUnit_inv
    | (intro _; intros; try dsimp only))

theorem execTileUnfence_inv (d : DescRef) (failed : Nat) {s : State} (hs : s.Inv)
    : ∃ t', execTileUnfence d failed s = .next t' ∧ t'.Inv := by
  refine ⟨_, rfl, ?_⟩
  repeat' (with_reducible first
    | assumption | apply State.startDesc_inv | apply State.complete_inv | apply State.unfence_inv
    | apply State.roundPassed_inv | apply State.roundFailed_inv | (intro _; intros; try dsimp only)
    | (split <;> try dsimp only))

/-! ### Parts -/

theorem State.joinTile_inv {s : State} (hs : s.Inv) (p t : Nat) : (s.joinTile p t).Inv := by
  unfold State.joinTile
  repeat' (with_reducible first | assumption | apply State.onTile_inv | apply State.zeroTile_inv | apply State.settleTile_inv)

theorem State.leaveTile_inv {s : State} (hs : s.Inv) (t : Nat) : (s.leaveTile t).Inv := by
  unfold State.leaveTile
  repeat' (with_reducible first | assumption | apply State.onTile_inv | apply State.zeroTile_inv | apply State.settleTile_inv)

theorem State.ownLinks_inv {s : State} (hs : s.Inv) (mask : BitVec 8) (owner : Nat) : (s.ownLinks mask owner).Inv := by
  unfold State.ownLinks
  repeat' (with_reducible first | assumption | apply State.Inv.fold | (simp only [State.inv_mk]) | exact fun h => h)

theorem State.configure_inv {s : State} (hs : s.Inv) (p mask : Nat) (b : List Byte) : (s.configure p mask b).Inv := by
  unfold State.configure
  repeat' (with_reducible first
    | assumption | apply State.tick_inv | apply State.onPart_inv | apply State.joinTile_inv | apply State.onDom_inv
    | apply State.postPresence_inv | apply State.ownLinks_inv | apply State.foldl_inv | (intro _; intros; try dsimp only))

theorem execPartConfig_inv (d : DescRef) {s : State} (hs : s.Inv) : ∃ t', execPartConfig d s = .next t' ∧ t'.Inv := by
  refine ⟨_, rfl, ?_⟩
  repeat' (with_reducible first
    | assumption | apply State.startDesc_inv | apply State.failDesc_inv | apply State.complete_inv | apply State.configure_inv
    | (intro _; intros; try dsimp only) | (split <;> try dsimp only))

theorem execPartStateAdmit_inv (d : DescRef) {s : State} (hs : s.Inv) : ∃ t', execPartStateAdmit d s = .next t' ∧ t'.Inv := by
  refine ⟨_, rfl, ?_⟩
  repeat' (with_reducible first
    | assumption | apply State.startDesc_inv | apply State.complete_inv | apply State.admitPart_inv
    | apply State.loadEngine_inv | apply State.foldl_inv | (intro _; intros; try dsimp only) | (split <;> try dsimp only))

theorem execPartStateRun_inv (d : DescRef) {s : State} (hs : s.Inv) : ∃ t', execPartStateRun d s = .next t' ∧ t'.Inv := by
  refine ⟨_, rfl, ?_⟩
  repeat' (with_reducible first
    | assumption | apply State.startDesc_inv | apply State.onPart_inv | apply State.onSec_inv | apply State.complete_inv
    | (intro _; intros; try dsimp only))

theorem State.quiesce_inv {s : State} (hs : s.Inv) (p : Nat) : (s.quiesce p).Inv := by
  unfold State.quiesce
  repeat' (with_reducible first
    | assumption | apply State.onSec_inv | apply State.stopAct_inv | apply State.closeChans_inv | apply State.foldl_inv
    | (intro _; intros; try dsimp only) | (split <;> try dsimp only))

theorem execPartStateQuiesce_inv (d : DescRef) {s : State} (hs : s.Inv)
    : ∃ t', execPartStateQuiesce d s = .next t' ∧ t'.Inv := by
  refine ⟨_, rfl, ?_⟩
  repeat' (with_reducible first
    | assumption | apply State.startDesc_inv | apply State.complete_inv | apply State.quiesce_inv
    | (intro _; intros; try dsimp only))

theorem execQuiesceDone_inv (p : Nat) {s : State} (hs : s.Inv) : ∃ t', execQuiesceDone p s = .next t' ∧ t'.Inv := by
  refine ⟨_, rfl, ?_⟩
  repeat' (with_reducible first | assumption | apply State.raiseBoth_inv | apply State.onSec_inv | (split <;> try dsimp only))

theorem State.endNaming_inv {s : State} (hs : s.Inv) (p : Nat) : (s.endNaming p).Inv := by
  unfold State.endNaming
  repeat' (with_reducible first | assumption | apply State.endEach_inv)

theorem State.beginReset_inv {s : State} (hs : s.Inv) (p : Nat) : (s.beginReset p).Inv := by
  unfold State.beginReset
  repeat' (with_reducible first
    | assumption | apply State.endNaming_inv | apply State.onSec_inv | apply State.resetPart_inv | (split <;> try dsimp only))

theorem State.endReset_inv {s : State} (hs : s.Inv) (p : Nat) : (s.endReset p).Inv := by
  unfold State.endReset
  repeat' (with_reducible first
    | assumption | apply State.onSec_inv | apply State.batched_inv | apply State.complete_inv | apply State.foldl_inv
    | (intro _; intros; try dsimp only))

theorem execPartStateReset_inv (d : DescRef) {s : State} (hs : s.Inv) : ∃ t', execPartStateReset d s = .next t' ∧ t'.Inv := by
  refine ⟨_, rfl, ?_⟩
  repeat' (with_reducible first
    | assumption | apply State.endReset_inv | apply State.startDesc_inv | apply State.beginReset_inv
    | (intro _; intros; try dsimp only) | (split <;> try dsimp only))

theorem execFunctionLevelReset_inv (p : Nat) {s : State} (hs : s.Inv)
    : ∃ t', execFunctionLevelReset p s = .next t' ∧ t'.Inv := by
  refine ⟨_, rfl, ?_⟩
  repeat' (with_reducible first
    | assumption | apply State.resetPage_inv | apply State.endReset_inv | apply State.beginReset_inv | apply State.Inv.fold
    | (simp only [State.inv_mk]) | exact fun h => h | (split <;> try dsimp only))

theorem State.onGranule_inv {s : State} (hs : s.Inv) (g : Nat) (f : Granule → Granule) : (s.onGranule g f).Inv := by
  unfold State.onGranule
  repeat' (with_reducible first
    | assumption | apply State.Inv.fold | (simp only [State.inv_mk]) | exact fun h => h | (split <;> try dsimp only))

theorem State.zeroGranule_inv {s : State} (hs : s.Inv) (g : Nat) : (s.zeroGranule g).Inv := by
  unfold State.zeroGranule
  repeat' (with_reducible first
    | assumption | apply State.Inv.fold | (simp only [State.inv_mk])
    | (intro hm; first | exact MemSys.store_wf hm _ _ | exact MemSys.storePieces_wf hm _ _ | exact MemSys.zero_wf hm _ _ | simpa using hm))

theorem State.grantOne_inv {s : State} (hs : s.Inv) (owner mode port g : Nat) : someSat State.Inv
    (s.grantOne owner mode port g) := by
  unfold State.grantOne
  repeat' (with_reducible first
    | assumption | apply State.zeroGranule_inv | apply State.onGranule_inv | apply someSat.map
    | (intro _; intros; try dsimp only))

theorem State.grantAll_inv {s : State} (hs : s.Inv) (owner mode port : Nat) (l : List Nat) :
    someSat State.Inv (s.grantAll owner mode port l) := by
  induction l generalizing s with
  | nil => exact someSat.some hs
  | cons x l ih =>
    unfold State.grantAll
    split
    · exact ih (someSat.state (State.grantOne_inv hs _ _ _ _) (by assumption))
    · exact someSat.none

theorem execMemGrant_inv (d : DescRef) {s : State} (hs : s.Inv) : ∃ t', execMemGrant d s = .next t' ∧ t'.Inv := by
  refine ⟨_, rfl, State.startDesc_inv hs _ _ _ _ fun t p x ht => State.complete_inv ?_ _ _ _⟩
  cases h : t.grantAll (x.fld 16 1) (x.fld 17 1) (x.fld 18 1) x.granules with
  | none => exact ht
  | some u => exact someSat.state (State.grantAll_inv ht _ _ _ _) h

theorem State.repairSlice_inv {s : State} (hs : s.Inv) (g : Nat) (a2 : Nat × Nat) : (s.repairSlice g a2).Inv := by
  unfold State.repairSlice
  repeat' (with_reducible first
    | assumption | apply State.tick_inv | apply State.raise_inv | apply State.Inv.fold | (simp only [State.inv_mk])
    | (intro hm; first | exact MemSys.store_wf hm _ _ | exact MemSys.storePieces_wf hm _ _ | exact MemSys.zero_wf hm _ _ | simpa using hm)
    | (split <;> try dsimp only))

theorem State.freeGranule_inv {s : State} (hs : s.Inv) (g : Nat) : (s.freeGranule g).Inv := by
  unfold State.freeGranule
  repeat' (with_reducible first
    | assumption | apply State.zeroGranule_inv | apply State.repairSlice_inv | apply State.onGranule_inv
    | apply State.foldl_inv | apply State.Inv.fold | (simp only [State.inv_mk]) | (intro _; intros; try dsimp only))

theorem State.releaseGranule_inv {s : State} (hs : s.Inv) (g : Nat) : (s.releaseGranule g).Inv := by
  unfold State.releaseGranule
  repeat' (with_reducible first | assumption | apply State.onSec_inv | apply State.freeGranule_inv | (split <;> try dsimp only))

theorem execMemRelease_inv (d : DescRef) {s : State} (hs : s.Inv) : ∃ t', execMemRelease d s = .next t' ∧ t'.Inv := by
  refine ⟨_, rfl, ?_⟩
  repeat' (with_reducible first
    | assumption | apply State.startDesc_inv | apply State.complete_inv | apply State.releaseGranule_inv
    | apply State.foldl_inv | (intro _; intros; try dsimp only))

theorem State.unconfigure_inv {s : State} (hs : s.Inv) (p : Nat) : (s.unconfigure p).Inv := by
  unfold State.unconfigure
  repeat' (with_reducible first
    | assumption | apply State.endNaming_inv | apply State.freeGranule_inv | apply State.leaveTile_inv
    | apply State.freeTile_inv | apply State.ownLinks_inv | apply State.onDom_inv | apply State.postPresence_inv
    | apply State.onPart_inv | apply State.foldl_inv | (intro _; intros; try dsimp only) | (split <;> try dsimp only))

theorem execPartStateUnconfigure_inv (d : DescRef) {s : State} (hs : s.Inv)
    : ∃ t', execPartStateUnconfigure d s = .next t' ∧ t'.Inv := by
  refine ⟨_, rfl, ?_⟩
  repeat' (with_reducible first
    | assumption | apply State.startDesc_inv | apply State.complete_inv | apply State.unconfigure_inv
    | (intro _; intros; try dsimp only))

theorem State.loseAdmission_inv {s : State} (hs : s.Inv) (p why : Nat) : (s.loseAdmission p why).Inv := by
  unfold State.loseAdmission
  repeat' (with_reducible first
    | assumption | apply State.checkExpel_inv | apply State.endAll_inv | apply State.raiseBoth_inv | apply State.onSec_inv
    | (split <;> try dsimp only))

theorem execAdmissionLost_inv (p : Nat) {s : State} (hs : s.Inv) : ∃ t', execAdmissionLost p s = .next t' ∧ t'.Inv := by
  refine ⟨_, rfl, ?_⟩
  repeat' (with_reducible first | assumption | apply State.loseAdmission_inv | (split <;> try dsimp only))

/-! ### Resolve -/

theorem State.postDoms_inv {s : State} (hs : s.Inv) (ks : List Nat) : (s.postDoms ks).Inv := by
  unfold State.postDoms
  repeat' (with_reducible first
    | assumption | apply State.postPresence_inv | apply State.foldl_inv | (intro _; intros; try dsimp only))

theorem State.loseScratch_inv {s : State} (hs : s.Inv) (k : Nat) : (s.loseScratch k).Inv := by
  unfold State.loseScratch
  repeat' (with_reducible first
    | assumption | apply State.zeroTile_inv | apply State.foldl_inv | (intro _; intros; try dsimp only))

theorem State.loseStacked_inv {s : State} (hs : s.Inv) : (s.loseStacked).Inv := by
  unfold State.loseStacked
  repeat' (with_reducible first
    | assumption | apply State.Inv.fold | (simp only [State.inv_mk])
    | (intro hm; first | exact MemSys.store_wf hm _ _ | exact MemSys.storePieces_wf hm _ _ | exact MemSys.zero_wf hm _ _ | simpa using hm))

theorem State.leaveDeep_inv {s : State} (hs : s.Inv) : (s.leaveDeep).Inv := by
  unfold State.leaveDeep
  repeat' (with_reducible first
    | assumption | apply State.kvWake_inv | apply State.loseStacked_inv | apply State.foldl_inv
    | (intro _; intros; try dsimp only))

theorem State.followSleep_inv {s : State} (hs : s.Inv) : (s.followSleep).Inv := by
  unfold State.followSleep
  repeat' (with_reducible first
    | assumption | apply State.Inv.fold | (simp only [State.inv_mk]) | exact fun h => h | (split <;> try dsimp only))

theorem State.enterState_inv {s : State} (hs : s.Inv) (k : Nat) (st : PState) : (s.enterState k st).Inv := by
  unfold State.enterState
  repeat' (with_reducible first
    | assumption | apply State.settleDom_inv | apply State.leaveDeep_inv | apply State.loseScratch_inv
    | apply State.onTile_inv | apply State.progress_inv | apply State.onDom_inv | apply State.postDoms_inv
    | apply State.followSleep_inv | apply State.foldl_inv | apply State.Inv.fold | (simp only [State.inv_mk])
    | (intro _; intros; try dsimp only) | (split <;> try dsimp only))

theorem State.sinkAll_inv {s : State} (hs : s.Inv) (st : PState) : (s.sinkAll st).Inv := by
  unfold State.sinkAll
  repeat' (with_reducible first
    | assumption | apply State.onDom_inv | apply State.foldl_inv | (intro _; intros; try dsimp only))

theorem State.notePower_inv {s : State} (hs : s.Inv) : (s.notePower).Inv := by
  unfold State.notePower
  repeat' (with_reducible first | assumption | apply State.Inv.fold | (simp only [State.inv_mk]) | exact fun h => h)

theorem State.pausePart_inv {s : State} (hs : s.Inv) (p : Nat) : (s.pausePart p).Inv := by
  unfold State.pausePart
  repeat' (with_reducible first
    | assumption | apply State.onPart_inv | apply State.postPresence_inv | apply State.raiseBoth_inv
    | (split <;> try dsimp only))

theorem State.pauseFor_inv {s : State} (hs : s.Inv) (r : PowerReport) (room : Nat) (plan : List Aim) (l : List Nat) :
    (s.pauseFor r room plan l).1.Inv := by
  induction l generalizing s plan with
  | nil => exact hs
  | cons x l ih =>
    unfold State.pauseFor
    split
    · exact hs
    split
    · exact ih hs _
    · exact ih (State.pausePart_inv hs _) _

theorem State.lowerPlan_inv {s : State} (hs : s.Inv) (r : PowerReport) (plan : List Aim) : (s.lowerPlan r plan).1.Inv := by
  unfold State.lowerPlan
  dsimp only
  repeat' (with_reducible first
    | assumption | apply State.pauseFor_inv | apply State.onDom_inv | apply State.foldl_inv
    | (intro _; intros; try dsimp only) | (split <;> try dsimp only))

theorem State.returnRest_inv {s : State} (hs : s.Inv) (r : PowerReport) (want : List Aim) (l : List Nat) :
    (s.returnRest r want l).Inv := by
  induction l generalizing s with
  | nil => exact hs
  | cons k l ih =>
    unfold State.returnRest
    dsimp only
    split
    · exact ih hs
    split
    · exact ih (State.onDom_inv hs _ _)
    · exact hs

theorem State.noteClamp_inv {s : State} (hs : s.Inv) (k level : Nat) : (s.noteClamp k level).Inv := by
  unfold State.noteClamp
  repeat' (with_reducible first
    | assumption | apply State.onDom_inv | apply State.logHealth_inv | apply State.raise_inv | (split <;> try dsimp only))

theorem State.noteFit_inv {s : State} (hs : s.Inv) (r : PowerReport) (plan : List Aim) (p : Nat) :
    (s.noteFit r plan p).Inv := by
  unfold State.noteFit
  repeat' (with_reducible first | assumption | apply State.onPart_inv | (split <;> try dsimp only))

theorem State.carry_inv {s : State} (hs : s.Inv) (want : List Aim) (plan : List Aim) (warm : List Bool) :
    (s.carry want plan warm).Inv := by
  unfold State.carry
  repeat' (with_reducible first
    | assumption | apply State.onDom_inv | apply State.noteClamp_inv | apply State.foldl_inv
    | (intro _; intros; try dsimp only))

theorem State.resolveLevels_inv {s : State} (hs : s.Inv) : (s.resolveLevels).Inv := by
  unfold State.resolveLevels
  repeat' (with_reducible first
    | assumption | apply State.notePower_inv | apply State.pausePart_inv | apply State.returnRest_inv
    | apply State.lowerPlan_inv | apply State.carry_inv | apply State.tick_inv | apply State.noteFit_inv
    | apply State.foldl_inv | apply State.Inv.fold | (simp only [State.inv_mk]) | (intro _; intros; try dsimp only)
    | (split <;> try dsimp only))

theorem State.wantDom_inv {s : State} (hs : s.Inv) (st : PState) (k : Nat) : (s.wantDom st k).Inv := by
  unfold State.wantDom
  repeat' (with_reducible first | assumption | apply State.onDom_inv)

/-! ### Power -/

theorem State.railTick_inv {s : State} (hs : s.Inv) : (s.railTick).Inv := by
  unfold State.railTick
  repeat' (with_reducible first
    | assumption | apply State.Inv.fold | (simp only [State.inv_mk]) | exact fun h => h | (split <;> try dsimp only))

theorem State.codewords_inv {s : State} (hs : s.Inv) : (s.codewords).Inv := by
  unfold State.codewords
  repeat' (with_reducible first
    | assumption | apply State.tick_inv | apply State.Inv.fold | (simp only [State.inv_mk]) | exact fun h => h
    | (split <;> try dsimp only))

theorem State.passTime_inv {s : State} (hs : s.Inv) : (s.passTime).Inv := by
  unfold State.passTime
  repeat' (with_reducible first | assumption | apply State.codewords_inv | apply State.railTick_inv | apply State.slewed_inv)

theorem execDomainStateReached_inv (k : Nat) {s : State} (hs : s.Inv)
    : ∃ t', execDomainStateReached k s = .next t' ∧ t'.Inv := by
  refine ⟨_, rfl, ?_⟩
  repeat' (with_reducible first
    | assumption | apply State.enterState_inv | apply State.resolveLevels_inv | (split <;> try dsimp only))

theorem execVoltageStep_inv (k : Nat) {s : State} (hs : s.Inv) : ∃ t', execVoltageStep k s = .next t' ∧ t'.Inv := by
  refine ⟨_, rfl, ?_⟩
  repeat' (with_reducible first | assumption | apply State.onDom_inv | apply State.settleDom_inv)

theorem State.closePq_inv {s : State} (hs : s.Inv) (r : PqRec) : (s.closePq r).Inv := by
  unfold State.closePq
  repeat' (with_reducible first
    | assumption | apply State.raiseAt_inv | apply State.Inv.fold | (simp only [State.inv_mk]) | exact fun h => h)

theorem State.closeAllPq_inv {s : State} (hs : s.Inv) : (s.closeAllPq).Inv := by
  unfold State.closeAllPq
  repeat' (with_reducible first
    | assumption | apply State.closePq_inv | apply State.foldl_inv | (intro _; intros; try dsimp only))

theorem execPqRecordOpen_inv (m : PqMeasure) {s : State} (hs : s.Inv) : ∃ t', execPqRecordOpen m s = .next t' ∧ t'.Inv := by
  refine ⟨_, rfl, ?_⟩
  repeat' (with_reducible first
    | assumption | apply State.Inv.fold | (simp only [State.inv_mk]) | exact fun h => h | (split <;> try dsimp only))

theorem execPqRecordClose_inv (m : PqMeasure) {s : State} (hs : s.Inv) : ∃ t', execPqRecordClose m s = .next t' ∧ t'.Inv := by
  refine ⟨_, rfl, ?_⟩
  repeat' (with_reducible first | assumption | apply State.closePq_inv | (split <;> try dsimp only))

theorem execCurtainEnter_inv (dv us : Nat) {s : State} (hs : s.Inv) : ∃ t', execCurtainEnter dv us s = .next t' ∧ t'.Inv := by
  refine ⟨_, rfl, ?_⟩
  repeat' (with_reducible first
    | assumption | apply State.setModule_inv | apply State.resolveLevels_inv | apply State.raiseLive_inv
    | apply State.Inv.fold | (simp only [State.inv_mk]) | exact fun h => h | (split <;> try dsimp only))

theorem State.raiseCurtain_inv {s : State} (hs : s.Inv) (code : Nat) : (s.raiseCurtain code).Inv := by
  unfold State.raiseCurtain
  repeat' (with_reducible first
    | assumption | apply State.raise_inv | apply State.foldl_inv | (intro _; intros; try dsimp only))

theorem execCurtainExit_inv (dv ms : Nat) {s : State} (hs : s.Inv) : ∃ t', execCurtainExit dv ms s = .next t' ∧ t'.Inv := by
  refine ⟨_, rfl, ?_⟩
  repeat' (with_reducible first
    | assumption | apply State.setModule_inv | apply State.resolveLevels_inv | apply State.raiseCurtain_inv
    | apply State.Inv.fold | (simp only [State.inv_mk]) | exact fun h => h | (split <;> try dsimp only))

theorem State.orderlyShutdown_inv {s : State} (hs : s.Inv) : (s.orderlyShutdown).Inv := by
  unfold State.orderlyShutdown
  repeat' (with_reducible first
    | assumption | apply State.raiseCurtain_inv | apply State.raiseLive_inv | apply State.closeAllPq_inv
    | apply State.resolveLevels_inv | apply State.linkDown_inv | apply State.goOff_inv | apply State.Inv.fold
    | (simp only [State.inv_mk]) | exact fun h => h | (split <;> try dsimp only))

theorem execOrderlyShutdown_inv (dv ms nodeDv : Nat) {s : State} (hs : s.Inv)
    : ∃ t', execOrderlyShutdown dv ms nodeDv s = .next t' ∧ t'.Inv := by
  refine ⟨_, rfl, ?_⟩
  repeat' (with_reducible first | assumption | apply State.orderlyShutdown_inv | (split <;> try dsimp only))

theorem execShutdownComplete_inv {s : State} (hs : s.Inv) : ∃ t', execShutdownComplete s = .next t' ∧ t'.Inv := by
  refine ⟨_, rfl, ?_⟩
  repeat' (with_reducible first | assumption | apply State.goOff_inv | (split <;> try dsimp only))

theorem execPrechargeStart_inv (dv ms : Nat) {s : State} (hs : s.Inv)
    : ∃ t', execPrechargeStart dv ms s = .next t' ∧ t'.Inv := by
  refine ⟨_, rfl, ?_⟩
  repeat' (with_reducible first
    | assumption | apply State.setModule_inv | apply State.Inv.fold | (simp only [State.inv_mk]) | exact fun h => h
    | (split <;> try dsimp only))

theorem execPrechgDeassert_inv (us : Nat) {s : State} (hs : s.Inv) : ∃ t', execPrechgDeassert us s = .next t' ∧ t'.Inv := by
  refine ⟨_, rfl, ?_⟩
  repeat' (with_reducible first
    | assumption | apply State.orderlyShutdown_inv | apply State.Inv.fold | (simp only [State.inv_mk]) | exact fun h => h
    | (split <;> try dsimp only))

theorem execInputSwitchOpen_inv (dv nodeDv ms : Nat) {s : State} (hs : s.Inv)
    : ∃ t', execInputSwitchOpen dv nodeDv ms s = .next t' ∧ t'.Inv := by
  refine ⟨_, rfl, ?_⟩
  repeat' (with_reducible first
    | assumption | apply State.Inv.fold | (simp only [State.inv_mk]) | exact fun h => h | (split <;> try dsimp only))

theorem execInputSwitchClose_inv (dv ms nodeDv : Nat) {s : State} (hs : s.Inv)
    : ∃ t', execInputSwitchClose dv ms nodeDv s = .next t' ∧ t'.Inv := by
  refine ⟨_, rfl, ?_⟩
  repeat' (with_reducible first
    | assumption | apply State.Inv.fold | (simp only [State.inv_mk]) | exact fun h => h | (split <;> try dsimp only))

theorem State.railOff_inv {s : State} (hs : s.Inv) (k : Nat) : (s.railOff k).Inv := by
  unfold State.railOff
  repeat' (with_reducible first
    | assumption | apply State.onDom_inv | apply State.enterState_inv | apply State.requestReset_inv
    | apply State.portLost_inv | apply State.logHealth_inv | apply State.resolveLevels_inv | apply State.checkExpel_inv
    | apply State.reviewDown_inv | apply State.foldl_inv | (intro _; intros; try dsimp only) | (split <;> try dsimp only))

theorem execRailFault_inv (r : Rail) (us : Nat) {s : State} (hs : s.Inv) : ∃ t', execRailFault r us s = .next t' ∧ t'.Inv := by
  refine ⟨_, rfl, ?_⟩
  repeat' (with_reducible first
    | assumption | apply State.railOff_inv | apply State.logHealth_inv | apply State.enterSafe_inv | apply State.sinkAll_inv
    | (split <;> try dsimp only))

theorem execShedAssert_inv {s : State} (hs : s.Inv) : ∃ t', execShedAssert s = .next t' ∧ t'.Inv := by
  refine ⟨_, rfl, ?_⟩
  repeat' (with_reducible first
    | assumption | apply State.resolveLevels_inv | apply State.raise_inv | apply State.foldl_inv | apply State.Inv.fold
    | (simp only [State.inv_mk]) | (intro _; intros; try dsimp only) | (split <;> try dsimp only))

theorem execShedDeassert_inv {s : State} (hs : s.Inv) : ∃ t', execShedDeassert s = .next t' ∧ t'.Inv := by
  refine ⟨_, rfl, ?_⟩
  repeat' (with_reducible first
    | assumption | apply State.raiseLive_inv | apply State.resolveLevels_inv | apply State.Inv.fold
    | (simp only [State.inv_mk]) | exact fun h => h | (split <;> try dsimp only))

theorem execPrecedenceResolution_inv (r : PowerReport) {s : State} (hs : s.Inv)
    : ∃ t', execPrecedenceResolution r s = .next t' ∧ t'.Inv := by
  refine ⟨_, rfl, ?_⟩
  repeat' (with_reducible first
    | assumption | apply State.resolveLevels_inv | apply State.notePower_inv | apply State.Inv.fold
    | (simp only [State.inv_mk]) | exact fun h => h | (split <;> try dsimp only))

theorem execFixedRateResume_inv (p : Nat) {s : State} (hs : s.Inv) : ∃ t', execFixedRateResume p s = .next t' ∧ t'.Inv := by
  refine ⟨_, rfl, ?_⟩
  repeat' (with_reducible first
    | assumption | apply State.onPart_inv | apply State.progress_inv | apply State.resolveLevels_inv
    | apply State.postPresence_inv | apply State.raiseBoth_inv | apply State.foldl_inv | (intro _; intros; try dsimp only)
    | (split <;> try dsimp only))

theorem State.planWake_inv {s : State} (hs : s.Inv) (p : Nat) (st : PState) (cadence : Option Nat) :
    (s.planWake p st cadence).Inv := by
  unfold State.planWake
  repeat' (with_reducible first | assumption | apply State.onPart_inv)

theorem execStateSelection_inv (p : Nat) (cadence : Option Nat) {s : State} (hs : s.Inv)
    : ∃ t', execStateSelection p cadence s = .next t' ∧ t'.Inv := by
  refine ⟨_, rfl, ?_⟩
  repeat' (with_reducible first
    | assumption | apply State.resolveLevels_inv | apply State.wantDom_inv | apply State.planWake_inv | apply State.foldl_inv
    | (intro _; intros; try dsimp only) | (split <;> try dsimp only))

theorem State.wakeModule_inv {s : State} (hs : s.Inv) : (s.wakeModule).Inv := by
  unfold State.wakeModule
  repeat' (with_reducible first | assumption | apply State.resolveLevels_inv | apply State.wantRun_inv)

theorem execDomainWake_inv (k : Nat) (why : WakeCause) {s : State} (hs : s.Inv)
    : ∃ t', execDomainWake k why s = .next t' ∧ t'.Inv := by
  refine ⟨_, rfl, ?_⟩
  repeat' (with_reducible first
    | assumption | apply State.wakeModule_inv | apply State.resolveLevels_inv | apply State.wantDom_inv
    | (split <;> try dsimp only))

end Sys2Proof.Machine
end

