-- ==== Sys2Proof/Laws/Inv4.lean ====
section
/-! SUPPORT. Every operation and meaning of these files of Machine keeps the memories in canonical form (`State.Inv`): Cyclic, Thermal, Rates, Codec, Video, Collective, Regs, Writes, Firmware. -/

namespace Sys2Proof.Machine

/-! ### Cyclic -/

theorem State.onCyc_inv {s : State} (hs : s.Inv) (p n : Nat) (f : Cyclic → Cyclic) : (s.onCyc p n f).Inv := by
  unfold State.onCyc
  repeat' (with_reducible first | assumption | apply State.onAct_inv)

theorem State.actEvent_inv {s : State} (hs : s.Inv) (p n code b1 k : Nat) : (s.actEvent p n code b1 k).Inv := by
  unfold State.actEvent
  repeat' (with_reducible first | assumption | apply State.raiseBoth_inv)

theorem State.countLate_inv {s : State} (hs : s.Inv) (p n why k : Nat) : (s.countLate p n why k).Inv := by
  unfold State.countLate
  repeat' (with_reducible first | assumption | apply State.onCyc_inv | apply State.actEvent_inv | (split <;> try dsimp only))

theorem State.idlePaired_inv {s : State} (hs : s.Inv) : (s.idlePaired).Inv := by
  unfold State.idlePaired
  repeat' (with_reducible first
    | assumption | apply State.onCyc_inv | apply State.endActDescs_inv | apply State.foldl_inv
    | (intro _; intros; try dsimp only))

theorem State.failPair_inv {s : State} (hs : s.Inv) (n cause k : Nat) : (s.failPair n cause k).Inv := by
  unfold State.failPair
  repeat' (with_reducible first
    | assumption | apply State.alert_inv | apply State.actEvent_inv | apply State.idlePaired_inv | apply State.Inv.fold
    | (simp only [State.inv_mk]) | exact fun h => h | (split <;> try dsimp only))

theorem State.failAct_inv {s : State} (hs : s.Inv) (p n k : Nat) : (s.failAct p n k).Inv := by
  unfold State.failAct
  repeat' (with_reducible first
    | assumption | apply State.onUnit_inv | apply State.failPair_inv | apply State.freeAct_inv | apply State.actEvent_inv
    | apply State.foldl_inv | (intro _; intros; try dsimp only) | (split <;> try dsimp only))

theorem State.stopCyclic_inv {s : State} (hs : s.Inv) : (s.stopCyclic).Inv := by
  unfold State.stopCyclic
  repeat' (with_reducible first
    | assumption | apply State.failPair_inv | apply State.stopAct_inv | apply State.foldl_inv
    | (intro _; intros; try dsimp only) | (split <;> try dsimp only))

theorem State.toLanes_inv {s : State} (hs : s.Inv) (p : Nat) (c : Cyclic) (r : Region) (bs : List Byte) :
    (s.toLanes p c r bs).Inv := by
  unfold State.toLanes
  repeat' (with_reducible first
    | assumption | apply State.tryWriteVa_inv | apply State.foldl_inv | (intro _; intros; try dsimp only))

theorem State.copyState_inv {s : State} (hs : s.Inv) (p : Nat) (c : Cyclic) (back : Bool) : (s.copyState p c back).Inv := by
  unfold State.copyState
  repeat' (with_reducible first
    | assumption | apply State.tryWriteVa_inv | apply State.foldl_inv | (intro _; intros; try dsimp only)
    | (split <;> try dsimp only))

theorem State.snapshot_inv {s : State} (hs : s.Inv) (p : Nat) (c : Cyclic) : (s.snapshot p c).Inv := by
  unfold State.snapshot
  repeat' (with_reducible first
    | assumption | apply State.toLanes_inv | apply State.copyState_inv | apply State.foldl_inv
    | (intro _; intros; try dsimp only))

theorem State.startLanes_inv {s : State} (hs : s.Inv) (p n : Nat) (c : Cyclic) : (s.startLanes p n c).Inv := by
  unfold State.startLanes
  repeat' (with_reducible first
    | assumption | apply State.onAct_inv | apply State.addLane_inv | apply State.foldl_inv | (intro _; intros; try dsimp only)
    | (split <;> try dsimp only))

theorem State.endCycle_inv {s : State} (hs : s.Inv) (p n : Nat) : (s.endCycle p n).Inv := by
  unfold State.endCycle
  dsimp only
  repeat' (with_reducible first | assumption | apply State.freeCyclic_inv | (split <;> try dsimp only))

theorem State.publish_inv {s : State} (hs : s.Inv) (p n k : Nat) (held : Bool) (img : Nat × List Byte × Nat × List Byte) :
    (s.publish p n k held img).1.Inv := by
  unfold State.publish
  repeat' (with_reducible first
    | assumption | apply State.putRegion_inv | apply State.hostWriteAs_inv | apply State.sendSensor_inv
    | apply State.onChan_inv | apply State.onCyc_inv | (split <;> try dsimp only))

theorem State.afterIssue_inv {s : State} (hs : s.Inv) (p n k : Nat) (i : Issue) : (s.afterIssue p n k i).Inv := by
  unfold State.afterIssue
  repeat' (with_reducible first | assumption | apply State.failPair_inv | apply State.onCyc_inv | (split <;> try dsimp only))

theorem State.publishHeld_inv {s : State} (hs : s.Inv) (p n k : Nat) : (s.publishHeld p n k).Inv := by
  unfold State.publishHeld
  repeat' (with_reducible first
    | assumption | apply State.publish_inv | apply State.afterIssue_inv | apply State.Inv.fold | (simp only [State.inv_mk])
    | exact fun h => h | (split <;> try dsimp only))

theorem execCycleStart_inv (p n : Nat) {s : State} (hs : s.Inv) : ∃ t', execCycleStart p n s = .next t' ∧ t'.Inv := by
  refine ⟨_, rfl, ?_⟩
  repeat' (with_reducible first
    | assumption | apply State.endCycle_inv | apply State.onCyc_inv | apply State.countLate_inv | apply State.publishHeld_inv
    | apply State.startLanes_inv | apply State.snapshot_inv | apply State.onAct_inv | apply State.foldl_inv
    | (intro _; intros; try dsimp only) | (split <;> try dsimp only))

theorem State.saveState_inv {s : State} (hs : s.Inv) (p n k : Nat) (c : Cyclic) : (s.saveState p n k c).Inv := by
  unfold State.saveState
  repeat' (with_reducible first
    | assumption | apply State.actEvent_inv | apply State.hostWriteAs_inv | (split <;> try dsimp only))

theorem State.sendCopy_inv {s : State} (hs : s.Inv) (p n k : Nat) (c : Cyclic) : (s.sendCopy p n k c).Inv := by
  unfold State.sendCopy
  repeat' (with_reducible first | assumption | apply State.linkSend_inv | (split <;> try dsimp only))

theorem State.laneMatch_inv {s : State} (hs : s.Inv) (p n k : Nat) (c : Cyclic) (dig : List Byte) :
    (s.laneMatch p n k c dig).Inv := by
  unfold State.laneMatch
  repeat' (with_reducible first
    | assumption | apply State.endCycle_inv | apply State.onCyc_inv | apply State.publish_inv | apply State.sendCopy_inv
    | apply State.saveState_inv | apply State.afterIssue_inv | (split <;> try dsimp only))

theorem State.laneMismatch_inv {s : State} (hs : s.Inv) (p n k : Nat) (c : Cyclic) : (s.laneMismatch p n k c).Inv := by
  unfold State.laneMismatch
  repeat' (with_reducible first
    | assumption | apply State.onCyc_inv | apply State.actEvent_inv | apply State.failAct_inv | apply State.copyState_inv
    | apply State.startLanes_inv | apply State.endCycle_inv | (split <;> try dsimp only))

theorem execLaneComplete_inv (p n : Nat) {s : State} (hs : s.Inv) : ∃ t', execLaneComplete p n s = .next t' ∧ t'.Inv := by
  refine ⟨_, rfl, ?_⟩
  repeat' (with_reducible first
    | assumption | apply State.laneMatch_inv | apply State.laneMismatch_inv | (split <;> try dsimp only))

theorem execCycleDeadline_inv (p n : Nat) {s : State} (hs : s.Inv) : ∃ t', execCycleDeadline p n s = .next t' ∧ t'.Inv := by
  refine ⟨_, rfl, ?_⟩
  repeat' (with_reducible first
    | assumption | apply State.onCyc_inv | apply State.publishHeld_inv | apply State.countLate_inv | apply State.endCycle_inv
    | apply State.failPair_inv | (split <;> try dsimp only))

theorem State.writePairCfg_inv {s : State} (hs : s.Inv) (v : Nat) : (s.writePairCfg v).Inv := by
  unfold State.writePairCfg
  repeat' (with_reducible first
    | assumption | apply State.pairEvent_inv | apply State.idlePaired_inv | apply State.Inv.fold | (simp only [State.inv_mk])
    | exact fun h => h | (split <;> try dsimp only))

theorem execPairCfgWrite_inv (v : Word) {s : State} (hs : s.Inv) : ∃ t', execPairCfgWrite v s = .next t' ∧ t'.Inv := by
  refine ⟨_, rfl, ?_⟩
  repeat' (with_reducible first
    | assumption | apply State.writePairCfg_inv | apply State.wakeDeep_inv | (split <;> try dsimp only))

theorem execClaimStart_inv {s : State} (hs : s.Inv) : ∃ t', execClaimStart s = .next t' ∧ t'.Inv := by
  refine ⟨_, rfl, ?_⟩
  repeat' (with_reducible first
    | assumption | apply State.Inv.fold | (simp only [State.inv_mk]) | exact fun h => h | (split <;> try dsimp only))

theorem execClaimCheck_inv {s : State} (hs : s.Inv) : ∃ t', execClaimCheck s = .next t' ∧ t'.Inv := by
  refine ⟨_, rfl, ?_⟩
  repeat' (with_reducible first
    | assumption | apply State.pairEvent_inv | apply State.onCyc_inv | apply State.foldl_inv | apply State.Inv.fold
    | (simp only [State.inv_mk]) | (intro _; intros; try dsimp only) | (split <;> try dsimp only))

theorem execPartnerLineAssert_inv {s : State} (hs : s.Inv) : ∃ t', execPartnerLineAssert s = .next t' ∧ t'.Inv := by
  refine ⟨_, rfl, ?_⟩
  repeat' (with_reducible first
    | assumption | apply State.idlePaired_inv | apply State.pairEvent_inv | apply State.Inv.fold | (simp only [State.inv_mk])
    | exact fun h => h | (split <;> try dsimp only))

theorem State.rearmPair_inv {s : State} (hs : s.Inv) : (s.rearmPair).Inv := by
  unfold State.rearmPair
  repeat' (with_reducible first
    | assumption | apply State.Inv.fold | (simp only [State.inv_mk]) | exact fun h => h | (split <;> try dsimp only))

theorem execPairRearm_inv {s : State} (hs : s.Inv) : ∃ t', execPairRearm s = .next t' ∧ t'.Inv := by
  refine ⟨_, rfl, ?_⟩
  repeat' (with_reducible first
    | assumption | apply State.rearmPair_inv | apply State.wakeDeep_inv | (split <;> try dsimp only))

theorem State.handOver_inv {s : State} (hs : s.Inv) : (s.handOver).Inv := by
  unfold State.handOver
  repeat' (with_reducible first
    | assumption | apply State.idlePaired_inv | apply State.standDown_inv | (split <;> try dsimp only))

theorem execPairHandover_inv {s : State} (hs : s.Inv) : ∃ t', execPairHandover s = .next t' ∧ t'.Inv := by
  refine ⟨_, rfl, ?_⟩
  repeat' (with_reducible first | assumption | apply State.handOver_inv | apply State.wakeDeep_inv | (split <;> try dsimp only))

theorem State.writePairCtrl_inv {s : State} (hs : s.Inv) (v : Nat) : (s.writePairCtrl v).Inv := by
  unfold State.writePairCtrl
  repeat' (with_reducible first
    | assumption | apply State.rearmPair_inv | apply State.handOver_inv | (split <;> try dsimp only))

theorem State.layState_inv {s : State} (hs : s.Inv) (p : Nat) (lanes : List Nat) (spare : Bool) (l : List Region) (bs
    : List Byte) :
    (s.layState p lanes spare l bs).Inv := by
  induction l generalizing s bs with
  | nil => exact hs
  | cons x l ih =>
    unfold State.layState
    exact ih (State.foldl_inv _ _ hs fun t _ ht => State.tryWriteVa_inv ht _ _ _) _

theorem execStateLoaded_inv (n : Nat) (a : HostRead) (b : HostRead) (img : HostRead) {s : State} (hs : s.Inv)
    : ∃ t', execStateLoaded n a b img s = .next t' ∧ t'.Inv := by
  refine ⟨_, rfl, ?_⟩
  repeat' (with_reducible first
    | assumption | apply State.countRdErr_inv | apply State.onCyc_inv | apply State.publishHeld_inv | apply State.layState_inv
    | apply State.actEvent_inv | apply State.foldl_inv | (intro _; intros; try dsimp only) | (split <;> try dsimp only))

theorem State.takeCopy_inv {s : State} (hs : s.Inv) (p n : Nat) (c : Cyclic) (bs : List Byte) (fin : Bool) :
    (s.takeCopy p n c bs fin).Inv := by
  unfold State.takeCopy
  repeat' (with_reducible first | assumption | apply State.layState_inv | apply State.onCyc_inv | (split <;> try dsimp only))

theorem execStateCopyReceive_inv (m : List Byte) (start fin : Bool) {s : State} (hs : s.Inv)
    : ∃ t', execStateCopyReceive m start fin s = .next t' ∧ t'.Inv := by
  refine ⟨_, rfl, ?_⟩
  repeat' (with_reducible first
    | assumption | apply State.onCyc_inv | apply State.takeCopy_inv | apply State.Inv.fold | (simp only [State.inv_mk])
    | exact fun h => h | (split <;> try dsimp only))

/-! ### Thermal -/

theorem State.onSpot_inv {s : State} (hs : s.Inv) (i : Nat) (f : HotSpot → HotSpot) : (s.onSpot i f).Inv := by
  unfold State.onSpot
  repeat' (with_reducible first
    | assumption | apply State.Inv.fold | (simp only [State.inv_mk]) | exact fun h => h | (split <;> try dsimp only))

theorem State.onAux_inv {s : State} (hs : s.Inv) (i : Nat) (f : AuxSpot → AuxSpot) : (s.onAux i f).Inv := by
  unfold State.onAux
  repeat' (with_reducible first | assumption | apply State.Inv.fold | (simp only [State.inv_mk]) | exact fun h => h)

theorem State.logSpot_inv {s : State} (hs : s.Inv) (kind i : Nat) : (s.logSpot kind i).Inv := by
  unfold State.logSpot
  repeat' (with_reducible first | assumption | apply State.logOpen_inv | (split <;> try dsimp only))

theorem State.noteLost_inv {s : State} (hs : s.Inv) (i : Nat) (before : HotSpot) : (s.noteLost i before).Inv := by
  unfold State.noteLost
  dsimp only
  repeat' (with_reducible first | assumption | apply State.logSpot_inv | (split <;> try dsimp only))

theorem execSensorSuspect_inv (spot : Nat) {s : State} (hs : s.Inv) : ∃ t', execSensorSuspect spot s = .next t' ∧ t'.Inv := by
  refine ⟨_, rfl, ?_⟩
  repeat' (with_reducible first
    | assumption | apply State.logSpot_inv | apply State.onSpot_inv | apply State.raise_inv | apply State.Inv.fold
    | (simp only [State.inv_mk]) | exact fun h => h | (split <;> try dsimp only))

theorem execSensorRestore_inv (spot sensor : Nat) {s : State} (hs : s.Inv)
    : ∃ t', execSensorRestore spot sensor s = .next t' ∧ t'.Inv := by
  refine ⟨_, rfl, ?_⟩
  repeat' (with_reducible first | assumption | apply State.onSpot_inv | (split <;> try dsimp only))

theorem State.tripEvent_inv {s : State} (hs : s.Inv) (node : Nat) : (s.tripEvent node).Inv := by
  unfold State.tripEvent
  repeat' (with_reducible first
    | assumption | apply State.logSpot_inv | apply State.raise_inv | apply State.Inv.fold | (simp only [State.inv_mk])
    | exact fun h => h)

theorem State.tileTrip_inv {s : State} (hs : s.Inv) (t : Nat) : (s.tileTrip t).Inv := by
  unfold State.tileTrip
  dsimp only
  repeat' (with_reducible first
    | assumption | apply State.tripEvent_inv | apply State.resolveLevels_inv | apply State.onDom_inv | apply State.onSpot_inv
    | (split <;> try dsimp only))

theorem State.checkBudget_inv {s : State} (hs : s.Inv) (t : Nat) : (s.checkBudget t).Inv := by
  unfold State.checkBudget
  dsimp only
  repeat' (with_reducible first | assumption | apply State.onSpot_inv | apply State.raise_inv | (split <;> try dsimp only))

theorem State.rollCycles_inv {s : State} (hs : s.Inv) : (s.rollCycles).Inv := by
  unfold State.rollCycles
  repeat' (with_reducible first
    | assumption | apply State.checkBudget_inv | apply State.foldl_inv | apply State.Inv.fold | (simp only [State.inv_mk])
    | (intro _; intros; try dsimp only) | (split <;> try dsimp only))

theorem State.tileValue_inv {s : State} (hs : s.Inv) (t : Nat) : (s.tileValue t).Inv := by
  unfold State.tileValue
  repeat' (with_reducible first
    | assumption | apply State.onSpot_inv | apply State.tileTrip_inv | apply State.checkBudget_inv
    | (split <;> try dsimp only))

theorem State.stackValue_inv {s : State} (hs : s.Inv) (k : Nat) : (s.stackValue k).Inv := by
  unfold State.stackValue
  repeat' (with_reducible first | assumption | apply State.onSpot_inv)

theorem State.auxValue_inv {s : State} (hs : s.Inv) (i : Nat) : (s.auxValue i).Inv := by
  unfold State.auxValue
  dsimp only
  repeat' (with_reducible first
    | assumption | apply State.onAux_inv | apply State.resolveLevels_inv | apply State.onDom_inv | apply State.tripEvent_inv
    | apply State.foldl_inv | (intro _; intros; try dsimp only) | (split <;> try dsimp only))

theorem execStackOvertempShutdown_inv (k : Nat) {s : State} (hs : s.Inv)
    : ∃ t', execStackOvertempShutdown k s = .next t' ∧ t'.Inv := by
  refine ⟨_, rfl, ?_⟩
  repeat' (with_reducible first
    | assumption | apply State.orderlyShutdown_inv | apply State.tripEvent_inv | (split <;> try dsimp only))

theorem execRefreshRestore_inv (k : Nat) {s : State} (hs : s.Inv) : ∃ t', execRefreshRestore k s = .next t' ∧ t'.Inv := by
  refine ⟨_, rfl, ?_⟩
  repeat' (with_reducible first | assumption | apply State.onSpot_inv | (split <;> try dsimp only))

theorem State.endForStop_inv {s : State} (hs : s.Inv) : (s.endForStop).Inv := by
  unfold State.endForStop
  repeat' (with_reducible first
    | assumption | apply State.endEach_inv | apply State.foldl_inv | apply State.Inv.fold | (simp only [State.inv_mk])
    | (intro _; intros; try dsimp only))

theorem State.emergencyEvent_inv {s : State} (hs : s.Inv) (cause : Nat) : (s.emergencyEvent cause).Inv := by
  unfold State.emergencyEvent
  repeat' (with_reducible first
    | assumption | apply State.raise_inv | apply State.foldl_inv | (intro _; intros; try dsimp only))

theorem State.stopSafe_inv {s : State} (hs : s.Inv) : (s.stopSafe).Inv := by
  unfold State.stopSafe
  repeat' (with_reducible first
    | assumption | apply State.writeBack_inv | apply State.enterSafe_inv | apply State.Inv.fold | (simp only [State.inv_mk])
    | exact fun h => h | (split <;> try dsimp only))

theorem State.emergencyStop_inv {s : State} (hs : s.Inv) (cause : Nat) : (s.emergencyStop cause).Inv := by
  unfold State.emergencyStop
  repeat' (with_reducible first
    | assumption | apply State.endForStop_inv | apply State.stopCyclic_inv | apply State.emergencyEvent_inv
    | apply State.resolveLevels_inv | apply State.stopSafe_inv | apply State.Inv.fold | (simp only [State.inv_mk])
    | exact fun h => h | (split <;> try dsimp only))

theorem State.flowSample_inv {s : State} (hs : s.Inv) (v : Option Nat) : (s.flowSample v).Inv := by
  unfold State.flowSample
  repeat' (with_reducible first
    | assumption | apply State.emergencyStop_inv | apply State.Inv.fold | (simp only [State.inv_mk]) | exact fun h => h
    | (split <;> try dsimp only))

theorem State.inletSample_inv {s : State} (hs : s.Inv) (v : Option Int) : (s.inletSample v).Inv := by
  unfold State.inletSample
  repeat' (with_reducible first | assumption | apply State.Inv.fold | (simp only [State.inv_mk]) | exact fun h => h)

theorem State.outletSample_inv {s : State} (hs : s.Inv) (v : Option Int) : (s.outletSample v).Inv := by
  unfold State.outletSample
  repeat' (with_reducible first
    | assumption | apply State.emergencyStop_inv | apply State.Inv.fold | (simp only [State.inv_mk]) | exact fun h => h
    | (split <;> try dsimp only))

theorem State.auxSample_inv {s : State} (hs : s.Inv) (i : Nat) (v : Option Int) : (s.auxSample i v).Inv := by
  unfold State.auxSample
  repeat' (with_reducible first
    | assumption | apply State.onAux_inv | apply State.auxValue_inv | apply State.logSpot_inv | (split <;> try dsimp only))

theorem State.noteCalm_inv {s : State} (hs : s.Inv) : (s.noteCalm).Inv := by
  unfold State.noteCalm
  repeat' (with_reducible first | assumption | apply State.Inv.fold | (simp only [State.inv_mk]) | exact fun h => h)

theorem execSensorSample_inv (a0 : Sample) {s : State} (hs : s.Inv) : ∃ t', execSensorSample a0 s = .next t' ∧ t'.Inv := by
  refine ⟨_, rfl, ?_⟩
  repeat' (with_reducible first
    | assumption | apply State.tileValue_inv | apply State.noteLost_inv | apply State.onSpot_inv | apply State.rollCycles_inv
    | apply State.stackValue_inv | apply State.auxSample_inv | apply State.inletSample_inv | apply State.outletSample_inv
    | apply State.flowSample_inv | apply State.noteCalm_inv | (split <;> try dsimp only))

theorem State.warnFlow_inv {s : State} (hs : s.Inv) : (s.warnFlow).Inv := by
  unfold State.warnFlow
  repeat' (with_reducible first
    | assumption | apply State.raise_inv | apply State.Inv.fold | (simp only [State.inv_mk]) | exact fun h => h)

theorem execFlowWarn_inv {s : State} (hs : s.Inv) : ∃ t', execFlowWarn s = .next t' ∧ t'.Inv := by
  refine ⟨_, rfl, ?_⟩
  repeat' (with_reducible first | assumption | apply State.warnFlow_inv | (split <;> try dsimp only))

theorem State.allowEvent_inv {s : State} (hs : s.Inv) (code : Nat) : (s.allowEvent code).Inv := by
  unfold State.allowEvent
  repeat' (with_reducible first
    | assumption | apply State.raise_inv | apply State.foldl_inv | (intro _; intros; try dsimp only))

theorem execFlowLimitExit_inv {s : State} (hs : s.Inv) : ∃ t', execFlowLimitExit s = .next t' ∧ t'.Inv := by
  refine ⟨_, rfl, ?_⟩
  repeat' (with_reducible first
    | assumption | apply State.allowEvent_inv | apply State.Inv.fold | (simp only [State.inv_mk]) | exact fun h => h
    | (split <;> try dsimp only))

theorem State.predict_inv {s : State} (hs : s.Inv) : (s.predict).Inv := by
  unfold State.predict
  repeat' (with_reducible first
    | assumption | apply State.tileValue_inv | apply State.stackValue_inv | apply State.auxValue_inv | apply State.foldl_inv
    | apply State.Inv.fold | (simp only [State.inv_mk]) | (intro _; intros; try dsimp only))

theorem State.takeAllowance_inv {s : State} (hs : s.Inv) : (s.takeAllowance).Inv := by
  unfold State.takeAllowance
  repeat' (with_reducible first
    | assumption | apply State.raise_inv | apply State.Inv.fold | (simp only [State.inv_mk]) | exact fun h => h
    | (split <;> try dsimp only))

theorem State.flowResponse_inv {s : State} (hs : s.Inv) : (s.flowResponse).Inv := by
  unfold State.flowResponse
  repeat' (with_reducible first
    | assumption | apply State.allowEvent_inv | apply State.emergencyStop_inv | apply State.orderlyShutdown_inv
    | apply State.Inv.fold | (simp only [State.inv_mk]) | exact fun h => h | (split <;> try dsimp only))

theorem execPredictorUpdate_inv {s : State} (hs : s.Inv) : ∃ t', execPredictorUpdate s = .next t' ∧ t'.Inv := by
  refine ⟨_, rfl, ?_⟩
  repeat' (with_reducible first
    | assumption | apply State.noteCalm_inv | apply State.resolveLevels_inv | apply State.flowResponse_inv
    | apply State.takeAllowance_inv | apply State.predict_inv | apply State.rollCycles_inv | (split <;> try dsimp only))

theorem execThermalClear_inv {s : State} (hs : s.Inv) : ∃ t', execThermalClear s = .next t' ∧ t'.Inv := by
  refine ⟨_, rfl, ?_⟩
  repeat' (with_reducible first
    | assumption | apply State.setModule_inv | apply State.raiseLive_inv | apply State.wakeModule_inv | apply State.Inv.fold
    | (simp only [State.inv_mk]) | exact fun h => h | (split <;> try dsimp only))

theorem State.rearmThermal_inv {s : State} (hs : s.Inv) : (s.rearmThermal).Inv := by
  unfold State.rearmThermal
  repeat' (with_reducible first | assumption | apply State.Inv.fold | (simp only [State.inv_mk]) | exact fun h => h)

theorem execThermalRearm_inv {s : State} (hs : s.Inv) : ∃ t', execThermalRearm s = .next t' ∧ t'.Inv := by
  refine ⟨_, rfl, ?_⟩
  repeat' (with_reducible first
    | assumption | apply State.rearmThermal_inv | apply State.wakeDeep_inv | (split <;> try dsimp only))

theorem State.writeThmEvents_inv {s : State} (hs : s.Inv) (v : Nat) : (s.writeThmEvents v).Inv := by
  unfold State.writeThmEvents
  repeat' (with_reducible first
    | assumption | apply State.rearmThermal_inv | apply State.Inv.fold | (simp only [State.inv_mk]) | exact fun h => h
    | (split <;> try dsimp only))

theorem execBulkMr4Read_inv (c code : Nat) (above : Bool) {s : State} (hs : s.Inv)
    : ∃ t', execBulkMr4Read c code above s = .next t' ∧ t'.Inv := by
  refine ⟨_, rfl, ?_⟩
  repeat' (with_reducible first
    | assumption | apply State.orderlyShutdown_inv | apply State.Inv.fold | (simp only [State.inv_mk])
    | (intro hm; first | exact MemSys.store_wf hm _ _ | exact MemSys.storePieces_wf hm _ _ | exact MemSys.zero_wf hm _ _ | simpa using hm)
    | (split <;> try dsimp only))

/-! ### Rates -/

theorem State.onRate_inv {s : State} (hs : s.Inv) (page : Option Nat) (f : RateCtl → RateCtl) : (s.onRate page f).Inv := by
  unfold State.onRate
  repeat' (with_reducible first
    | assumption | apply State.onPart_inv | apply State.Inv.fold | (simp only [State.inv_mk]) | exact fun h => h
    | (split <;> try dsimp only))

theorem State.writeRateCtrl_inv {s : State} (hs : s.Inv) (page : Option Nat) (v : Nat) : (s.writeRateCtrl page v).Inv := by
  unfold State.writeRateCtrl
  dsimp only
  repeat' (with_reducible first | assumption | apply State.onRate_inv | (split <;> try dsimp only))

theorem State.writeRateBase_inv {s : State} (hs : s.Inv) (page : Option Nat) (hi : Bool) (v : Nat) :
    (s.writeRateBase page hi v).Inv := by
  unfold State.writeRateBase
  repeat' (with_reducible first | assumption | apply State.onRate_inv)

theorem execFabRateCtrlWrite_inv (page : Option Nat) (v : Word) {s : State} (hs : s.Inv)
    : ∃ t', execFabRateCtrlWrite page v s = .next t' ∧ t'.Inv := by
  refine ⟨_, rfl, ?_⟩
  repeat' (with_reducible first
    | assumption | apply State.writeRateCtrl_inv | apply State.wakeDeep_inv | (split <;> try dsimp only))

theorem State.latchTile_inv {s : State} (hs : s.Inv) (t : Nat) : (s.latchTile t).Inv := by
  unfold State.latchTile
  repeat' (with_reducible first
    | assumption | apply State.settleTile_inv | apply State.onTile_inv | apply State.Inv.fold | (simp only [State.inv_mk])
    | exact fun h => h)

theorem State.markSampled_inv {s : State} (hs : s.Inv) (page : Option Nat) (t : Nat) : (s.markSampled page t).Inv := by
  unfold State.markSampled
  repeat' (with_reducible first | assumption | apply State.onTile_inv)

theorem State.writeRatePage_inv {s : State} (hs : s.Inv) (page : Option Nat) : (s.writeRatePage page).Inv := by
  unfold State.writeRatePage
  repeat' (with_reducible first
    | assumption | apply State.hostWriteAs_inv | apply State.markSampled_inv | apply State.onRate_inv | apply State.foldl_inv
    | (intro _; intros; try dsimp only))

theorem execRateSample_inv (page : Option Nat) {s : State} (hs : s.Inv) : ∃ t', execRateSample page s = .next t' ∧ t'.Inv := by
  refine ⟨_, rfl, ?_⟩
  repeat' (with_reducible first
    | assumption | apply State.writeRatePage_inv | apply State.latchTile_inv | apply State.foldl_inv
    | (intro _; intros; try dsimp only) | (split <;> try dsimp only))

theorem State.endAdmin_inv {s : State} (hs : s.Inv) (p : Nat) (d : Desc) : (s.endAdmin p d).Inv := by
  unfold State.endAdmin
  repeat' (with_reducible first
    | assumption | apply State.complete_inv | apply State.dropEngine_inv | apply State.undoAdmit_inv
    | apply State.endReset_inv | (split <;> try dsimp only))

theorem State.timeOut_inv {s : State} (hs : s.Inv) (p : Nat) (d : Desc) : (s.timeOut p d).Inv := by
  unfold State.timeOut
  repeat' (with_reducible first
    | assumption | apply State.stopAct_inv | apply State.onAct_inv | apply State.endAdmin_inv | apply State.endEarly_inv
    | (split <;> try dsimp only))

theorem execDescriptorTimeout_inv (d : DescRef) {s : State} (hs : s.Inv)
    : ∃ t', execDescriptorTimeout d s = .next t' ∧ t'.Inv := by
  refine ⟨_, rfl, ?_⟩
  repeat' (with_reducible first | assumption | apply State.timeOut_inv | (split <;> try dsimp only))

/-! ### Codec -/

theorem State.onCtx_inv {s : State} (hs : s.Inv) (c : Nat) (f : VidCtx → VidCtx) : (s.onCtx c f).Inv := by
  unfold State.onCtx
  repeat' (with_reducible first | assumption | apply State.Inv.fold | (simp only [State.inv_mk]) | exact fun h => h)

/-! ### Video -/

theorem State.makeCtx_inv {s : State} (hs : s.Inv) (p : Nat) (d : Desc) (va : Nat) (enc : Bool) :
    (s.makeCtx p d va enc).Inv := by
  unfold State.makeCtx
  repeat' (with_reducible first
    | assumption | apply State.tryWriteVa_inv | apply State.Inv.fold | (simp only [State.inv_mk]) | exact fun h => h
    | (split <;> try dsimp only))

theorem State.postCtx_inv {s : State} (hs : s.Inv) (c : Nat) : (s.postCtx c).Inv := by
  unfold State.postCtx
  dsimp only
  repeat' (with_reducible first | assumption | apply State.onCtx_inv | apply State.tryWriteVa_inv | (split <;> try dsimp only))

theorem State.pollRead_inv {s : State} (hs : s.Inv) (c : Nat) : (s.pollRead c).Inv := by
  unfold State.pollRead
  repeat' (with_reducible first | assumption | apply State.onCtx_inv | (split <;> try dsimp only))

theorem State.queuePic_inv {s : State} (hs : s.Inv) (c b : Nat) : (s.queuePic c b).Inv := by
  unfold State.queuePic
  repeat' (with_reducible first
    | assumption | apply State.tryWriteVa_inv | apply State.postCtx_inv | apply State.onCtx_inv | (split <;> try dsimp only))

theorem State.mediaDone_inv {s : State} (hs : s.Inv) (c : Nat) (k : MediaCmd) (o : Done) : (s.mediaDone c k o).Inv := by
  unfold State.mediaDone
  dsimp only
  repeat' (with_reducible first
    | assumption | apply State.onCtx_inv | refine okSat.state (State.writeDigest_inv ?_ _ _ _) (by assumption)
    | apply State.complete_inv | apply State.failDesc_inv | (split <;> try dsimp only))

theorem State.settleDec_inv {s : State} (hs : s.Inv) (c n : Nat) : (s.settleDec c n).Inv := by
  revert s
  induction n with
  | zero => exact fun hs => hs
  | succ n ih =>
    intro s hs
    unfold State.settleDec
    dsimp only
    repeat' (with_reducible first
    | apply ih | (apply State.queuePic_inv) | (apply State.mediaDone_inv) | (apply State.onCtx_inv) | assumption
    | (split <;> try dsimp only))

theorem State.noteWait_inv {s : State} (hs : s.Inv) (c : Nat) : (s.noteWait c).Inv := by
  unfold State.noteWait
  repeat' (with_reducible first | assumption | apply State.onCtx_inv | (split <;> try dsimp only))

theorem State.goDec_inv {s : State} (hs : s.Inv) (c : Nat) : (s.goDec c).Inv := by
  unfold State.goDec
  repeat' (with_reducible first
    | assumption | apply State.noteWait_inv | apply State.settleDec_inv | (split <;> try dsimp only))

theorem execDecode_inv (d : DescRef) {s : State} (hs : s.Inv) : ∃ t', execDecode d s = .next t' ∧ t'.Inv := by
  refine ⟨_, rfl, ?_⟩
  repeat' (with_reducible first
    | assumption | apply State.startDesc_inv | apply State.makeCtx_inv | apply State.goDec_inv | apply State.onCtx_inv
    | (intro _; intros; try dsimp only))

theorem execDecodeTimeReached_inv (d : DescRef) {s : State} (hs : s.Inv)
    : ∃ t', execDecodeTimeReached d s = .next t' ∧ t'.Inv := by
  refine ⟨_, rfl, ?_⟩
  repeat' (with_reducible first | assumption | apply State.goDec_inv | apply State.mediaDone_inv | (split <;> try dsimp only))

theorem State.giveItem_inv {s : State} (hs : s.Inv) (n : Nat) (i : CodecItem) : (s.giveItem n i).Inv := by
  unfold State.giveItem
  repeat' (with_reducible first
    | assumption | apply State.onCtx_inv | apply State.Inv.fold | (simp only [State.inv_mk]) | exact fun h => h
    | (split <;> try dsimp only))

theorem State.chargeCore_inv {s : State} (hs : s.Inv) (i : CodecItem) : (s.chargeCore i).Inv := by
  unfold State.chargeCore
  repeat' (with_reducible first | assumption | apply State.Inv.fold | (simp only [State.inv_mk]) | exact fun h => h)

theorem State.pollAll_inv {s : State} (hs : s.Inv) : (s.pollAll).Inv := by
  unfold State.pollAll
  repeat' (with_reducible first
    | assumption | apply State.pollRead_inv | apply State.foldl_inv | (intro _; intros; try dsimp only)
    | (split <;> try dsimp only))

theorem execCodecCoreDispatch_inv (n : Nat) {s : State} (hs : s.Inv) : ∃ t', execCodecCoreDispatch n s = .next t' ∧ t'.Inv := by
  refine ⟨_, rfl, ?_⟩
  repeat' (with_reducible first | assumption | apply State.pollAll_inv | apply State.giveItem_inv | (split <;> try dsimp only))

theorem execCodecPreempt_inv {s : State} (hs : s.Inv) : ∃ t', execCodecPreempt s = .next t' ∧ t'.Inv := by
  refine ⟨_, rfl, ?_⟩
  repeat' (with_reducible first
    | assumption | apply State.chargeCore_inv | apply State.giveItem_inv | apply State.Inv.fold | (simp only [State.inv_mk])
    | exact fun h => h | (split <;> try dsimp only))

theorem State.freeCore_inv {s : State} (hs : s.Inv) (n : Nat) (i : CodecItem) (errors : Nat) : (s.freeCore n i errors).Inv := by
  unfold State.freeCore
  repeat' (with_reducible first
    | assumption | apply State.chargeCore_inv | apply State.Inv.fold | (simp only [State.inv_mk]) | exact fun h => h)

theorem State.countErrors_inv {s : State} (hs : s.Inv) (c errors unitIdx : Nat) : (s.countErrors c errors unitIdx).Inv := by
  unfold State.countErrors
  repeat' (with_reducible first | assumption | apply State.onCtx_inv | apply State.raise_inv | (split <;> try dsimp only))

theorem State.consumeUnit_inv {s : State} (hs : s.Inv) (c : Nat) : (s.consumeUnit c).Inv := by
  unfold State.consumeUnit
  repeat' (with_reducible first | assumption | apply State.tryWriteVa_inv)

theorem State.putPicture_inv {s : State} (hs : s.Inv) (c b : Nat) (a3 : VidCtx) (w a5 : Nat) (bytes : List Byte) :
    (s.putPicture c b a3 w a5 bytes).Inv := by
  unfold State.putPicture
  repeat' (with_reducible first
    | assumption | apply State.spoil_inv | apply State.tryWriteVa_inv | apply State.foldl_inv
    | (intro _; intros; try dsimp only))

theorem State.decoded_inv {s : State} (hs : s.Inv) (c b : Nat) (a3 : VidCtx) (units : List (List Byte)) (r : PicParse) (unit
    : List Byte) (discont : Bool) : (s.decoded c b a3 units r unit discont).Inv := by
  unfold State.decoded
  repeat' (with_reducible first | assumption | apply State.putPicture_inv | apply State.onCtx_inv)

theorem State.takeSeq_inv {s : State} (hs : s.Inv) (c : Nat) (a2 : VidCtx) (r : PicParse) : (s.takeSeq c a2 r).Inv := by
  unfold State.takeSeq
  repeat' (with_reducible first | assumption | apply State.onCtx_inv | apply State.raise_inv | (split <;> try dsimp only))

theorem State.endUnit_inv {s : State} (hs : s.Inv) (c : Nat) (units : List (List Byte)) : (s.endUnit c units).Inv := by
  unfold State.endUnit
  repeat' (with_reducible first | assumption | apply State.onCtx_inv | apply State.consumeUnit_inv)

theorem State.takePicture_inv {s : State} (hs : s.Inv) (c b : Nat) (a3 : VidCtx) (units : List (List Byte)) (r : PicParse) :
    (s.takePicture c b a3 units r).Inv := by
  unfold State.takePicture
  repeat' (with_reducible first
    | assumption | apply State.onCtx_inv | apply State.countErrors_inv | apply State.takeSeq_inv | apply State.raise_inv
    | apply State.decoded_inv | (split <;> try dsimp only))

theorem State.partDone_inv {s : State} (hs : s.Inv) (n : Nat) (i : CodecItem) (a3 : VidCtx) (errors : Nat) :
    (s.partDone n i a3 errors).1.Inv := by
  unfold State.partDone
  repeat' (with_reducible first | assumption | apply State.onCtx_inv | apply State.freeCore_inv)

theorem State.mediaFail_inv {s : State} (hs : s.Inv) (c : Nat) (a2 : VidCtx) (f : Fail) : (s.mediaFail c a2 f).Inv := by
  unfold State.mediaFail
  repeat' (with_reducible first | assumption | apply State.onCtx_inv | apply State.failDesc_inv | (split <;> try dsimp only))

theorem execPictureDone_inv (n : Nat) {s : State} (hs : s.Inv) : ∃ t', execPictureDone n s = .next t' ∧ t'.Inv := by
  refine ⟨_, rfl, ?_⟩
  repeat' (with_reducible first
    | assumption | apply State.mediaFail_inv | apply State.freeCore_inv | apply State.partDone_inv | apply State.onCtx_inv
    | apply State.takePicture_inv | apply State.endUnit_inv | apply State.progress_inv | apply State.goDec_inv
    | apply State.postCtx_inv | (split <;> try dsimp only))

theorem execPoolWait_inv (c : Nat) {s : State} (hs : s.Inv) : ∃ t', execPoolWait c s = .next t' ∧ t'.Inv := by
  refine ⟨_, rfl, ?_⟩
  repeat' (with_reducible first | assumption | apply State.raise_inv | apply State.onCtx_inv | (split <;> try dsimp only))

theorem State.writeCarousel_inv {s : State} (hs : s.Inv) (v : Nat) : (s.writeCarousel v).Inv := by
  unfold State.writeCarousel
  repeat' (with_reducible first
    | assumption | apply State.Inv.fold | (simp only [State.inv_mk]) | exact fun h => h | (split <;> try dsimp only))

theorem execCarouselWrite_inv (v : Word) {s : State} (hs : s.Inv) : ∃ t', execCarouselWrite v s = .next t' ∧ t'.Inv := by
  refine ⟨_, rfl, ?_⟩
  repeat' (with_reducible first
    | assumption | apply State.writeCarousel_inv | apply State.wakeDeep_inv | (split <;> try dsimp only))

theorem State.sendUnit_inv {s : State} (hs : s.Inv) (c pts : Nat) (payload : List Byte) : (s.sendUnit c pts payload).Inv := by
  unfold State.sendUnit
  repeat' (with_reducible first
    | assumption | apply State.onChan_inv | apply State.txFrame_inv | apply State.foldl_inv
    | (intro _; intros; try dsimp only))

theorem State.drainUnits_inv {s : State} (hs : s.Inv) (c n : Nat) : (s.drainUnits c n).Inv := by
  revert s
  induction n with
  | zero => exact fun hs => hs
  | succ n ih =>
    intro s hs
    unfold State.drainUnits
    dsimp only
    repeat' (with_reducible first
    | apply ih | apply State.tryWriteVa_inv | apply State.sendUnit_inv | apply State.onCtx_inv | apply State.putUnitRec_inv
    | assumption | (split <;> try dsimp only))

theorem State.fillPool_inv {s : State} (hs : s.Inv) (c : Nat) : (s.fillPool c).Inv := by
  unfold State.fillPool
  repeat' (with_reducible first
    | assumption | apply State.mediaFail_inv | apply State.onCtx_inv | apply State.spoil_inv | (split <;> try dsimp only))

theorem State.settleEnc_inv {s : State} (hs : s.Inv) (c n : Nat) : (s.settleEnc c n).Inv := by
  revert s
  induction n with
  | zero => exact fun hs => hs
  | succ n ih =>
    intro s hs
    unfold State.settleEnc
    dsimp only
    repeat' (with_reducible first
    | apply ih | apply State.mediaDone_inv | apply State.fillPool_inv | apply State.onCtx_inv | assumption
    | (split <;> try dsimp only))

theorem State.goEnc_inv {s : State} (hs : s.Inv) (c : Nat) : (s.goEnc c).Inv := by
  unfold State.goEnc
  repeat' (with_reducible first
    | assumption | apply State.settleEnc_inv | apply State.drainUnits_inv | apply State.fillPool_inv
    | (split <;> try dsimp only))

theorem execEncode_inv (d : DescRef) {s : State} (hs : s.Inv) : ∃ t', execEncode d s = .next t' ∧ t'.Inv := by
  refine ⟨_, rfl, ?_⟩
  repeat' (with_reducible first
    | assumption | apply State.startDesc_inv | apply State.makeCtx_inv | apply State.goEnc_inv | apply State.onCtx_inv
    | (intro _; intros; try dsimp only))

theorem execEncodeUnitDone_inv (n : Nat) {s : State} (hs : s.Inv) : ∃ t', execEncodeUnitDone n s = .next t' ∧ t'.Inv := by
  refine ⟨_, rfl, ?_⟩
  repeat' (with_reducible first
    | assumption | apply State.partDone_inv | apply State.onCtx_inv | apply State.progress_inv | apply State.goEnc_inv
    | (split <;> try dsimp only))

theorem execReadIdxPoll_inv (c : Nat) {s : State} (hs : s.Inv) : ∃ t', execReadIdxPoll c s = .next t' ∧ t'.Inv := by
  refine ⟨_, rfl, ?_⟩
  repeat' (with_reducible first
    | assumption | apply State.goEnc_inv | apply State.goDec_inv | apply State.pollRead_inv | (split <;> try dsimp only))

/-! ### Collective -/

theorem execGroupSet_inv (d : DescRef) {s : State} (hs : s.Inv) : ∃ t', execGroupSet d s = .next t' ∧ t'.Inv := by
  refine ⟨_, rfl, ?_⟩
  repeat' (with_reducible first
    | assumption | apply State.runDesc_inv | apply okDone_inv | apply State.onPart_inv | apply State.spoilFor_inv
    | apply okSat.bind | refine ⟨?_, ?_, ?_⟩ | (intro _; intros; try dsimp only))

theorem State.enterRing_inv {s : State} (hs : s.Inv) (p : Nat) (d : Desc) : (s.enterRing p d).Inv := by
  unfold State.enterRing
  repeat' (with_reducible first | assumption | apply State.onPart_inv)

theorem State.runReduction_inv {s : State} (hs : s.Inv) (p : Nat) (d : Desc) (bl : List Byte) (fmt base : Nat) (xs : List
    (List Nat)) : okSat (fun r => r.1.Inv) (s.runReduction p d bl fmt base xs) := by
  unfold State.runReduction
  dsimp only
  repeat' (with_reducible first | assumption | apply State.putOuts_inv | (split <;> try dsimp only))

theorem State.runColl_inv (peers : List RankMsg) {s : State} (hs : s.Inv) (p : Nat) (d : Desc) : okSat (fun r => r.1.Inv)
    (State.runColl peers s p d) := by
  unfold State.runColl
  repeat' (with_reducible first
    | assumption | apply State.enterRing_inv | apply State.runReduction_inv | apply State.putOuts_inv | apply okSat.ok
    | apply okSat.error | apply okSat.bind | (intro _; intros; try dsimp only) | (split <;> try dsimp only))

theorem State.collective_inv {s : State} (hs : s.Inv) (r : DescRef) (op : Nat) (peers : List RankMsg) :
    (s.collective r op peers).Inv := by
  unfold State.collective
  repeat' (with_reducible first
    | assumption | apply State.runDesc_inv | apply State.enterRing_inv | apply State.runColl_inv | apply State.spoilFor_inv
    | refine ⟨?_, ?_, ?_⟩ | (intro _; intros; try dsimp only) | (split <;> try dsimp only))

theorem execAllReduce_inv (d : DescRef) (peers : List RankMsg) {s : State} (hs : s.Inv)
    : ∃ t', execAllReduce d peers s = .next t' ∧ t'.Inv := by
  refine ⟨_, rfl, ?_⟩
  repeat' (with_reducible first | assumption | apply State.collective_inv)

theorem execReduceScatter_inv (d : DescRef) (peers : List RankMsg) {s : State} (hs : s.Inv)
    : ∃ t', execReduceScatter d peers s = .next t' ∧ t'.Inv := by
  refine ⟨_, rfl, ?_⟩
  repeat' (with_reducible first | assumption | apply State.collective_inv)

theorem execAllGather_inv (d : DescRef) (peers : List RankMsg) {s : State} (hs : s.Inv)
    : ∃ t', execAllGather d peers s = .next t' ∧ t'.Inv := by
  refine ⟨_, rfl, ?_⟩
  repeat' (with_reducible first | assumption | apply State.collective_inv)

theorem execAllToAll_inv (d : DescRef) (peers : List RankMsg) {s : State} (hs : s.Inv)
    : ∃ t', execAllToAll d peers s = .next t' ∧ t'.Inv := by
  refine ⟨_, rfl, ?_⟩
  repeat' (with_reducible first | assumption | apply State.collective_inv)

theorem execBroadcast_inv (d : DescRef) (peers : List RankMsg) {s : State} (hs : s.Inv)
    : ∃ t', execBroadcast d peers s = .next t' ∧ t'.Inv := by
  refine ⟨_, rfl, ?_⟩
  repeat' (with_reducible first | assumption | apply State.collective_inv)

/-! ### Regs -/

theorem State.atReset_inv {s : State} (hs : s.Inv) (p : Nat) : (s.atReset p).Inv := by
  unfold State.atReset
  repeat' (with_reducible first | assumption | apply State.onPart_inv)

theorem State.writeCfg_inv {s : State} (hs : s.Inv) (fn : Nat) (r : CfgReg) (v : Nat) : (s.writeCfg fn r v).Inv := by
  unfold State.writeCfg
  repeat' (with_reducible first
    | assumption | apply State.unmask_inv | apply State.foldl_inv | apply State.Inv.fold | (simp only [State.inv_mk])
    | (intro _; intros; try dsimp only) | (split <;> try dsimp only))

theorem execConfigurationRequest_inv (fn : Nat) (r : CfgReq) {s : State} (hs : s.Inv)
    : ∃ t', execConfigurationRequest fn r s = .next t' ∧ t'.Inv := by
  refine ⟨_, rfl, ?_⟩
  repeat' (with_reducible first
    | assumption | apply State.writeCfg_inv | apply State.Inv.fold | (simp only [State.inv_mk]) | exact fun h => h
    | (split <;> try dsimp only))

theorem State.early_inv {s : State} (hs : s.Inv) : (s.early).Inv := by
  unfold State.early
  repeat' (with_reducible first
    | assumption | apply State.restart_inv | apply State.Inv.fold | (simp only [State.inv_mk]) | exact fun h => h)

/-! ### Writes -/

theorem State.writeMonCfg_inv {s : State} (hs : s.Inv) (v : Nat) : (s.writeMonCfg v).Inv := by
  unfold State.writeMonCfg
  repeat' (with_reducible first | assumption | apply State.Inv.fold | (simp only [State.inv_mk]) | exact fun h => h)

theorem State.writeFldCfg_inv {s : State} (hs : s.Inv) (n v : Nat) : (s.writeFldCfg n v).Inv := by
  unfold State.writeFldCfg
  repeat' (with_reducible first
    | assumption | apply State.fieldLink_inv | apply State.Inv.fold | (simp only [State.inv_mk]) | exact fun h => h
    | (split <;> try dsimp only))

theorem State.writeSec_inv {s : State} (hs : s.Inv) (off v : Nat) : (s.writeSec off v).Inv := by
  unfold State.writeSec
  repeat' (with_reducible first
    | assumption | apply State.Inv.fold | (simp only [State.inv_mk]) | exact fun h => h | (split <;> try dsimp only))

theorem State.setHealth_inv {s : State} (hs : s.Inv) (ok : Bool) (f : Health → Health) : (s.setHealth ok f).Inv := by
  unfold State.setHealth
  repeat' (with_reducible first
    | assumption | apply State.Inv.fold | (simp only [State.inv_mk]) | exact fun h => h | (split <;> try dsimp only))

theorem State.writeHlt_inv {s : State} (hs : s.Inv) (off v : Nat) : (s.writeHlt off v).Inv := by
  unfold State.writeHlt
  repeat' (with_reducible first
    | assumption | apply State.setHealth_inv | apply State.writeHltReset_inv | apply State.writeExpel_inv
    | (split <;> try dsimp only))

theorem State.writeTile_inv {s : State} (hs : s.Inv) (off v : Nat) : (s.writeTile off v).Inv := by
  unfold State.writeTile
  repeat' (with_reducible first | assumption | apply State.onTile_inv | (split <;> try dsimp only))

theorem State.writeFab_inv {s : State} (hs : s.Inv) (off v : Nat) : (s.writeFab off v).Inv := by
  unfold State.writeFab
  repeat' (with_reducible first
    | assumption | apply State.writeRateBase_inv | apply State.writeRateCtrl_inv | apply State.Inv.fold
    | (simp only [State.inv_mk]) | exact fun h => h | (split <;> try dsimp only))

theorem State.setWatts_inv {s : State} (hs : s.Inv) (v : Nat) (f : Power → Nat → Power) : (s.setWatts v f).Inv := by
  unfold State.setWatts
  repeat' (with_reducible first
    | assumption | apply State.resolveLevels_inv | apply State.Inv.fold | (simp only [State.inv_mk]) | exact fun h => h
    | (split <;> try dsimp only))

theorem State.writePwr_inv {s : State} (hs : s.Inv) (off v : Nat) : (s.writePwr off v).Inv := by
  unfold State.writePwr
  repeat' (with_reducible first
    | assumption | apply State.setWatts_inv | apply State.Inv.fold | (simp only [State.inv_mk]) | exact fun h => h
    | (split <;> try dsimp only))

theorem State.setThermal_inv {s : State} (hs : s.Inv) (ok : Bool) (f : Thermal → Thermal) : (s.setThermal ok f).Inv := by
  unfold State.setThermal
  repeat' (with_reducible first
    | assumption | apply State.Inv.fold | (simp only [State.inv_mk]) | exact fun h => h | (split <;> try dsimp only))

theorem State.writeThm_inv {s : State} (hs : s.Inv) (off v : Nat) : (s.writeThm off v).Inv := by
  unfold State.writeThm
  repeat' (with_reducible first
    | assumption | apply State.setThermal_inv | apply State.checkBudget_inv | apply State.writeThmEvents_inv
    | apply State.foldl_inv | (intro _; intros; try dsimp only) | (split <;> try dsimp only))

/-- A new scrub interval leaves the bytes as they are. -/
theorem MemSys.repace_cells (m : MemSys) (now h : Nat) : (m.repace now h).cells = m.cells := rfl

theorem State.writeMem_inv {s : State} (hs : s.Inv) (off v : Nat) : (s.writeMem off v).Inv := by
  unfold State.writeMem
  split
  · split
    · exact ⟨by rw [MemSys.repace_cells]; exact hs.1, hs.2⟩
    · exact hs
  split
  · split <;> exact hs
  · exact hs

theorem State.writeLnk_inv {s : State} (hs : s.Inv) (off v : Nat) : (s.writeLnk off v).Inv := by
  unfold State.writeLnk
  repeat' (with_reducible first
    | assumption | apply State.writePortCfg_inv | apply State.writePair_inv | apply State.writePairCfg_inv
    | apply State.writePairCtrl_inv | (split <;> try dsimp only))

theorem State.writeGlobal_inv {s : State} (hs : s.Inv) (off v : Nat) : (s.writeGlobal off v).Inv := by
  unfold State.writeGlobal
  repeat' (with_reducible first
    | assumption | apply State.writePtmCtrl_inv | apply State.writeMonCfg_inv | apply State.writeFldCfg_inv
    | apply State.writePtpCtrl_inv | apply State.writeCarousel_inv | apply State.writeSec_inv | apply State.writeHlt_inv
    | apply State.writeTile_inv | apply State.writeFab_inv | apply State.writePwr_inv | apply State.writeThm_inv
    | apply State.writeMem_inv | apply State.writeLnk_inv | (split <;> try dsimp only))

theorem State.writeDbBase_inv {s : State} (hs : s.Inv) (p : Nat) (hi : Bool) (v : Nat) : (s.writeDbBase p hi v).Inv := by
  unfold State.writeDbBase
  repeat' (with_reducible first
    | assumption | apply State.onHost_inv | apply State.hostWriteAs_inv | apply State.postPresence_inv
    | (split <;> try dsimp only))

theorem State.writeRing_inv {s : State} (hs : s.Inv) (p off v : Nat) : (s.writeRing p off v).Inv := by
  unfold State.writeRing
  repeat' (with_reducible first
    | exact hs
    | exact State.nudge_inv hs _
    | exact State.writeDbBase_inv hs _ _ _
    | exact State.onHost_inv hs _ _
    | exact State.onEvt_inv hs _ _
    | exact State.writeEvtCfg_inv hs _ _
    | apply State.ite_inv)

theorem State.writeFixed_inv {s : State} (hs : s.Inv) (p v : Nat) (virt : Bool) : (s.writeFixed p v virt).Inv := by
  unfold State.writeFixed
  repeat' (with_reducible first
    | assumption | apply State.onPart_inv | apply State.onDom_inv | apply State.foldl_inv | (intro _; intros; try dsimp only)
    | (split <;> try dsimp only))

theorem State.writePartMem_inv {s : State} (hs : s.Inv) (p off v : Nat) : (s.writePartMem p off v).Inv := by
  unfold State.writePartMem
  repeat' (with_reducible first
    | assumption | apply State.writeRateBase_inv | apply State.writeRateCtrl_inv | apply State.writePtRootLo_inv
    | apply State.writePtRootHi_inv | apply State.startInval_inv | apply State.onPart_inv | (split <;> try dsimp only))

theorem State.setDump_inv {s : State} (hs : s.Inv) (p : Nat) (ok : Bool) (f : PartHlt → PartHlt) : (s.setDump p ok f).Inv := by
  unfold State.setDump
  repeat' (with_reducible first | assumption | apply State.onPart_inv | (split <;> try dsimp only))

theorem State.writePartHlt_inv {s : State} (hs : s.Inv) (p off v : Nat) : (s.writePartHlt p off v).Inv := by
  unfold State.writePartHlt
  repeat' (with_reducible first | assumption | apply State.setDump_inv | apply State.onPart_inv | (split <;> try dsimp only))

theorem State.writeSq_inv {s : State} (hs : s.Inv) (p q o v : Nat) : (s.writeSq p q o v).Inv := by
  unfold State.writeSq
  repeat' (with_reducible first | assumption | apply State.onSq_inv | apply State.writeSqCfg_inv | (split <;> try dsimp only))

theorem State.writeCq_inv {s : State} (hs : s.Inv) (p c o v : Nat) : (s.writeCq p c o v).Inv := by
  unfold State.writeCq
  repeat' (with_reducible first | assumption | apply State.onCq_inv | apply State.writeCqCfg_inv | (split <;> try dsimp only))

theorem State.writeMsix_inv {s : State} (hs : s.Inv) (p i o v : Nat) : (s.writeMsix p i o v).Inv := by
  unfold State.writeMsix
  repeat' (with_reducible first | assumption | apply State.onHost_inv | apply State.unmask_inv)

theorem State.writePage_inv {s : State} (hs : s.Inv) (p off v : Nat) (virt : Bool) : (s.writePage p off v virt).Inv := by
  unfold State.writePage
  repeat' (with_reducible first
    | assumption | apply State.writeFixed_inv | apply State.writeRing_inv | apply State.writePartMem_inv
    | apply State.writePartHlt_inv | apply State.writeSq_inv | apply State.writeCq_inv | apply State.writeMsix_inv
    | (split <;> try dsimp only))

theorem State.writeBar0_inv {s : State} (hs : s.Inv) (fn off v : Nat) : (s.writeBar0 fn off v).Inv := by
  unfold State.writeBar0
  repeat' (with_reducible first
    | assumption | apply State.wakeDeep_inv | apply State.writeGlobal_inv | apply State.writePage_inv
    | (split <;> try dsimp only))

theorem execRegisterWrite_inv (fn off : Nat) (v : Word) {s : State} (hs : s.Inv)
    : ∃ t', execRegisterWrite fn off v s = .next t' ∧ t'.Inv := by
  refine ⟨_, rfl, ?_⟩
  repeat' (with_reducible first | assumption | apply State.writeBar0_inv)

theorem execSealWrite_inv {s : State} (hs : s.Inv) : ∃ t', execSealWrite s = .next t' ∧ t'.Inv := by
  refine ⟨_, rfl, ?_⟩
  repeat' (with_reducible first | assumption | apply State.writeBar0_inv)

/-! ### Firmware -/

theorem State.onFw_inv {s : State} (hs : s.Inv) (t : Nat) (f : FwTarget → FwTarget) : (s.onFw t f).Inv := by
  unfold State.onFw
  repeat' (with_reducible first | assumption | apply State.Inv.fold | (simp only [State.inv_mk]) | exact fun h => h)

theorem State.fwOpen_inv {s : State} (hs : s.Inv) (d : Desc) : (s.fwOpen d).Inv := by
  unfold State.fwOpen
  repeat' (with_reducible first | assumption | apply State.onFw_inv)

theorem State.fwStage_inv {s : State} (hs : s.Inv) (r : HostRead) (d : Desc) : okSat (fun r => r.1.Inv) (s.fwStage r d) := by
  unfold State.fwStage
  repeat' (with_reducible first
    | assumption | apply State.onFw_inv | apply State.raise_inv | apply okSat.ok | apply okSat.error
    | (split <;> try dsimp only))

theorem execFwStage_inv (d : DescRef) (k : HostRead) {s : State} (hs : s.Inv)
    : ∃ t', execFwStage d k s = .next t' ∧ t'.Inv := by
  refine ⟨_, rfl, ?_⟩
  repeat' (with_reducible first
    | assumption | apply State.fwOpen_inv | apply State.fwStage_inv | apply State.spoilFor_inv | apply State.runDesc_inv
    | apply State.noteHostRead_inv | refine ⟨?_, ?_, ?_⟩ | (intro _; intros; try dsimp only) | (split <;> try dsimp only))

theorem execFwActivate_inv (d : DescRef) {s : State} (hs : s.Inv) : ∃ t', execFwActivate d s = .next t' ∧ t'.Inv := by
  refine ⟨_, rfl, ?_⟩
  repeat' (with_reducible first
    | assumption | apply State.startDesc_inv | apply State.onFw_inv | apply State.raise_inv | apply State.restartSteward_inv
    | apply State.complete_inv | (intro _; intros; try dsimp only) | (split <;> try dsimp only))

end Sys2Proof.Machine
end

