-- ==== Sys2Proof/Laws/Inv5.lean ====
section
/-! SUPPORT. Every operation and meaning of these files of Machine keeps the memories in canonical form (`State.Inv`): Trust, Console, Startup, Monitor, Chain, Checkpoint, Keys, Sampling, Scale, Models. -/

namespace Sys2Proof.Machine

/-! ### Trust -/

theorem State.doe_inv {s : State} (hs : s.Inv) (p : Nat) (bytes : List Byte) : (s.doe p bytes).Inv := by
  unfold State.doe
  repeat' (with_reducible first | assumption | apply State.onSec_inv)

theorem State.endSession_inv {s : State} (hs : s.Inv) (p : Nat) : (s.endSession p).Inv := by
  unfold State.endSession
  repeat' (with_reducible first
    | assumption | apply State.onSec_inv | apply State.loseAdmission_inv | (split <;> try dsimp only))

theorem State.openSession_inv {s : State} (hs : s.Inv) (p : Nat) : (s.openSession p).Inv := by
  unfold State.openSession
  repeat' (with_reducible first | assumption | apply State.tick_inv | apply State.onSec_inv)

theorem State.getMeasurements_inv {s : State} (hs : s.Inv) (p index : Nat) : (s.getMeasurements p index).Inv := by
  unfold State.getMeasurements
  repeat' (with_reducible first | assumption | apply State.doe_inv | apply State.onSec_inv | (split <;> try dsimp only))

theorem State.spdm_inv {s : State} (hs : s.Inv) (p : Nat) (m : SpdmMsg) : (s.spdm p m).Inv := by
  unfold State.spdm
  repeat' (with_reducible first
    | assumption | apply State.doe_inv | apply State.getMeasurements_inv | apply State.onSec_inv | apply State.openSession_inv
    | apply State.tick_inv | apply State.endSession_inv | (split <;> try dsimp only))

theorem execSpdmRequest_inv (fn : Nat) (m : SpdmMsg) {s : State} (hs : s.Inv)
    : ∃ t', execSpdmRequest fn m s = .next t' ∧ t'.Inv := by
  refine ⟨_, rfl, ?_⟩
  repeat' (with_reducible first | assumption | apply State.spdm_inv | (split <;> try dsimp only))

theorem execSpdmHeartbeatMiss_inv (fn : Nat) {s : State} (hs : s.Inv)
    : ∃ t', execSpdmHeartbeatMiss fn s = .next t' ∧ t'.Inv := by
  refine ⟨_, rfl, ?_⟩
  repeat' (with_reducible first | assumption | apply State.endSession_inv | (split <;> try dsimp only))

theorem State.setTdi_inv {s : State} (hs : s.Inv) (p : Nat) (t : Tdi) : (s.setTdi p t).Inv := by
  unfold State.setTdi
  repeat' (with_reducible first | assumption | apply State.onSec_inv)

theorem execLockInterface_inv (p : Nat) {s : State} (hs : s.Inv) : ∃ t', execLockInterface p s = .next t' ∧ t'.Inv := by
  refine ⟨_, rfl, ?_⟩
  repeat' (with_reducible first | assumption | apply State.doe_inv | apply State.onSec_inv | (split <;> try dsimp only))

theorem execGetDeviceInterfaceReport_inv (p : Nat) {s : State} (hs : s.Inv)
    : ∃ t', execGetDeviceInterfaceReport p s = .next t' ∧ t'.Inv := by
  refine ⟨_, rfl, ?_⟩
  repeat' (with_reducible first | assumption | apply State.doe_inv | (split <;> try dsimp only))

theorem execStartInterface_inv (p : Nat) {s : State} (hs : s.Inv) : ∃ t', execStartInterface p s = .next t' ∧ t'.Inv := by
  refine ⟨_, rfl, ?_⟩
  repeat' (with_reducible first | assumption | apply State.doe_inv | apply State.setTdi_inv | (split <;> try dsimp only))

theorem execStopInterface_inv (p : Nat) {s : State} (hs : s.Inv) : ∃ t', execStopInterface p s = .next t' ∧ t'.Inv := by
  refine ⟨_, rfl, ?_⟩
  repeat' (with_reducible first
    | assumption | apply State.doe_inv | apply State.setTdi_inv | apply State.loseAdmission_inv | (split <;> try dsimp only))

theorem execIdeKm_inv (fn : Nat) {s : State} (hs : s.Inv) : ∃ t', execIdeKm fn s = .next t' ∧ t'.Inv := by
  refine ⟨_, rfl, ?_⟩
  repeat' (with_reducible first | assumption | apply State.onSec_inv | (split <;> try dsimp only))

theorem execIdeTlpFailure_inv (fn : Nat) {s : State} (hs : s.Inv) : ∃ t', execIdeTlpFailure fn s = .next t' ∧ t'.Inv := by
  refine ⟨_, rfl, ?_⟩
  repeat' (with_reducible first
    | assumption | apply State.setTdi_inv | apply State.loseAdmission_inv | (split <;> try dsimp only))

theorem State.answerMail_inv {s : State} (hs : s.Inv) (op seq : Nat) (ok : Bool) : (s.answerMail op seq ok).Inv := by
  unfold State.answerMail
  repeat' (with_reducible first | assumption | apply State.Inv.fold | (simp only [State.inv_mk]) | exact fun h => h)

theorem State.mailbox_inv {s : State} (hs : s.Inv) (op seq : Nat) (act : Option State) (ha : someSat State.Inv act) :
    (s.mailbox op seq act).Inv := by
  unfold State.mailbox
  split
  · exact State.answerMail_inv (someSat.state ha rfl) _ _ _
  · exact State.answerMail_inv hs _ _ _

theorem State.mailPower_inv {s : State} (hs : s.Inv) (k : Nat) (code : Option Nat) (st : Option PState) : someSat State.Inv
    (s.mailPower k code st) := by
  unfold State.mailPower
  repeat' (with_reducible first
    | assumption | apply State.onDom_inv | apply State.wantDom_inv | apply State.noteClamp_inv | apply State.resolveLevels_inv
    | apply someSat.some | apply someSat.none | (split <;> try dsimp only))

theorem execMailboxSetPower_inv (seq k : Nat) (code : Option Nat) (st : Option PState) {s : State} (hs : s.Inv) :
    ∃ t', execMailboxSetPower seq k code st s = .next t' ∧ t'.Inv := by
  refine ⟨_, rfl, ?_⟩
  repeat' (with_reducible first | apply State.mailbox_inv | assumption | apply State.mailPower_inv | (split <;> try dsimp only))

theorem State.mailUnit_inv {s : State} (hs : s.Inv) (act : MailAct) (kind unit failed : Nat) : someSat State.Inv
    (s.mailUnit act kind unit failed) := by
  unfold State.mailUnit
  repeat' (with_reducible first
    | assumption | apply State.fenceUnit_inv | apply State.unfence_inv | apply State.roundPassed_inv
    | apply State.requestReset_inv | apply someSat.some | apply someSat.none | (split <;> try dsimp only))

theorem State.mailRound_inv {s : State} (hs : s.Inv) (act : MailAct) (kind unit failed : Nat) :
    (s.mailRound act kind unit failed).Inv := by
  unfold State.mailRound
  repeat' (with_reducible first | assumption | apply State.roundFailed_inv | (split <;> try dsimp only))

theorem execMailboxFenceReset_inv (seq : Nat) (act : MailAct) (kind unit failed : Nat) {s : State} (hs : s.Inv) :
    ∃ t', execMailboxFenceReset seq act kind unit failed s = .next t' ∧ t'.Inv := by
  refine ⟨_, rfl, ?_⟩
  repeat' (with_reducible first
    | apply State.mailbox_inv | assumption | apply State.mailRound_inv | apply State.mailUnit_inv | (split <;> try dsimp only))

theorem execMailboxChannelFilter_inv (seq p chan : Nat) (filter : List Byte) {s : State} (hs : s.Inv) :
    ∃ t', execMailboxChannelFilter seq p chan filter s = .next t' ∧ t'.Inv := by
  refine ⟨_, rfl, ?_⟩
  repeat' (with_reducible first
    | apply State.mailbox_inv | apply someSat.some | apply someSat.none | assumption | apply State.Inv.fold
    | (simp only [State.inv_mk]) | exact fun h => h | (split <;> try dsimp only))

theorem execMailboxReadSensors_inv (seq off : Nat) {s : State} (hs : s.Inv) :
    ∃ t', execMailboxReadSensors seq off s = .next t' ∧ t'.Inv := by
  refine ⟨_, rfl, ?_⟩
  repeat' (with_reducible first
    | apply State.mailbox_inv | apply someSat.some | apply someSat.none | assumption | apply State.Inv.fold
    | (simp only [State.inv_mk]) | exact fun h => h | (split <;> try dsimp only))

theorem State.mailRecord_inv {s : State} (hs : s.Inv) (power : Bool) (r : List Byte) : someSat State.Inv
    (s.mailRecord power r) := by
  unfold State.mailRecord
  repeat' (with_reducible first
    | assumption | apply State.appendHealth_inv | apply someSat.some | apply someSat.none | apply someSat.map
    | apply State.Inv.fold | (simp only [State.inv_mk]) | (intro _; intros; try dsimp only) | (split <;> try dsimp only))

theorem execMailboxWriteRecord_inv (seq : Nat) (power : Bool) (r : List Byte) {s : State} (hs : s.Inv) :
    ∃ t', execMailboxWriteRecord seq power r s = .next t' ∧ t'.Inv := by
  refine ⟨_, rfl, ?_⟩
  repeat' (with_reducible first
    | apply State.mailbox_inv | assumption | apply State.mailRecord_inv | (split <;> try dsimp only))

theorem execMailboxDebugRead_inv (seq kind unit : Nat) (window : Bool) {s : State} (hs : s.Inv) :
    ∃ t', execMailboxDebugRead seq kind unit window s = .next t' ∧ t'.Inv := by
  refine ⟨_, rfl, ?_⟩
  repeat' (with_reducible first
    | apply State.mailbox_inv | apply someSat.some | apply someSat.none | assumption | apply State.Inv.fold
    | (simp only [State.inv_mk]) | exact fun h => h | (split <;> try dsimp only))

theorem execStewardHeartbeatLoss_inv {s : State} (hs : s.Inv) : ∃ t', execStewardHeartbeatLoss s = .next t' ∧ t'.Inv := by
  refine ⟨_, rfl, ?_⟩
  repeat' (with_reducible first | assumption | apply State.restartSteward_inv | (split <;> try dsimp only))

/-! ### Console -/

theorem State.drain_inv {s : State} (hs : s.Inv) : (s.drain).Inv := by
  unfold State.drain
  repeat' (with_reducible first | assumption | apply State.Inv.fold | (simp only [State.inv_mk]) | exact fun h => h)

theorem State.onSession_inv {s : State} (hs : s.Inv) (relay : Bool) (f : Session → Session) : (s.onSession relay f).Inv := by
  unfold State.onSession
  repeat' (with_reducible first | assumption | apply State.Inv.fold | (simp only [State.inv_mk]) | exact fun h => h)

theorem State.monitorAlert_inv {s : State} (hs : s.Inv) : (s.monitorAlert).Inv := by
  unfold State.monitorAlert
  repeat' (with_reducible first
    | assumption | apply State.alert_inv | apply State.Inv.fold | (simp only [State.inv_mk]) | exact fun h => h
    | (split <;> try dsimp only))

theorem State.say_inv {s : State} (hs : s.Inv) (relay : Bool) (bs : List Byte) : (s.say relay bs).Inv := by
  unfold State.say
  repeat' (with_reducible first
    | assumption | apply State.onSession_inv | apply State.monitorAlert_inv | (split <;> try dsimp only))

theorem State.respond_inv {s : State} (hs : s.Inv) (relay : Bool) (lines : List (List Byte)) (final : Option Nat) :
    (s.respond relay lines final).Inv := by
  unfold State.respond
  repeat' (with_reducible first | assumption | apply State.say_inv)

theorem State.banner_inv {s : State} (hs : s.Inv) : (s.banner).Inv := by
  unfold State.banner
  repeat' (with_reducible first | assumption | apply State.say_inv | (split <;> try dsimp only))

theorem State.lineDone_inv {s : State} (hs : s.Inv) (relay : Bool) : (s.lineDone relay).Inv := by
  unfold State.lineDone
  dsimp only
  repeat' (with_reducible first
    | assumption | apply State.onSession_inv | apply State.respond_inv | apply State.say_inv | (split <;> try dsimp only))

theorem State.typed_inv {s : State} (hs : s.Inv) (relay : Bool) (b : Byte) : (s.typed relay b).Inv := by
  unfold State.typed
  repeat' (with_reducible first
    | assumption | apply State.say_inv | apply State.onSession_inv | apply State.lineDone_inv | (split <;> try dsimp only))

theorem execUartByteReceive_inv (b : Byte) {s : State} (hs : s.Inv) : ∃ t', execUartByteReceive b s = .next t' ∧ t'.Inv := by
  refine ⟨_, rfl, ?_⟩
  repeat' (with_reducible first
    | assumption | apply State.drain_inv | apply State.typed_inv | apply State.Inv.fold | (simp only [State.inv_mk])
    | exact fun h => h | (split <;> try dsimp only))

theorem execUartBreak_inv (ms : Nat) {s : State} (hs : s.Inv) : ∃ t', execUartBreak ms s = .next t' ∧ t'.Inv := by
  refine ⟨_, rfl, ?_⟩
  repeat' (with_reducible first
    | assumption | apply State.drain_inv | apply State.Inv.fold | (simp only [State.inv_mk]) | exact fun h => h
    | (split <;> try dsimp only))

theorem execBaudIdleRevert_inv {s : State} (hs : s.Inv) : ∃ t', execBaudIdleRevert s = .next t' ∧ t'.Inv := by
  refine ⟨_, rfl, ?_⟩
  repeat' (with_reducible first
    | assumption | apply State.drain_inv | apply State.Inv.fold | (simp only [State.inv_mk]) | exact fun h => h
    | (split <;> try dsimp only))

theorem execEngineerIdleLapse_inv (relay : Bool) {s : State} (hs : s.Inv)
    : ∃ t', execEngineerIdleLapse relay s = .next t' ∧ t'.Inv := by
  refine ⟨_, rfl, ?_⟩
  repeat' (with_reducible first | assumption | apply State.onSession_inv | (split <;> try dsimp only))

theorem execChallengeLapse_inv {s : State} (hs : s.Inv) : ∃ t', execChallengeLapse s = .next t' ∧ t'.Inv := by
  refine ⟨_, rfl, ?_⟩
  repeat' (with_reducible first
    | assumption | apply State.Inv.fold | (simp only [State.inv_mk]) | exact fun h => h | (split <;> try dsimp only))

theorem execAuthLockoutEnd_inv {s : State} (hs : s.Inv) : ∃ t', execAuthLockoutEnd s = .next t' ∧ t'.Inv := by
  refine ⟨_, rfl, ?_⟩
  repeat' (with_reducible first
    | assumption | apply State.Inv.fold | (simp only [State.inv_mk]) | exact fun h => h | (split <;> try dsimp only))

theorem execMonitorOutputStall_inv (relay : Bool) {s : State} (hs : s.Inv)
    : ∃ t', execMonitorOutputStall relay s = .next t' ∧ t'.Inv := by
  refine ⟨_, rfl, ?_⟩
  repeat' (with_reducible first | assumption | apply State.drain_inv | apply State.onSession_inv | (split <;> try dsimp only))

theorem execStewardRestartDone_inv {s : State} (hs : s.Inv) : ∃ t', execStewardRestartDone s = .next t' ∧ t'.Inv := by
  refine ⟨_, rfl, ?_⟩
  repeat' (with_reducible first
    | assumption | apply State.drain_inv | apply State.banner_inv | apply State.Inv.fold | (simp only [State.inv_mk])
    | exact fun h => h | (split <;> try dsimp only))

/-! ### Startup -/

theorem State.hold_inv {s : State} (hs : s.Inv) (code : Nat) (data : List Byte) : (s.hold code data).Inv := by
  unfold State.hold
  repeat' (with_reducible first
    | assumption | apply State.onEvt_inv | apply State.Inv.fold | (simp only [State.inv_mk]) | exact fun h => h
    | (split <;> try dsimp only))

theorem State.askReset_inv {s : State} (hs : s.Inv) : (s.askReset).Inv := by
  unfold State.askReset
  repeat' (with_reducible first
    | assumption | apply State.announceReset_inv | apply State.moduleReset_inv | (split <;> try dsimp only))

theorem execSvcReset_inv (us : Nat) {s : State} (hs : s.Inv) : ∃ t', execSvcReset us s = .next t' ∧ t'.Inv := by
  refine ⟨_, rfl, ?_⟩
  repeat' (with_reducible first
    | assumption | apply State.askReset_inv | apply State.Inv.fold | (simp only [State.inv_mk]) | exact fun h => h
    | (split <;> try dsimp only))

theorem execSvcResetRelease_inv {s : State} (hs : s.Inv) : ∃ t', execSvcResetRelease s = .next t' ∧ t'.Inv := by
  refine ⟨_, rfl, ?_⟩
  repeat' (with_reducible first | assumption | apply State.Inv.fold | (simp only [State.inv_mk]) | exact fun h => h)

theorem execGuardOwnWatchdog_inv (canSend : Bool) {s : State} (hs : s.Inv)
    : ∃ t', execGuardOwnWatchdog canSend s = .next t' ∧ t'.Inv := by
  refine ⟨_, rfl, ?_⟩
  repeat' (with_reducible first
    | assumption | apply State.announceReset_inv | apply State.moduleReset_inv | (split <;> try dsimp only))

theorem State.fellBack_inv {s : State} (hs : s.Inv) (target : Nat) : (s.fellBack target).Inv := by
  unfold State.fellBack
  repeat' (with_reducible first | assumption | apply State.hold_inv)

theorem State.layer_inv {s : State} (hs : s.Inv) : (s.layer).Inv := by
  unfold State.layer
  repeat' (with_reducible first | assumption | apply State.Inv.fold | (simp only [State.inv_mk]) | exact fun h => h)

theorem State.bootGuard_inv {s : State} (hs : s.Inv) : (s.bootGuard).Inv := by
  unfold State.bootGuard
  repeat' (with_reducible first
    | assumption | apply State.layer_inv | apply State.onFw_inv | apply State.fellBack_inv | apply State.alert_inv
    | apply State.Inv.fold | (simp only [State.inv_mk]) | exact fun h => h | (split <;> try dsimp only))

theorem execGuardBoot_inv (dv nodeDv : Nat) {s : State} (hs : s.Inv) : ∃ t', execGuardBoot dv nodeDv s = .next t' ∧ t'.Inv := by
  refine ⟨_, rfl, ?_⟩
  repeat' (with_reducible first
    | assumption | apply State.moduleReset_inv | apply State.setModule_inv | apply State.bootGuard_inv | apply State.Inv.fold
    | (simp only [State.inv_mk]) | exact fun h => h | (split <;> try dsimp only))

theorem execGuardWatchdog_inv {s : State} (hs : s.Inv) : ∃ t', execGuardWatchdog s = .next t' ∧ t'.Inv := by
  refine ⟨_, rfl, ?_⟩
  repeat' (with_reducible first | assumption | apply State.moduleReset_inv | (split <;> try dsimp only))

theorem execGuardImageRunning_inv {s : State} (hs : s.Inv) : ∃ t', execGuardImageRunning s = .next t' ∧ t'.Inv := by
  refine ⟨_, rfl, ?_⟩
  repeat' (with_reducible first
    | assumption | apply State.setModule_inv | apply State.Inv.fold | (simp only [State.inv_mk]) | exact fun h => h
    | (split <;> try dsimp only))

theorem State.startupEnds_inv {s : State} (hs : s.Inv) (st : ModSt) (cause : Nat) : (s.startupEnds st cause).Inv := by
  unfold State.startupEnds
  repeat' (with_reducible first
    | assumption | apply State.writeBack_inv | apply State.enterSafe_inv | apply State.reviewHealth_inv
    | apply State.setModule_inv | apply State.Inv.fold | (simp only [State.inv_mk]) | exact fun h => h
    | (split <;> try dsimp only))

theorem execFirstStewardHeartbeat_inv {s : State} (hs : s.Inv) : ∃ t', execFirstStewardHeartbeat s = .next t' ∧ t'.Inv := by
  refine ⟨_, rfl, ?_⟩
  repeat' (with_reducible first
    | assumption | apply State.tryTrain_inv | apply State.resolveLevels_inv | apply State.setModule_inv
    | apply State.foldl_inv | apply State.Inv.fold | (simp only [State.inv_mk]) | (intro _; intros; try dsimp only)
    | (split <;> try dsimp only))

theorem execStewardBootFallback_inv {s : State} (hs : s.Inv) : ∃ t', execStewardBootFallback s = .next t' ∧ t'.Inv := by
  refine ⟨_, rfl, ?_⟩
  repeat' (with_reducible first
    | assumption | apply State.onFw_inv | apply State.fellBack_inv | apply State.startupEnds_inv | apply State.Inv.fold
    | (simp only [State.inv_mk]) | exact fun h => h | (split <;> try dsimp only))

theorem execChannelTrainingDone_inv (ports bulk : Nat) {s : State} (hs : s.Inv)
    : ∃ t', execChannelTrainingDone ports bulk s = .next t' ∧ t'.Inv := by
  refine ⟨_, rfl, ?_⟩
  repeat' (with_reducible first
    | assumption | apply State.portLost_inv | apply State.setModule_inv | apply State.foldl_inv | apply State.Inv.fold
    | (simp only [State.inv_mk]) | (intro _; intros; try dsimp only) | (split <;> try dsimp only))

theorem State.liftFence_inv {s : State} (hs : s.Inv) (kind unit : Nat) : (s.liftFence kind unit).Inv := by
  unfold State.liftFence
  repeat' (with_reducible first
    | assumption | apply State.onUnit_inv | apply State.onTile_inv | apply State.zeroTile_inv | apply State.portBack_inv
    | apply State.hold_inv | (split <;> try dsimp only))

theorem State.passTile_inv {s : State} (hs : s.Inv) (t : Nat) (pass : Bool) : (s.passTile t pass).Inv := by
  unfold State.passTile
  repeat' (with_reducible first
    | assumption | apply State.roundPassed_inv | apply State.liftFence_inv | apply State.fenceUnit_inv
    | (split <;> try dsimp only))

theorem State.passSlice_inv {s : State} (hs : s.Inv) (i : Nat) (pass : Bool) : (s.passSlice i pass).Inv := by
  unfold State.passSlice
  repeat' (with_reducible first
    | assumption | apply State.roundPassed_inv | apply State.liftFence_inv | apply State.roundFailed_inv
    | (split <;> try dsimp only))

theorem execSelftestPassDone_inv (tiles : List Nat) (slices : List Nat) {s : State} (hs : s.Inv)
    : ∃ t', execSelftestPassDone tiles slices s = .next t' ∧ t'.Inv := by
  refine ⟨_, rfl, ?_⟩
  repeat' (with_reducible first
    | assumption | apply State.passTile_inv | apply State.passSlice_inv | apply State.resolveLevels_inv
    | apply State.startupEnds_inv | apply State.foldl_inv | (intro _; intros; try dsimp only) | (split <;> try dsimp only))

/-! ### Monitor -/

theorem plain_inv (args : List (List Byte)) {s : State} (hs : s.Inv) (lines : List (List Byte)) :
    (plain args s lines).1.Inv := by
  unfold plain
  repeat' (with_reducible first | assumption | (split <;> try dsimp only))

theorem State.acted_inv {s : State} (hs : s.Inv) : (s.acted).Inv := by
  unfold State.acted
  repeat' (with_reducible first | assumption | apply State.Inv.fold | (simp only [State.inv_mk]) | exact fun h => h)

theorem State.command_inv {s : State} (hs : s.Inv) (relay engineer : Bool) (mine : List (List Byte) → Bool) (act : List
    (List Byte) → State → Reply) (hact : ∀ (v0 : List (List Byte)) (v1 : State), v1.Inv → (act v0 v1).1.Inv) :
    (s.command relay engineer mine act).Inv := by
  unfold State.command
  dsimp only
  repeat' (with_reducible first
    | assumption | apply hact | apply State.drain_inv | apply State.onSession_inv | apply State.respond_inv
    | apply State.acted_inv | (split <;> try dsimp only))

theorem execMonitorHelp_inv (relay : Bool) {s : State} (hs : s.Inv) : ∃ t', execMonitorHelp relay s = .next t' ∧ t'.Inv := by
  refine ⟨_, rfl, ?_⟩
  repeat' (with_reducible first | assumption | apply State.command_inv | apply plain_inv | (intro _; intros; try dsimp only))

theorem execMonitorWhoami_inv (relay : Bool) {s : State} (hs : s.Inv)
    : ∃ t', execMonitorWhoami relay s = .next t' ∧ t'.Inv := by
  refine ⟨_, rfl, ?_⟩
  repeat' (with_reducible first | assumption | apply State.command_inv | apply plain_inv | (intro _; intros; try dsimp only))

theorem execMonitorState_inv (relay : Bool) {s : State} (hs : s.Inv) : ∃ t', execMonitorState relay s = .next t' ∧ t'.Inv := by
  refine ⟨_, rfl, ?_⟩
  repeat' (with_reducible first | assumption | apply State.command_inv | apply plain_inv | (intro _; intros; try dsimp only))

theorem execMonitorTime_inv (relay : Bool) {s : State} (hs : s.Inv) : ∃ t', execMonitorTime relay s = .next t' ∧ t'.Inv := by
  refine ⟨_, rfl, ?_⟩
  repeat' (with_reducible first | assumption | apply State.command_inv | apply plain_inv | (intro _; intros; try dsimp only))

theorem execMonitorPower_inv (relay : Bool) {s : State} (hs : s.Inv) : ∃ t', execMonitorPower relay s = .next t' ∧ t'.Inv := by
  refine ⟨_, rfl, ?_⟩
  repeat' (with_reducible first | assumption | apply State.command_inv | apply plain_inv | (intro _; intros; try dsimp only))

theorem execMonitorSensors_inv (relay : Bool) {s : State} (hs : s.Inv)
    : ∃ t', execMonitorSensors relay s = .next t' ∧ t'.Inv := by
  refine ⟨_, rfl, ?_⟩
  repeat' (with_reducible first
    | assumption | apply State.command_inv | (intro _; intros; try dsimp only) | (split <;> try dsimp only))

theorem execMonitorHealth_inv (relay : Bool) {s : State} (hs : s.Inv)
    : ∃ t', execMonitorHealth relay s = .next t' ∧ t'.Inv := by
  refine ⟨_, rfl, ?_⟩
  repeat' (with_reducible first
    | assumption | apply State.command_inv | (intro _; intros; try dsimp only) | (split <;> try dsimp only))

theorem execMonitorTiles_inv (relay : Bool) {s : State} (hs : s.Inv) : ∃ t', execMonitorTiles relay s = .next t' ∧ t'.Inv := by
  refine ⟨_, rfl, ?_⟩
  repeat' (with_reducible first | assumption | apply State.command_inv | apply plain_inv | (intro _; intros; try dsimp only))

theorem execMonitorParts_inv (relay : Bool) {s : State} (hs : s.Inv) : ∃ t', execMonitorParts relay s = .next t' ∧ t'.Inv := by
  refine ⟨_, rfl, ?_⟩
  repeat' (with_reducible first | assumption | apply State.command_inv | apply plain_inv | (intro _; intros; try dsimp only))

theorem execMonitorLinks_inv (relay : Bool) {s : State} (hs : s.Inv) : ∃ t', execMonitorLinks relay s = .next t' ∧ t'.Inv := by
  refine ⟨_, rfl, ?_⟩
  repeat' (with_reducible first | assumption | apply State.command_inv | apply plain_inv | (intro _; intros; try dsimp only))

theorem execMonitorFw_inv (relay : Bool) {s : State} (hs : s.Inv) : ∃ t', execMonitorFw relay s = .next t' ∧ t'.Inv := by
  refine ⟨_, rfl, ?_⟩
  repeat' (with_reducible first | assumption | apply State.command_inv | apply plain_inv | (intro _; intros; try dsimp only))

theorem execMonitorLog_inv (relay : Bool) {s : State} (hs : s.Inv) : ∃ t', execMonitorLog relay s = .next t' ∧ t'.Inv := by
  refine ⟨_, rfl, ?_⟩
  repeat' (with_reducible first
    | assumption | apply State.command_inv | (intro _; intros; try dsimp only) | (split <;> try dsimp only))

theorem execMonitorAuthChallenge_inv (relay : Bool) {s : State} (hs : s.Inv)
    : ∃ t', execMonitorAuthChallenge relay s = .next t' ∧ t'.Inv := by
  refine ⟨_, rfl, ?_⟩
  repeat' (with_reducible first
    | assumption | apply State.command_inv | apply State.tick_inv | apply State.Inv.fold | (simp only [State.inv_mk])
    | (intro _; intros; try dsimp only) | (split <;> try dsimp only))

theorem State.authFailed_inv {s : State} (hs : s.Inv) : (s.authFailed).Inv := by
  unfold State.authFailed
  repeat' (with_reducible first | assumption | apply State.Inv.fold | (simp only [State.inv_mk]) | exact fun h => h)

theorem execMonitorAuthResponse_inv (relay : Bool) {s : State} (hs : s.Inv)
    : ∃ t', execMonitorAuthResponse relay s = .next t' ∧ t'.Inv := by
  refine ⟨_, rfl, ?_⟩
  repeat' (with_reducible first
    | assumption | apply State.command_inv | apply State.authFailed_inv | apply State.onSession_inv | apply State.Inv.fold
    | (simp only [State.inv_mk]) | (intro _; intros; try dsimp only) | (split <;> try dsimp only))

theorem execMonitorLogout_inv (relay : Bool) {s : State} (hs : s.Inv)
    : ∃ t', execMonitorLogout relay s = .next t' ∧ t'.Inv := by
  refine ⟨_, rfl, ?_⟩
  repeat' (with_reducible first
    | assumption | apply State.command_inv | apply State.onSession_inv | (intro _; intros; try dsimp only)
    | (split <;> try dsimp only))

theorem execMonitorBaud_inv (relay : Bool) {s : State} (hs : s.Inv) : ∃ t', execMonitorBaud relay s = .next t' ∧ t'.Inv := by
  refine ⟨_, rfl, ?_⟩
  repeat' (with_reducible first
    | assumption | apply State.command_inv | apply State.Inv.fold | (simp only [State.inv_mk])
    | (intro _; intros; try dsimp only) | (split <;> try dsimp only))

theorem oneUnit_inv (args : List (List Byte)) {t : State} (ht : t.Inv) (f : Nat × Nat → Reply) (hf : ∀ k, (f k).1.Inv) :
    (oneUnit args t f).1.Inv := by
  unfold oneUnit
  split
  · split
    · exact hf _
    · exact ht
  · exact ht

theorem State.asked_inv {s : State} (hs : s.Inv) (op : Nat) (r : Option State) (lines : State → List (List Byte))
    (hr : someSat State.Inv r) : (s.asked op r lines).1.Inv := by
  unfold State.asked
  split
  · exact State.answerMail_inv (someSat.state hr rfl) _ _ _
  · exact State.answerMail_inv hs _ _ _

theorem execMonitorFence_inv (relay : Bool) {s : State} (hs : s.Inv) : ∃ t', execMonitorFence relay s = .next t' ∧ t'.Inv := by
  refine ⟨_, rfl, ?_⟩
  repeat' (with_reducible first
    | assumption | apply State.command_inv | apply oneUnit_inv | apply State.asked_inv | apply State.mailUnit_inv
    | (intro _; intros; try dsimp only) | (split <;> try dsimp only))

theorem State.awaits_inv {s : State} (hs : s.Inv) (relay : Bool) (k : Option (Nat × Nat)) : (s.awaits relay k).Inv := by
  unfold State.awaits
  repeat' (with_reducible first | assumption | apply State.onSession_inv)

theorem State.recovers_inv {s : State} (hs : s.Inv) (relay : Bool) (mine : List (List Byte) → Bool) (start
    : Nat × Nat → State → Reply × Bool) (done : Nat × Nat → State → Reply) (hstart : ∀ (v0 : Nat × Nat) (v1 : State), v1.Inv →
    (start v0 v1).1.1.Inv) (hdone : ∀ (v0 : Nat × Nat) (v1 : State), v1.Inv → (done v0 v1).1.Inv) :
    (s.recovers relay mine start done).Inv := by
  unfold State.recovers
  repeat' (with_reducible first
    | assumption | apply hstart | apply hdone | apply State.command_inv | apply State.awaits_inv | apply State.drain_inv
    | apply State.say_inv | (intro _; intros; try dsimp only) | (split <;> try dsimp only))

theorem execMonitorUnfence_inv (relay : Bool) (failed : Nat) {s : State} (hs : s.Inv)
    : ∃ t', execMonitorUnfence relay failed s = .next t' ∧ t'.Inv := by
  refine ⟨_, rfl, ?_⟩
  repeat' (with_reducible first
    | assumption | apply State.recovers_inv | apply State.asked_inv | apply State.mailRound_inv | apply State.mailUnit_inv
    | apply State.requestReset_inv | apply someSat.some | (intro _; intros; try dsimp only) | (split <;> try dsimp only))

theorem execMonitorReset_inv (relay : Bool) {s : State} (hs : s.Inv) : ∃ t', execMonitorReset relay s = .next t' ∧ t'.Inv := by
  refine ⟨_, rfl, ?_⟩
  repeat' (with_reducible first
    | assumption | apply State.recovers_inv | apply State.asked_inv | apply State.mailUnit_inv
    | (intro _; intros; try dsimp only) | (split <;> try dsimp only))

theorem execMonitorDump_inv (relay : Bool) {s : State} (hs : s.Inv) : ∃ t', execMonitorDump relay s = .next t' ∧ t'.Inv := by
  refine ⟨_, rfl, ?_⟩
  repeat' (with_reducible first
    | assumption | apply State.command_inv | apply oneUnit_inv | apply State.asked_inv | apply someSat.some
    | apply State.Inv.fold | (simp only [State.inv_mk]) | (intro _; intros; try dsimp only))

theorem domAnd_inv (args : List (List Byte)) {t : State} (ht : t.Inv) (f : Nat → List Byte → Reply) (hf : ∀ k w,
    (f k w).1.Inv) :
    (domAnd args t f).1.Inv := by
  unfold domAnd
  split
  · split
    · exact hf _ _
    · exact ht
  · exact ht

theorem execMonitorPstate_inv (relay : Bool) {s : State} (hs : s.Inv)
    : ∃ t', execMonitorPstate relay s = .next t' ∧ t'.Inv := by
  refine ⟨_, rfl, ?_⟩
  repeat' (with_reducible first
    | assumption | apply State.command_inv | apply domAnd_inv | apply State.asked_inv | apply State.mailPower_inv
    | (intro _; intros; try dsimp only) | (split <;> try dsimp only))

theorem execMonitorVset_inv (relay : Bool) {s : State} (hs : s.Inv) : ∃ t', execMonitorVset relay s = .next t' ∧ t'.Inv := by
  refine ⟨_, rfl, ?_⟩
  repeat' (with_reducible first
    | assumption | apply State.command_inv | apply domAnd_inv | apply State.asked_inv | apply State.mailPower_inv
    | (intro _; intros; try dsimp only) | (split <;> try dsimp only))

theorem execMonitorRegRead_inv (relay : Bool) {s : State} (hs : s.Inv)
    : ∃ t', execMonitorRegRead relay s = .next t' ∧ t'.Inv := by
  refine ⟨_, rfl, ?_⟩
  repeat' (with_reducible first
    | assumption | apply State.command_inv | (intro _; intros; try dsimp only) | (split <;> try dsimp only))

theorem execMonitorRegWrite_inv (relay : Bool) {s : State} (hs : s.Inv)
    : ∃ t', execMonitorRegWrite relay s = .next t' ∧ t'.Inv := by
  refine ⟨_, rfl, ?_⟩
  repeat' (with_reducible first
    | assumption | apply State.command_inv | apply State.writeBar0_inv | apply State.Inv.fold | (simp only [State.inv_mk])
    | (intro _; intros; try dsimp only) | (split <;> try dsimp only))

theorem execMonitorUnknownCommand_inv (relay : Bool) {s : State} (hs : s.Inv)
    : ∃ t', execMonitorUnknownCommand relay s = .next t' ∧ t'.Inv := by
  refine ⟨_, rfl, ?_⟩
  repeat' (with_reducible first | assumption | apply State.command_inv | (intro _; intros; try dsimp only))

/-! ### Chain -/

theorem State.bus_inv {s : State} (hs : s.Inv) (r : Option (List Byte)) : (s.bus r).Inv := by
  unfold State.bus
  repeat' (with_reducible first | assumption | apply State.Inv.fold | (simp only [State.inv_mk]) | exact fun h => h)

theorem execSetdasa_inv (static dyn eniUs : Nat) {s : State} (hs : s.Inv)
    : ∃ t', execSetdasa static dyn eniUs s = .next t' ∧ t'.Inv := by
  refine ⟨_, rfl, ?_⟩
  repeat' (with_reducible first
    | assumption | apply State.bus_inv | apply State.raise_inv | apply State.Inv.fold | (simp only [State.inv_mk])
    | exact fun h => h | (split <;> try dsimp only))

theorem execRstdaa_inv {s : State} (hs : s.Inv) : ∃ t', execRstdaa s = .next t' ∧ t'.Inv := by
  refine ⟨_, rfl, ?_⟩
  repeat' (with_reducible first
    | assumption | apply State.bus_inv | apply State.alert_inv | apply State.Inv.fold | (simp only [State.inv_mk])
    | exact fun h => h | (split <;> try dsimp only))

theorem execSetnewda_inv (a dyn : Nat) {s : State} (hs : s.Inv) : ∃ t', execSetnewda a dyn s = .next t' ∧ t'.Inv := by
  refine ⟨_, rfl, ?_⟩
  repeat' (with_reducible first | assumption | apply State.bus_inv)

theorem execEnecDisec_inv (enable : Bool) (events : Byte) {s : State} (hs : s.Inv)
    : ∃ t', execEnecDisec enable events s = .next t' ∧ t'.Inv := by
  refine ⟨_, rfl, ?_⟩
  repeat' (with_reducible first | assumption | apply State.bus_inv)

theorem State.ccc_inv {s : State} (hs : s.Inv) (a : Nat) (bytes : List Byte) : (s.ccc a bytes).Inv := by
  unfold State.ccc
  repeat' (with_reducible first | assumption | apply State.bus_inv)

theorem execGetpid_inv (a : Nat) {s : State} (hs : s.Inv) : ∃ t', execGetpid a s = .next t' ∧ t'.Inv := by
  refine ⟨_, rfl, ?_⟩
  repeat' (with_reducible first | assumption | apply State.ccc_inv)

theorem execGetbcr_inv (a : Nat) {s : State} (hs : s.Inv) : ∃ t', execGetbcr a s = .next t' ∧ t'.Inv := by
  refine ⟨_, rfl, ?_⟩
  repeat' (with_reducible first | assumption | apply State.ccc_inv)

theorem execGetdcr_inv (a : Nat) {s : State} (hs : s.Inv) : ∃ t', execGetdcr a s = .next t' ∧ t'.Inv := by
  refine ⟨_, rfl, ?_⟩
  repeat' (with_reducible first | assumption | apply State.ccc_inv)

theorem execGetstatus_inv (a : Nat) {s : State} (hs : s.Inv) : ∃ t', execGetstatus a s = .next t' ∧ t'.Inv := by
  refine ⟨_, rfl, ?_⟩
  repeat' (with_reducible first | assumption | apply State.tick_inv | apply State.ccc_inv)

theorem execGetmwl_inv (a : Nat) {s : State} (hs : s.Inv) : ∃ t', execGetmwl a s = .next t' ∧ t'.Inv := by
  refine ⟨_, rfl, ?_⟩
  repeat' (with_reducible first | assumption | apply State.ccc_inv)

theorem execGetmrl_inv (a : Nat) {s : State} (hs : s.Inv) : ∃ t', execGetmrl a s = .next t' ∧ t'.Inv := by
  refine ⟨_, rfl, ?_⟩
  repeat' (with_reducible first | assumption | apply State.ccc_inv)

theorem State.setLen_inv {s : State} (hs : s.Inv) (a len : Nat) (f : Boot → Boot) : (s.setLen a len f).Inv := by
  unfold State.setLen
  repeat' (with_reducible first
    | assumption | apply State.bus_inv | apply State.Inv.fold | (simp only [State.inv_mk]) | exact fun h => h
    | (split <;> try dsimp only))

theorem execSetmwl_inv (a len : Nat) {s : State} (hs : s.Inv) : ∃ t', execSetmwl a len s = .next t' ∧ t'.Inv := by
  refine ⟨_, rfl, ?_⟩
  repeat' (with_reducible first | assumption | apply State.setLen_inv)

theorem execSetmrl_inv (a len : Nat) {s : State} (hs : s.Inv) : ∃ t', execSetmrl a len s = .next t' ∧ t'.Inv := by
  refine ⟨_, rfl, ?_⟩
  repeat' (with_reducible first | assumption | apply State.setLen_inv)

theorem State.respondWith_inv {s : State} (hs : s.Inv) (cmd : Nat) (data : List Byte) : (s.respondWith cmd data).Inv := by
  unfold State.respondWith
  repeat' (with_reducible first | assumption | apply State.Inv.fold | (simp only [State.inv_mk]) | exact fun h => h)

theorem State.badMessage_inv {s : State} (hs : s.Inv) : (s.badMessage).Inv := by
  unfold State.badMessage
  repeat' (with_reducible first
    | assumption | apply State.respondWith_inv | apply State.Inv.fold | (simp only [State.inv_mk]) | exact fun h => h)

theorem State.message'_inv {s : State} (hs : s.Inv) (a : Nat) (f : State → State) (hf : ∀ (v0 : State), v0.Inv → (f v0).Inv) :
    (s.message' a f).Inv := by
  unfold State.message'
  repeat' (with_reducible first | assumption | apply hf | apply State.bus_inv | (split <;> try dsimp only))

theorem execChainMessageError_inv (a : Nat) (m : List Byte) {s : State} (hs : s.Inv)
    : ∃ t', execChainMessageError a m s = .next t' ∧ t'.Inv := by
  refine ⟨_, rfl, ?_⟩
  repeat' (with_reducible first
    | assumption | apply State.message'_inv | apply State.respondWith_inv | apply State.badMessage_inv | apply State.Inv.fold
    | (simp only [State.inv_mk]) | (intro _; intros; try dsimp only) | (split <;> try dsimp only))

theorem State.takeResponse_inv {s : State} (hs : s.Inv) (r : Nat × List Byte) : (s.takeResponse r).1.Inv := by
  unfold State.takeResponse
  repeat' (with_reducible first
    | assumption | apply State.monitorAlert_inv | apply State.onSession_inv | (split <;> try dsimp only))

theorem execChainPrivateRead_inv (a : Nat) {s : State} (hs : s.Inv) : ∃ t', execChainPrivateRead a s = .next t' ∧ t'.Inv := by
  refine ⟨_, rfl, ?_⟩
  repeat' (with_reducible first
    | assumption | apply State.takeResponse_inv | apply State.bus_inv | apply State.Inv.fold | (simp only [State.inv_mk])
    | exact fun h => h | (split <;> try dsimp only))

theorem execStatus_inv (a : Nat) {s : State} (hs : s.Inv) : ∃ t', execStatus a s = .next t' ∧ t'.Inv := by
  refine ⟨_, rfl, ?_⟩
  repeat' (with_reducible first
    | assumption | apply State.message'_inv | apply State.respondWith_inv | (intro _; intros; try dsimp only))

theorem execIdent_inv (a : Nat) {s : State} (hs : s.Inv) : ∃ t', execIdent a s = .next t' ∧ t'.Inv := by
  refine ⟨_, rfl, ?_⟩
  repeat' (with_reducible first
    | assumption | apply State.message'_inv | apply State.respondWith_inv | (intro _; intros; try dsimp only))

theorem execShedBudget_inv (a w : Nat) {s : State} (hs : s.Inv) : ∃ t', execShedBudget a w s = .next t' ∧ t'.Inv := by
  refine ⟨_, rfl, ?_⟩
  repeat' (with_reducible first
    | assumption | apply State.message'_inv | apply State.resolveLevels_inv | apply State.Inv.fold
    | (simp only [State.inv_mk]) | (intro _; intros; try dsimp only))

theorem execService_inv (a v : Nat) {s : State} (hs : s.Inv) : ∃ t', execService a v s = .next t' ∧ t'.Inv := by
  refine ⟨_, rfl, ?_⟩
  repeat' (with_reducible first
    | assumption | apply State.message'_inv | apply State.badMessage_inv | apply State.raise_inv | apply State.Inv.fold
    | (simp only [State.inv_mk]) | (intro _; intros; try dsimp only) | (split <;> try dsimp only))

theorem execSparePool_inv (a v : Nat) {s : State} (hs : s.Inv) : ∃ t', execSparePool a v s = .next t' ∧ t'.Inv := by
  refine ⟨_, rfl, ?_⟩
  repeat' (with_reducible first
    | assumption | apply State.message'_inv | apply State.badMessage_inv | apply State.checkExpel_inv | apply State.Inv.fold
    | (simp only [State.inv_mk]) | (intro _; intros; try dsimp only) | (split <;> try dsimp only))

theorem execModuleReset_inv (a v : Nat) {s : State} (hs : s.Inv) : ∃ t', execModuleReset a v s = .next t' ∧ t'.Inv := by
  refine ⟨_, rfl, ?_⟩
  repeat' (with_reducible first
    | assumption | apply State.message'_inv | apply State.askReset_inv | apply State.badMessage_inv
    | (split <;> try dsimp only))

theorem execClearAlert_inv (a v : Nat) {s : State} (hs : s.Inv) : ∃ t', execClearAlert a v s = .next t' ∧ t'.Inv := by
  refine ⟨_, rfl, ?_⟩
  repeat' (with_reducible first
    | assumption | apply State.message'_inv | apply State.badMessage_inv | apply State.Inv.fold | (simp only [State.inv_mk])
    | (intro _; intros; try dsimp only) | (split <;> try dsimp only))

theorem execMonitorIn_inv (a : Nat) (data : List Byte) {s : State} (hs : s.Inv)
    : ∃ t', execMonitorIn a data s = .next t' ∧ t'.Inv := by
  refine ⟨_, rfl, ?_⟩
  repeat' (with_reducible first
    | assumption | apply State.message'_inv | apply State.badMessage_inv | apply State.typed_inv | apply State.foldl_inv
    | (intro _; intros; try dsimp only) | (split <;> try dsimp only))

theorem execMonitorOut_inv (a : Nat) {s : State} (hs : s.Inv) : ∃ t', execMonitorOut a s = .next t' ∧ t'.Inv := by
  refine ⟨_, rfl, ?_⟩
  repeat' (with_reducible first
    | assumption | apply State.message'_inv | apply State.respondWith_inv | (intro _; intros; try dsimp only))

/-! ### Checkpoint -/

theorem State.ckBind_inv {s : State} (hs : s.Inv) (p : Nat) (d : Desc) : (s.ckBind p d).Inv := by
  unfold State.ckBind
  repeat' (with_reducible first | assumption | apply State.crcBind_inv | (split <;> try dsimp only))

theorem ckCourse_inv (run : State → Nat → Desc → Except Fail (State × Done)) (hrun : ∀ (v0 : State) (v1 : Nat) (v2
    : Desc), v0.Inv → okSat (fun r => r.1.Inv) (run v0 v1 v2)) : (ckCourse run).Keeps := by
  unfold ckCourse
  repeat' (with_reducible first
    | assumption | apply hrun | apply State.ckBind_inv | apply State.spoilFor_inv | refine ⟨?_, ?_, ?_⟩
    | (intro _; intros; try dsimp only))

theorem State.ckRun_inv {s : State} (hs : s.Inv) (r : DescRef) (op : Nat) (run : State → Nat → Desc → Except Fail
    (State × Done)) (hrun : ∀ (v0 : State) (v1 : Nat) (v2 : Desc), v0.Inv → okSat (fun r => r.1.Inv) (run v0 v1 v2)) :
    (s.ckRun r op run).Inv := by
  unfold State.ckRun
  repeat' (with_reducible first | assumption | apply State.runDesc_inv | apply ckCourse_inv)

theorem State.runCheckpoint_inv {s : State} (hs : s.Inv) (p : Nat) (d : Desc) : okSat (fun r => r.1.Inv)
    (s.runCheckpoint p d) := by
  unfold State.runCheckpoint
  repeat' (with_reducible first
    | assumption | apply State.putRegion_inv | apply State.note_inv | apply okSat.ok | apply okSat.bind
    | (intro _; intros; try dsimp only) | (split <;> try dsimp only))

theorem execCheckpoint_inv (d : DescRef) {s : State} (hs : s.Inv) : ∃ t', execCheckpoint d s = .next t' ∧ t'.Inv := by
  refine ⟨_, rfl, ?_⟩
  repeat' (with_reducible first
    | assumption | apply State.ckRun_inv | apply State.runCheckpoint_inv | (intro _; intros; try dsimp only))

theorem State.restoreFrom_inv {s : State} (hs : s.Inv) (p u : Nat) (broke : Option Nat) (i : Nat) (l : List CkRegion) (img
    : List Byte) :
    (s.restoreFrom p u broke i l img).1.Inv := by
  induction l generalizing s i img with
  | nil => exact hs
  | cons x l ih =>
    unfold State.restoreFrom
    dsimp only
    have hc := State.crcCount_inv hs u (crc64.bytes (img.take (16 + x.len)) != sliceOf img (16 + x.len) 8)
    split
    · exact State.spoil_inv hs _ _ _ _
    split
    · exact hs
    split
    · exact State.spoil_inv hc _ _ _ _
    split
    · exact State.note_inv (State.moveSome_inv hc _ _ _ _) _ _
    · exact ih (okSat.state (State.writeVa_inv hc _ _ _ _ _) (by assumption)) _ _

theorem State.runRestore_inv (a0 : HostRead) {s : State} (hs : s.Inv) (p : Nat) (d : Desc) : okSat (fun r => r.1.Inv)
    (State.runRestore a0 s p d) := by
  unfold State.runRestore
  repeat' (with_reducible first
    | assumption | apply State.crcCount_inv | apply State.tick_inv | apply State.restoreFrom_inv | apply okSat.ok
    | apply okSat.bind | (intro _; intros; try dsimp only) | (split <;> try dsimp only))

theorem execRestore_inv (d : DescRef) (a1 : HostRead) {s : State} (hs : s.Inv)
    : ∃ t', execRestore d a1 s = .next t' ∧ t'.Inv := by
  refine ⟨_, rfl, ?_⟩
  repeat' (with_reducible first
    | assumption | apply State.runRestore_inv | apply State.ckRun_inv | apply State.noteHostRead_inv
    | (intro _; intros; try dsimp only) | (split <;> try dsimp only))

theorem execStepCommit_inv (d : DescRef) {s : State} (hs : s.Inv) : ∃ t', execStepCommit d s = .next t' ∧ t'.Inv := by
  refine ⟨_, rfl, ?_⟩
  repeat' (with_reducible first
    | assumption | apply State.runDesc_inv | apply okDone_inv | apply State.onPart_inv | apply State.spoilFor_inv
    | refine ⟨?_, ?_, ?_⟩ | (intro _; intros; try dsimp only))

theorem execStepCommitEndJob_inv (d : DescRef) {s : State} (hs : s.Inv)
    : ∃ t', execStepCommitEndJob d s = .next t' ∧ t'.Inv := by
  refine ⟨_, rfl, ?_⟩
  repeat' (with_reducible first
    | assumption | apply State.runDesc_inv | apply State.onPart_inv | apply State.spoilFor_inv | apply okSat.ok
    | refine ⟨?_, ?_, ?_⟩ | (intro _; intros; try dsimp only))

/-! ### Keys -/

theorem execKeyOpRotate_inv (d : DescRef) {s : State} (hs : s.Inv) : ∃ t', execKeyOpRotate d s = .next t' ∧ t'.Inv := by
  refine ⟨_, rfl, ?_⟩
  repeat' (with_reducible first
    | assumption | apply State.startDesc_inv | apply State.onSec_inv | apply State.tick_inv | apply State.complete_inv
    | (intro _; intros; try dsimp only))

theorem execKeyOpRetire_inv (d : DescRef) {s : State} (hs : s.Inv) : ∃ t', execKeyOpRetire d s = .next t' ∧ t'.Inv := by
  refine ⟨_, rfl, ?_⟩
  repeat' (with_reducible first
    | assumption | apply State.startDesc_inv | apply State.onSec_inv | apply State.complete_inv | apply State.raiseBoth_inv
    | (intro _; intros; try dsimp only))

theorem execKeyOpClearRetired_inv (d : DescRef) {s : State} (hs : s.Inv)
    : ∃ t', execKeyOpClearRetired d s = .next t' ∧ t'.Inv := by
  refine ⟨_, rfl, ?_⟩
  repeat' (with_reducible first
    | assumption | apply State.startDesc_inv | apply State.complete_inv | apply State.onSec_inv | apply State.foldl_inv
    | apply State.Inv.fold | (simp only [State.inv_mk])
    | (intro hm; first | exact MemSys.store_wf hm _ _ | exact MemSys.storePieces_wf hm _ _ | exact MemSys.zero_wf hm _ _ | simpa using hm)
    | (intro _; intros; try dsimp only))

theorem execFrameConvert_inv (p : Nat) {s : State} (hs : s.Inv) : ∃ t', execFrameConvert p s = .next t' ∧ t'.Inv := by
  refine ⟨_, rfl, ?_⟩
  repeat' (with_reducible first | assumption | apply State.onSec_inv | apply State.raiseBoth_inv | (split <;> try dsimp only))

theorem execKeyOpBindLoad_inv (d : DescRef) {s : State} (hs : s.Inv) : ∃ t', execKeyOpBindLoad d s = .next t' ∧ t'.Inv := by
  refine ⟨_, rfl, ?_⟩
  repeat' (with_reducible first
    | assumption | apply State.startDesc_inv | apply State.failDesc_inv | apply State.complete_inv | apply State.onSec_inv
    | (intro _; intros; try dsimp only) | (split <;> try dsimp only))

theorem execKeyOpContentDrop_inv (d : DescRef) {s : State} (hs : s.Inv)
    : ∃ t', execKeyOpContentDrop d s = .next t' ∧ t'.Inv := by
  refine ⟨_, rfl, ?_⟩
  repeat' (with_reducible first
    | assumption | apply State.startDesc_inv | apply State.complete_inv | apply State.onSec_inv
    | (intro _; intros; try dsimp only))

theorem State.storeChunks_inv {s : State} (hs : s.Inv) (h id : List Byte) (key : BitVec 256) (l : List (List Byte)) (i : Nat) :
    (s.storeChunks h id key l i).1.Inv := by
  induction l generalizing s i with
  | nil => exact hs
  | cons x l ih =>
    unfold State.storeChunks
    split
    · exact hs
    · exact ih (s := { s with mem := _ }) ⟨MemSys.store_wf hs.1 _ _, hs.2⟩ _

theorem State.weightLoad_inv {s : State} (hs : s.Inv) (p : Nat) (d : Desc) (chunks : List (List Byte)) :
    okSat (fun r => r.1.Inv) (s.weightLoad p d chunks) := by
  unfold State.weightLoad
  dsimp only
  repeat' (with_reducible first
    | apply State.storeChunks_inv | assumption | apply State.onSec_inv | apply okSat.ok | apply okSat.error | apply okSat.bind
    | (intro _; intros; try dsimp only) | (split <;> try dsimp only))

theorem execKeyOpWeightLoad_inv (d : DescRef) (chunks : List (List Byte)) {s : State} (hs : s.Inv)
    : ∃ t', execKeyOpWeightLoad d chunks s = .next t' ∧ t'.Inv := by
  refine ⟨_, rfl, ?_⟩
  repeat' (with_reducible first
    | assumption | apply State.weightLoad_inv | apply State.spoilFor_inv | apply State.runDesc_inv
    | apply State.countRdErr_inv | refine ⟨?_, ?_, ?_⟩ | (intro _; intros; try dsimp only) | (split <;> try dsimp only))

/-! ### Sampling -/

theorem State.runSample_inv {s : State} (hs : s.Inv) (p : Nat) (d : Desc) (bl : List Byte) : okSat (fun r => r.1.Inv)
    (s.runSample p d bl) := by
  unfold State.runSample
  repeat' (with_reducible first | assumption | apply State.putOuts_inv | apply okSat.bind | (intro _; intros; try dsimp only))

theorem execSample_inv (d : DescRef) {s : State} (hs : s.Inv) : ∃ t', execSample d s = .next t' ∧ t'.Inv := by
  refine ⟨_, rfl, ?_⟩
  repeat' (with_reducible first
    | assumption | apply State.runDesc_inv | apply Course.withLists_inv | apply tensorCourse_inv | apply State.runSample_inv
    | (intro _; intros; try dsimp only))

theorem State.runVerify_inv {s : State} (hs : s.Inv) (p : Nat) (d : Desc) (bl : List Byte) : okSat (fun r => r.1.Inv)
    (s.runVerify p d bl) := by
  unfold State.runVerify
  repeat' (with_reducible first | assumption | apply State.putOuts_inv | apply okSat.bind | (intro _; intros; try dsimp only))

theorem execVerify_inv (d : DescRef) {s : State} (hs : s.Inv) : ∃ t', execVerify d s = .next t' ∧ t'.Inv := by
  refine ⟨_, rfl, ?_⟩
  repeat' (with_reducible first
    | assumption | apply State.runDesc_inv | apply Course.withLists_inv | apply tensorCourse_inv | apply State.runVerify_inv
    | (intro _; intros; try dsimp only))

/-! ### Scale -/

theorem execScale_inv (d : DescRef) {s : State} (hs : s.Inv) : ∃ t', execScale d s = .next t' ∧ t'.Inv := by
  refine ⟨_, rfl, State.runDesc_inv hs _ _ ⟨fun t p x ht => ht, fun t p x ht => ?_, fun t p x f ht => State.spoilFor_inv ht _ _ _⟩⟩
  dsimp only
  repeat' (with_reducible first
    | assumption | apply State.putOuts_inv | apply okSat.error | apply okSat.bind | apply State.Inv.fold
    | (simp only [State.inv_mk]) | (intro _; intros; try dsimp only) | (split <;> try dsimp only))

/-! ### Models -/

/-- Both ends of a step's work keep the invariant: what it gives satisfies P, and the state a failure leaves keeps it. -/
def stepSat {α : Type} (P : α → Prop) (x : StepM α) : Prop := okSat P x ∧ ∀ e, x = .error e → e.2.Inv

/-- Work that succeeds. -/
theorem stepSat.ok {α : Type} {P : α → Prop} {a : α} (h : P a) : stepSat P (.ok a) :=
  ⟨okSat.ok h, fun _ he => nomatch he⟩

/-- Work that fails. -/
theorem stepSat.error {α : Type} {P : α → Prop} {f : Fail} {t : State} (h : t.Inv) : stepSat P (.error (f, t) : StepM α) :=
  ⟨okSat.error, fun e he => by cases he; exact h⟩

/-- One piece of work after another. -/
theorem stepSat.bind {α β : Type} {Q : α → Prop} {P : β → Prop} {x : StepM α} {f : α → StepM β} (hx : stepSat Q x)
    (hf : ∀ a, Q a → stepSat P (f a)) : stepSat P (x >>= f) := by
  cases x with
  | error e => exact (⟨okSat.error, fun e' h => by cases h; exact hx.2 _ rfl⟩ : stepSat P (Except.error e))
  | ok a => exact hf a (hx.1 _ rfl)

/-- Reading changes nothing. -/
theorem State.lift_inv {α : Type} {s : State} (hs : s.Inv) (x : Except Fail α) : stepSat (fun _ => True) (s.lift x) := by
  cases x with
  | error f => exact stepSat.error hs
  | ok a => exact stepSat.ok trivial

theorem State.layerAppend_inv {s : State} (hs : s.Inv) (src : Option Nat) (m : Model) (l : Nat) (x : Layer) (index : Bool) (j
    : Job)
    (cs : List (List F32)) : stepSat (fun r => r.1.Inv) (s.layerAppend src m l x index j cs) := by
  have hk : (s.kvNow x.kv).Inv := State.kvNow_inv hs _
  unfold State.layerAppend
  dsimp only
  split
  · exact stepSat.error hk
  rename_i a h
  have ha : a.st.Inv := State.appendRecords_inv hk _ _ _ _ _ h
  split
  · exact stepSat.ok (State.settle_inv (okSat.pair (State.writeTokens_inv ha _ _ _ _ _) (by assumption)) _ hk _)
  · exact stepSat.error (State.settle_inv (State.spoilTokens_inv ha _ _) _ hk _)

theorem State.layerJob_inv {s : State} (hs : s.Inv) (p : Nat) (src : Option Nat) (m : Model) (l : Nat) (x : Layer) (index
    : Bool)
    (j : Job) : stepSat (fun r => r.1.Inv) (s.layerJob p src m l x index j) := by
  unfold State.layerJob
  dsimp only
  exact stepSat.bind (State.lift_inv hs _) fun _ _ => stepSat.bind (State.layerAppend_inv hs _ _ _ _ _ _ _) fun a ha =>
    stepSat.bind (State.lift_inv ha _) fun _ _ => stepSat.ok ha

theorem State.layerJobs_inv {s : State} (hs : s.Inv) (p : Nat) (src : Option Nat) (m : Model) (l : Nat) (x : Layer) (index
    : Bool)
    (js : List Job) : stepSat (fun r => r.1.Inv) (s.layerJobs p src m l x index js) := by
  induction js generalizing s with
  | nil => exact stepSat.ok hs
  | cons j js ih =>
    unfold State.layerJobs
    exact stepSat.bind (State.layerJob_inv hs _ _ _ _ _ _ _) fun a ha => stepSat.bind (ih ha) fun b hb => stepSat.ok hb

theorem State.layersRun_inv {s : State} (hs : s.Inv) (p : Nat) (src : Option Nat) (m : Model) (index : Bool) (ls : List
    (Layer × Nat))
    (js : List Job) : stepSat (fun r => r.1.Inv) (s.layersRun p src m index ls js) := by
  induction ls generalizing s js with
  | nil => exact stepSat.ok hs
  | cons l ls ih =>
    unfold State.layersRun
    exact stepSat.bind (State.layerJobs_inv hs _ _ _ _ _ _ _) fun a ha => ih ha _

theorem State.modelRun_inv {s : State} (hs : s.Inv) (p : Nat) (src : Option Nat) (m : Model) (index : Bool) (js : List Job) :
    stepSat (fun r => r.1.Inv) (s.modelRun p src m index js) :=
  stepSat.bind (State.lift_inv hs _) fun _ _ => State.layersRun_inv hs _ _ _ _ _ _

end Sys2Proof.Machine
end

