-- ==== Sys2Proof/Laws/Inv6.lean ====
section
/-! SUPPORT. Every operation and meaning of these files of Machine keeps the memories in canonical form (`State.Inv`): Serve. -/

namespace Sys2Proof.Machine

/-! ### Serve -/

theorem State.tryAppends_inv {s : State} (hs : s.Inv) (m : Model) (js : List (PlanEntry × Nat)) :
    someSat State.Inv (s.tryAppends m js) := by
  have hf : ∀ {α : Type} (l : List α) (f : Option State → α → Option State),
      (∀ a x, someSat State.Inv a → someSat State.Inv (f a x)) → ∀ a, someSat State.Inv a → someSat State.Inv (l.foldl f a) := by
    intro α l f h
    induction l with
    | nil => exact fun a ha => ha
    | cons x l ih => exact fun a ha => ih _ (h _ _ ha)
  refine hf _ _ (fun a l ha => hf _ _ (fun b j hb => ?_) _ ha) _ (someSat.some hs)
  cases b with
  | none => exact someSat.none
  | some t => exact someSat.map fun x hx => State.appendRecords_inv (hb _ rfl) _ _ _ _ _ hx

theorem State.stepTruncate_inv {s : State} (hs : s.Inv) (m : Model) (es : List PlanEntry) : (s.stepTruncate m es).Inv := by
  unfold State.stepTruncate
  refine State.foldl_inv _ _ hs fun t l ht => State.foldl_inv _ _ ht fun u e hu => ?_
  dsimp only
  split
  · exact State.settle_inv (State.appendRecords_inv (State.kvNow_inv hu _) _ _ _ _ _ (by assumption)) _ (State.kvNow_inv hu _) _
  · exact hu

theorem State.stepCut_inv {s : State} (hs : s.Inv) (m : Model) (seq len : Nat) : (s.stepCut m seq len).Inv := by
  unfold State.stepCut
  repeat' (with_reducible first
    | assumption | apply State.kvNow_inv | apply State.settle_inv | apply State.truncateSeq_inv | apply State.foldl_inv
    | (intro _; intros; try dsimp only) | (split <;> try dsimp only))

theorem State.propose_inv {s : State} (hs : s.Inv) (p : Nat) (src : Option Nat) (m : Model) (index : Bool) (w : Work) (n tok
    : Nat) :
    stepSat (fun r => r.1.Inv) (s.propose p src m index w n tok) := by
  induction n generalizing s w tok with
  | zero => exact stepSat.ok hs
  | succ n ih =>
    unfold State.propose
    exact stepSat.bind (State.modelRun_inv hs _ _ _ _ _) fun a ha => stepSat.bind (State.lift_inv ha _) fun _ _ => ih ha _ _

theorem State.draftWork_inv {s : State} (hs : s.Inv) (p : Nat) (src : Option Nat) (q : Plan) (m : Model) (w : Work) (d : Nat) :
    stepSat (fun r => r.1.Inv) (s.draftWork p src q m w d) := by
  unfold State.draftWork
  dsimp only
  split
  · exact stepSat.ok hs
  split
  · split
    · refine stepSat.bind (Q := fun (r : State × List Job) => r.1.Inv) (stepSat.ok hs) fun a ha => ?_
      split
      · exact stepSat.ok ha
      · exact State.propose_inv ha _ _ _ _ _ _ _
    · refine stepSat.bind (State.modelRun_inv hs _ _ _ _ _) fun a ha => ?_
      split
      · exact stepSat.ok ha
      · exact State.propose_inv ha _ _ _ _ _ _ _
  · exact stepSat.ok hs

theorem State.draftAll_inv {s : State} (hs : s.Inv) (p : Nat) (src : Option Nat) (q : Plan) (ws : List Work) :
    stepSat (fun r => r.1.Inv) (s.draftAll p src q ws) := by
  induction ws generalizing s with
  | nil => exact stepSat.ok hs
  | cons w ws ih =>
    unfold State.draftAll
    dsimp only
    split
    · exact stepSat.bind (State.draftWork_inv hs _ _ _ _ _ _) fun a ha => stepSat.bind (ih ha) fun b hb => stepSat.ok hb
    · exact stepSat.bind (Q := fun (r : State × Work) => r.1.Inv) (stepSat.ok hs) fun a ha =>
        stepSat.bind (ih ha) fun b hb => stepSat.ok hb

theorem State.ringWrite_inv {s : State} (hs : s.Inv) (p addr log2 n tok why : Nat) :
    (s.ringWrite p addr log2 n tok why).Inv := by
  unfold State.ringWrite
  repeat' (with_reducible first | assumption | apply State.putUnit_inv)

theorem State.ringTokens_inv {s : State} (hs : s.Inv) (p addr log2 n : Nat) (l : List Nat) (why : Nat) :
    (s.ringTokens p addr log2 n l why).Inv := by
  induction l generalizing s n with
  | nil => exact hs
  | cons x l ih =>
    cases l with
    | nil => exact State.ringWrite_inv hs _ _ _ _ _ _
    | cons y l => exact ih (State.ringWrite_inv hs _ _ _ _ _ _) _

theorem State.endLayer_inv {s : State} (hs : s.Inv) (p seq action ttl i : Nat) (l : Layer) :
    (s.endLayer p seq action ttl i l).Inv := by
  unfold State.endLayer
  repeat' (with_reducible first
    | assumption | apply State.kvNow_inv | apply State.settle_inv | apply State.freeSeq_inv | apply State.raise_inv
    | apply State.parkSeq_inv | (split <;> try dsimp only))

theorem State.endAction_inv {s : State} (hs : s.Inv) (p seq action ttl : Nat) (ms : List Model) :
    (s.endAction p seq action ttl ms).Inv := by
  unfold State.endAction
  repeat' (with_reducible first
    | assumption | apply State.endLayer_inv | apply State.foldl_inv | (intro _; intros; try dsimp only)
    | (split <;> try dsimp only))

theorem State.countTokens_inv {s : State} (hs : s.Inv) (p va : Nat) (l : List Nat) : (s.countTokens p va l).Inv := by
  unfold State.countTokens
  repeat' (with_reducible first
    | assumption | apply State.tryWriteVa_inv | apply State.foldl_inv | (intro _; intros; try dsimp only))

theorem State.putServing_inv {s : State} (hs : s.Inv) (p va : Nat) (b : List Byte) : (s.putServing p va b).Inv := by
  unfold State.putServing
  repeat' (with_reducible first | assumption | apply State.tryWriteVa_inv)

theorem State.noteRing_inv {s : State} (hs : s.Inv) (p va : Nat) (r : List Byte) : (s.noteRing p va r).Inv := by
  unfold State.noteRing
  repeat' (with_reducible first | assumption | apply State.onPart_inv)

theorem State.cancelMark_inv {s : State} (hs : s.Inv) (p va : Nat) (b : List Byte) : (s.cancelMark p va b).Inv := by
  unfold State.cancelMark
  dsimp only
  repeat' (with_reducible first
    | assumption | apply State.putServing_inv | apply State.ringWrite_inv | (split <;> try dsimp only))

theorem State.emitWork_inv {s : State} (hs : s.Inv) (p : Nat) (q : Plan) (w : Work) : (s.emitWork p q w).1.Inv := by
  unfold State.emitWork
  dsimp only
  repeat' (with_reducible first
    | assumption | apply State.tryWriteVa_inv | apply State.noteRing_inv | apply State.stepCut_inv
    | apply State.cancelMark_inv | apply State.endAction_inv | apply State.complete_inv | apply State.countTokens_inv
    | apply State.ringTokens_inv | apply State.putServing_inv | apply State.raise_inv | apply State.foldl_inv
    | (intro _; intros; try dsimp only) | (split <;> try dsimp only))

theorem State.stepPhases_inv {s : State} (hs : s.Inv) (p : Nat) (d : Desc) (q : Plan) :
    stepSat (fun r => r.1.Inv) (s.stepPhases p d q) := by
  unfold State.stepPhases
  dsimp only
  refine stepSat.bind (State.lift_inv hs _) fun ws _ => ?_
  have ht : ((q.main :: q.draft.toList).foldl (fun (s : State) m => s.stepTruncate m q.es) s).Inv :=
    State.foldl_inv _ _ hs fun t m ht => State.stepTruncate_inv ht _ _
  exact stepSat.bind (State.draftAll_inv ht _ _ _ _) fun a ha => stepSat.bind (State.modelRun_inv ha _ _ _ _ _) fun b hb =>
    stepSat.bind (State.lift_inv hb _) fun _ _ => stepSat.ok hb

theorem State.spoilWork_inv {s : State} (hs : s.Inv) (p : Nat) (q : Plan) : (s.spoilWork p q).Inv := by
  unfold State.spoilWork
  repeat' (with_reducible first
    | assumption | apply State.spoil_inv | apply State.foldl_inv | (intro _; intros; try dsimp only))

theorem State.spoilNew_inv {s : State} (hs : s.Inv) (q : Plan) {start : State} (hstart : start.Inv) :
    (s.spoilNew q start).Inv := by
  unfold State.spoilNew
  repeat' (with_reducible first
    | assumption | apply State.spoilTokens_inv | apply State.foldl_inv | (intro _; intros; try dsimp only))

theorem State.runStep_inv {s : State} (hs : s.Inv) (p : Nat) (d : Desc) : okSat (fun r => r.1.Inv) (s.runStep p d) := by
  unfold State.runStep
  dsimp only
  refine okSat.bind fun q _ => ?_
  have hp := State.stepPhases_inv hs p d q
  split
  · rename_i f t h
    have ht : t.Inv := hp.2 _ h
    have hw : ((t.spoilNew q s).spoilWork p q).Inv := State.spoilWork_inv (State.spoilNew_inv ht _ (start := s) hs) _ _
    exact okSat.ok (State.note_inv (State.spoilAll_inv hw _ _ _) _ _)
  · rename_i t ws h
    have ht : (t.spoilWork p q).Inv := State.spoilWork_inv (hp.1 _ h) _ _
    refine okSat.bind fun u hu => okSat.ok (okSat.state (State.writeDigest_inv ?_ _ _ _) hu)
    exact State.foldl_inv_fst _ _ ht fun b w hb => State.emitWork_inv hb _ _ _

theorem State.stepOpen_inv {s : State} (hs : s.Inv) (p : Nat) (d : Desc) : (s.stepOpen p d).Inv := by
  unfold State.stepOpen
  repeat' (with_reducible first | assumption | apply State.onPart_inv | (split <;> try dsimp only))

theorem execStep_inv (d : DescRef) {s : State} (hs : s.Inv) : ∃ t', execStep d s = .next t' ∧ t'.Inv := by
  refine ⟨_, rfl, ?_⟩
  repeat' (with_reducible first
    | assumption | apply State.runDesc_inv | apply State.stepOpen_inv | apply State.runStep_inv | apply State.spoilFor_inv
    | refine ⟨?_, ?_, ?_⟩ | (intro _; intros; try dsimp only))

theorem State.cancelNow_inv {s : State} (hs : s.Inv) (p : Nat) (d : Desc) : (s.cancelNow p d).Inv := by
  unfold State.cancelNow
  repeat' (with_reducible first
    | assumption | apply State.failDesc_inv | apply State.complete_inv | apply State.cancelMark_inv
    | apply State.endAction_inv | (split <;> try dsimp only))

theorem execCancel_inv (d : DescRef) {s : State} (hs : s.Inv) : ∃ t', execCancel d s = .next t' ∧ t'.Inv := by
  refine ⟨_, rfl, ?_⟩
  repeat' (with_reducible first
    | assumption | apply State.cancelNow_inv | apply State.startDesc_inv | (intro _; intros; try dsimp only)
    | (split <;> try dsimp only))

end Sys2Proof.Machine
end

