-- ==== Sys2Proof/Laws/Resolve.lean ====
section
/-! SUPPORT. What the resolution of the levels of precedence can change (R26 to R30): the domains and the rest of power, the thermal
block, the health log, the partitions, what their hosts' memory holds, and the count of free values. -/

namespace Sys2Proof.Machine

/-- `t` differs from `s` in nothing but what a resolution can change: of power, the domains, the room and its binding level; of the
thermal block, the yield of keep-warm; the health log, the partitions, their hosts' memory and the count of free values. -/
def State.Resolved (s t : State) : Prop :=
  t = { s with
    fresh := t.fresh, health := t.health, parts := t.parts, hostMem := t.hostMem
    power := { s.power with doms := t.power.doms, roomW := t.power.roomW, binding := t.power.binding }
    thermal := { s.thermal with keepYield := t.thermal.keepYield } }

namespace State.Resolved

theorem refl (s : State) : s.Resolved s := rfl

theorem trans {s t u : State} (h : s.Resolved t) (k : t.Resolved u) : s.Resolved u := by
  unfold State.Resolved at *
  rw [h] at k
  exact k

theorem ite {s a b : State} {c : Prop} [Decidable c] (ha : s.Resolved a) (hb : s.Resolved b) :
    s.Resolved (if c then a else b) := by
  split
  · exact ha
  · exact hb

theorem foldl {α : Type} (f : State → α → State) (l : List α) (s : State) (h : ∀ (t : State) a, t.Resolved (f t a)) :
    s.Resolved (l.foldl f s) := by
  induction l generalizing s with
  | nil => exact refl s
  | cons a l ih => exact (h s a).trans (ih _)

end State.Resolved

/-- A write to host memory. -/
theorem State.hostWrite_resolved (s : State) (addr : Nat) (bs : List Byte) : s.Resolved (s.hostWrite addr bs) := by
  unfold State.hostWrite
  exact .ite rfl (.refl s)

/-- Pausing a partition. -/
theorem State.pausePart_resolved (s : State) (p : Nat) : s.Resolved (s.pausePart p) := by
  unfold State.pausePart State.postPresence State.hostWriteAs State.raiseBoth
  refine .ite (.refl s) ?_
  dsimp only
  refine .trans (t := s.onPart p (fun q => { q with pwr := { q.pwr with paused := true, pauses := satTo 8 (q.pwr.pauses + 1), fitSince := none } })) rfl ?_
  generalize s.onPart p _ = u
  have h : u.Resolved (if p = 0 then u.raise 0 0x27 [] else (u.raise p 0x27 []).raisePf p 0x27 []) := .ite rfl rfl
  exact h.trans (.ite (.ite (State.hostWrite_resolved _ _ _) (.refl _)) (.refl _))

/-- A clamp noted. -/
theorem State.noteClamp_resolved (s : State) (k l : Nat) : s.Resolved (s.noteClamp k l) := by
  unfold State.noteClamp
  exact .ite rfl rfl

/-- Whether a paused partition fits, noted. -/
theorem State.noteFit_resolved (s : State) (r : PowerReport) (plan : List Aim) (p : Nat) : s.Resolved (s.noteFit r plan p) := by
  unfold State.noteFit
  exact .ite (.refl s) rfl

/-- Domains come back from REST. -/
theorem State.returnRest_resolved (s : State) (r : PowerReport) (want : List Aim) (l : List Nat) :
    s.Resolved (s.returnRest r want l) := by
  induction l generalizing s with
  | nil => exact .refl s
  | cons k l ih =>
    unfold State.returnRest
    refine .ite (ih s) ?_
    dsimp only
    exact .ite (.trans (t := s.onDom k _) rfl (ih _)) (.refl s)

/-- Partitions paused until the plan fits. -/
theorem State.pauseFor_resolved (s : State) (r : PowerReport) (room : Nat) (plan : List Aim) (l : List Nat) :
    s.Resolved (s.pauseFor r room plan l).1 := by
  induction l generalizing s plan with
  | nil => exact .refl s
  | cons p l ih =>
    unfold State.pauseFor
    split
    · exact .refl s
    · split
      · exact ih s plan
      · exact (s.pausePart_resolved p).trans (ih _ _)

/-- The plan brought within the room. -/
theorem State.lowerPlan_resolved (s : State) (r : PowerReport) (plan : List Aim) : s.Resolved (s.lowerPlan r plan).1 := by
  unfold State.lowerPlan
  dsimp only
  split
  · exact .refl s
  · split
    · exact .refl s
    · exact (s.pauseFor_resolved _ _ _ _).trans (.foldl _ _ _ fun _ _ => rfl)

/-- A plan carried out. -/
theorem State.carry_resolved (s : State) (want plan : List Aim) (warm : List Bool) : s.Resolved (s.carry want plan warm) := by
  unfold State.carry
  refine .foldl _ _ _ fun t k => ?_
  dsimp only
  exact (t.noteClamp_resolved k _).trans rfl

/-- A free value used. -/
theorem State.tick_resolved (s : State) : s.Resolved s.tick := rfl

/-- The room, its binding level and the yield of keep-warm shown. -/
theorem State.shown_resolved (s : State) (w n : Nat) (y : Bool) :
    s.Resolved { s with power := { s.power with roomW := w, binding := n }, thermal := { s.thermal with keepYield := y } } := rfl

/-- The fits of the paused partitions noted. -/
theorem State.noteFits_resolved (s : State) (r : PowerReport) (plan : List Aim) :
    s.Resolved ((List.range 16).foldl (fun (a : State) p => a.noteFit r plan p) s).tick :=
  (State.Resolved.foldl _ _ _ fun t p => t.noteFit_resolved _ _ p).trans (State.tick_resolved _)

/-- They leave power and the thermal block. -/
theorem State.noteFits_power (r : PowerReport) (plan : List Aim) (l : List Nat) (s : State) :
    (l.foldl (fun (a : State) p => a.noteFit r plan p) s).power = s.power ∧
      (l.foldl (fun (a : State) p => a.noteFit r plan p) s).thermal = s.thermal := by
  induction l generalizing s with
  | nil => exact ⟨rfl, rfl⟩
  | cons p l ih =>
    obtain ⟨h, k⟩ := ih (s.noteFit r plan p)
    have h2 : (s.noteFit r plan p).power = s.power ∧ (s.noteFit r plan p).thermal = s.thermal := by
      unfold State.noteFit
      split <;> exact ⟨rfl, rfl⟩
    exact ⟨h.trans h2.1, k.trans h2.2⟩

/-- The room is that of power and the thermal block. -/
theorem State.room_congr {s t : State} (h : s.power = t.power) (k : s.thermal = t.thermal) : s.room = t.room := by
  unfold State.room State.limits
  rw [h, k]

/-- With the fits noted, a state shows the room it showed. -/
theorem State.noteFits_room (s : State) (r : PowerReport) (plan : List Aim) (h : s.power.roomW = s.room) :
    ((List.range 16).foldl (fun (a : State) p => a.noteFit r plan p) s).tick.power.roomW =
      ((List.range 16).foldl (fun (a : State) p => a.noteFit r plan p) s).tick.room := by
  obtain ⟨k1, k2⟩ := State.noteFits_power r plan (List.range 16) s
  generalize (List.range 16).foldl _ s = t at k1 k2 ⊢
  exact ((congrArg Power.roomW k1).trans h).trans (State.room_congr k1.symm k2.symm)

/-- A resolution notes the powers reported and then changes what `State.Resolved` names; the room it shows is the room there is. -/
theorem State.resolveLevels_live (s : State) (h : s.boot.st.live = true) :
    s.notePower.Resolved s.resolveLevels ∧ s.resolveLevels.power.roomW = s.resolveLevels.room := by
  unfold State.resolveLevels
  simp only [h, Bool.not_true, Bool.false_eq_true, if_false]
  have h1 := State.Resolved.foldl (fun (t : State) p => t.pausePart p)
    ((List.range 16).filter (fun p => s.notePower.fixedRate p && s.notePower.ownLimit p)) s.notePower fun t p => t.pausePart_resolved p
  generalize (List.foldl (fun (t : State) p => t.pausePart p) _ _) = a at h1 ⊢
  generalize a.requests.map Prod.fst = want
  have h2 := a.returnRest_resolved s.notePower.power.report want a.restOrder.reverse
  generalize a.returnRest _ _ _ = b at h2 ⊢
  generalize (List.range 16).map (fun k => b.clampOne k (want.getD k (.dark, 0))) = plan
  have h3 := b.lowerPlan_resolved s.notePower.power.report plan
  generalize b.lowerPlan _ _ = c at h3 ⊢
  have h4 := c.1.carry_resolved want c.2 (a.requests.map Prod.snd)
  generalize c.1.carry _ _ _ = t at h4 ⊢
  generalize (b.sec.steward && _) = y
  generalize t.bindingOf _ _ = n
  refine ⟨h1.trans (h2.trans (h3.trans (h4.trans ((t.shown_resolved t.room n y).trans
    (State.noteFits_resolved _ _ _))))), ?_⟩
  exact State.noteFits_room _ _ _ rfl

/-- Where the domains have no power, nothing is resolved. -/
theorem State.resolveLevels_off (s : State) (h : s.boot.st.live = false) : s.resolveLevels = s := by simp [State.resolveLevels, h]

/-- A resolution changes nothing but the domains, the measures, the room and its binding level of power, the yield of keep-warm, the
health log, the partitions, their hosts' memory and the count of free values. -/
theorem State.resolveLevels_eq (s : State) : s.resolveLevels = { s with
    fresh := s.resolveLevels.fresh, health := s.resolveLevels.health, parts := s.resolveLevels.parts, hostMem := s.resolveLevels.hostMem
    power := { s.power with
      doms := s.resolveLevels.power.doms, roomW := s.resolveLevels.power.roomW, binding := s.resolveLevels.power.binding
      busDv := s.resolveLevels.power.busDv, powerDw := s.resolveLevels.power.powerDw, nodeDv := s.resolveLevels.power.nodeDv }
    thermal := { s.thermal with keepYield := s.resolveLevels.thermal.keepYield } } := by
  cases h : s.boot.st.live with
  | false => rw [s.resolveLevels_off h]
  | true =>
    have k := (s.resolveLevels_live h).1
    unfold State.Resolved at k
    generalize s.resolveLevels = t at k ⊢
    rw [k]
    rfl

@[simp] theorem State.resolveLevels_now (s : State) : s.resolveLevels.now = s.now := by rw [s.resolveLevels_eq]
@[simp] theorem State.resolveLevels_boot (s : State) : s.resolveLevels.boot = s.boot := by rw [s.resolveLevels_eq]
@[simp] theorem State.resolveLevels_racing (s : State) : s.resolveLevels.racing = s.racing := by rw [s.resolveLevels_eq]
@[simp] theorem State.resolveLevels_fabric (s : State) : s.resolveLevels.fabric = s.fabric := by rw [s.resolveLevels_eq]
@[simp] theorem State.resolveLevels_mem (s : State) : s.resolveLevels.mem = s.mem := by rw [s.resolveLevels_eq]
@[simp] theorem State.resolveLevels_host (s : State) : s.resolveLevels.host = s.host := by rw [s.resolveLevels_eq]
@[simp] theorem State.resolveLevels_sec (s : State) : s.resolveLevels.sec = s.sec := by rw [s.resolveLevels_eq]
@[simp] theorem State.resolveLevels_links (s : State) : s.resolveLevels.links = s.links := by rw [s.resolveLevels_eq]
@[simp] theorem State.resolveLevels_field (s : State) : s.resolveLevels.field = s.field := by rw [s.resolveLevels_eq]
@[simp] theorem State.resolveLevels_video (s : State) : s.resolveLevels.video = s.video := by rw [s.resolveLevels_eq]
@[simp] theorem State.resolveLevels_mon (s : State) : s.resolveLevels.mon = s.mon := by rw [s.resolveLevels_eq]
@[simp] theorem State.resolveLevels_pair (s : State) : s.resolveLevels.pair = s.pair := by rw [s.resolveLevels_eq]
@[simp] theorem State.resolveLevels_pending (s : State) : s.resolveLevels.pending = s.pending := by rw [s.resolveLevels_eq]

@[simp] theorem State.resolveLevels_curtainOn (s : State) : s.resolveLevels.power.curtainOn = s.power.curtainOn := by
  rw [s.resolveLevels_eq]
@[simp] theorem State.resolveLevels_shed (s : State) : s.resolveLevels.power.shed = s.power.shed := by rw [s.resolveLevels_eq]
@[simp] theorem State.resolveLevels_shutdown (s : State) : s.resolveLevels.power.shutdown = s.power.shutdown := by
  rw [s.resolveLevels_eq]
@[simp] theorem State.resolveLevels_report (s : State) : s.resolveLevels.power.report = s.power.report := by rw [s.resolveLevels_eq]
@[simp] theorem State.resolveLevels_emergency (s : State) : s.resolveLevels.thermal.emergency = s.thermal.emergency := by
  rw [s.resolveLevels_eq]

end Sys2Proof.Machine
end

