-- ==== Sys2Proof/WellFormed.lean ====
section
/-! DEFINITION. Which commands are well formed: an operand that names one of a fixed number of things (a partition, a
domain, a tile, a port, a channel, a reset unit) names one that exists. A command that is not well formed can come from no
sender; the meanings leave the state as it is for a thing that does not exist. -/

namespace Sys2Proof

/-- The partition of a descriptor exists (R438). -/
def DescRef.wellFormed (d : DescRef) : Bool := d.part < 16

/-- A ring of a partition exists (R224). -/
def RingId.wellFormed : RingId → Bool
  | .sq q => q < 64
  | .cq c => c < 16
  | .evt => true

/-- How many reset units a kind has: tiles, codec cores, link ports, field ports, memory ports, bulk channels (R499). -/
def unitsOfKind : Nat → Nat
  | 0 => 64 | 1 => 8 | 2 => 8 | 3 => 2 | 4 => 16 | 5 => 8 | _ => 0

/-- The rail exists (R139, R141). -/
def Rail.wellFormed : Rail → Bool
  | .vd k => k < 16
  | .other _ => true

/-- The sensor exists (R159). -/
def Sample.wellFormed : Sample → Bool
  | .tile t n _ => t < 64 && n < 2
  | .stack k n _ => k < 6 && n < 2
  | .aux i _ => i < 10
  | .inlet _ | .outlet _ | .flow _ => true

/-- Every fixed-range operand of a command is in its range. -/
def Instr.wellFormed : Instr → Bool
  | .curtainEnter _ _ => true
  | .curtainExit _ _ => true
  | .orderlyShutdown _ _ _ => true
  | .shutdownComplete => true
  | .prechargeStart _ _ => true
  | .prechgDeassert _ => true
  | .inputSwitchOpen _ _ _ => true
  | .inputSwitchClose _ _ _ => true
  | .pqRecordOpen _ => true
  | .pqRecordClose _ => true
  | .railFault r _ => r.wellFormed
  | .shedAssert => true
  | .shedDeassert => true
  | .precedenceResolution _ => true
  | .fixedRateResume p => p < 16
  | .stateSelection p _ => p < 16
  | .domainWake k _ => k < 16
  | .domainStateReached k => k < 16
  | .voltageStep k => k < 16
  | .sensorSample x => x.wellFormed
  | .sensorSuspect spot => spot < 70
  | .sensorRestore spot sensor => spot < 70 && sensor < 2
  | .stackOvertempShutdown k => k < 6
  | .refreshRestore k => k < 6
  | .predictorUpdate => true
  | .flowWarn => true
  | .flowLimitExit => true
  | .thermalClear => true
  | .thermalRearm => true
  | .rateSample _ => true
  | .fabRateCtrlWrite _ _ => true
  | .clockLockLoss n => n < 26
  | .workItemComplete t => t < 64
  | .engineLoadComplete p e _ => p < 16 && e < 64
  | .meshTransactionIssue _ => true
  | .availabilityMapUpdate => true
  | .memoryPortAccess port _ _ => port < 88
  | .xlatInvalidate p => p < 16
  | .ptRootWrite p _ => p < 16
  | .scrubStep port _ _ => port < 24
  | .scrubForcedSlice port _ _ => port < 24
  | .recalDue port _ _ => port < 24
  | .recalForcedSlice port _ => port < 24
  | .bulkMr4Read c code _ => c < 8 && code < 8
  | .bar0AccessIgnored fn _ _ => fn < 16
  | .registerWrite fn _ _ => fn < 16
  | .bar2Write p _ _ => p < 16
  | .bar2Read p _ _ => p < 16
  | .ringEnable p r _ => p < 16 && r.wellFormed
  | .ringPause p q => p < 16 && q < 64
  | .ringUnpause p q => p < 16 && q < 64
  | .ringDisable p r => p < 16 && r.wellFormed
  | .ringDrainDone p q => p < 16 && q < 64
  | .nudge p => p < 16
  | .pollExpiry p => p < 16
  | .doorbellReadReturn p _ => p < 16
  | .dozeSequence p => p < 16
  | .descriptorFetch p _ => p < 16
  | .eventRecordWrite p => p < 16
  | .msixSend p r => p < 16 && r.wellFormed
  | .hostReadFailure p _ _ => p < 16
  | .hostLinkDown => true
  | .linkChange _ _ _ => true
  | .perstAssert => true
  | .ptmDialog _ => true
  | .functionLevelReset p => p < 16
  | .nop d => d.wellFormed
  | .barrier d => d.wellFormed
  | .fence d => d.wellFormed
  | .eventSignal d => d.wellFormed
  | .eventWait d => d.wellFormed
  | .eventWaitDeadline d => d.wellFormed
  | .timerWait d => d.wellFormed
  | .timerWaitExpiry d => d.wellFormed
  | .descriptorTimeout d => d.wellFormed
  | .actRun d => d.wellFormed
  | .actStop d => d.wellFormed
  | .matmul d => d.wellFormed
  | .conv d => d.wellFormed
  | .eltwise d => d.wellFormed
  | .reduce d => d.wellFormed
  | .norm d => d.wellFormed
  | .softmax d => d.wellFormed
  | .convert d => d.wellFormed
  | .gather d => d.wellFormed
  | .scatter d => d.wellFormed
  | .copy d _ => d.wellFormed
  | .fill d => d.wellFormed
  | .digest d => d.wellFormed
  | .badOpcode d => d.wellFormed
  | .attend d => d.wellFormed
  | .kvAppend d => d.wellFormed
  | .kvLookup d => d.wellFormed
  | .kvPark d => d.wellFormed
  | .kvResume d => d.wellFormed
  | .kvFreeSeq d => d.wellFormed
  | .kvFreeAll d => d.wellFormed
  | .kvFreeFormat d => d.wellFormed
  | .kvFreeDetach d => d.wellFormed
  | .kvFreeRehash d => d.wellFormed
  | .kvCopy d => d.wellFormed
  | .kvExpiry p space _ => p < 16 && space < 16
  | .step d => d.wellFormed
  | .sample d => d.wellFormed
  | .verify d => d.wellFormed
  | .cancel d => d.wellFormed
  | .allReduce d _ => d.wellFormed
  | .reduceScatter d _ => d.wellFormed
  | .allGather d _ => d.wellFormed
  | .allToAll d _ => d.wellFormed
  | .broadcast d _ => d.wellFormed
  | .groupSet d => d.wellFormed
  | .collAbort port _ _ => port < 8
  | .streamOpen d => d.wellFormed
  | .streamClose d => d.wellFormed
  | .decode d => d.wellFormed
  | .decodeTimeReached d => d.wellFormed
  | .encode d => d.wellFormed
  | .scale d => d.wellFormed
  | .resultFrame d => d.wellFormed
  | .checkpoint d => d.wellFormed
  | .restore d _ => d.wellFormed
  | .stepCommit d => d.wellFormed
  | .stepCommitEndJob d => d.wellFormed
  | .partConfig d => d.wellFormed
  | .partStateAdmit d => d.wellFormed
  | .partStateRun d => d.wellFormed
  | .partStateQuiesce d => d.wellFormed
  | .quiesceDone p => p < 16
  | .partStateReset d => d.wellFormed
  | .partStateUnconfigure d => d.wellFormed
  | .memGrant d => d.wellFormed
  | .memRelease d => d.wellFormed
  | .engineConfig d => d.wellFormed
  | .engineRelease d => d.wellFormed
  | .tileFence d => d.wellFormed
  | .tileUnfence d _ => d.wellFormed
  | .keyOpRotate d => d.wellFormed
  | .keyOpRetire d => d.wellFormed
  | .keyOpClearRetired d => d.wellFormed
  | .keyOpBindLoad d => d.wellFormed
  | .keyOpWeightLoad d _ => d.wellFormed
  | .keyOpContentDrop d => d.wellFormed
  | .frameConvert p => p < 16
  | .fwStage d _ => d.wellFormed
  | .fwActivate d => d.wellFormed
  | .admissionLost p => p < 16
  | .spdmRequest fn _ => fn < 16
  | .spdmHeartbeatMiss fn => fn < 16
  | .lockInterface p => p < 16
  | .getDeviceInterfaceReport p => p < 16
  | .startInterface p => p < 16
  | .stopInterface p => p < 16
  | .ideKm fn => fn < 16
  | .ideTlpFailure fn => fn < 16
  | .mailboxSetPower _ k _ _ => k < 16
  | .mailboxFenceReset _ _ kind unit _ => unit < unitsOfKind kind
  | .mailboxChannelFilter _ p chan _ => p < 16 && chan < 64
  | .mailboxReadSensors _ _ => true
  | .mailboxWriteRecord _ _ _ => true
  | .mailboxDebugRead _ kind unit _ => unit < unitsOfKind kind
  | .stewardHeartbeatLoss => true
  | .stewardRestartDone => true
  | .sealWrite => true
  | .linkPortEnable n _ => n < 8
  | .linkPortDisable n _ => n < 8
  | .linkTrainingComplete n _ _ => n < 8
  | .linkTrainingTimeout n => n < 8
  | .linkRetrain n _ => n < 8
  | .retrainTimeout n => n < 8
  | .dataFrame n _ => n < 8
  | .nakFrame n _ => n < 8
  | .helloFrame n _ => n < 8
  | .idleFrame n _ => n < 8
  | .replayTimer n => n < 8
  | .creditReturn n => n < 8
  | .linkPairWrite _ => true
  | .fieldFrameReceive n _ => n < 2
  | .fieldLink n _ _ => n < 2
  | .protocolEngineSlice => true
  | .unitDeadline c => c < 64
  | .ptpHoldover => true
  | .ptpCtrlWrite _ => true
  | .ptmCtrlWrite _ => true
  | .rtcpReport c => c < 64
  | .streamStall c => c < 64
  | .codecCoreDispatch core => core < 8
  | .codecPreempt => true
  | .pictureDone core => core < 8
  | .readIdxPoll c => c < 64
  | .poolWait c => c < 64
  | .encodeUnitDone core => core < 8
  | .carouselWrite _ => true
  | .setdasa static dyn _ => static < 128 && dyn < 128
  | .rstdaa => true
  | .setnewda a dyn => a < 128 && dyn < 128
  | .enecDisec _ _ => true
  | .getpid a => a < 128
  | .getbcr a => a < 128
  | .getdcr a => a < 128
  | .getstatus a => a < 128
  | .getmwl a => a < 128
  | .getmrl a => a < 128
  | .setmwl a _ => a < 128
  | .setmrl a _ => a < 128
  | .chainMessageError a _ => a < 128
  | .chainPrivateRead a => a < 128
  | .status a => a < 128
  | .ident a => a < 128
  | .shedBudget a _ => a < 128
  | .service a _ => a < 128
  | .sparePool a _ => a < 128
  | .moduleReset a _ => a < 128
  | .clearAlert a _ => a < 128
  | .monitorIn a _ => a < 128
  | .monitorOut a => a < 128
  | .svcReset _ => true
  | .guardWatchdog => true
  | .guardBoot _ _ => true
  | .guardImageRunning => true
  | .firstStewardHeartbeat => true
  | .stewardBootFallback => true
  | .channelTrainingDone _ _ => true
  | .selftestPassDone _ _ => true
  | .progressWatchdogExpiry _ => true
  | .dumpComplete kind unit _ => unit < unitsOfKind kind
  | .hltResetWrite _ => true
  | .recoveryComplete kind unit _ => unit < unitsOfKind kind
  | .recoveryOverdue kind unit => unit < unitsOfKind kind
  | .strikerRoundStart t => t < 64
  | .strikerRoundDone t _ => t < 64
  | .strikerOverdue t => t < 64
  | .memoryTestSlice port _ _ => port < 24
  | .scoreRecompute => true
  | .expelClear => true
  | .flashWearLevel _ => true
  | .telemetrySweep _ => true
  | .cycleStart p slot => p < 16 && slot < 64
  | .laneComplete p slot => p < 16 && slot < 64
  | .cycleDeadline p slot => p < 16 && slot < 64
  | .pairCfgWrite _ => true
  | .claimStart => true
  | .claimCheck => true
  | .partnerLineAssert => true
  | .stateLoaded slot _ _ _ => slot < 64
  | .stateCopyReceive _ _ _ => true
  | .pairRearm => true
  | .pairHandover => true
  | .uartByteReceive _ => true
  | .uartBreak _ => true
  | .baudIdleRevert => true
  | .engineerIdleLapse _ => true
  | .challengeLapse => true
  | .authLockoutEnd => true
  | .monitorOutputStall _ => true
  | .monitorHelp _ => true
  | .monitorWhoami _ => true
  | .monitorState _ => true
  | .monitorTime _ => true
  | .monitorPower _ => true
  | .monitorSensors _ => true
  | .monitorHealth _ => true
  | .monitorTiles _ => true
  | .monitorParts _ => true
  | .monitorLinks _ => true
  | .monitorFw _ => true
  | .monitorLog _ => true
  | .monitorAuthChallenge _ => true
  | .monitorAuthResponse _ => true
  | .monitorLogout _ => true
  | .monitorBaud _ => true
  | .monitorFence _ => true
  | .monitorUnfence _ _ => true
  | .monitorReset _ => true
  | .monitorDump _ => true
  | .monitorPstate _ => true
  | .monitorVset _ => true
  | .monitorRegRead _ => true
  | .monitorRegWrite _ => true
  | .monitorUnknownCommand _ => true
  | .guardOwnWatchdog _ => true
  | .perstRelease => true
  | .hostLinkUp _ _ _ => true
  | .svcResetRelease => true
  | .configurationRequest fn _ => fn < 16

end Sys2Proof
end

