-- ==== Sys2Proof/Tests/Slice0.lean ====
section
/-! SUPPORT. Small tests of the model, and for each statement a state and operands that meet what it asks. -/

namespace Sys2Proof.Tests

set_option Elab.async false

open Sys2Proof.Machine

/-! ### Well-formed commands: an ill-formed term for each check -/

/-- Each of these names a thing that does not exist, and is refused (1 of 7). -/
theorem test_illFormed_1 :
    (∀ x0, (Instr.railFault (.vd 16) x0).wellFormed = false) ∧
    ((Instr.fixedRateResume 16).wellFormed = false) ∧
    (∀ x0, (Instr.stateSelection 16 x0).wellFormed = false) ∧
    (∀ x0, (Instr.domainWake 16 x0).wellFormed = false) ∧
    ((Instr.domainStateReached 16).wellFormed = false) ∧
    ((Instr.voltageStep 16).wellFormed = false) ∧
    ((Instr.sensorSample (.tile 64 0 none)).wellFormed = false) ∧
    ((Instr.sensorSample (.tile 0 2 none)).wellFormed = false) ∧
    ((Instr.sensorSample (.stack 6 0 none)).wellFormed = false) ∧
    ((Instr.sensorSample (.stack 0 2 none)).wellFormed = false) ∧
    ((Instr.sensorSample (.aux 10 none)).wellFormed = false) ∧
    ((Instr.sensorSuspect 70).wellFormed = false) ∧
    ((Instr.sensorRestore 70 0).wellFormed = false) ∧
    ((Instr.sensorRestore 0 2).wellFormed = false) ∧
    ((Instr.stackOvertempShutdown 6).wellFormed = false) ∧
    ((Instr.refreshRestore 6).wellFormed = false) ∧
    ((Instr.clockLockLoss 26).wellFormed = false) ∧
    ((Instr.workItemComplete 64).wellFormed = false) ∧
    (∀ x0, (Instr.engineLoadComplete 16 0 x0).wellFormed = false) ∧
    (∀ x0, (Instr.engineLoadComplete 0 64 x0).wellFormed = false) ∧
    (∀ x0 x1, (Instr.memoryPortAccess 88 x0 x1).wellFormed = false) ∧
    ((Instr.xlatInvalidate 16).wellFormed = false) ∧
    (∀ x0, (Instr.ptRootWrite 16 x0).wellFormed = false) ∧
    (∀ x0 x1, (Instr.scrubStep 24 x0 x1).wellFormed = false) ∧
    (∀ x0 x1, (Instr.scrubForcedSlice 24 x0 x1).wellFormed = false) ∧
    (∀ x0 x1, (Instr.recalDue 24 x0 x1).wellFormed = false) ∧
    (∀ x0, (Instr.recalForcedSlice 24 x0).wellFormed = false) ∧
    (∀ x0, (Instr.bulkMr4Read 8 0 x0).wellFormed = false) ∧
    (∀ x0, (Instr.bulkMr4Read 0 8 x0).wellFormed = false) ∧
    (∀ x0 x1, (Instr.bar0AccessIgnored 16 x0 x1).wellFormed = false) :=
  ⟨fun _ => rfl, rfl, fun _ => rfl, fun _ => rfl, rfl, rfl, rfl, rfl, rfl, rfl, rfl, rfl, rfl, rfl, rfl, rfl, rfl, 
    rfl, fun _ => rfl, fun _ => rfl, fun _ _ => rfl, rfl, fun _ => rfl, fun _ _ => rfl, fun _ _ => rfl, 
    fun _ _ => rfl, fun _ => rfl, fun _ => rfl, fun _ => rfl, fun _ _ => rfl⟩

/-- Each of these names a thing that does not exist, and is refused (2 of 7). -/
theorem test_illFormed_2 :
    (∀ x0 x1, (Instr.registerWrite 16 x0 x1).wellFormed = false) ∧
    (∀ x0 x1, (Instr.bar2Write 16 x0 x1).wellFormed = false) ∧
    (∀ x0 x1, (Instr.bar2Read 16 x0 x1).wellFormed = false) ∧
    (∀ x0, (Instr.ringEnable 16 .evt x0).wellFormed = false) ∧
    (∀ x0, (Instr.ringEnable 0 (.sq 64) x0).wellFormed = false) ∧
    ((Instr.ringPause 16 0).wellFormed = false) ∧
    ((Instr.ringPause 0 64).wellFormed = false) ∧
    ((Instr.ringUnpause 16 0).wellFormed = false) ∧
    ((Instr.ringUnpause 0 64).wellFormed = false) ∧
    ((Instr.ringDisable 16 .evt).wellFormed = false) ∧
    ((Instr.ringDisable 0 (.sq 64)).wellFormed = false) ∧
    ((Instr.ringDrainDone 16 0).wellFormed = false) ∧
    ((Instr.ringDrainDone 0 64).wellFormed = false) ∧
    ((Instr.nudge 16).wellFormed = false) ∧
    ((Instr.pollExpiry 16).wellFormed = false) ∧
    (∀ x0, (Instr.doorbellReadReturn 16 x0).wellFormed = false) ∧
    ((Instr.dozeSequence 16).wellFormed = false) ∧
    (∀ x0, (Instr.descriptorFetch 16 x0).wellFormed = false) ∧
    ((Instr.eventRecordWrite 16).wellFormed = false) ∧
    ((Instr.msixSend 16 .evt).wellFormed = false) ∧
    ((Instr.msixSend 0 (.sq 64)).wellFormed = false) ∧
    (∀ x0 x1, (Instr.hostReadFailure 16 x0 x1).wellFormed = false) ∧
    ((Instr.functionLevelReset 16).wellFormed = false) ∧
    ((Instr.nop ⟨16, 0, false⟩).wellFormed = false) ∧
    ((Instr.barrier ⟨16, 0, false⟩).wellFormed = false) ∧
    ((Instr.fence ⟨16, 0, false⟩).wellFormed = false) ∧
    ((Instr.eventSignal ⟨16, 0, false⟩).wellFormed = false) ∧
    ((Instr.eventWait ⟨16, 0, false⟩).wellFormed = false) ∧
    ((Instr.eventWaitDeadline ⟨16, 0, false⟩).wellFormed = false) ∧
    ((Instr.timerWait ⟨16, 0, false⟩).wellFormed = false) :=
  ⟨fun _ _ => rfl, fun _ _ => rfl, fun _ _ => rfl, fun _ => rfl, fun _ => rfl, rfl, rfl, rfl, rfl, rfl, rfl, rfl, 
    rfl, rfl, rfl, fun _ => rfl, rfl, fun _ => rfl, rfl, rfl, rfl, fun _ _ => rfl, rfl, rfl, rfl, rfl, rfl, rfl, 
    rfl, rfl⟩

/-- Each of these names a thing that does not exist, and is refused (3 of 7). -/
theorem test_illFormed_3 :
    ((Instr.timerWaitExpiry ⟨16, 0, false⟩).wellFormed = false) ∧
    ((Instr.descriptorTimeout ⟨16, 0, false⟩).wellFormed = false) ∧
    ((Instr.actRun ⟨16, 0, false⟩).wellFormed = false) ∧
    ((Instr.actStop ⟨16, 0, false⟩).wellFormed = false) ∧
    ((Instr.matmul ⟨16, 0, false⟩).wellFormed = false) ∧
    ((Instr.conv ⟨16, 0, false⟩).wellFormed = false) ∧
    ((Instr.eltwise ⟨16, 0, false⟩).wellFormed = false) ∧
    ((Instr.reduce ⟨16, 0, false⟩).wellFormed = false) ∧
    ((Instr.norm ⟨16, 0, false⟩).wellFormed = false) ∧
    ((Instr.softmax ⟨16, 0, false⟩).wellFormed = false) ∧
    ((Instr.convert ⟨16, 0, false⟩).wellFormed = false) ∧
    ((Instr.gather ⟨16, 0, false⟩).wellFormed = false) ∧
    ((Instr.scatter ⟨16, 0, false⟩).wellFormed = false) ∧
    (∀ x0, (Instr.copy ⟨16, 0, false⟩ x0).wellFormed = false) ∧
    ((Instr.fill ⟨16, 0, false⟩).wellFormed = false) ∧
    ((Instr.digest ⟨16, 0, false⟩).wellFormed = false) ∧
    ((Instr.badOpcode ⟨16, 0, false⟩).wellFormed = false) ∧
    ((Instr.attend ⟨16, 0, false⟩).wellFormed = false) ∧
    ((Instr.kvAppend ⟨16, 0, false⟩).wellFormed = false) ∧
    ((Instr.kvLookup ⟨16, 0, false⟩).wellFormed = false) ∧
    ((Instr.kvPark ⟨16, 0, false⟩).wellFormed = false) ∧
    ((Instr.kvResume ⟨16, 0, false⟩).wellFormed = false) ∧
    ((Instr.kvFreeSeq ⟨16, 0, false⟩).wellFormed = false) ∧
    ((Instr.kvFreeAll ⟨16, 0, false⟩).wellFormed = false) ∧
    ((Instr.kvFreeFormat ⟨16, 0, false⟩).wellFormed = false) ∧
    ((Instr.kvFreeDetach ⟨16, 0, false⟩).wellFormed = false) ∧
    ((Instr.kvFreeRehash ⟨16, 0, false⟩).wellFormed = false) ∧
    ((Instr.kvCopy ⟨16, 0, false⟩).wellFormed = false) ∧
    (∀ x0, (Instr.kvExpiry 16 0 x0).wellFormed = false) ∧
    (∀ x0, (Instr.kvExpiry 0 16 x0).wellFormed = false) :=
  ⟨rfl, rfl, rfl, rfl, rfl, rfl, rfl, rfl, rfl, rfl, rfl, rfl, rfl, fun _ => rfl, rfl, rfl, rfl, rfl, rfl, rfl, 
    rfl, rfl, rfl, rfl, rfl, rfl, rfl, rfl, fun _ => rfl, fun _ => rfl⟩

/-- Each of these names a thing that does not exist, and is refused (4 of 7). -/
theorem test_illFormed_4 :
    ((Instr.step ⟨16, 0, false⟩).wellFormed = false) ∧
    ((Instr.sample ⟨16, 0, false⟩).wellFormed = false) ∧
    ((Instr.verify ⟨16, 0, false⟩).wellFormed = false) ∧
    ((Instr.cancel ⟨16, 0, false⟩).wellFormed = false) ∧
    (∀ x0, (Instr.allReduce ⟨16, 0, false⟩ x0).wellFormed = false) ∧
    (∀ x0, (Instr.reduceScatter ⟨16, 0, false⟩ x0).wellFormed = false) ∧
    (∀ x0, (Instr.allGather ⟨16, 0, false⟩ x0).wellFormed = false) ∧
    (∀ x0, (Instr.allToAll ⟨16, 0, false⟩ x0).wellFormed = false) ∧
    (∀ x0, (Instr.broadcast ⟨16, 0, false⟩ x0).wellFormed = false) ∧
    ((Instr.groupSet ⟨16, 0, false⟩).wellFormed = false) ∧
    (∀ x0 x1, (Instr.collAbort 8 x0 x1).wellFormed = false) ∧
    ((Instr.streamOpen ⟨16, 0, false⟩).wellFormed = false) ∧
    ((Instr.streamClose ⟨16, 0, false⟩).wellFormed = false) ∧
    ((Instr.decode ⟨16, 0, false⟩).wellFormed = false) ∧
    ((Instr.decodeTimeReached ⟨16, 0, false⟩).wellFormed = false) ∧
    ((Instr.encode ⟨16, 0, false⟩).wellFormed = false) ∧
    ((Instr.scale ⟨16, 0, false⟩).wellFormed = false) ∧
    ((Instr.resultFrame ⟨16, 0, false⟩).wellFormed = false) ∧
    ((Instr.checkpoint ⟨16, 0, false⟩).wellFormed = false) ∧
    (∀ x0, (Instr.restore ⟨16, 0, false⟩ x0).wellFormed = false) ∧
    ((Instr.stepCommit ⟨16, 0, false⟩).wellFormed = false) ∧
    ((Instr.stepCommitEndJob ⟨16, 0, false⟩).wellFormed = false) ∧
    ((Instr.partConfig ⟨16, 0, false⟩).wellFormed = false) ∧
    ((Instr.partStateAdmit ⟨16, 0, false⟩).wellFormed = false) ∧
    ((Instr.partStateRun ⟨16, 0, false⟩).wellFormed = false) ∧
    ((Instr.partStateQuiesce ⟨16, 0, false⟩).wellFormed = false) ∧
    ((Instr.quiesceDone 16).wellFormed = false) ∧
    ((Instr.partStateReset ⟨16, 0, false⟩).wellFormed = false) ∧
    ((Instr.partStateUnconfigure ⟨16, 0, false⟩).wellFormed = false) ∧
    ((Instr.memGrant ⟨16, 0, false⟩).wellFormed = false) :=
  ⟨rfl, rfl, rfl, rfl, fun _ => rfl, fun _ => rfl, fun _ => rfl, fun _ => rfl, fun _ => rfl, rfl, fun _ _ => rfl, 
    rfl, rfl, rfl, rfl, rfl, rfl, rfl, rfl, fun _ => rfl, rfl, rfl, rfl, rfl, rfl, rfl, rfl, rfl, rfl, rfl⟩

/-- Each of these names a thing that does not exist, and is refused (5 of 7). -/
theorem test_illFormed_5 :
    ((Instr.memRelease ⟨16, 0, false⟩).wellFormed = false) ∧
    ((Instr.engineConfig ⟨16, 0, false⟩).wellFormed = false) ∧
    ((Instr.engineRelease ⟨16, 0, false⟩).wellFormed = false) ∧
    ((Instr.tileFence ⟨16, 0, false⟩).wellFormed = false) ∧
    (∀ x0, (Instr.tileUnfence ⟨16, 0, false⟩ x0).wellFormed = false) ∧
    ((Instr.keyOpRotate ⟨16, 0, false⟩).wellFormed = false) ∧
    ((Instr.keyOpRetire ⟨16, 0, false⟩).wellFormed = false) ∧
    ((Instr.keyOpClearRetired ⟨16, 0, false⟩).wellFormed = false) ∧
    ((Instr.keyOpBindLoad ⟨16, 0, false⟩).wellFormed = false) ∧
    (∀ x0, (Instr.keyOpWeightLoad ⟨16, 0, false⟩ x0).wellFormed = false) ∧
    ((Instr.keyOpContentDrop ⟨16, 0, false⟩).wellFormed = false) ∧
    ((Instr.frameConvert 16).wellFormed = false) ∧
    (∀ x0, (Instr.fwStage ⟨16, 0, false⟩ x0).wellFormed = false) ∧
    ((Instr.fwActivate ⟨16, 0, false⟩).wellFormed = false) ∧
    ((Instr.admissionLost 16).wellFormed = false) ∧
    (∀ x0, (Instr.spdmRequest 16 x0).wellFormed = false) ∧
    ((Instr.spdmHeartbeatMiss 16).wellFormed = false) ∧
    ((Instr.lockInterface 16).wellFormed = false) ∧
    ((Instr.getDeviceInterfaceReport 16).wellFormed = false) ∧
    ((Instr.startInterface 16).wellFormed = false) ∧
    ((Instr.stopInterface 16).wellFormed = false) ∧
    ((Instr.ideKm 16).wellFormed = false) ∧
    ((Instr.ideTlpFailure 16).wellFormed = false) ∧
    (∀ x0 x1 x2, (Instr.mailboxSetPower x0 16 x1 x2).wellFormed = false) ∧
    (∀ x0 x1 x2, (Instr.mailboxFenceReset x0 x1 1 8 x2).wellFormed = false) ∧
    (∀ x0 x1, (Instr.mailboxChannelFilter x0 16 0 x1).wellFormed = false) ∧
    (∀ x0 x1, (Instr.mailboxChannelFilter x0 0 64 x1).wellFormed = false) ∧
    (∀ x0 x1, (Instr.mailboxDebugRead x0 1 8 x1).wellFormed = false) ∧
    (∀ x0, (Instr.linkPortEnable 8 x0).wellFormed = false) ∧
    (∀ x0, (Instr.linkPortDisable 8 x0).wellFormed = false) :=
  ⟨rfl, rfl, rfl, rfl, fun _ => rfl, rfl, rfl, rfl, rfl, fun _ => rfl, rfl, rfl, fun _ => rfl, rfl, rfl, 
    fun _ => rfl, rfl, rfl, rfl, rfl, rfl, rfl, rfl, fun _ _ _ => rfl, fun _ _ _ => rfl, fun _ _ => rfl, 
    fun _ _ => rfl, fun _ _ => rfl, fun _ => rfl, fun _ => rfl⟩

/-- Each of these names a thing that does not exist, and is refused (6 of 7). -/
theorem test_illFormed_6 :
    (∀ x0 x1, (Instr.linkTrainingComplete 8 x0 x1).wellFormed = false) ∧
    ((Instr.linkTrainingTimeout 8).wellFormed = false) ∧
    (∀ x0, (Instr.linkRetrain 8 x0).wellFormed = false) ∧
    ((Instr.retrainTimeout 8).wellFormed = false) ∧
    (∀ x0, (Instr.dataFrame 8 x0).wellFormed = false) ∧
    (∀ x0, (Instr.nakFrame 8 x0).wellFormed = false) ∧
    (∀ x0, (Instr.helloFrame 8 x0).wellFormed = false) ∧
    (∀ x0, (Instr.idleFrame 8 x0).wellFormed = false) ∧
    ((Instr.replayTimer 8).wellFormed = false) ∧
    ((Instr.creditReturn 8).wellFormed = false) ∧
    (∀ x0, (Instr.fieldFrameReceive 2 x0).wellFormed = false) ∧
    (∀ x0 x1, (Instr.fieldLink 2 x0 x1).wellFormed = false) ∧
    ((Instr.unitDeadline 64).wellFormed = false) ∧
    ((Instr.rtcpReport 64).wellFormed = false) ∧
    ((Instr.streamStall 64).wellFormed = false) ∧
    ((Instr.codecCoreDispatch 8).wellFormed = false) ∧
    ((Instr.pictureDone 8).wellFormed = false) ∧
    ((Instr.readIdxPoll 64).wellFormed = false) ∧
    ((Instr.poolWait 64).wellFormed = false) ∧
    ((Instr.encodeUnitDone 8).wellFormed = false) ∧
    (∀ x0, (Instr.setdasa 128 0 x0).wellFormed = false) ∧
    (∀ x0, (Instr.setdasa 0 128 x0).wellFormed = false) ∧
    ((Instr.setnewda 128 0).wellFormed = false) ∧
    ((Instr.setnewda 0 128).wellFormed = false) ∧
    ((Instr.getpid 128).wellFormed = false) ∧
    ((Instr.getbcr 128).wellFormed = false) ∧
    ((Instr.getdcr 128).wellFormed = false) ∧
    ((Instr.getstatus 128).wellFormed = false) ∧
    ((Instr.getmwl 128).wellFormed = false) ∧
    ((Instr.getmrl 128).wellFormed = false) :=
  ⟨fun _ _ => rfl, rfl, fun _ => rfl, rfl, fun _ => rfl, fun _ => rfl, fun _ => rfl, fun _ => rfl, rfl, rfl, 
    fun _ => rfl, fun _ _ => rfl, rfl, rfl, rfl, rfl, rfl, rfl, rfl, rfl, fun _ => rfl, fun _ => rfl, rfl, rfl, 
    rfl, rfl, rfl, rfl, rfl, rfl⟩

/-- Each of these names a thing that does not exist, and is refused (7 of 7). -/
theorem test_illFormed_7 :
    (∀ x0, (Instr.setmwl 128 x0).wellFormed = false) ∧
    (∀ x0, (Instr.setmrl 128 x0).wellFormed = false) ∧
    (∀ x0, (Instr.chainMessageError 128 x0).wellFormed = false) ∧
    ((Instr.chainPrivateRead 128).wellFormed = false) ∧
    ((Instr.status 128).wellFormed = false) ∧
    ((Instr.ident 128).wellFormed = false) ∧
    (∀ x0, (Instr.shedBudget 128 x0).wellFormed = false) ∧
    (∀ x0, (Instr.service 128 x0).wellFormed = false) ∧
    (∀ x0, (Instr.sparePool 128 x0).wellFormed = false) ∧
    (∀ x0, (Instr.moduleReset 128 x0).wellFormed = false) ∧
    (∀ x0, (Instr.clearAlert 128 x0).wellFormed = false) ∧
    (∀ x0, (Instr.monitorIn 128 x0).wellFormed = false) ∧
    ((Instr.monitorOut 128).wellFormed = false) ∧
    (∀ x0, (Instr.dumpComplete 1 8 x0).wellFormed = false) ∧
    (∀ x0, (Instr.recoveryComplete 1 8 x0).wellFormed = false) ∧
    ((Instr.recoveryOverdue 1 8).wellFormed = false) ∧
    ((Instr.strikerRoundStart 64).wellFormed = false) ∧
    (∀ x0, (Instr.strikerRoundDone 64 x0).wellFormed = false) ∧
    ((Instr.strikerOverdue 64).wellFormed = false) ∧
    (∀ x0 x1, (Instr.memoryTestSlice 24 x0 x1).wellFormed = false) ∧
    ((Instr.cycleStart 16 0).wellFormed = false) ∧
    ((Instr.cycleStart 0 64).wellFormed = false) ∧
    ((Instr.laneComplete 16 0).wellFormed = false) ∧
    ((Instr.laneComplete 0 64).wellFormed = false) ∧
    ((Instr.cycleDeadline 16 0).wellFormed = false) ∧
    ((Instr.cycleDeadline 0 64).wellFormed = false) ∧
    (∀ x0 x1 x2, (Instr.stateLoaded 64 x0 x1 x2).wellFormed = false) ∧
    (∀ x0, (Instr.configurationRequest 16 x0).wellFormed = false) ∧
    ((Instr.ringEnable 0 (.cq 16) 0).wellFormed = false) :=
  ⟨fun _ => rfl, fun _ => rfl, fun _ => rfl, rfl, rfl, rfl, fun _ => rfl, fun _ => rfl, fun _ => rfl, 
    fun _ => rfl, fun _ => rfl, fun _ => rfl, rfl, fun _ => rfl, fun _ => rfl, rfl, rfl, fun _ => rfl, rfl, 
    fun _ _ => rfl, rfl, rfl, rfl, rfl, rfl, rfl, fun _ _ _ => rfl, fun _ => rfl, rfl⟩

/-! ### States -/

/-- A module long in READY: every domain in RUN, the guard, the steward and the host link up, the map of routers full,
and an address on the chain. -/
def live : State :=
  let s := State.reset
  { s with
    now := 10 ^ 16
    boot := { s.boot with st := .ready, guardUp := true, served := true, stepEight := true, dynAddr := some 0x20, guardAt := some 0 }
    power := { s.power with rails := List.replicate 12 .good, doms := s.power.doms.map (fun d => { d with st := .run, target := .run, wantSt := .run }) }
    fabric := { s.fabric with locked := 0x3FFFFFF }
    sec := { s.sec with steward := true }
    mem := { s.mem with avail := BitVec.allOnes 64, ports := s.mem.ports.map (fun q => { q with avail := true }), bchans := s.mem.bchans.map (fun q => { q with avail := true }) }
    host := { s.host with up := true, numVfs := 15 } }

/-- The same with another state of the module. -/
def inSt (st : ModSt) : State := { live with boot := { live.boot with st := st } }

/-- The same with a change to partition p's security state. -/
def secAt (p : Nat) (f : PartSec → PartSec) : State := live.onSec p f

/-! ### Descriptors -/

/-- A descriptor's bytes: opcode, ENGINE, PRIO 1, and fields as (offset, width, value). -/
def bytesOf (op engine : Nat) (l : List (Nat × Nat × Nat)) : List Byte :=
  l.foldl (fun a x => a.take x.1 ++ toLe x.2.1 x.2.2 ++ a.drop (x.1 + x.2.1)) (toLe 1 op ++ [0] ++ toLe 1 engine ++ [1] ++ zeros 60)

/-- The fetched descriptor number 5 of SQ 1 with these bytes. -/
def dsc (op engine : Nat) (l : List (Nat × Nat × Nat)) : Desc :=
  { num := 5, bytes := bytesOf op engine l, sq := 1, slot := 0, cq := 0 }

/-- The same from SQ 0: on P0 the admin ring. -/
def adm (op : Nat) (l : List (Nat × Nat × Nat)) : Desc := { dsc op 0xFF l with sq := 0 }

/-- Its reference in partition p. -/
def ref (p : Nat) : DescRef := { part := p, num := 5 }

/-- A tensor record. -/
def trec (va fmt rows cols pitch : Nat) : List Byte :=
  toLe 6 va ++ toLe 1 fmt ++ [0] ++ toLe 4 rows ++ toLe 4 cols ++ toLe 4 pitch ++ toLe 4 1 ++ zeros 8

/-- A live module whose P1 is RUNNING on domain 1 with engine 0 on tile 2, the first 2 MiB of its addresses mapped to granule 0
which it owns, and these bytes in memory; `d` is fetched. -/
def run1 (m : List (Nat × List Byte)) (d : Desc) : State :=
  let s := live.onPart 1 (fun q => { q with
    sec := { q.sec with st := .running, vdMask := 2, channels := 0xFF }
    engines := [{ idx := 0, tiles := [2], elastic := false, image := 1, release := 1, defTimeout := 0 }]
    mem := { q.mem with enable := true, xlat := [⟨none, 0, 0x200000, 0, true⟩, ⟨some 2, 0, 0x200000, 0, true⟩] }
    fetched := [d] })
  { s with
    boot := { s.boot with fw := updAt s.boot.fw 2 (fun f => { f with a := { f.a with images := [⟨1, List.range 128, 4⟩] } }) }
    fabric := { s.fabric with tiles := updAt s.fabric.tiles 2 (fun t =>
      { t with st := .idle, engine := some 0, part := some 1, release := 1, image := 1 }) }
    mem := { s.mem with
      cells := m.foldl (fun c x => c.write x.1 x.2) []
      grans := updAt s.mem.grans 0 (fun g => { g with owner := 1, slices := (List.range 16).map (fun i => (i, 0)) }) } }

/-- A live module with P0 configured, its own granule 1 mapped at address 0 with these bytes in it, P1 as `run1` has it but with
this security state, and `d` fetched from the admin ring. -/
def run0 (f : PartSec → PartSec) (m : List (Nat × List Byte)) (d : Desc) : State :=
  let s := ((run1 (m.map (fun x => (granSize + x.1, x.2))) d).onPart 1 (fun q => { q with sec := f q.sec, fetched := [] })).onPart 0
    (fun q => { q with sec := { q.sec with st := .running }, fetched := [d],
                       mem := { q.mem with enable := true, xlat := [⟨none, 0, 0x200000, granSize, true⟩] } })
  { s with mem := { s.mem with grans := updAt s.mem.grans 1 (fun g => { g with owner := 0, slices := (List.range 16).map (fun i => (i, 1)) }) } }

/-- `State.Ready`, decided. -/
def readyB (s : State) (r : DescRef) (d : Desc) : Bool :=
  s.desc? r.part r.num == some d && d.startedAt.isNone && s.mayStart r.part d && (s.checks r.part d).isNone && !r.startOnly

theorem ready_of {s : State} {r : DescRef} {d : Desc} (h : readyB s r d = true) : s.Ready r d := by
  simp only [readyB, Bool.and_eq_true, beq_iff_eq, Option.isNone_iff_eq_none, Bool.not_eq_true'] at h
  exact ⟨h.1.1.1.1, h.1.1.1.2, h.1.1.2, h.1.2, h.2⟩

/-- A result that is not a failure. -/
def isOk {ε α : Type} (x : Except ε α) : Bool := match x with | .ok _ => true | .error _ => false

theorem ok_of {ε α β : Type} {x : Except ε (α × β)} (h : isOk x = true) : ∃ a b, x = .ok (a, b) := by
  cases x with
  | ok a => exact ⟨a.1, a.2, rfl⟩
  | error e => cases h

theorem eq_ok {ε α : Type} {x : Except ε α} {a : α} (h : x.toOption = some a) : x = .ok a := by
  cases x with
  | ok b => simpa [Except.toOption] using h
  | error e => cases h

/-! ### What each statement asks can be met -/

theorem witness_ChainCodesComplete :
    (live.chainUp = true ∧ ({ live with boot := { live.boot with dynAddr := none } } : State).boot.dynAddr = none ∧ 1000 ≤ 1000 ∧
      0x08 ≤ 0x08 ∧ 0x08 ≤ 0x37) ∧
    (({ live with boot := { live.boot with dynAddr := none } } : State).chainUp = true) ∧
    (live.chainUp = true ∧ live.boot.dynAddr = some 0x20) ∧
    (live.chainUp = true ∧ (live.boot.dynAddr = some 0x7E ∨ 0x7E = broadcast) ∧ 64 ≤ 256 ∧ 256 ≤ 256) := by
  and_intros <;> decide +kernel

theorem witness_ChainMessagesComplete :
    (live.chainUp = true ∧ live.boot.dynAddr = some 0x20 ∧ 65535 < 65536 ∧ 1 ≤ 1) ∧
    (({ live with boot := { live.boot with outOfService := true } } : State).boot.outOfService = decide (0 = 0)) ∧
    (live.boot.outOfService = decide (1 = 0)) ∧
    (live.boot.guardUp = true ∧ live.boot.resetAt = none ∧ 6 ∈ [0, 2, 4, 6]) ∧
    (live.monUp true = true ∧ 1 ≤ (List.replicate 64 (0x61 : Byte)).length ∧ (List.replicate 64 (0x61 : Byte)).length ≤ 64) ∧
    (([1, 2] : List Byte).getLast? ≠ some (chainCheck 0x20 0 ([1, 2] : List Byte).dropLast)) ∧
    (([0x7F, 0, chainCheck 0x20 0 [0x7F, 0]] : List Byte).getLast? = some (chainCheck 0x20 0 [0x7F, 0]) ∧
      messageOk [0x7F, 0, chainCheck 0x20 0 [0x7F, 0]] = false) ∧
    (({ live with boot := { live.boot with pendResp := some (2, [1]) } } : State).boot.pendResp = some (2, [1]) ∧ 2 ≠ 0x41) ∧
    live.boot.pendResp = none := by
  and_intros <;> decide +kernel

/-- Start-up in GUARD_BOOT with a good image, its guard running since `g`. -/
def booting (st : ModSt) (g : Option Nat) : State :=
  { State.reset with
    now := 10 ^ 16
    boot := { State.reset.boot with st := st, guardAt := g, guardUp := true } }

/-- Start-up in STEWARD_BOOT with the steward's active image bad and the other good. -/
def fallback : State :=
  (booting .stewardBoot (some 0)).onFw 1 (fun f => { f with a := { f.a with valid := false }, b := { f.b with valid := true } })

theorem witness_StartUpStepsComplete :
    (State.reset.romReady = true ∧ (State.reset.fwTarget 0).good (State.reset.fwTarget 0).active = true ∧
      State.reset.boot.attempts < 3) ∧
    (let s := booting .precharge none
     s.boot.st = .precharge ∧ s.power.prechg = true ∧ 2500 ≤ 2300 + 200 ∧ 2300 ≤ 2500 + 200 ∧ s.boot.guardAt = none ∧
      s.boot.svcLow = false ∧ s.boot.resetAt = none ∧ (s.power.rails.drop 1).all (fun r => r == .off) = true ∧
      (s.fwTarget 0).good (s.fwTarget 0).active = true ∧ s.boot.attempts < 3) ∧
    (let s : State := { booting .guardBoot (some 0) with power := live.power }
     s.boot.st = .guardBoot ∧ s.boot.guardAt.isSome = true ∧ s.power.railsGood = true) ∧
    ((booting .stewardBoot (some 0)).boot.st = .stewardBoot ∧
      ((booting .stewardBoot (some 0)).fwTarget 1).good ((booting .stewardBoot (some 0)).fwTarget 1).active = true) ∧
    (fallback.boot.st = .stewardBoot ∧ (fallback.fwTarget 1).good (fallback.fwTarget 1).active = false ∧
      fallback.boot.stewardFallback = false ∧ (fallback.fwTarget 1).good (fallback.fwTarget 1).other = true) ∧
    ((inSt .train).boot.st = .train ∧ (inSt .train).domsThere = true) ∧
    (let s : State := { booting .selftest (some 0) with boot := { (booting .selftest (some 0)).boot with trained := 0xFF } }
     s.boot.st = .selftest ∧ 8 ≤ ((List.range 16).filter (fun i => s.boot.trained.testBit i)).length ∧
      ((List.range 64).filter (List.range 32).contains).length ≤ 32) ∧
    ((booting .guardBoot (some 0)).boot.guardAt = some 0 ∧ 0 + 150000000 ≤ (booting .guardBoot (some 0)).now) ∧
    (live.boot.guardUp = true ∧ live.boot.resetAt = none ∧ 10000 ≤ 10000 ∧ live.boot.svcLow = false ∧ live.chainUp = true) ∧
    (live.sec.steward = true ∧ live.sec.heartbeatAt + 1000000000 ≤ live.now) ∧
    (let s : State := { live with sec := { live.sec with steward := false } }
     s.sec.steward = false ∧ s.boot.stepEight = true ∧ s.boot.st = .ready) := by
  and_intros <;> decide +kernel

theorem witness_TrustMessagesComplete :
    (live.doeServed = true ∧ live.hasFn 1 = true ∧ (live.part 1).sec.session = false ∧ (live.part 1).sec.handshake = false) ∧
    ((secAt 1 (fun x => { x with handshake := true })).hasFn 1 = true ∧ (secAt 1 (fun x => { x with handshake := true })).doeServed = true ∧
      ((secAt 1 (fun x => { x with handshake := true })).part 1).sec.handshake = true) ∧
    (let s := secAt 15 (fun x => { x with session := true })
     s.doeServed = true ∧ s.hasFn 15 = true ∧ (s.part 15).sec.session = true ∧ (s.part 15).sec.heartbeatAt + 20000000000 ≤ s.now ∧
      (s.measurement 15 (16 + 15)).isSome = true ∧ s.measurement 15 (16 + 14) = none) ∧
    (let s := secAt 1 (fun x => { x with tdi := .unlocked, st := .configured })
     s.tdispServed 1 = true ∧ (s.part 1).sec.tdi = .unlocked ∧ (s.part 1).sec.st = .configured) ∧
    (let s := secAt 1 (fun x => { x with tdi := .unlocked })
     s.tdispServed 1 = true ∧ (s.part 1).sec.tdi = .unlocked ∧ (s.part 1).sec.st ≠ .configured) ∧
    (let s := secAt 1 (fun x => { x with tdi := .locked })
     s.tdispServed 1 = true ∧ (s.part 1).sec.tdi = .locked) ∧
    (let s := secAt 1 (fun x => { x with tdi := .run })
     s.tdispServed 1 = true ∧ (s.part 1).sec.tdi = .run) ∧
    ((secAt 0 (fun x => { x with session := true })).doeServed = true ∧
      (secAt 0 (fun x => { x with session := true })).hasFn 2 = true ∧
      ((secAt 0 (fun x => { x with session := true })).part 0).sec.session = true) ∧
    (1 < 16 ∧ ((secAt 1 (fun x => { x with tdi := .run })).part 1).sec.tdi = .run) ∧
    (secAt 2 (fun x => { x with secMode := 1 })).admissionGone 2 = some 1 ∧
    (secAt 2 (fun x => { x with secMode := 2 })).admissionGone 2 = some 2 ∧
    (live.boot.stepEight = true ∧ live.moduleDeep = false) := by
  and_intros <;> decide +kernel

theorem witness_MailboxRequestsComplete :
    (live.sec.steward = true ∧ 15 < 16 ∧ 16 ≤ 16 ∧ 63 < 64 ∧ 7 < unitCount 1 ∧ 1 ≠ 0) ∧
    (let s := live.onChan 63 (fun c => { c with isOpen := true, part := 3 })
     s.sec.steward = true ∧ 63 < 64 ∧ (s.chan 63).isOpen = true ∧ (s.chan 63).part = 3) ∧
    (0xFFFC < 0x10000 ∧ 0xFFFC / 0x1000 ≠ 4 ∧ 0xFFFC % 4 = 0 ∧ 0x4FFC / 0x1000 = 4) ∧
    ((zeros 32).length ≤ 32 ∧ 32 < (zeros 33).length) := by
  and_intros <;> decide +kernel

/-- The service session (or the relay one) at a level, its next line `w`. -/
def typedAt (relay engineer : Bool) (w : String) : State :=
  live.onSession relay (fun x => { x with engineer := engineer, lines := [ascii w] })

theorem witness_MonitorReportsComplete :
    (typedAt true false "help").drain.nextLine true = some [ascii "help"] ∧
    (typedAt false false "fw").drain.nextLine false = some [ascii "fw"] ∧
    (typedAt false false "log health").drain.nextLine false = some [ascii "log", ascii "health"] ∧
    (typedAt false false "log pq").drain.nextLine false = some [ascii "log", ascii "pq"] ∧
    (∃ w off, (typedAt false false "reg read 0x0000A000").drain.nextLine false = some [ascii "reg", ascii "read", w] ∧
      regOffset w = some off) ∧
    (∃ ws, (typedAt false false "hello").drain.nextLine false = some ws ∧ commandList.any (fun c => named c.1 ws) = false) :=
  ⟨by decide +kernel, by decide +kernel, by decide +kernel, by decide +kernel,
    ⟨ascii "0x0000A000", 0xA000, by decide +kernel, by decide +kernel⟩, ⟨[ascii "hello"], by decide +kernel, by decide +kernel⟩⟩
/-- An engineer's next line on the service session. -/
def eng (w : String) : State := (typedAt false true w).drain

/-- The session once the line is taken. -/
def taken (s : State) : State := s.drain.onSession false (fun x => { x with lines := x.lines.tail })

/-- A line of `auth` with its 24 groups of 8 digits, while a challenge of the session stands. -/
def answering : State :=
  let s := live.onSession false (fun x =>
    { x with lines := [ascii "auth" ++ (List.replicate 24 (ascii " 01234567")).flatMap id] })
  { s with mon := { s.mon with challenge := some (false, 7, 1, 10 ^ 16) } }

theorem witness_MonitorActionsComplete :
    ((eng "auth").drain.nextLine false = some [ascii "auth"] ∧ (taken (eng "auth")).authShut = false ∧
      (taken (eng "auth")).openChallenge = none) ∧
    (answering.drain.nextLine false = some (ascii "auth" :: List.replicate 24 (ascii "01234567")) ∧
      (List.replicate 24 (ascii "01234567")).length = 24 ∧ (List.replicate 24 (ascii "01234567")).all isGroup = true ∧
      (taken answering).authShut = false ∧ (taken answering).openChallenge = some (false, 7, 1, 10 ^ 16) ∧
      ((taken answering).session true).engineer = false) ∧
    ((eng "logout").drain.nextLine false = some [ascii "logout"] ∧ ((eng "logout").drain.session false).engineer = true) ∧
    ((eng "baud 115200").drain.nextLine false = some [ascii "baud", ascii "115200"] ∧ numberOf (ascii "115200") = some 115200) ∧
    (((eng "fence T63").drain.session false).engineer = true ∧ unitNamed (ascii "T63") = some (0, 63) ∧
      (eng "fence T63").drain.nextLine false = some [ascii "fence", ascii "T63"] ∧
      (taken (eng "fence T63")).isFenced (0, 63) = false ∧
      (eng "dump T63").drain.nextLine false = some [ascii "dump", ascii "T63"]) ∧
    (domNamed (ascii "VD15") = some 15 ∧
      (eng "pstate VD15 HOLD").drain.nextLine false = some [ascii "pstate", ascii "VD15", ascii "HOLD"] ∧
      PState.hold ≠ .deep ∧ PState.hold.text = ascii "HOLD" ∧
      ((taken (eng "pstate VD15 HOLD")).mailPower 15 none (some .hold)).isSome = true) ∧
    ((eng "vset VD0 120").drain.nextLine false = some [ascii "vset", ascii "VD0", ascii "120"] ∧
      numberOf (ascii "120") = some 120 ∧ 120 ≤ 120 ∧ ((taken (eng "vset VD0 120")).mailPower 0 (some 120) none).isSome = true) ∧
    ((eng "reg write 0xA000 0x640").drain.nextLine false = some [ascii "reg", ascii "write", ascii "0xA000", ascii "0x640"] ∧
      regOffset (ascii "0xA000") = some 0xA000 ∧ numberOf (ascii "0x640") = some 0x640 ∧ 0x640 < 2 ^ 32 ∧
      monWritable.contains 0xA000 = true ∧ 0xA000 ≠ 0x702C) ∧
    (((eng "reset T00").session false).await = none ∧ (eng "reset T00").drain.nextLine false = some [ascii "reset", ascii "T00"] ∧
      unitNamed (ascii "T00") = some (0, 0) ∧ ((eng "reset T00").drain.unit 0 0).fenced = false ∧ 0 < unitCount 0) ∧
    (let s := (live.onUnit 1 7 (fun u => { u with fenced := true })).onSession false (fun x =>
       { x with engineer := true, lines := [ascii "unfence " ++ unitName 1 7] })
     (s.session false).await = none ∧ s.drain.nextLine false = some [ascii "unfence", unitName 1 7] ∧
      (s.drain.session false).engineer = true ∧ unitNamed (unitName 1 7) = some (1, 7) ∧ s.drain.isFenced (1, 7) = true ∧ 1 ≠ 0) ∧
    ((typedAt true false "vset VD0 120").drain.nextLine true = some (ascii "vset" :: [ascii "VD0", ascii "120"]) ∧
      ((typedAt true false "vset VD0 120").drain.session true).engineer = false) := by
  and_intros <;> decide +kernel

theorem witness_MonitorLineComplete :
    (live.drain.monUp false = true ∧ 0x20 ≤ (0x7E : Byte).toNat ∧ (0x7E : Byte).toNat ≤ 0x7E ∧
      live.drain.mon.service.afterCr = false ∧ live.drain.mon.service.line.length < 256) ∧
    250 ≤ 250 ∧
    (let s : State := { live with mon := { live.mon with baud := 9600 } }
     s.mon.baud ≠ 115200 ∧ s.mon.lastByte + 60000000000 ≤ s.now) ∧
    (((typedAt true true "fw").session true).engineer = true ∧
      ((typedAt true true "fw").session true).lastLine + 1800000000000 ≤ (typedAt true true "fw").now) ∧
    live.openChallenge = none ∧
    (let s : State := { live with mon := { live.mon with lockUntil := some (10 ^ 16) } }
     s.mon.lockUntil = some (10 ^ 16) ∧ 10 ^ 16 ≤ s.now) ∧
    (let s := live.onSession true (fun x => { x with waitSince := some 0, waiting := [1] })
     (s.drain.session true).waitSince = some 0 ∧ 0 + 30000000000 ≤ s.now) := by
  and_intros <;> decide +kernel
theorem witness_FirstFailedCheckCompletes :
    (let d := dsc 0x94 0xFF []
     let s := run1 [] d
     s.desc? 1 5 = some d ∧ d.op = 0x94 ∧ d.startedAt = none ∧ s.mayStart 1 d = true ∧ (s.checks 1 d).isSome = true) ∧
    (let d := { dsc 0x00 0xFF [(1, 1, 0x20)] with pred := some 4, predStatus := some 0x40 }
     d.chain = true ∧ d.pred = some 4 ∧ d.predStatus = some 0x40 ∧ 0x40 ≠ 0x00 ∧ 0x40 ≠ 0x01) ∧
    (let d := dsc 0x0F 0xFF []
     (d.chain = false ∨ d.pred = none) ∧ opInfo d.op = none ∧ d.op = byteAt d.bytes 0) ∧
    (let d := dsc 0x91 0xFF [(17, 1, 2)]
     (d.chain = false ∨ d.pred = none) ∧ staticFail d.act.isSome d.bytes = none ∧ 0x90 ≤ d.op ∧ d.op ≤ 0x9F ∧
      (0 ≠ 0 ∨ d.sq ≠ 0)) := by
  and_intros <;> decide +kernel

/-- An act of one NOP in P1's memory at 0x1000. -/
def actMem : List (Nat × List Byte) := [(0x1000, toLe 2 1), (0x1040, bytesOf 0x00 0xFF [(3, 1, 0)])]

/-- What it reads as. -/
def oneNop : ActRead := { lane0 := [bytesOf 0x00 0xFF [(3, 1, 0)]] }

/-- P1 with slot 3 in use. -/
def acting (d : Desc) : State := (run1 [] d).onAct 1 3 (fun a => { a with st := .running })

theorem witness_ControlCommandsComplete :
    (let d := dsc 0x00 0xFF []
     (run1 [] d).Ready (ref 1) d ∧ d.op = 0x00) ∧
    (let d := dsc 0x01 0xFF []
     (run1 [] d).Ready (ref 1) d ∧ d.op = 0x01) ∧
    (let d := dsc 0x02 0xFF [(16, 1, 1)]
     (run1 [] d).Ready (ref 1) d ∧ d.op = 0x02 ∧ (d.fld 16 1).testBit 0 = true) ∧
    (let d := dsc 0x02 0xFF []
     (run1 [] d).Ready (ref 1) d ∧ d.op = 0x02 ∧ (d.fld 16 1).testBit 0 = false) ∧
    (let d := dsc 0x03 0xFF [(16, 1, 255), (17, 1, 2), (24, 8, 2 ^ 64 - 1)]
     (run1 [] d).Ready (ref 1) d ∧ d.op = 0x03 ∧ d.fld 24 8 < 2 ^ 64 ∧ d.engine = 0xFF) ∧
    (let d := dsc 0x04 0xFF [(16, 1, 255)]
     (run1 [] d).Ready (ref 1) d ∧ d.op = 0x04 ∧ d.engine = 0xFF ∧ waitHolds d ((run1 [] d).counter 1 (d.fld 16 1)) = true) ∧
    (let d := dsc 0x04 0xFF [(24, 8, 1), (32, 8, 1)]
     (run1 [] d).Ready (ref 1) d ∧ d.op = 0x04 ∧ d.engine = 0xFF ∧ waitHolds d ((run1 [] d).counter 1 (d.fld 16 1)) = false) ∧
    (let d := { dsc 0x04 0xFF [(24, 8, 1), (32, 8, 10 ^ 16)] with startedAt := some 7 }
     (run1 [] d).desc? 1 5 = some d ∧ d.op = 0x04 ∧ d.startedAt = some 7 ∧ d.fld 32 8 ≠ 0 ∧ d.fld 32 8 ≤ (run1 [] d).now) ∧
    (let d := dsc 0x05 0xFF [(16, 1, 1), (24, 8, 10 ^ 16)]
     (run1 [] d).Ready (ref 1) d ∧ d.op = 0x05 ∧ d.engine = 0xFF ∧ d.fld 16 1 = 1) ∧
    (let d := dsc 0x05 0xFF [(24, 8, 1)]
     (run1 [] d).Ready (ref 1) d ∧ d.op = 0x05 ∧ d.engine = 0xFF ∧ d.fld 16 1 = 0 ∧ d.fld 24 8 ≠ 0) ∧
    (let d := { dsc 0x05 0xFF [(24, 8, 1)] with startedAt := some (10 ^ 16 - 1) }
     (run1 [] d).desc? 1 5 = some d ∧ d.op = 0x05 ∧ d.startedAt = some (10 ^ 16 - 1) ∧
      (if d.fld 16 1 = 1 then d.fld 24 8 else 10 ^ 16 - 1 + d.fld 24 8) ≤ (run1 [] d).now) ∧
    (let d := dsc 0xFE 0xFF []
     (run1 [] d).desc? 1 5 = some d ∧ opInfo d.op = none ∧ d.startedAt = none ∧ d.chain = false ∧ (run1 [] d).mayStart 1 d = true) ∧
    (let d := dsc 0x06 0xFF [(16, 1, 63), (18, 6, 0x1000)]
     let s := run1 actMem d
     s.Ready (ref 1) d ∧ d.op = 0x06 ∧ d.engine = 0xFF ∧ d.fld 17 1 = 0 ∧ (s.act 1 (d.fld 16 1)).st = .free ∧
      s.readActRun 1 d = .ok oneNop ∧
      (s.started 1 d).readActRun 1 d = .ok oneNop) ∧
    (let d := dsc 0x06 0xFF [(16, 1, 3)]
     (acting d).Ready (ref 1) d ∧ d.op = 0x06 ∧ ((acting d).act 1 (d.fld 16 1)).st ≠ .free ∧ d.fld 17 1 = 0) ∧
    (let d := dsc 0x07 0xFF [(16, 1, 3)]
     (acting d).Ready (ref 1) d ∧ d.op = 0x07 ∧ d.engine = 0xFF ∧ ((acting d).act 1 (d.fld 16 1)).st ≠ .free) ∧
    (let d := dsc 0x07 0xFF [(16, 1, 4)]
     (acting d).Ready (ref 1) d ∧ d.op = 0x07 ∧ ((acting d).act 1 (d.fld 16 1)).st = .free) := by
  and_intros <;> first | (apply ready_of; decide +kernel) | (apply eq_ok; decide +kernel) | decide +kernel
/-- A tensor command's descriptor on engine 0, its parameter block of `n` records at 0x1000. -/
def tensor (op n : Nat) (l : List (Nat × Nat × Nat)) : Desc := dsc op 0 ([(16, 6, 0x1000), (22, 1, n)] ++ l)

/-- Its state: the records at 0x1000 and these tensors. -/
def onTensors (d : Desc) (recs : List (List Byte)) (l : List (Nat × List Byte)) : State :=
  run1 (recs.zipIdx.map (fun x => (0x1000 + 32 * x.2, x.1)) ++ l) d

/-- What `TensorCommandsComplete` asks of one opcode, decided. -/
def tensorB (s : State) (d : Desc) (bad : Desc → List Byte → List (Bool × Nat)) (more : List Byte → Bool)
    (run : State → Nat → Desc → List Byte → Except Fail (State × Done)) : Bool :=
  readyB s (ref 1) d && (match s.paramBlock 1 d with
    | .ok b => (s.digestReach 1 d).isNone && (firstBad (bad d b)).isNone && more b &&
        ((((s.started 1 d).atWork 1 d).paramBlock 1 d).toOption == some b && isOk (run ((s.started 1 d).atWork 1 d) 1 d b))
    | .error _ => false)

theorem tensor_of {s : State} {d : Desc} {bad more run} (h : tensorB s d bad more run = true) :
    ∃ (b : List Byte) (t : State) (o : Done), s.Ready (ref 1) d ∧ s.paramBlock 1 d = .ok b ∧ s.digestReach 1 d = none ∧
      firstBad (bad d b) = none ∧ more b = true ∧ ((s.started 1 d).atWork 1 d).paramBlock 1 d = .ok b ∧
      run ((s.started 1 d).atWork 1 d) 1 d b = .ok (t, o) := by
  unfold tensorB at h
  cases hb : s.paramBlock 1 d with
  | error e => simp [hb] at h
  | ok b =>
    simp only [hb, Bool.and_eq_true, Option.isNone_iff_eq_none, beq_iff_eq] at h
    obtain ⟨t, o, ho⟩ := ok_of h.2.2.2
    exact ⟨b, t, o, ready_of h.1, rfl, h.2.1.1.1, h.2.1.1.2, h.2.1.2, eq_ok h.2.2.1, ho⟩

/-- Every clause of `TensorCommandsComplete` has its operands: what each of these gives is a next state, by `tensor_of`. -/
theorem witness_TensorCommandsComplete :
    (let d := tensor 0x10 3 []
     let s := onTensors d [trec 0x2000 0x0C 1 64 0, trec 0x3000 0x0C 64 1 0, trec 0x4000 0x0E 1 1 0] [(0x2000, [0x80, 0x3F])]
     tensorB s d matmulBad (fun b => (modeBad d (!is16 (slotRec b 0).fmt) (slotRec b 0).cols).isNone && (s.matmulLists 1 d b).isNone)
      State.runMatmul = true) ∧
    (let d := tensor 0x11 3 [(48, 2, 1), (50, 2, 1), (52, 1, 1), (53, 1, 1), (54, 1, 0x11), (55, 1, 0x11), (60, 2, 1)]
     tensorB (onTensors d [trec 0x2000 0x0C 1 64 0, trec 0x3000 0x0C 64 1 0, trec 0x4000 0x0E 1 1 0] []) d convBad
      (fun b => (modeBad d (!is16 (slotRec b 0).fmt) (d.geo.kh * d.geo.kw * ((slotRec b 0).cols / d.geo.g))).isNone)
      State.runConv = true) ∧
    (let d := tensor 0x12 4 []
     tensorB (onTensors d [trec 0x2000 0x0E 1 2 0, trec 0x3000 0x0E 1 2 0, zeros 32, trec 0x4000 0x0E 1 2 0] []) d eltwiseBad
      (fun _ => true) State.runEltwise = true) ∧
    (let d := tensor 0x13 2 []
     tensorB (onTensors d [trec 0x2000 0x0E 1 2 0, trec 0x4000 0x0E 1 1 0] []) d reduceBad (fun _ => true) State.runReduce = true) ∧
    (let d := tensor 0x14 4 [(52, 4, 0x3F800000)]
     tensorB (onTensors d [trec 0x2000 0x0E 1 2 0, trec 0x3000 0x0E 1 2 0, zeros 32, trec 0x4000 0x0E 1 2 0] []) d normBad
      (fun _ => true) State.runNorm = true) ∧
    (let d := tensor 0x15 2 []
     tensorB (onTensors d [trec 0x2000 0x0E 1 2 0, trec 0x4000 0x0E 1 2 0] []) d softmaxBad (fun _ => true) State.runSoftmax = true) ∧
    (let d := tensor 0x16 2 []
     tensorB (onTensors d [trec 0x2000 0x0E 1 2 0, trec 0x4000 0x0C 1 2 0] []) d convertBad (fun _ => true) State.runConvert = true) ∧
    (let d := tensor 0x17 3 []
     tensorB (onTensors d [trec 0x2000 0x0E 2 2 0, trec 0x3000 0x13 1 1 0, trec 0x4000 0x0E 1 2 0] []) d gatherBad
      (fun _ => true) State.runGather = true) ∧
    (let d := tensor 0x18 3 []
     tensorB (onTensors d [trec 0x2000 0x0E 1 2 0, trec 0x3000 0x13 1 1 0, trec 0x4000 0x0E 2 2 0] []) d scatterBad
      (fun _ => true) State.runScatter = true) ∧
    (let d := tensor 0x19 2 []
     d.srcHost = false ∧ tensorB (onTensors d [trec 0x2000 0x14 1 2 0, trec 0x4000 0x14 1 2 0] [(0x2000, [7, 8])]) d copyBad
      (fun _ => true) (fun s p x b => s.runCopy p x (.data []) b) = true) ∧
    (let d := dsc 0x19 0xFF [(16, 6, 0x1000), (22, 1, 2), (48, 1, 1)]
     d.srcHost = true ∧ tensorB (onTensors d [trec 0x2000 0x14 1 2 0, trec 0x4000 0x14 1 2 0] []) d copyBad
      (fun _ => true) (fun s p x b => s.runCopy p x (.data [7, 8]) b) = true) ∧
    (let d := tensor 0x1A 1 [(48, 1, 0xAB)]
     tensorB (onTensors d [trec 0x4000 0x14 1 2 0] []) d fillBad (fun b => (patternBad d b).isNone) State.runFill = true) ∧
    (let d := tensor 0x1B 1 [(40, 6, 0x5000)]
     tensorB (onTensors d [trec 0x2000 0x14 1 2 0] []) d digestBadBlock (fun _ => true) State.runDigest = true) := by
  and_intros <;> decide +kernel
/-- P1 in a group of n ranks as rank 0, LP0 up to the next and LP1 to the last. -/
def inRing (n : Nat) (s : State) : State :=
  let near := fun (q : LinkPort) => { q with owner := 1, st := LinkSt.up }
  ((s.onPart 1 (fun q => { q with groups := updAt q.groups 15 (fun _ => some
    { n := n, rank := 0, up := if n = 1 then none else some 0, down := if n = 1 then none else some 1, gid := 9, serialUp := 0,
      serialDown := 0 }) })).onLp 0 near).onLp 1 near

/-- What `CollectiveAndCheckpointCommandsComplete` asks of a collective. -/
def collB (n : Nat) (peers : List RankMsg) (d : Desc) (recs : List (List Byte)) : Bool :=
  let s := inRing n (onTensors d recs [])
  readyB s (ref 1) d && s.collEnds (ref 1) peers && (s.collCheck 1 d).isNone &&
    (match (s.started 1 d).group? 1 (d.fld 24 1) with
      | some g => ((s.started 1 d).ringHolder 1 g).isNone && (s.started 1 d).ringOk g (d.fld 28 4)
      | none => false) && isOk (State.runColl peers (((s.started 1 d).enterRing 1 d).atWork 1 d) 1 d)

/-- A collective of group 15 on engine 0, its parameter block of two records. -/
def coll (op : Nat) : Desc := dsc op 0 [(16, 6, 0x1000), (22, 1, 2), (24, 1, 15)]

/-- The operands of each command of `CollectiveAndCheckpointCommandsComplete`. -/
theorem witness_CollectiveAndCheckpointCommandsComplete :
    (let d := dsc 0x6F 0xFF [(16, 1, 15), (20, 6, 0x2000)]
     let s := run1 [(0x2000, [1, 0, 0, 0, 1, 0, 0xFF, 0xFF])] d
     readyB s (ref 1) d && d.op == 0x6F && (s.groupCheck 1 d).isNone &&
       isOk (((s.started 1 d).atWork 1 d).readVa 1 none 0 (d.fld 20 6) 64)) = true ∧
    ([0x60, 0x61, 0x62, 0x63, 0x64].all (fun op => collB 1 [] (coll op) [trec 0x2000 0x0E 1 2 0, trec 0x3000 0x0E 1 2 0])) = true ∧
    (let d := coll 0x60
     collB 2 [{ rank := 1, roll := [9, 0, 0x60, 0, 0, 0, 0, 0, 0x0E, 0x0E, 2], data := zeros 8 }] d
       [trec 0x2000 0x0E 1 2 0, trec 0x3000 0x0E 1 2 0]) = true ∧
    (let s := inRing 2 live
     decide (0 < 8) && decide ((s.lp 0).owner < 16) && (s.lp 0).st == .up) = true ∧
    (let d := dsc 0x80 0xFF [(16, 6, 0x2000), (22, 2, 1), (24, 1, 0xFF), (48, 8, 0x2000)]
     let s := run1 [(0x2001, [0x30]), (0x2008, [1])] d
     readyB s (ref 1) d && d.op == 0x80 && s.ckFree 1 d && (s.ckCheck 1 d).isNone &&
       isOk (((((s.started 1 d).ckBind 1 d).atWork 1 d).ckBind 1 d).runCheckpoint 1 d)) = true ∧
    (let d := dsc 0x81 0xFF [(16, 6, 0x2000), (22, 2, 1), (24, 1, 15), (48, 8, 0x2000)]
     let s := run1 [(0x2001, [0x30]), (0x2008, [1])] d
     readyB s (ref 1) d && d.op == 0x81 && s.ckFree 1 d && (s.ckCheck 1 d).isNone &&
       isOk (State.runRestore (.data (zeros 64)) ((((s.started 1 d).ckBind 1 d).atWork 1 d).ckBind 1 d) 1 d)) = true ∧
    (let d := dsc 0x82 0xFF [(28, 4, 3), (32, 8, 1)]
     let s := run1 [] d
     readyB s (ref 1) d && d.op == 0x82 && !(d.fld 16 1).testBit 0 && (s.jobStep 1 d.job).isNone && decide ((s.part 1).journal.length < 256)) = true ∧
    (let d := dsc 0x82 0xFF [(28, 4, 3), (32, 8, 5)]
     let s := (run1 [] d).onPart 1 (fun q => { q with journal := [(3, 5, zeros 16)] })
     readyB s (ref 1) d && !(d.fld 16 1).testBit 0 && s.jobStep 1 d.job == some 5) = true ∧
    (let d := dsc 0x82 0xFF [(16, 1, 1), (28, 4, 3)]
     let s := (run1 [] d).onPart 1 (fun q => { q with journal := [(3, 5, zeros 16)] })
     readyB s (ref 1) d && (d.fld 16 1).testBit 0 && s.jobStep 1 d.job == some 5 &&
       ((s.started 1 d).atWork 1 d).jobStep 1 d.job == some 5) = true := by
  refine ⟨?_, ?_, ?_, ?_, ?_, ?_, ?_, ?_, ?_⟩ <;> decide +kernel
/-- Bytes with fields as (offset, width, value). -/
def blockOf (n : Nat) (l : List (Nat × Nat × Nat)) : List Byte :=
  l.foldl (fun a x => a.take x.1 ++ toLe x.2.1 x.2.2 ++ a.drop (x.1 + x.2.1)) (zeros n)

/-- A channel block: payloads of 64 KiB at 0x20000, 64 records at 0x40000, the status block at 0x50000, and more fields. -/
def chanBlock (l : List (Nat × Nat × Nat)) : List Byte :=
  blockOf 128 ([(0, 4, 1), (6, 1, 0xFE), (7, 1, 96), (55, 1, 6), (60, 2, 1500), (64, 6, 0x20000), (72, 4, 0x10000), (80, 6, 0x40000),
    (86, 6, 0x50000)] ++ l)

/-- The pieces of a block that are not zero, at va. -/
def pieces (va : Nat) (b : List Byte) : List (Nat × List Byte) :=
  b.zipIdx.filterMap (fun x => if x.1 = 0 then none else some (va + x.2, [x.1]))

/-- P1 with channel 3 open. -/
def onChannel (m : List (Nat × List Byte)) (f : Channel → Channel) (d : Desc) : State :=
  (run1 m d).onChan 3 (fun x => f { x with isOpen := true, part := 1, block := chanBlock [] })

/-- A field port is up. -/
def fieldUp (s : State) : State :=
  { s with field := { s.field with ports := s.field.ports.map (fun p => { p with up := true }) } }

/-- The operands of each command of `StreamCommandsComplete`. -/
theorem witness_StreamCommandsComplete :
    (let d := dsc 0x70 0xFF [(16, 1, 3), (20, 6, 0x2000)]
     let s := run1 (pieces 0x2000 (chanBlock [])) d
     readyB s (ref 1) d && d.op == 0x70 && (s.openCheck 1 d).isNone &&
       isOk (((s.started 1 d).atWork 1 d).readVa 1 none 0 (d.fld 20 6) 128)) = true ∧
    (let d := dsc 0x71 0xFF [(16, 1, 3)]
     let s := onChannel [] id d
     readyB s (ref 1) d && d.op == 0x71 && (s.part 1).sec.channels.getLsbD (d.fld 16 1) && (s.chan (d.fld 16 1)).isOpen) = true ∧
    (let d := dsc 0x75 0xFF [(16, 1, 3), (20, 6, 0x2000)]
     let s := onChannel (pieces 0x2000 (trec 0x3000 0x0E 1 2 0)) (fun x => { x with kind := 2, block := chanBlock [(4, 1, 16)] }) d
     readyB s (ref 1) d && d.op == 0x75 && (s.part 1).sec.channels.getLsbD d.chan && (s.chan d.chan).isOpen && (s.chan d.chan).framed &&
      (match s.readVa 1 none 0 (d.fld 20 6) 32 with
        | .ok b => (firstBad (resultBad (s.chan d.chan) b)).isNone &&
            (((s.started 1 d).atWork 1 d).readVa 1 none 0 (d.fld 20 6) 32).toOption == some b &&
            isOk (((s.started 1 d).atWork 1 d).readTensor 1 none 0 (TRec.ofBytes b))
        | .error _ => false)) = true ∧
    (let s := fieldUp live
     decide (1 < 2) && s.clocked 3 1 && (s.fp 1).enable && (s.fp 1).up && !s.field.ptpEnable && decide (s.ingressBytes 1 + (zeros 64).length ≤ 0x200000)) = true ∧
    ((fieldUp live).clocked 3 1 = true ∧ 0x200000 < (fieldUp live).ingressBytes 1 + (zeros 0x200001).length) ∧
    (let s := onChannel [] (fun x => { x with waiting := [(5, zeros 64)] }) (dsc 0 0xFF [])
     s.demux.nextChan == some 3) = true ∧
    (let k : Pkt := { seq := 1, stamp := 7, marker := false, arrival := 5, data := [1], origin := 0 }
     let s := onChannel [] (fun x => { x with jitter := [k] }) (dsc 0 0xFF [])
     (s.chan 3).receives && !(s.chan 3).nextUnit.isEmpty && decide ((s.chan 3).unitDue (s.chan 3).nextUnit ≤ s.now)) = true ∧
    (let s := onChannel [] (fun x => { x with kind := 2, block := chanBlock [(4, 1, 64)] }) (dsc 0 0xFF [])
     (s.chan 3).isOpen && (s.chan 3).useRtcp && (s.chan 3).kind == 2 && decide ((s.chan 3).reportAt + 5000000000 ≤ s.now)) = true ∧
    (let s := onChannel [] (fun x => { x with packets := 1, lastArrival := 5, block := chanBlock [(76, 4, 1)] }) (dsc 0 0xFF [])
     (s.chan 3).receives && (s.chan 3).fld 76 4 != 0 && !(s.chan 3).stalled && 
      decide ((if (s.chan 3).packets = 0 then (s.chan 3).openedAt else (s.chan 3).lastArrival) + (s.chan 3).fld 76 4 * 1000000 ≤ s.now)) = true := by
  refine ⟨?_, ?_, ?_, ?_, ?_, ?_, ?_, ?_, ?_⟩
  case refine_5 => exact ⟨by decide +kernel, by simp only [zeros, List.length_replicate]; omega⟩
  all_goals decide +kernel

/-! ### Video -/

/-- A decoder's context block: codec H.264, 64 × 64, two buffers at 0x60000, 16 records at 0x70000, its status at 0x71000. -/
def decBlock : List Byte :=
  blockOf 64 [(0, 4, 1), (4, 1, 1), (5, 1, 1), (8, 2, 64), (10, 2, 64), (12, 1, 2), (16, 6, 0x60000), (24, 4, 0x6000), (28, 4, 256),
    (32, 6, 0x70000), (38, 1, 4), (40, 6, 0x71000)]

/-- An encoder's context block: 64 × 64 with its pool at 0x60000. -/
def encBlock : List Byte :=
  blockOf 128 [(0, 4, 1), (4, 1, 2), (5, 1, 1), (8, 2, 64), (10, 2, 64), (15, 1, 1), (37, 1, 1), (38, 1, 1), (39, 1, 1), (48, 6, 0x60000),
    (56, 4, 0x20000)]

/-- A decoder and an encoder. -/
def decCtx : VidCtx := { enc := false, va := 0x3000, block := decBlock, bufs := List.replicate 2 {} }
def encCtx : VidCtx := { enc := true, va := 0x3000, block := encBlock }

/-- The context of channel 3. -/
def withCtx (x : VidCtx) (s : State) : State := { s with video := { s.video with ctxs := updAt s.video.ctxs 3 (fun _ => some x) } }

/-- An item of a channel. -/
def vItem (c cls : Nat) (enc : Bool) : CodecItem := { part := 1, chan := c, cls := cls, enc := enc, since := 5 }

/-- The operands of each command of `VideoCommandsComplete`. -/
theorem witness_VideoCommandsComplete :
    (let d := dsc 0x72 0xFF [(16, 1, 3), (20, 6, 0x2000)]
     let s := onChannel (pieces 0x2000 (blockOf 32 [(0, 6, 0x3000)]) ++ pieces 0x3000 decBlock) id d
     readyB s (ref 1) d && d.op == 0x72 && (s.mediaCheck 1 d).isNone && kindOk (s.chan d.chan) 0x72 &&
      (match s.readVa 1 none 0 (d.fld 20 6) 32 with
        | .ok b => (firstBad (decReqBad b)).isNone && (s.ctxCheck 1 d (fieldAt b 0 6) false).isNone &&
            (s.started 1 d).peekVa 1 (d.fld 20 6) 32 == b
        | .error _ => false)) = true ∧
    (let d : Desc := { dsc 0x72 0xFF [(16, 1, 3), (32, 8, 9)] with startedAt := some 7 }
     let k : MediaCmd := { num := 5, count := 1, flush := false }
     let s := withCtx { decCtx with cmds := [k] } (onChannel [] id d)
     s.desc? 1 5 == some d && d.op == 0x72 && d.fld 32 8 != 0 && decide (d.fld 32 8 ≤ s.now) &&
      s.ctx? d.chan == some { decCtx with cmds := [k] } && [k].find? (fun k => k.num == d.num) == some k) = true ∧
    (let d := dsc 0x73 0xFF [(16, 1, 3), (20, 6, 0x2000), (28, 4, 1)]
     let s := onChannel (pieces 0x2000 (blockOf 32 [(0, 6, 0x3000), (8, 6, 0x4000)]) ++ pieces 0x3000 encBlock ++
       pieces 0x4000 (blockOf 32 [(0, 6, 0x10000), (8, 4, 256), (12, 4, 0x4000), (16, 8, 1)])) (fun x => { x with kind := 2 }) d
     readyB s (ref 1) d && d.op == 0x73 && (s.mediaCheck 1 d).isNone && kindOk (s.chan d.chan) 0x73 &&
      (match s.readVa 1 none 0 (d.fld 20 6) 32 with
        | .ok b => (firstBad (encReqBad b)).isNone && (s.ctxCheck 1 d (fieldAt b 0 6) true).isNone && (s.listCheck 1 d b).isNone &&
            (s.started 1 d).peekVa 1 (d.fld 20 6) 32 == b
        | .error _ => false)) = true ∧
    (let d := dsc 0x74 0xFF [(16, 1, 3), (20, 6, 0x2000)]
     let s := withCtx { decCtx with writeIdx := 1 } (onChannel (pieces 0x2000 (blockOf 64 [(12, 2, 1), (14, 2, 1), (18, 1, 2), (44, 6, 0x4000),
       (50, 1, 0x0E)]) ++ pieces 0x70000 (blockOf 64 [(8, 2, 2), (10, 2, 2)])) id d)
     let w := (s.started 1 d).atWork 1 d
     readyB s (ref 1) d && d.op == 0x74 && (s.scaleCheck 1 d).isNone && isOk (w.readVa 1 none 0 (d.fld 20 6) 64) &&
      w.ctx? d.chan == some { decCtx with writeIdx := 1 } &&
      (let b := w.peekVa 1 (d.fld 20 6) 64
       isOk (w.scaled 1 { decCtx with writeIdx := 1 } ⟨b⟩ (w.picRecord d.chan { decCtx with writeIdx := 1 } (fieldAt b 0 4))) &&
       isOk (w.putOuts 1 d [(0, (ScaleBlock.mk b).tensor.build (fun _ _ _ => 0))] {}))) = true ∧
    (let k : MediaCmd := { num := 5, count := 1, flush := false }
     let s := withCtx { decCtx with cmds := [k] } (onChannel [(0x50004, [1])] (fun x => { x with kind := 3 }) (dsc 0x72 0xFF [(16, 1, 3)]))
     decide (7 < 8) && s.clocked 1 7 && (s.video.cores.getD 7 {}).item.isNone && !(s.unit 1 7).fenced && (s.unit 1 7).recov == .idle &&
      (s.pollAll.pickItem 7 (fun _ => true)).isSome) = true ∧
    (let k : MediaCmd := { num := 5, count := 1, flush := false }
     let s := withCtx { decCtx with cmds := [k] } (onChannel [(0x50004, [1])] (fun x => { x with kind := 3 })
       (dsc 0x72 0xFF [(16, 1, 3)]))
     let s := { s with video := { s.video with
       preempt := true, cores := s.video.cores.map (fun (y : CodecCore) => { y with item := some (vItem 9 2 false) }) } }
     s.video.preempt && ((((List.range 64).filterMap s.readyItem).filter (fun i => i.cls == 0)).foldl (fun a i => match a with
       | none => some i | some b => if s.itemBefore i b then some i else a) (none : Option CodecItem)).isSome &&
      (List.range 8).all (fun k => (s.video.cores.getD k {}).item.isSome) && (s.longestCore 1).isSome) = true ∧
    (let s := withCtx { encCtx with block := updAt encBlock 37 (fun _ => 2), parts := (1, 0) }
       (onChannel [] (fun x => { x with kind := 2 }) (dsc 0x73 0xFF [(16, 1, 3)]))
     let s := { s with video := { s.video with cores := updAt s.video.cores 7 (fun k => { k with item := some (vItem 3 0 true) }) } }
     (s.video.cores.getD 7 {}).item == some (vItem 3 0 true) && s.clocked 1 7 &&
      (match s.ctx? 3 with | some x => decide (x.parts.2 + 1 < s.partsOf 3 x) | none => false)) = true ∧
    (let s := withCtx { decCtx with waitSince := some 5 } (onChannel [] id (dsc 0 0xFF []))
     s.ctx? 3 == some { decCtx with waitSince := some 5 } && decide (5 + 100000000 ≤ s.now)) = true ∧
    (let v : Word := 10#32
     live.boot.stepEight && !live.moduleDeep && decide (10 ≤ bitsOf v.toNat 9 0) && decide (bitsOf v.toNat 9 0 ≤ 1000)) = true := by
  refine ⟨?_, ?_, ?_, ?_, ?_, ?_, ?_, ?_, ?_⟩ <;> decide +kernel

/-- A core at work on the last part of a picture of channel 3, whatever its stream says of it; the unit it reads is there. -/
def lastPart (x : VidCtx) : State :=
  let s := onChannel [] id (dsc 0x72 0xFF [(16, 1, 3)])
  withCtx { x with parts := (1, s.partsOf 3 x) }
    { s with video := { s.video with cores := updAt s.video.cores 7 (fun k => { k with item := some (vItem 3 0 x.enc) }) } }

/-- The frame of a picture that is coded next. -/
def oneFrame : EncFrame := { num := 5, va := 0x10000, pitch := 256, chroma := 0, pts := 1, key := true }

/-- An encoder with that frame. -/
def codingCtx : VidCtx := { encCtx with cmds := [{ num := 5, count := 1, flush := false }], frames := [oneFrame] }

/-- The operands of the rows of `VideoCommandsComplete` that end a picture. -/
theorem witness_VideoCommandsComplete_ends :
    ((((lastPart decCtx).video.cores.getD 7 {}).item = some (vItem 3 0 false) ∧ (lastPart decCtx).clocked 1 7 = true ∧
      (lastPart decCtx).ctx? 3 = some { decCtx with parts := (1, (onChannel [] id (dsc 0x72 0xFF [(16, 1, 3)])).partsOf 3 decCtx) } ∧
      ∃ us, (lastPart decCtx).unitsNow 3 decCtx = .ok us) ∧
      (lastPart decCtx).partsOf 3 decCtx ≤ (onChannel [] id (dsc 0x72 0xFF [(16, 1, 3)])).partsOf 3 decCtx + 1) ∧
    ((lastPart codingCtx).partsOf 3 codingCtx ≤ (onChannel [] id (dsc 0x72 0xFF [(16, 1, 3)])).partsOf 3 codingCtx + 1 ∧
      codingCtx.nextFrame = some (oneFrame, true, 0)) := by
  refine ⟨⟨⟨by rfl, by decide +kernel, by rfl, ?_⟩, ?_⟩, ?_, ?_⟩
  · have h : isOk ((lastPart decCtx).unitsNow 3 decCtx) = true := by decide +kernel
    cases hu : (lastPart decCtx).unitsNow 3 decCtx with
    | ok us => exact ⟨us, rfl⟩
    | error e => rw [hu] at h; cases h
  · exact Nat.le_succ_of_le (Nat.le_of_eq (by rfl))
  · exact Nat.le_succ_of_le (Nat.le_of_eq (by rfl))
  · have h : codingCtx.open_.take (codingCtx.bframes + 1) = [oneFrame] := by decide +kernel
    simp only [VidCtx.nextFrame, h, List.length_singleton, Nat.max_self, Nat.mod_one]
    rfl
/-- A frame of a TYPE, with a payload where it has one. -/
def aFrame (t : Nat) : Frame :=
  { typ := t, ack := 0, cvc := 0, ccount := 0, payload := if t = 1 then [7] else if t = 3 then zeros 64 else [] }

/-- Its 528 bytes spell it. -/
theorem aFrame_back (t : Nat) (h : t ∈ [1, 2, 3, 4]) : Frame.ofBytes (aFrame t).bytes = some (aFrame t) := by
  obtain ⟨hd, hb, hl⟩ : ∃ hd : List Byte, (aFrame t).bytes = hd ++ crc32.bytes hd ∧ hd.length = 524 := by
    refine ⟨_, rfl, ?_⟩
    simp only [List.mem_cons, List.not_mem_nil, or_false] at h
    obtain rfl | rfl | rfl | rfl := h <;> decide +kernel
  have hc : (crc32.bytes ((aFrame t).bytes.take 524) == (aFrame t).bytes.drop 524) = true := by
    rw [hb, List.take_append_of_le_length (by omega), List.drop_append_of_le_length (by omega)]
    simp [← hl]
  unfold Frame.ofBytes
  rw [hc]
  simp only [List.mem_cons, List.not_mem_nil, or_false] at h
  obtain rfl | rfl | rfl | rfl := h <;> decide +kernel

/-- A module whose link port 7 is in a state. -/
def lpIn (st : LinkSt) (f : LinkPort → LinkPort) : State := live.onLp 7 (fun p => f { p with st := st })

/-- The operands of each command of `LinkCommandsComplete`. -/
theorem witness_LinkCommandsComplete :
    (live.boot.stepEight && decide (7 < 8) && bitsOf (0x80000000#32 : Word).toNat 29 28 != 3 && !(live.unit 2 7).fenced &&
      (0x80000000#32 : Word).toNat.testBit 31 && !(0#32 : Word).toNat.testBit 31) = true ∧
    (let s := lpIn .training (fun p => { p with helloOk := true, offerWidth := 3 })
     decide (7 < 8) && s.clocked 2 7 && (s.lp 7).st == .training && (s.lp 7).helloOk &&
      decide ((s.lp 7).widthMin < Nat.min (lanesWidth 15) (s.lp 7).offerWidth)) = true ∧
    (let s := lpIn .training id
     (s.lp 7).st == .training && decide ((s.lp 7).since + 2500000000 ≤ s.now)) = true ∧
    (let s := lpIn .up (fun p => { p with stuck := 8 })
     s.clocked 2 7 && (s.lp 7).st == .up && decide (8 ≤ (s.lp 7).stuck)) = true ∧
    (let s := lpIn .retraining id
     (s.lp 7).st == .retraining && decide ((s.lp 7).since + 1000000000 ≤ s.now)) = true ∧
    (∀ t ∈ [1, 2, 4], 7 < 8 ∧ (lpIn .up id).clocked 2 7 = true ∧ ((lpIn .up id).lp 7).enable = true ∧ ((lpIn .up id).lp 7).st = .up ∧
      Frame.ofBytes (aFrame t).bytes = some (aFrame t) ∧ (aFrame t).typ = t) ∧
    (((lpIn .training id).lp 7).st = .training ∧ Frame.ofBytes (aFrame 3).bytes = some (aFrame 3) ∧ (aFrame 3).typ = 3) ∧
    (let d : DataFrame := { seq := 0, vc := 0, start := true, fin := true, payload := [7] }
     let s := lpIn .up (fun p => { p with kept := [d] })
     s.clocked 2 7 && (s.lp 7).st == .up && (s.lp 7).kept == [d] && decide ((s.lp 7).ackAt + 10000 ≤ s.now)) = true ∧
    (let d : DataFrame := { seq := 0, vc := 0, start := true, fin := true, payload := [7] }
     ((lpIn .up (fun p => { p with rxHeld := [d] })).lp 7).rxHeld == [d]) = true ∧
    (live.boot.stepEight && !live.wakeDeep.sec.sealed && decide (16 ≤ (live.wakeDeep.lp (bitsOf (7#32 : Word).toNat 2 0)).owner)) = true ∧
    (let s := lpIn .up (fun p => { p with owner := 15 })
     s.boot.stepEight && decide ((s.wakeDeep.lp (bitsOf (7#32 : Word).toNat 2 0)).owner < 16)) = true ∧
    (let s := lpIn .retraining id
     decide (7 < 8) && s.clocked 2 7 && (s.lp 7).enable && [LinkSt.up, .training, .retraining].contains (s.lp 7).st && zeros 527 != zeros 528 &&
      (zeros 527).length != 528) = true := by
  refine ⟨?_, ?_, ?_, ?_, ?_, fun t h => ⟨?_, ?_, ?_, ?_, ?_, rfl⟩, ⟨?_, ?_, rfl⟩, ?_, ?_, ?_, ?_, ?_⟩
  case refine_10 => exact aFrame_back t (by simp only [List.mem_cons, List.not_mem_nil, or_false] at h ⊢; omega)
  case refine_12 => exact aFrame_back 3 (by decide)
  all_goals decide +kernel

/-- The operands of each command of `TimeCommandsComplete`. -/
theorem witness_TimeCommandsComplete :
    (let s := { live with field := { live.field with ptpEnable := true, ptp := { live.field.ptp with master := some [1], interval := 2000000000 } } }
     s.field.ptpEnable && !s.field.holdover && s.field.ptp.master.isSome && decide (s.field.announceAt + 3 * s.field.ptp.interval ≤ s.now)) = true ∧
    (live.boot.stepEight && bitsOf (0x80020000#32 : Word).toNat 17 16 != 3 && decide (1 ≤ bitsOf (1#32 : Word).toNat 6 0) &&
      decide (bitsOf (100#32 : Word).toNat 6 0 ≤ 100)) = true := by
  refine ⟨?_, ?_⟩ <;> decide +kernel

/-- The operands of each command of `PowerEntryCommandsComplete`. -/
theorem witness_PowerEntryCommandsComplete :
    ((live.boot.st = .ready ∨ live.boot.st = .degraded) ∧ live.power.shutdown = false ∧ 2599 < 2600 ∧ 2000 < 2001) ∧
    (let s := { inSt .curtain with power := { live.power with curtainOn := true } }
     s.boot.st = .curtain ∧ s.power.curtainOn = true ∧ s.power.shutdown = false ∧ s.power.overvolt = false ∧ 2700 ≤ 2700 ∧ 100 ≤ 100) ∧
    (2299 < 2300 ∧ 16 ≤ 16 ∨ 2151 ≤ 2150) ∧
    ((inSt .safe).boot.st ∈ [ModSt.ready, .degraded, .curtain, .safe] ∧
      ({ live with host := { live.host with up := false } } : State).host.up = false) ∧
    (let s := { State.reset with power := { State.reset.power with shutdown := true } }
     s.power.shutdown = true ∧ s.boot.st ≠ .off ∧ (∀ d ∈ s.power.doms, d.volt = 0) ∧ ∀ r ∈ s.power.rails.drop 1, r = .off) ∧
    ((inSt .off).boot.st = .off ∧ 2700 ≤ 2700 ∧ 1000 ≤ 1000) ∧
    (live.power.switchOn = true ∧ (4500 < 4501 ∨ 4100 < 4101 ∧ 100 < 101)) ∧
    (let s := { live with power := { live.power with switchOn := false } }
     s.power.switchOn = false ∧ s.power.prechg = true ∧ s.power.shutdown = false ∧ s.boot.st ≠ .off ∧ s.boot.st ≠ .precharge) ∧
    (4100 ≤ 4100 ∧ 4100 ≤ 4100 ∧ 1 ≤ 1) := by
  and_intros <;> first | decide +kernel | omega

/-- A voltage sag that has lasted 20 ms, and its record. -/
def sag : PqMeasure := { kind := .sag, extreme := 2500, prior := 3600, nodeMin := 3500, lasted := 20000000, absent := 1000000 }
def sagRec : PqRec := { kind := .sag, extreme := 2500, prior := 3600, nodeMin := 3500, start := 5 }

/-- The operands of each command of `PowerEventCommandsComplete`. -/
theorem witness_PowerEventCommandsComplete :
    (live.boot.st != .off && pqOpens sag && !live.power.pqOpen.any (fun r => r.kind.family == sag.kind.family)) = true ∧
    (let s := { live with power := { live.power with pqOpen := [sagRec] } }
     s.power.pqOpen.find? (fun r => r.kind.family == sag.kind.family) == some sagRec && decide (1000000 ≤ sag.absent) &&
      decide (s.power.pqRing.length < 1024)) = true ∧
    (let s := { live with power := { live.power with pqOpen := [sagRec], pqRing := List.replicate 1024 sagRec } }
     s.power.pqOpen.find? (fun r => r.kind.family == sag.kind.family) = some sagRec ∧ s.power.pqRing.length = 1024) ∧
    (decide (50 < 51) && live.boot.st != .off && decide (15 < 16) && !(live.dom 15).railFault) = true ∧
    (!live.power.shed && live.boot.st != .off) = true ∧
    ({ live with power := { live.power with shed := true } } : State).power.shed = true := by
  refine ⟨?_, ?_, ⟨?_, ?_⟩, ?_, ?_, ?_⟩
  case refine_4 => exact List.length_replicate ..
  all_goals decide +kernel

/-- Powers of 1 W everywhere. -/
def powers : PowerReport :=
  { hub := 1, doms := List.replicate 16 { atCode := List.replicate 97 1, hold := 1, rest := 1 }, inputDw := 10, busDv := 3600, nodeDv := 3600 }

/-- The operands of each command of `PowerStateCommandsComplete`. -/
theorem witness_PowerStateCommandsComplete :
    (inSt .off).boot.st.live = false ∧ live.boot.st.live = true ∧
    (let s := live.onPart 15 (fun q => { q with pwr := { q.pwr with paused := true, fitSince := some 5 } })
     (s.part 15).pwr.fitSince == some 5 && decide (15 < 16) && (List.range 16).find? (fun q => (s.part q).pwr.paused) == some 15 &&
      decide (5 + 20000000 ≤ s.now) && !s.power.doms.any (fun d => d.shedRest)) = true ∧
    (let s := (run1 [] (dsc 0 0xFF [])).onPart 1 (fun q => { q with host := { q.host with doze := .dozing } })
     decide (1 < 16) && (s.part 1).host.doze == .dozing && s.sec.steward && !s.thermal.emergency && !s.power.shutdown && s.boot.st.live &&
      !s.moduleMay .deep 1 (some 0) && !s.moduleMay .dark 1 (some 0)) = true ∧
    (let s := (secAt 1 (fun x => { x with st := .running, vdMask := 2 })).onPart 1 (fun q => { q with host := { q.host with doze := .dozing } })
     let s := { s with power := { s.power with idleCeil := 4 } }
     decide (1 < 16) && (s.part 1).host.doze == .dozing && s.sec.steward && !s.thermal.emergency && !s.power.shutdown && s.boot.st.live &&
      (s.moduleMay .deep 1 none || s.moduleMay .dark 1 none)) = true ∧
    (let s := live.onDom 15 (fun d => { d with st := .rest, target := .rest })
     decide (15 < 16) && s.wakeHolds 15 .guard && !s.thermal.emergency && !s.power.shutdown && s.boot.st.live && !s.moduleAsleep) = true ∧
    (let s := live.onDom 15 (fun d => { d with st := .hold, target := .run, volt := 220, setVolt := 300 })
     decide (15 < 16) && (s.dom 15).st != (s.dom 15).target && [PState.run, .hold].contains (s.dom 15).target && decide (220 ≤ (s.dom 15).volt) &&
      !(s.enterState 15 .run).thermal.emergency && !(s.enterState 15 .run).power.shutdown) = true ∧
    15 < 16 := by
  and_intros <;> decide +kernel
/-- A module with one changed temperature record. -/
def spotAt (i : Nat) (f : HotSpot → HotSpot) : State := live.onSpot i f

/-- The operands of each command of `SensorCommandsComplete`. -/
theorem witness_SensorCommandsComplete :
    (inRange 15000 = true ∧ live.thermal.inletFailed = false ∧ inRange (-4001) = false ∧ 5 < 6 ∧ 63 < 64 ∧ 1 < 2) ∧
    (sampled 10 [(5, 4500, 10)] (some 4510) 10 = ([(10, 4510, 10), (5, 4500, 10)], false) ∧
      sampled 10000000000 [(0, 4500, 10)] (some 4504) 31 = ([(10000000000, 4504, 31), (0, 4500, 10)], true)) ∧
    (let s := spotAt 69 (fun h => { h with diffSince := some 5 })
     decide (69 < 70) && (s.thermal.spot 69).diffSince == some 5 && decide (5 + 100000000 < s.now) && !(s.thermal.spot 69).far) = true ∧
    (let s := spotAt 0 (fun h => { h with susp0 := true, agreeSince := some 5 })
     (s.thermal.spot 0).susp0 && !(s.thermal.spot 0).fail0 && (s.thermal.spot 0).agreeSince == some 5 && decide (5 + 10000000000 ≤ s.now)) = true ∧
    (let s := spotAt 69 (fun h => { h with hotSince := some 5 })
     (s.thermal.stackSpots.getD 5 {}).hotSince == some 5 && decide (5 + 10000000 ≤ s.now) && !s.power.shutdown && s.boot.st != .off) = true ∧
    (let s := spotAt 64 (fun h => { h with refresh2x := true, coolSince := some 5 })
     (s.thermal.stackSpots.getD 0 {}).refresh2x && (s.thermal.stackSpots.getD 0 {}).coolSince == some 5 && decide (5 + 1000000000 ≤ s.now)) = true := by
  and_intros <;> decide +kernel

/-- The operands of each command of `FlowCommandsComplete`. -/
theorem witness_FlowCommandsComplete :
    (live.boot.st ≠ .off ∧ live.thermal.meterFault = false ∧ live.boot.stepEight = true ∧ (live.mem.port (16 + 7)).avail = true) ∧
    (let s := { live with thermal := { live.thermal with lowSince := some 5 } }
     s.thermal.lowSince = some 5 ∧ 5 + 1000000000 ≤ s.now ∧ s.thermal.flowWarn = false) ∧
    (let s := { live with thermal := { live.thermal with flowLimit := true, freeSince := some 5 } }
     s.thermal.flowLimit = true ∧ s.thermal.freeSince = some 5 ∧ 5 + 1000000000 ≤ s.now) ∧
    (let s := { inSt .safe with
       thermal := { live.thermal with emergency := true, cause := 1, calmSince := some 5 }, boot := { (inSt .safe).boot with safeCause := 3 } }
     s.thermal.emergency = true ∧ s.boot.st = .safe ∧ s.boot.safeCause = 3 ∧ s.thermal.rearmHold = false ∧ s.power.shutdown = false ∧
      s.thermal.calmSince = some 5 ∧ 5 + 10000000000 ≤ s.now) := by
  and_intros <;> decide +kernel

/-- The operands of each command of `RateCommandsComplete`. -/
theorem witness_RateCommandsComplete :
    (let on : Word := 0x8000000A#32
     let off : Word := 5#32
     let bad : Word := 0x80000009#32
     live.boot.stepEight && on.toNat.testBit 31 && decide (10 ≤ bitsOf on.toNat 16 0) && decide (bitsOf on.toNat 16 0 ≤ 100000) &&
      live.wakeDeep.sampling none && !live.wakeDeep.fabric.rate.enable && !off.toNat.testBit 31 && bad.toNat.testBit 31 &&
      decide (bitsOf bad.toNat 16 0 < 10) && decide (15 < 16) && !(live.part 15).sec.resetting) = true ∧
    (let s := { live with fabric := { live.fabric with rate := { live.fabric.rate with enable := true, next := some 5 } } }
     (s.rateOf none).enable && s.sampling none && (s.rateOf none).next == some 5 && decide (5 ≤ s.now)) = true ∧
    (let d : Desc := { dsc 0x01 0xFF [(12, 4, 1)] with startedAt := some 5 }
     (run1 [] d).desc? 1 5 == some d && (run1 [] d).overdue 1 d) = true ∧
    (let d := dsc 0 0xFF []
     !d.engineRun && d.timeout == 0) = true := by
  refine ⟨?_, ?_, ?_, ?_⟩ <;> decide +kernel

/-! ### The mesh -/

/-- A read of one flit at pa by tile 3 under a tag. -/
def tileRead (tag pa : Nat) : TxnReq := { src := some 3, tag := tag, op := .read, virt := false, addr := pa, len := 128, data := [] }

/-- P1 with tiles 2 and 3. -/
def meshState : State := (run1 [] (dsc 0 0xFF [])).onTile 3 (fun t => { t with part := some 1 })

/-- What `MeshTransactionsComplete` asks of a request of tile 3, and more of its transaction. -/
def txnB (s : State) (r : TxnReq) (more : Txn → Bool) : Bool :=
  txnOk r && !r.virt && r.dims.isEmpty && (match (s.translateReq r r.addr (sliceOf r.data 0 r.len)).2 with
    | some t => s.mem.mayIssue t && more t
    | none => false)

/-- The operands of each case of `MeshTransactionsComplete`. -/
theorem witness_MeshTransactionsComplete :
    ((meshState.tile 3).part = some 1) ∧
    (let s : State := { meshState with mem := { meshState.mem with avail := 0 } }
     txnB s (tileRead 1 0) (fun t => s.goes t == .waits)) = true ∧
    txnB meshState (tileRead 1 0x2400000000) (fun t => meshState.goes t == .refused) = true ∧
    txnB meshState (tileRead 1 0) (fun t => match meshState.goes t with
      | .reaches i _ route => t.gate.isNone && route.all meshState.routerUp && meshState.admits 1 0 &&
          decide ((meshState.mem.queued.getD i []).length < 1024)
      | _ => false) = true ∧
    (let s : State := { meshState with mem := { meshState.mem with queued := meshState.mem.queued.map (fun _ =>
       List.replicate 1024 { src := none, tag := 1, op := .read, pa := 0, len := 128, data := [] }) } }
     txnB s (tileRead 1 0) (fun t => match s.goes t with
      | .reaches i _ route => t.gate.isNone && route.all s.routerUp && s.admits 1 0 && decide (i < 16) &&
          decide (1024 ≤ (s.mem.queued.getD i []).length)
      | _ => false)) = true ∧
    txnB meshState (tileRead 1 granSize) (fun t => match meshState.goes t with
      | .reaches _ _ route => t.gate.isNone && route.all meshState.routerUp && !meshState.admits 1 granSize
      | _ => false) = true ∧
    txnB meshState (tileRead 0x10 (winBase + 2 * 0x1000000)) (fun t => t.confined) = true := by
  and_intros <;> decide +kernel

/-- A transaction whose orders `RoutesFollowTheMap` gives, with both orders and with neither. -/
theorem witness_RoutesFollowTheMap :
    (let t : Txn := { src := some 3, tag := 1, op := .read, pa := winBase + 2 * 0x1000000, len := 128, data := [] }
     meshState.wayOf t == .mesh 3 2 false true) = true ∧
    (let t : Txn := { src := some 3, tag := 1, op := .read, pa := 0, len := 128, data := [] }
     (match meshState.wayOf t with
      | .mesh a b yx c => !c && meshState.avoids 1 (if yx then routeYX a b else routeXY a b) &&
          meshState.avoids 1 (if yx then routeXY a b else routeYX a b)
      | _ => false)) = true ∧
    (let s := meshState.onSec 2 (fun x => { x with meshSeal := true })
     let s := (List.range 64).foldl (fun (u : State) k => u.onTile k (fun t => { t with part := if k = 3 then some 1 else some 2 })) s
     let t : Txn := { src := some 3, tag := 1, op := .read, pa := 0, len := 128, data := [] }
     (match s.wayOf t with
      | .mesh a b yx c => !c && !s.avoids 1 (if yx then routeYX a b else routeXY a b) && !s.avoids 1 (if yx then routeXY a b else routeYX a b)
      | _ => false)) = true ∧ 63 < 64 := by
  and_intros <;> decide +kernel

/-- The operands of each case of `MemoryPortAccessCompletes`. -/
theorem witness_MemoryPortAccessCompletes :
    (let r : Txn := { src := none, tag := 1, op := .read, pa := 0, len := 128, data := [] }
     let w : Txn := { r with op := .write, data := zeros 128 }
     let s : State := { meshState with mem := { meshState.mem with queued := meshState.mem.queued.map (fun _ => [r, w]) } }
     let u : State := { s with mem := { s.mem with queued := updAt s.mem.queued 15 (fun l => l.eraseIdx 0) } }
     let x := u.carryOut 15 r []
     let f : Flight := { txn := r, rest := [] }
     (s.mem.queued.getD 23 [])[1]? == some w && (s.mem.queued.getD 23 [])[0]? == some r && ((s.mem.queued.getD 23 []).take 1).any (fun y => y.meets w) &&
      !((s.mem.queued.getD 23 []).take 0).any (fun y => y.meets r) && s.dramUp 23 r && decide (15 < s.mem.cross.length) &&
      s.crossing 15 == {} && s.lit (domOfTile (rimTile 15)) && s.dramUp 15 r && decide (entriesOf 128 [f] ≤ 96) &&
      decide (entriesOf 128 [{ f with back := true }] ≤ 96) && x.1.crossing 15 == {} && x.1.mem.cross == s.mem.cross &&
      x.1.lit (domOfTile (rimTile 15))) = true ∧
    (let u := meshState.progress (portUnit 15).1 (portUnit 15).2
     !u.admits 1 granSize && u.admits 1 0 && !u.retiredEpoch 1 0 && (u.mem.port 15).avail &&
      (wordsOf 0 128).all (fun w => u.verdict w [] == .clean)) = true ∧
    (live.mem.ports.length = 16 ∧ live.mem.bchans.length = 8 ∧ live.mem.poisoned 0x40 = false ∧ wordOf 0x40 = 0x40 ∧
      live.verdict 0x40 [] = .clean ∧ 
      live.verdict 0x40 [(live.mem.sliceAt 0x40 * 0x4000000 + live.mem.sliceOff 0x40) / 32 * 288] = .corrected 1) := by
  and_intros <;> decide +kernel

/-- The operands of each command of `ScrubCommandsComplete`. -/
theorem witness_ScrubCommandsComplete :
    (meshState.chanUp 15 1 && meshState.chanIdle 15 1 && (meshState.mem.wordAt 15 1 (meshState.channel 15 1).scrubPos).isSome) = true ∧
    (live.chanUp 15 1 && live.slotOpen 0x11 && decide ((live.channel 15 1).forcedIn live.now + 200 ≤ 200) &&
      decide (6 * 3600000000000 < live.mem.lagNs live.now 15 (live.channel 15 1)) && !(live.channel 15 1).scrubForced) = true ∧
    (let s : State := { live with now := 0 }
     s.chanUp 15 1 && s.slotOpen 0x11 && decide (s.mem.lagNs s.now 15 (s.channel 15 1) ≤ 3600000000000)) = true ∧
    (live.chanUp 15 1 && !(live.channel 15 1).cold && decide ((live.channel 15 1).lastRecal + live.mem.recalS * 1000000000 ≤ live.now)) = true ∧
    (let s := live.onChannel 15 1 (fun c => { c with recalDue := some 5 })
     s.chanUp 15 1 && s.slotOpen 0x11 && (s.channel 15 1).recalDue == some 5 && decide (5 + 1800000000000 < s.now) &&
      (s.channel 15 1).lastSlice.isNone) = true := by
  and_intros <;> decide +kernel

/-- The operands of each command of `TranslationCommandsComplete`. -/
theorem witness_TranslationCommandsComplete :
    (live.boot.stepEight = true ∧ 15 < 16 ∧ (live.part 15).sec.resetting = false ∧ 15 < live.wakeDeep.parts.length ∧
      (live.wakeDeep.part 15).sec.st ≠ .running ∧ (live.part 15).mem.enable = false ∧ 2 ^ 40 - 1 < 2 ^ 40) ∧
    ((meshState.part 1).sec.resetting = false ∧ (meshState.wakeDeep.part 1).sec.st = .running) := by
  and_intros <;> decide +kernel
/-- A live module with P1's rings changed, its doorbell page at 0x2000 valid. -/
def hostAt (f : PartHost → PartHost) : State := live.onHost 1 (fun h => f { h with dbValid := true, dbSeen := true, dbBase := 0x2000 })

/-- The operands of each command of `WindowCommandsComplete`. -/
theorem witness_WindowCommandsComplete :
    (live.hasFn 15 = true ∧ ((2 ≠ 4 ∧ 2 ≠ 8) ∨ 1 % 2 ≠ 0) ∧ (((4 : Nat) ≠ 4 ∧ 4 ≠ 8) ∨ 6 % 4 ≠ 0)) ∧
    (let s := (run1 [(0x1000, [7])] (dsc 0 0xFF [])).onHost 1 (fun h => { h with apEnable := true })
     s.hasFn 1 && decide (0x1000 + 8 ≤ 2 ^ (s.host.bar2Log2.getD 1 36)) && s.windowOpen 1 &&
      isOk (s.writeVa 1 none 0 (s.bar2Va 1 0x1000) [1, 2]) && isOk (s.readVa 1 none 0 (s.bar2Va 1 0x1000) 8) &&
      (match s.readVa 1 none 0 (s.bar2Va 1 0x200000) 8 with | .error (.xlat ..) => true | _ => false)) = true ∧
    (live.windowOpen 1 = false ∧ live.host.up = true) ∧
    ((inSt .ready).boot.served = true ∧ ({ live with boot := { live.boot with served := false } } : State).boot.served = false ∧
      live.hasFn 0 = true ∧ bitsOf 15 15 0 ≤ 15 ∧ barSize 0x1000 = some 36 ∧ 1 ≠ 0 ∧ CfgReg.numVfs ≠ .msix) := by
  and_intros <;> decide +kernel

/-- A ring enable with 2^6 entries, credit 1, on CQ 0. -/
def ringWord : Word := 0x80060001#32

/-- The operands of each command of `RingCommandsComplete`. -/
theorem witness_RingCommandsComplete :
    (let s := hostAt (fun h => { h with sqs := updAt h.sqs 63 (fun q => { q with base := 0x4000 })
                                        cqs := updAt h.cqs 0 (fun c => { c with st := .enabled }) })
     let r := (s.sq 1 63).configure ringWord.toNat
     s.boot.stepEight && decide (1 < 16) && !(s.part 1).sec.resetting && decide (63 < 64) && (s.sq 1 63).st == .disabled &&
      ringWord.toNat.testBit 31 && !ringWord.toNat.testBit 30 && decide (6 ≤ bitsOf ringWord.toNat 20 16) &&
      decide (bitsOf ringWord.toNat 20 16 ≤ 16) && bitsOf ringWord.toNat 3 0 != 0 && decide (1 < s.parts.length) &&
      decide (63 < (s.part 1).host.sqs.length) && r.base != 0 && (s.part 1).host.dbValid && (s.cq 1 r.cq).st == .enabled) = true ∧
    (let s := hostAt id
     ((s.sq 1 63).configure ringWord.toNat).base == 0 && (s.sq 1 63).st == .disabled) = true ∧
    (let s := hostAt (fun h => { h with sqs := updAt (updAt h.sqs 1 (fun q => { q with st := .enabled })) 63 (fun q => { q with st := .paused }) })
     let t := s.onPart 1 (fun q => { q with fetched := [dsc 0 0xFF []] })
     s.hasFn 1 && s.host.up && (s.sq 1 1).st == .enabled && (s.sq 1 63).st == .paused && t.sqBusy 1 1 && (t.sq 1 1).st != .disabled && !s.sqBusy 1 63) = true ∧
    ((∃ x ∈ ((hostAt (fun h => { h with sqs := [{ st := .enabled, cq := 2 }] })).part 1).host.sqs, x.cq = 2 ∧ x.st ≠ .disabled) ∧
      ∀ x ∈ ((hostAt (fun h => { h with sqs := [{ st := .enabled, cq := 2 }] })).part 1).host.sqs, x.cq = 3 → x.st = .disabled) ∧
    (let s := hostAt (fun h => { h with sqs := updAt h.sqs 63 (fun q => { q with draining := true }) })
     (s.sq 1 63).draining = true ∧ ∀ d ∈ (s.part 1).fetched, d.act = none → d.sq ≠ 63) := by
  refine ⟨?_, ?_, ?_, ⟨⟨{ st := .enabled, cq := 2 }, ?_, ?_, ?_⟩, ?_⟩, ?_, ?_⟩ <;> decide +kernel

/-- The operands of each command of `DoorbellCommandsComplete`. -/
theorem witness_DoorbellCommandsComplete :
    (let s := hostAt (fun h => { h with pollUs := 1 })
     s.boot.stepEight && !(s.part 1).sec.resetting && (s.part 1).host.dbValid && s.hasFn 1 && (s.part 1).host.doze == .awake &&
      (s.part 1).host.pollUs != 0 && decide ((s.part 1).host.lastDb + (s.part 1).host.pollUs * 1000 ≤ s.now)) = true ∧
    (((hostAt (fun h => { h with pollUs := 0 })).part 1).host.pollUs = 0) ∧
    (((hostAt (fun h => { h with dbOut := true })).part 1).host.dbOut = true ∧ HostRead.refused ∈ [HostRead.refused, .poisoned, .timedOut]) ∧
    (let s := (hostAt (fun h => { h with sqs := updAt h.sqs 63 (fun q => { q with st := .enabled, sizeLog2 := 6, tail := 1, weight := 1 })
                                         cqs := updAt h.cqs 0 (fun c => { c with st := .enabled, sizeLog2 := 6 }) })).onPart 1 (fun q =>
       { q with sec := { q.sec with st := .running } })
     s.sqReady 1 63 && (s.sq 1 63).st.live && decide (fieldAt (toLe 4 0) 0 4 < 2 ^ (s.sq 1 63).sizeLog2) && !(s.sq 1 1).st.live) = true ∧
    (let s := hostAt (fun h => { h with eligibleSince := some 5 })
     (s.part 1).host.doze == .awake && !(s.part 1).host.dbOut && (s.part 1).host.dbValid && s.hasFn 1 &&
      (s.part 1).host.eligibleSince == some 5 && decide (5 + (s.part 1).host.dozeUs * 1000 ≤ s.now) && s.quiet 1) = true ∧
    (let s := hostAt (fun h => { h with doze := .entering, wakePend := true })
     let t := hostAt (fun h => { h with doze := .entering })
     (s.part 1).host.doze == .entering && (s.part 1).host.late.isEmpty && (s.part 1).host.wakePend && !(t.part 1).host.wakePend &&
      (List.range 64).all (fun q => !t.sqReady 1 q)) = true ∧
    (let s := (hostAt (fun h => { h with doze := .entering
                                         sqs := updAt h.sqs 63 (fun q => { q with st := .enabled, sizeLog2 := 6, tail := 1, weight := 1 })
                                         cqs := updAt h.cqs 0 (fun c => { c with st := .enabled, sizeLog2 := 6 }) })).onPart 1 (fun q =>
       { q with sec := { q.sec with st := .running } })
     let t := (s.onHost 1 (fun h => { h with late := [] })).onHost 1 (fun x => { x with doze := .dozing, wakePend := false })
     (s.part 1).host.doze == .entering && !(s.part 1).host.wakePend && t.sqReady 1 63) = true := by
  and_intros <;> decide +kernel

/-- The operands of `DescriptorFetchCompletes`. -/
theorem witness_DescriptorFetchCompletes :
    (let s := (hostAt (fun h => { h with sqs := updAt h.sqs 63 (fun q => { q with st := .enabled, sizeLog2 := 6, tail := 1, weight := 1 })
                                         cqs := updAt h.cqs 0 (fun c => { c with st := .enabled, sizeLog2 := 6 }) })).onPart 1 (fun q =>
       { q with sec := { q.sec with st := .running } })
     (match s.nextSq 1 with | some (q, _) => q == 63 | none => false) && !s.isSealed 1 && decide ((zeros 64).length = 64) &&
      decide (1 < s.parts.length) && decide (63 < (s.part 1).host.sqs.length) && decide ((s.sq 1 63).cq < (s.part 1).host.cqs.length) &&
      s.mayFetch 1 63) = true := by
  decide +kernel

/-- The operands of each command of `EventCommandsComplete`. -/
theorem witness_EventCommandsComplete :
    (let x : Event := { code := 0x25, subject := 0, time := 5, data := [] }
     let s := hostAt (fun h => { h with evt := { h.evt with st := .enabled, queue := [x], base := 0x3000, sizeLog2 := 6 } })
     let r := (s.part 1).host.evt
     r.queue == [x] && r.st == .enabled && !r.split && decide (0 < ringFree r.sizeLog2 r.slot r.accepted) && !s.isSealed 1 && s.hasFn 1) = true ∧
    (let s := hostAt (fun h => { h with cqs := updAt h.cqs 15 (fun c => { c with due := true, lastMsg := some 5 })
                                        evt := { h.evt with due := true } })
     let s : State := { s with host := { s.host with cfg := updAt s.host.cfg 1 (fun c => { c with msixOn := true }) } }
     let s := s.onHost 1 (fun h => { h with msix := updAt h.msix 0 (fun e => { e with masked := false }) })
     (s.cq 1 15).due = true ∧ s.vectorHeld 1 (s.cq 1 15).vector = false ∧
      (∀ a, (s.cq 1 15).lastMsg = some a → a + (s.cq 1 15).modUs * 1000 ≤ s.now) ∧ (s.part 1).host.evt.due = true ∧
      s.vectorHeld 1 (s.part 1).host.evt.vector = false ∧
      ∀ a, (s.part 1).host.evt.lastMsg = some a → a + (s.part 1).host.evt.modUs * 1000 ≤ s.now) ∧
    (live.vectorHeld 1 0 = true ∧ live.hasFn 1 = true ∧ (dsc 0 0xFF []).sq < 64) := by
  refine ⟨?_, ⟨?_, ?_, fun a h => ?_, ?_, ?_, fun a h => ?_⟩, ?_, ?_, ?_⟩
  case refine_4 => cases (show some 5 = some a from h); decide +kernel
  case refine_7 => exact absurd (show (none : Option Nat) = some a from h) (by simp)
  all_goals decide +kernel

theorem live_part (p : Nat) : live.part p = {} := by
  simp only [State.part, show live.parts = List.replicate 16 {} from rfl, List.getD_eq_getElem?_getD, List.getElem?_replicate]
  split <;> rfl

/-- The operands of each command of `HostLinkCommandsComplete`. -/
theorem witness_HostLinkCommandsComplete :
    (live.host.up = true ∧ (live.host.speed ≠ 6 ∨ live.host.width ≠ 16)) ∧
    (∀ p, ∀ d ∈ (live.part p).fetched, d.startedAt.isSome = true → readsHost d = false) ∧
    (let s := { live with host := { live.host with up := false } }
     s.host.up = false ∧ s.host.perst = false ∧ s.boot.guardUp = true ∧ s.boot.held = []) ∧
    (let s := { live with host := { live.host with ptmEnable := true } }
     s.host.ptmEnable = true ∧ s.field.ptpEnable = false ∧ s.host.ptmAt = none) := by
  refine ⟨⟨?_, ?_⟩, fun p d h => ?_, ⟨?_, ?_, ?_, ?_⟩, ?_, ?_, ?_⟩
  case refine_3 => rw [live_part] at h; cases h
  all_goals decide +kernel

/-- The operands of each clause of `RegisterWritesComplete`. -/
theorem witness_RegisterWritesComplete :
    (State.reset.boot.stepEight = false ∧ live.boot.stepEight = true ∧ live.hasFn 15 = true ∧ 0 < 15 ∧ (live.part 15).sec.resetting = false) ∧
    (let v : Word := 400#32
     let w : Word := 1601#32
     400 ≤ bitsOf v.toNat 10 0 ∧ bitsOf v.toNat 10 0 ≤ 1600 ∧ 1600 < bitsOf w.toNat 10 0 ∧ 60 ≤ bitsOf v.toNat 11 0 ∧
      bitsOf v.toNat 11 0 ≤ 3600 ∧ bitsOf v.toNat 9 0 ≤ 1000) ∧
    (let v : Word := 30#32
     bitsOf v.toNat 4 0 ≤ 30 ∧ 1 ≤ bitsOf v.toNat 6 0 ∧ bitsOf v.toNat 6 0 ≤ 72) ∧
    (bitsOf (128#32 : Word).toNat 6 0 = 0 ∧ 72 < bitsOf (73#32 : Word).toNat 6 0) ∧
    ((secAt 15 (fun x => { x with resetting := true })).part 15).sec.resetting = true ∧
    ((secAt 15 (fun x => { x with frozen := true })).part 15).sec.frozen = true := by
  refine ⟨⟨?_, ?_, ?_, ?_, ?_⟩, ⟨?_, ?_, ?_, ?_, ?_, ?_⟩, ⟨?_, ?_, ?_⟩, ⟨?_, ?_⟩, ?_, ?_⟩ <;> decide +kernel

/-- A sealed module and a register write that ends in a next state (the pair's configuration, which stays). -/
theorem witness_SealLocksConfiguration :
    let s := { live with sec := { live.sec with sealed := true } }
    s.sec.sealed = true ∧ s.moduleDeep = false ∧ ∃ t, exec (.registerWrite 0 0x7800 0xFFFFFFFF#32) s = .next t := by
  refine ⟨?_, ?_, ?_⟩
  · decide +kernel
  · decide +kernel
  · exact ⟨_, rfl⟩

/-! ### Health, recovery and cyclic acts -/

/-- A live module with a change to reset unit (kind, unit). -/
def unitAs (kind unit : Nat) (f : Machine.Unit → Machine.Unit) : State := live.onUnit kind unit f

/-- The operands of each command of `HangCommandsComplete`. -/
theorem witness_HangCommandsComplete :
    (let s := live.onTile 63 (fun t => { t with items := [(1, 5)] })
     let h : HangReport := { kind := 0, unit := 63, waits := [(0, 62, false), (4, 15, true)], last := .own, parent := none }
     let f := match (s.lostAt h).bind lockUnit with | some g => g | none => s.blame (h.kind, h.unit) (h.kind, h.unit) 8 h.waits
     decide (h.unit < unitCount h.kind) && decide (f.2 < unitCount f.1) &&
      decide ((s.unit h.kind h.unit).seenAt + s.health.windowMs * 1000000 ≤ s.now) && s.hasWork h.kind h.unit && !s.excused h && decide ((s.unit f.1 f.2).recov = .idle) && !(s.unit f.1 f.2).fenced) = true ∧
    (let s := unitAs 0 63 (fun u => { u with recov := .dumping })
     let r : DumpRead := { tiles := [(63, [], [], 0)], block := none }
     decide (63 < unitCount 0) && decide ((s.unit 0 63).recov = .dumping) && (r.tiles.map Prod.fst == s.dumpTiles 0 63)) = true ∧
    (let v : Word := 0x8000003F#32
     let w : Word := 0xC0000405#32
     live.boot.stepEight && v.toNat.testBit 31 && decide (bitsOf v.toNat 5 0 < unitCount (bitsOf v.toNat 10 8)) && !(live.unit 0 63).fenced &&
      ((unitAs 4 5 (fun u => { u with fenced := true })).unit 4 5).fenced && w.toNat.testBit 31 && w.toNat.testBit 30 &&
      (bitsOf w.toNat 10 8 == 4) && (bitsOf w.toNat 5 0 == 5) &&
      ((unitAs 0 63 (fun u => { u with fenced := true })).unit 0 63).fenced && !v.toNat.testBit 30) = true ∧
    (decide ((live.unit 0 63).recov = .idle) && decide (63 < live.fabric.tiles.length) && decide ((live.tile 63).st ≠ .fenced) &&
      decide (((unitAs 0 63 (fun u => { u with recov := .dumping })).unit 0 63).recov ≠ .idle)) = true := by
  refine ⟨?_, ?_, ?_, ?_⟩ <;> decide +kernel

/-- The operands of each command of `RecoveryCommandsComplete`. -/
theorem witness_RecoveryCommandsComplete :
    (let s := unitAs 0 63 (fun u => { u with recov := .recovering })
     decide (63 < unitCount 0) && decide ((s.unit 0 63).recov = .recovering) && decide ((s.dom (domOfTile 63)).st = .run) &&
      !(s.unit 0 63).fenced && decide ((s.unit 0 63).resetAt + 2 * (recoveryNs 0 63 + (s.dom (domOfTile 63)).st.wakeNs) ≤ s.now)) = true ∧
    (let s := unitAs 5 7 (fun u => { u with recov := .recovering })
     decide (7 < unitCount 5) && decide ((s.unit 5 7).recov = .recovering)) = true ∧
    State.reset.host.up = false ∧ 25 < 26 := by
  refine ⟨?_, ?_, ?_, ?_⟩ <;> decide +kernel

/-- The operands of each command of `SelfTestCommandsComplete`. -/
theorem witness_SelfTestCommandsComplete :
    (let s := { live with health := { live.health with striker := true } }
     let w := s.onTile 63 (fun t => { t with st := .idle })
     s.testable 63 && s.health.striker && decide ((s.tile 63).st ≠ .idle) && w.testable 63 && decide ((w.tile 63).st = .idle)) = true ∧
    (let s := unitAs 0 63 (fun u => { u with striking := true, saved := some [1#8] })
     (s.unit 0 63).striking && ((s.unit 0 63).saved == some [1#8])) = true ∧
    (64 % 64 = 0 ∧ 127 % 64 ≠ 0) ∧
    (!(live.unit 0 63).overdue && decide ((live.unit 0 63).passedAt + 7 * dayNs ≤ live.now)) = true ∧
    (let s := unitAs 5 7 (fun u => { u with testedAt := some (10 ^ 16 - 3600000000000) })
     (s.mem.port 23).avail && decide ((s.unit (portUnit 23).1 (portUnit 23).2).recov = .idle) && s.sliceFree 23 359 &&
      (match (s.unit (portUnit 23).1 (portUnit 23).2).testedAt with | some a => decide (a + 3600000000000 ≤ s.now) | none => true)) =
        true := by
  refine ⟨?_, ?_, ⟨?_, ?_⟩, ?_, ?_⟩ <;> decide +kernel

/-- The operands of each command of `HealthCommandsComplete`. -/
theorem witness_HealthCommandsComplete :
    (live.boot.stepEight && decide (live.health.expelThresh ≤ 1000) && decide (live.wakeDeep.expelWhy = none)) = true ∧
    (let s := { live.onPart 1 (fun q => { q with sec := { q.sec with st := .faulted } }) with health := { live.health with expelled := true } }
     decide (s.wakeDeep.expelWhy = some 4) && s.health.expelled && s.boot.stepEight && decide (s.health.expelThresh ≤ 1000)) = true ∧
    (live.part 0).fetched = [] ∧
    (let d : Desc := { adm 0x98 [] with startedAt := some 5 }
     let s := live.onPart 0 (fun q => { q with fetched := [d] })
     d ∈ (s.part 0).fetched ∧ d.op = 0x98 ∧ d.startedAt.isSome = true) := by
  refine ⟨?_, ?_, ?_, ⟨?_, ?_, ?_⟩⟩ <;> decide +kernel

/-- A cyclic act of a period of 1 ms whose next cycle starts now. -/
def cyc0 : Cyclic :=
  { twin := true, paired := false, chan := none, lane1 := 0x100000, periodUs := 1000, publishUs := 500, saveN := 0, outAddr := 0
    outLen := 0, sharedAddr := 0, sharedLen := 0, regions := [], first := 0, left := none, next := 10 ^ 10 }

/-- A live module whose P1 holds this cyclic act in slot 63, the pair being that of P1. -/
def cycState (c : Cyclic) : State :=
  let s := live.onAct 1 63 (fun a => { a with st := .scheduled, count := 1, cyc := some c
                                              outs := [⟨0, 0, 0, 0, 7⟩, ⟨1, 0, 0, 0, 9⟩] })
  { s with pair := { s.pair with part := 1 } }

/-- The operands of each command of `CycleCommandsComplete`. -/
theorem witness_CycleCommandsComplete :
    (let c := { cyc0 with running := some (10 ^ 10 - 1) }
     let s := cycState c
     decide ((s.act 1 63).cyc = some c) && decide ((s.act 1 63).st = .scheduled) && decide (c.start c.next ≤ s.now) &&
      decide (c.left ≠ some 0) && decide (c.periodUs ≠ 0) && !c.paired && !c.loading && (s.host.stepAt).isNone && decide ((s.actDescs 1 63).length = 0) &&
      (s.matched 1 63 c).isSome) = true ∧
    (let c := cyc0
     let s := cycState c
     decide (c.running = none) && decide (c.unskipped s ≤ c.next) && decide (c.start c.next ≤ s.now)) = true ∧
    (let c := { cyc0 with next := 10 ^ 10 - 2 }
     decide (c.running = none) && decide (c.next < c.unskipped (cycState c)) && decide (c.start c.next ≤ (cycState c).now)) = true ∧
    (let c := { cyc0 with running := some (10 ^ 10 - 1) }
     let s := (cycState c).onAct 1 63 (fun a => { a with outs := [] })
     decide ((s.act 1 63).cyc = some c) && (s.matched 1 63 c).isNone && decide ((s.actDescs 1 63).length = 0)) = true ∧
    (let c := { cyc0 with owed := some (10 ^ 10 - 1), retried := true }
     decide (((cycState c).act 1 63).cyc = some c) && decide (c.deadline (10 ^ 10 - 1) ≤ (cycState c).now) && !c.paired &&
      decide (c.running = none)) = true ∧
    (let c := { cyc0 with owed := some (10 ^ 10 - 1) }
     decide (((cycState c).act 1 63).cyc = some c) && decide (c.deadline (10 ^ 10 - 1) ≤ (cycState c).now) && !c.paired && !c.retried) = true := by
  refine ⟨?_, ?_, ?_, ?_, ?_, ?_⟩ <;> decide +kernel

/-- Two lanes that match. -/
theorem witness_LanesMatchOnlyWhenEqual : ((cycState cyc0).matched 1 63 cyc0).isSome = true := by decide +kernel

/-- The pair of P1 in this role. -/
def pairAs (r : Role) : State :=
  let s := cycState { cyc0 with paired := true, loading := true }
  { s with pair := { s.pair with enable := true, role := r, notBefore := 10 ^ 16 } }

/-- The operands of each command of `PairCommandsComplete`. -/
theorem witness_PairCommandsComplete :
    (let v : Word := 0x80010000#32
     live.boot.stepEight && !live.sec.sealed && v.toNat.testBit 31 && !v.toNat.testBit 30 && !live.pair.enable &&
      { live with sec := { live.sec with sealed := true } }.sec.sealed) = true ∧
    ((pairAs .standby).readyToClaim && decide ((pairAs .standby).pair.notBefore ≤ (pairAs .standby).now)) = true ∧
    (let s := { pairAs .claiming with pair := { (pairAs .claiming).pair with claimAt := 10 ^ 16 - 100000, partner := true } }
     decide (s.pair.role = .claiming) && decide (s.pair.claimAt + 100000 ≤ s.now) && s.pair.partner &&
      !{ s with pair := { s.pair with partner := false } }.pair.partner) = true ∧
    (decide ((pairAs .active).pair.role = .active) && decide ((pairAs .failed).pair.role = .failed) && (pairAs .failed).boot.stepEight &&
      (pairAs .active).boot.stepEight) = true ∧
    (let s := pairAs .active
     let c := { cyc0 with paired := true, loading := true }
     decide ((s.act s.pair.part 63).cyc = some c) && c.loading && c.paired && decide (s.pair.role = .active) &&
      s.host.up && !readFails (.data []) && decide (imageOf (.data []) = none) && !s.pair.warm &&
      decide (newerSave (saveOk (regionLen c.regions [4]) (.data [])) (saveOk (regionLen c.regions [4]) (.data [])) = none)) = true ∧
    (let s := { pairAs .standby with pair := { (pairAs .standby).pair with warm := true } }
     let m : List Byte := [63#8] ++ zeros 31
     s.pair.warm && decide (s.pair.role ≠ .active) && (byteAt m 0 == 63) && decide (32 ≤ m.length) &&
      decide ((s.act s.pair.part 63).cyc = some { cyc0 with paired := true, loading := true }) && !s.pair.own) = true := by
  refine ⟨?_, ?_, ?_, ?_, ?_, ?_⟩ <;> decide +kernel

/-- A slot that loads, for the clause of `PairCommandsComplete` with a save slot: the slot that was written. -/
theorem witness_PairSaveSlot (h : Obligations.SaveSlotLoads) :
    newerSave (saveOk (regionLen cyc0.regions [4]) (.data (saveSlot 5 []))) (saveOk (regionLen cyc0.regions [4]) (.data [])) = some (5, []) := by
  rw [show regionLen cyc0.regions [4] = ([] : List Byte).length by decide +kernel, h 5 [] (by decide) (by decide)]
  rfl

/-- A cycle and a state that a slot can hold. -/
theorem witness_SaveSlotLoads : 2 ^ 64 - 1 < 2 ^ 64 ∧ [1#8, 2#8].length < 2 ^ 32 := by decide

/-! ### The machine -/

/-- An engine-run MATMUL with ENGINE 64, a NOP that names engine 0, and a NOP that may start. -/
theorem witness_EngineFieldChecked :
    (byteAt (bytesOf 0x10 64 []) 0 = 0x10 ∧ 64 ≤ byteAt (bytesOf 0x10 64 []) 2) ∧
    (byteAt (bytesOf 0x00 0 []) 0 = 0x00 ∧ byteAt (bytesOf 0x00 0 []) 2 ≠ 0xFF) ∧
    (byteAt (bytesOf 0x1A 64 []) 0 = 0x1A ∧ byteAt (bytesOf 0x1A 64 []) 2 = 64) ∧
    (opInfo 0x10).isSome = true ∧ (opInfo 0x1A).isSome = true ∧
    (let d := dsc 0x00 0 []
     let s := run1 [] d
     (s.desc? 1 5).isSome && isOp 0x00 d && d.startedAt.isNone && s.mayStart 1 d && !d.chain && (s.part 1).running.isEmpty &&
      (match staticFail d.act.isSome d.bytes with | some (.status st _) => st == 0x11 | _ => false)) = true := by
  refine ⟨⟨?_, ?_⟩, ⟨?_, ?_⟩, ⟨?_, ?_⟩, ?_, ?_, ?_⟩ <;> decide +kernel

/-- A transaction to the first address past the bulk tier, which no clause of the map but the last covers. -/
theorem witness_DevicePhysicalMapHolds :
    (txnB live { tileRead 0 0x9A00000000 with src := none } (fun _ => true) && decide (placeOf 0x9A00000000 = .none) && decide (placeOf 0x99FFFFFFFF = .bulk 359 0x3FFFFFFF) &&
      decide (placeOf 0x23FFFFFFFF = .stacked 143 0x3FFFFFFF) && decide (placeOf 0xF03FFFFFFF = .none) &&
      decide (placeOf (0xF03F000000 + 0x3FFFFF) = .window 63 0x3FFFFF)) = true := by
  decide +kernel

/-- A live CQ with one live SQ bound to it, and one that is not. -/
theorem witness_CqErrorReachesItsSqs :
    let s := live.onPart 1 (fun q => { q with host := { q.host with
      cqs := updAt q.host.cqs 15 (fun x => { x with st := .enabled })
      sqs := updAt (updAt q.host.sqs 63 (fun x => { x with st := .enabled, cq := 15 })) 1 (fun x => { x with st := .enabled, cq := 14 }) } })
    ((s.cq 1 15).st.live && (s.sq 1 63).st.live && decide ((s.sq 1 63).cq = 15) && decide ((s.sq 1 1).cq ≠ 15)) = true := by
  decide +kernel

/-- A memory in canonical form. -/
theorem witness_MemoryReadsBack : Cells.wf ([⟨5, 1#8⟩, ⟨7, 2#8⟩] : Cells) = true := by decide

/-- A state with a command in front and one with none. -/
theorem witness_StepRunsTheFrontCommand :
    { live with pending := [.partnerLineAssert] }.pending = .partnerLineAssert :: [] ∧ live.pending = [] ∧ live.host.slew = 0 ∧
      (∀ i, i < 12 → live.power.rails.getD i .off = if live.railWanted i then .good else .off) ∧
      ∀ p ∈ live.links.ports, p.st ≠ .up := by
  refine ⟨rfl, rfl, rfl, ?_, ?_⟩ <;> decide +kernel

/-- A state in which the invariant holds, with a command in front that runs. -/
theorem witness_StepKeepsTheInvariant :
    { live with pending := [.partnerLineAssert] }.Inv ∧ ∃ t, step { live with pending := [.partnerLineAssert] } = .next t := by
  refine ⟨?_, _, rfl⟩
  exact ⟨by decide +kernel, by decide +kernel⟩

/-! ### Worked examples -/

/-- The bytes of "123456789". -/
def digits : List Byte := (List.range 9).map (fun i => BitVec.ofNat 8 (0x31 + i))

/-- The check row of the presets (R407). -/
theorem test_crc_presets :
    crcOf crc32 digits = 0xCBF43926 ∧ crcOf crc32c digits = 0xE3069283 ∧ crcOf crc16 digits = 0x29B1 ∧
      crcOf crc64 digits = 0x6C40DF5F0B497347 := by
  refine ⟨?_, ?_, ?_, ?_⟩ <;> decide +kernel

/-- The published vectors of SipHash-2-4 with 128 output bits (empty input, key 0 to 15) and of Philox4x32-10 (all zeros), the
functions that R59 and R92 name. -/
theorem test_published_vectors :
    siphash 0x0F0E0D0C0B0A09080706050403020100 [] = toLe 16 0x930255C71472F66DE6A825BA047F81A3 ∧
      (List.range 4).map (philox 0 0 0 0 0) = [0x6627E8D5, 0xE169C58D, 0xBC57AC4C, 0x9B00DBD8] := by
  refine ⟨?_, ?_⟩ <;> decide +kernel

/-- The example after R85: three E4M3 products at anchor 0 sum to 2^-9 in either order, and no flag is set. -/
theorem test_exact_sum_in_any_order :
    let e : Nat → Machine.Num := fmtE4M3.decode
    let l := [(e 0x7E).mul (e 0x7E), (e 0x01).mul (e 0x38), (e 0xFE).mul (e 0x7E)]
    let out := fun (xs : List Machine.Num) => let a := xs.foldl (Acc.product 0) {}; ((a.value 0).1.f32, a.low, a.high, a.v)
    out l = (0x3B000000#32, false, false, 2 ^ 55) ∧ out l.reverse = out l := by
  refine ⟨?_, ?_⟩ <;> decide +kernel

/-- The example after R87: the same products under KC 128 and KC 64. -/
theorem test_ordered_sum_depends_on_chunk :
    let l : List (Machine.Num × Machine.Num) := (.fin false 1 0, .fin false 1 0) :: List.replicate 127 (.fin false 1 (-12), .fin false 1 (-13))
    orderedSum 128 l f32Zero = 0x3F800000#32 ∧ orderedSum 64 l f32Zero = 0x3F800010#32 := by
  refine ⟨?_, ?_⟩ <;> decide +kernel

/-- The example after R94: 12,345 × 2^-7 with zero point -3, to INT8 by RNE and by SR. -/
theorem test_int8_output :
    let w : Machine.Num := (Machine.Num.ofInt 12345).mul (.fin false 1 (-7))
    encodeElem 0x01 .rne false (-3) w = (0x5D, false) ∧ encodeElem 0x01 (.sr 0x8E000000) false (-3) w = (94, false) ∧
      encodeElem 0x01 (.sr 0x8DFFFFFF) false (-3) w = (93, false) := by
  refine ⟨?_, ?_, ?_⟩ <;> decide +kernel

/-- The example after R95: an MXFP8 E4M3 block whose largest magnitude is 300.5. -/
theorem test_mx_block :
    let l : List Machine.Num := [.fin false 601 (-1), .fin true 33 (-1)]
    mxScale 0x06 l = (0x7F, false) ∧ mxElem 0x06 .rne 0x7F (.fin false 601 (-1)) = 0x79 ∧
      mxElem 0x06 .rne 0x7F (ratF32 true 33 10).num = 0xC5 := by
  refine ⟨?_, ?_, ?_⟩ <;> decide +kernel

/-- The example after R385: three ranks reduce 1.0, 2^-24 and 2^-24 in rank order; as ACC160 records the sum is exact. -/
theorem test_rank_order :
    (reduceElem 0x0C 0 false [0x3F80, 0x3380, 0x3380]).1.f32 = 0x3F800000#32 ∧
      (reduceElem 0x10 0 false [2 ^ 64, 2 ^ 40, 2 ^ 40]).1.f32 = 0x3F800001#32 := by
  refine ⟨?_, ?_⟩ <;> decide +kernel

/-- The example after R191: port, slice offset and the next block's port of an interleaved granule. -/
theorem test_interleave :
    let s := run1 [] (dsc 0 0xFF [])
    let m := { s.mem with grans := updAt s.mem.grans 21 (fun g => { g with owner := 1, slices := (List.range 16).map (fun i => (i, 0)) }) }
    (m.portOf 0x0540237A80 == some 3 && m.sliceOff 0x0540237A80 == 0x23A80 && m.portOf 0x0540238000 == some 12) = true := by
  decide +kernel

/-- The example after R168: 30 % glycol, 1.6 L/min, inlets of 45 °C and 48 °C. -/
theorem test_flow_allowance :
    let u := { live.thermal with glycol := 30, inlet := 450 }
    let w := { live.thermal with glycol := 30, inlet := 480 }
    (u.allowance 1600 == 1317 && w.allowance 1600 == 1013) = true := by
  decide +kernel

/-- The example after R586: CQ 3 of P5 through the physical function and through function 5, the register of MP4, and TILE.ID of
T57. -/
theorem test_register_addresses :
    (live.readBar0 0 0x151868 == live.readBar0 5 0x1868 && live.readBar0 5 0x1868 == 0x00060000 &&
      live.readBar0 0 0x8E40 == 0x000C2139 && live.readBar0 5 0x18E8 == 0x00060000 &&
      live.readBar0 0 0x7258 == (unitAs 4 5 (fun u => { u with fenced := true })).readBar0 0 0x7258 &&
      live.readBar0 0 0x7258 != (unitAs 4 4 (fun u => { u with fenced := true })).readBar0 0 0x7258) = true := by
  decide +kernel

/-- The MATMUL descriptor of the example after R279: its first bytes, and that nothing in the descriptor itself is at fault. -/
theorem test_matmul_flags :
    let b := bytesOf 0x10 2 [(1, 1, 0x16), (3, 1, 3), (4, 4, 0xA17), (16, 6, 0x1F000000), (22, 1, 7),
      (40, 8, 0x1F001000)]
    b.take 8 = [0x10#8, 0x16#8, 2#8, 3#8, 0x17#8, 0x0A#8, 0#8, 0#8] ∧ staticFail false b = none := by
  refine ⟨?_, ?_⟩ <;> decide +kernel
/-- A specification without engines, and one with an engine on tile 4. -/
def spec (n : Nat) : List (Nat × List Byte) :=
  [(0x1000, toLe 4 1 ++ [0, 0, 1, 0] ++ zeros 4 ++ toLe 1 n ++ zeros 51 ++ [0, 0, 1, 0, 1, 0, 0, 0] ++ toLe 8 (2 ^ 4) ++ zeros 8)]

theorem witness_PartitionCommandsComplete :
    (let d := adm 0x90 [(16, 1, 2), (18, 2, 4), (20, 6, 0x1000)]
     let s := run0 id (spec 0) d
     s.Ready (ref 0) d ∧ d.op = 0x90 ∧ s.partConfigCheck 0 d = none ∧ isOk ((s.started 0 d).readSpec 0 d) = true) ∧
    (let d := adm 0x91 [(16, 1, 1), (17, 1, 1)]
     let s := (run0 (fun x => { x with st := .configured }) [] d).onPart 1 (fun q => { q with engines := [] })
     s.Ready (ref 0) d ∧ d.op = 0x91 ∧ d.fld 17 1 = 1 ∧ (s.part 1).sec.resetting = false ∧ (s.part 1).sec.st = .configured ∧
      (s.part 1).engines = [] ∧ s.admissible 1 = true ∧ ((s.started 0 d).part 1).sec.engSpecs = [] ∧ (s.part 1).sec.engSpecs = []) ∧
    (let d := adm 0x91 [(16, 1, 1), (17, 1, 1)]
     let e : EngSpec := { idx := 0, elastic := false, image := 1, release := 1, tiles := [3], defTimeout := 0 }
     let s := ((run0 (fun x => { x with st := .configured, engSpecs := [e] }) [] d).onPart 1 (fun q => { q with engines := [] })).onTile 3
       (fun t => { t with part := some 1 })
     s.Ready (ref 0) d ∧ d.op = 0x91 ∧ d.fld 17 1 = 1 ∧ (s.part 1).engines = [] ∧ s.admissible 1 = true ∧
      (∀ e, e ∈ (s.part 1).sec.engSpecs → s.engineBars 1 e = none) ∧ ((s.started 0 d).part 1).sec.engSpecs ≠ []) ∧
    (let d := adm 0x91 [(16, 1, 1), (17, 1, 2)]
     let s := run0 (fun x => { x with st := .admitted }) [] d
     s.Ready (ref 0) d ∧ d.fld 17 1 = 2 ∧ (s.part 1).sec.st = .admitted) ∧
    (let d := adm 0x91 [(16, 1, 1), (17, 1, 3)]
     (run0 id [] d).Ready (ref 0) d ∧ d.fld 17 1 = 3 ∧ ((run0 id [] d).part 1).sec.st = .running) ∧
    (let d := adm 0x91 [(16, 1, 1), (17, 1, 5)]
     let s := run0 (fun x => { x with st := .configured }) [] d
     s.Ready (ref 0) d ∧ d.fld 17 1 = 5 ∧ (s.part 1).sec.st = .configured) ∧
    (let d := adm 0x91 [(16, 1, 1), (17, 1, 4)]
     let s := run0 id [] d
     s.Ready (ref 0) d ∧ d.op = 0x91 ∧ d.fld 17 1 = 4 ∧ (s.part 1).sec.st ≠ .unconfigured ∧
      ((s.started 0 d).part 1).sec.resetting = false) ∧
    (let s := secAt 1 (fun x => { x with st := .quiescing })
     (s.part 1).sec.st = .quiescing ∧ (∀ d, d ∈ (s.part 1).fetched → isAdmin d.op = true) ∧ (∀ a, a ∈ (s.part 1).acts → a.st = .free)) ∧
    (live.hasFn 15 = true ∧ live.host.up = true ∧ (live.part 15).sec.resetting = false) := by
  and_intros <;> first | (apply ready_of; decide +kernel) | decide +kernel

theorem witness_GranuleCommandsComplete :
    (let d := adm 0x92 [(16, 1, 1), (20, 2, 143), (22, 2, 1)]
     let s := run0 id [] d
     s.Ready (ref 0) d ∧ d.op = 0x92 ∧ s.memGrantCheck 0 d = none ∧
      ((s.started 0 d).grantAll (d.fld 16 1) (d.fld 17 1) (d.fld 18 1) d.granules).isSome = true) ∧
    (let d := adm 0x93 [(16, 1, 1), (22, 2, 1)]
     let s := run0 (fun x => { x with st := .configured }) [] d
     s.Ready (ref 0) d ∧ d.op = 0x93 ∧ s.memReleaseCheck 0 d = none) ∧
    (143 < 0x8000 ∧ 143 < live.mem.grans.length ∧ (live.backing 143 1 15).isSome = true ∧ (live.grantOne 1 1 15 143).isSome = true) := by
  and_intros <;> first | (apply ready_of; decide +kernel) | decide +kernel

theorem witness_EngineCommandsComplete :
    (let d := adm 0x94 [(16, 1, 1), (17, 1, 63), (19, 1, 1), (20, 3, 1), (24, 8, 8)]
     let s := (run0 id [] d).onTile 3 (fun t => { t with part := some 1 })
     s.Ready (ref 0) d ∧ d.op = 0x94 ∧ s.engineConfigCheck 0 d = none) ∧
    (let d := adm 0x95 [(16, 1, 1)]
     (run0 id [] d).Ready (ref 0) d ∧ d.op = 0x95 ∧ (run0 id [] d).engineReleaseCheck 0 d = none) ∧
    (let d := adm 0x96 [(16, 1, 63), (17, 1, 1)]
     (run0 id [] d).Ready (ref 0) d ∧ d.op = 0x96 ∧ d.fld 17 1 = 1 ∧ ((run0 id [] d).tile (d.fld 16 1)).st ≠ .fenced) ∧
    (let d := adm 0x96 [(16, 1, 63)]
     let s := (run0 id [] d).onTile 63 (fun t => { t with st := .fenced })
     s.Ready (ref 0) d ∧ d.op = 0x96 ∧ d.fld 17 1 = 0 ∧ (s.tile (d.fld 16 1)).st = .fenced) ∧
    (let d := dsc 0 0xFF []
     let s := ((run1 [] d).onTile 2 (fun t => { t with st := .loading })).queueLoad 1 0
     (s.engine? 1 0).isSome = true ∧ [2] ≠ [] ∧ s.loads.head? = some (1, 0) ∧ (∀ e ∈ s.engine? 1 0, [2] = e.tiles.filter (fun k => (s.tile k).st == .loading &&
      (s.tile k).engine == some 0 && (s.tile k).part == some 1))) ∧
    (let s := (run1 [] (dsc 0x10 0 [])).onTile 2 (fun t => { t with st := .active, items := [(1, 5)] })
     (s.tile 2).items = (1, 5) :: [] ∧ (s.tile 2).st = .active ∧ (s.dom (domOfTile 2)).st = .run) := by
  and_intros <;> first | (apply ready_of; decide +kernel) | decide +kernel

/-- A load record: content slot 7, 4 KiB from bus address 0 to the start of P1's granule. -/
def loadRec : List (Nat × List Byte) := [(0x1000, toLe 4 1 ++ [7, 0, 0, 0] ++ zeros 8 ++ toLe 8 0x1000 ++ zeros 40)]

/-- A firmware package for the steward: a header and one byte of image. -/
def package : List Byte := toLe 4 0x46575A38 ++ [1, 0, 0, 0] ++ toLe 4 2 ++ toLe 4 1 ++ zeros 497

/-- A whole package has an outcome, whatever its signature. -/
theorem fwStage_ok {s : State} (d : Desc) (b : List Byte) (h : s.host.up = true) : ∃ t o, s.fwStage (.data b) d = .ok (t, o) := by
  have hf : hostFail (s.hostGives (.data b)) = none := by simp [State.hostGives, h, hostFail]
  simp only [State.fwStage, hf]
  split
  · exact ⟨_, _, rfl⟩
  · split <;> exact ⟨_, _, rfl⟩

/-- A load whose record reads has an outcome, whatever its tags. -/
theorem weightLoad_ok {s : State} (d : Desc) (chunks : List (List Byte)) (h : s.host.up = true)
    (hr : isOk (s.readVa 0 none 0 (d.fld 20 6) 64) = true) : ∃ t o, s.weightLoad 0 d chunks = .ok (t, o) := by
  cases hv : s.readVa 0 none 0 (d.fld 20 6) 64 with
  | error e => simp [hv, isOk] at hr
  | ok b =>
    simp only [State.weightLoad, hv, h, bind, Except.bind, Bool.not_true, Bool.false_eq_true, if_false]
    split <;> exact ⟨_, _, rfl⟩

theorem witness_KeyAndFirmwareCommandsComplete :
    (let d := adm 0x97 [(16, 1, 1), (17, 1, 1)]
     (run0 id [] d).Ready (ref 0) d ∧ d.op = 0x97 ∧ d.fld 16 1 = 1 ∧ d.fld 17 1 = 1 ∧ ((run0 id [] d).part 1).sec.resetting = false ∧
      ((run0 id [] d).part 1).sec.st.rotates = true ∧ ((run0 id [] d).part 1).sec.prevKey = none ∧
      ((run0 id [] d).part 1).sec.retiredFrames = []) ∧
    (let d := adm 0x97 [(16, 1, 1), (17, 1, 2)]
     let s := run0 (fun x => { x with prevKey := some 5 }) [] d
     s.Ready (ref 0) d ∧ d.fld 17 1 = 2 ∧ (s.part 1).sec.st.rotates = true ∧ (s.part 1).sec.prevKey.isSome = true) ∧
    (let d := adm 0x97 [(16, 1, 1), (17, 1, 3)]
     (run0 id [] d).Ready (ref 0) d ∧ d.fld 17 1 = 3 ∧ ((run0 id [] d).part 1).sec.frozen = false ∧
      ((run0 id [] d).part 1).sec.st.rotates = true) ∧
    (let d := adm 0x97 [(16, 1, 1), (17, 1, 6), (20, 6, 0x1000)]
     let s := run0 id loadRec d
     s.Ready (ref 0) d ∧ d.fld 17 1 = 6 ∧ (s.part 1).sec.frozen = false ∧ (s.part 1).sec.st ≠ .unconfigured ∧
      (∃ h, s.readVa 0 none 0 (d.fld 20 6) 8 = .ok h ∧ byteAt h 4 ≤ 7)) ∧
    (let d := adm 0x97 [(16, 1, 1), (17, 1, 5), (20, 6, 0x1000)]
     let s := run0 (fun x => { x with st := .configured, content := updAt x.content 7 (fun _ => some ([], 0)) }) loadRec d
     s.Ready (ref 0) d ∧ d.op = 0x97 ∧ d.fld 17 1 = 5 ∧
      chunksFit (fieldAt (s.peekVa 0 (d.fld 20 6) 64) 16 8) [zeros 0x1010] = true ∧ s.host.up = true ∧ s.weightCheck 0 d = none ∧
      ∃ t o, ((s.started 0 d).atWork 0 d).weightLoad 0 d [zeros 0x1010] = .ok (t, o)) ∧
    (let s := secAt 15 (fun x => { x with prevKey := some 1, oldFrames := [(3, 2)] })
     15 < 16 ∧ (s.part 15).sec.prevKey.isSome = true ∧ 1 < 2 ∧ (s.part 15).sec.oldFrames = (3, 2) :: []) ∧
    (let s := secAt 15 (fun x => { x with prevKey := some 1, oldFrames := [(4, 1)] })
     (s.part 15).sec.prevKey.isSome = true ∧ (s.part 15).sec.oldFrames = [(4, 1)]) ∧
    (let d := adm 0x98 [(16, 1, 1), (24, 8, 0), (32, 4, 513)]
     let s := run0 id [] d
     s.Ready (ref 0) d ∧ d.op = 0x98 ∧ fwWhole (.data package) (d.fld 32 4) = true ∧ s.fwStageCheck (.data package) d = none ∧
      ∃ t o, (((s.started 0 d).fwOpen d).atWork 0 d).fwStage (.data package) d = .ok (t, o)) ∧
    (let d := adm 0x99 [(16, 1, 2), (17, 1, 0)]
     let s := (run0 id [] d).onFw 2 (fun f => { f with b := { f.b with valid := true, staged := true } })
     s.Ready (ref 0) d ∧ d.op = 0x99 ∧ d.fld 16 1 ≠ 1 ∧ s.fwActivateCheck 0 d = none) := by
  and_intros <;> first
    | (apply ready_of; decide +kernel)
    | (exact fwStage_ok _ _ rfl)
    | (apply weightLoad_ok <;> decide +kernel)
    | (refine ⟨[1, 0, 0, 0, 7, 0, 0, 0], ?_, ?_⟩ <;> first | (apply eq_ok; decide +kernel) | decide +kernel)
    | decide +kernel

/-! ### A record that names this module, whatever its serial number is -/

theorem leNat_toLe (n k : Nat) : leNat (toLe n k) = k % 256 ^ n := by
  induction n generalizing k with
  | zero => simp [toLe, leNat, Nat.mod_one]
  | succ n ih =>
    have h : 256 ^ (n + 1) = 256 * 256 ^ n := by rw [Nat.pow_succ, Nat.mul_comm]
    rw [toLe, leNat, ih, h, Nat.mod_mul, BitVec.toNat_ofNat]

/-- A binding record of one entry: content slot 7 and this module's serial number. -/
def bindRec : List Byte := toLe 4 1 ++ [7, 1] ++ zeros 26 ++ toLe 8 Config.serial.toNat ++ zeros 152

/-- The cells that hold it at address a. -/
def bindCells (a : Nat) : List Host.Cell :=
  [(a, 1), (a + 4, 7), (a + 5, 1)] ++ (List.range 8).map (fun i => (a + 32 + i, (toLe 8 Config.serial.toNat).getD i 0))

theorem bindRec_names : namesModule bindRec = true := by
  have h : fieldAt bindRec (32 + 160 * 0) 8 = leNat (toLe 8 Config.serial.toNat) := by rfl
  have hb : byteAt bindRec 5 = 1 := by rfl
  simp only [namesModule, hb, List.range_succ, List.range_zero, List.nil_append, List.any_cons, List.any_nil, h, leNat_toLe]
  rw [Nat.mod_eq_of_lt (show Config.serial.toNat < 256 ^ 8 from Config.serial.isLt)]
  simp

set_option maxRecDepth 20000 in
theorem bindCells_read : Cells.read (bindCells 0x40001000) 0x40001000 192 = bindRec := by
  rfl

def bindDesc : Desc := adm 0x97 [(16, 1, 1), (17, 1, 4), (20, 6, 0x1000)]

def bindState : State :=
  let s := run0 id [] bindDesc
  { s with mem := { s.mem with cells := bindCells 0x40001000 } }

theorem readVa_of {s : State} {p va len : Nat} {ps : List (Nat × Nat)} {bs : List Byte} (hr : s.resolve p none 0 va len false = .ok ps)
    (he : ps.find? (fun c => s.retiredEpoch p c.1) = none) (hw : ps.all (fun c => s.pathUp p none c.1 c.2) = true)
    (hp : (ps.flatMap (fun c => wordsOf c.1 c.2)).filter s.mem.poisoned = []) (hn : s.racing = [])
    (hb : ps.flatMap (fun c => s.mem.cells.read c.1 c.2) = bs) : s.readVa p none 0 va len = .ok bs := by
  simp only [State.readVa, hr, hw, if_true, State.readPieces, he, hp, State.readRaced, hn]
  simpa using hb

/-- Where bindState's bytes lie. -/
theorem bind_readVa {s : State} (len : Nat) {bs : List Byte} (hc : s.mem.cells = bindCells 0x40001000)
    (hr : (s.resolve 0 none 0 0x1000 len false).toOption = some [(0x40001000, len)]) (he : s.retiredEpoch 0 0x40001000 = false)
    (hw : s.pathUp 0 none 0x40001000 len = true) (hn : s.racing = [])
    (hp : (wordsOf 0x40001000 len).filter s.mem.poisoned = []) (hb : Cells.read (bindCells 0x40001000) 0x40001000 len = bs) :
    s.readVa 0 none 0 0x1000 len = .ok bs :=
  readVa_of (eq_ok hr) (by simp [he]) (by simpa using hw) (by simpa using hp) hn (by simpa [hc] using hb)

theorem bind_readBind (s : State) (hc : s.mem.cells = bindCells 0x40001000)
    (hr : ∀ len, len = 32 ∨ len = 192 → (s.resolve 0 none 0 0x1000 len false).toOption = some [(0x40001000, len)] ∧
      s.pathUp 0 none 0x40001000 len = true ∧ (wordsOf 0x40001000 len).filter s.mem.poisoned = [])
    (he : s.retiredEpoch 0 0x40001000 = false) (hn : s.racing = []) :
    s.readBind 0 bindDesc = .ok bindRec := by
  have r1 := bind_readVa (s := s) 32 (bs := toLe 4 1 ++ [7, 1] ++ zeros 26) hc (hr 32 (.inl rfl)).1 he (hr 32 (.inl rfl)).2.1 hn (hr 32 (.inl rfl)).2.2 rfl
  have r2 := bind_readVa (s := s) 192 hc (hr 192 (.inr rfl)).1 he (hr 192 (.inr rfl)).2.1 hn (hr 192 (.inr rfl)).2.2 bindCells_read
  have h1 : firstBad (bindHeadBad (toLe 4 1 ++ [7, 1] ++ zeros 26)) = none := by decide
  have h2 : firstBad ((List.range (byteAt (toLe 4 1 ++ [7, 1] ++ zeros 26) 5)).flatMap (bindEntryBad bindRec)) = none := by rfl
  have h3 : 32 + 160 * byteAt (toLe 4 1 ++ [7, 1] ++ zeros 26) 5 = 192 := by rfl
  have h4 : bindDesc.fld 20 6 = 0x1000 := by rfl
  simp only [State.readBind, h4, r1, h1, h2, h3, r2, bind, Except.bind]

theorem witness_KeyOpBindLoad :
    bindState.Ready (ref 0) bindDesc ∧ bindDesc.op = 0x97 ∧ bindDesc.fld 16 1 = 1 ∧ bindDesc.fld 17 1 = 4 ∧
    (bindState.part 1).sec.resetting = false ∧ (bindState.part 1).sec.frozen = false ∧ (bindState.part 1).sec.loads? = true ∧
    bindState.readBind 0 bindDesc = .ok bindRec ∧ (bindState.started 0 bindDesc).readBind 0 bindDesc = .ok bindRec ∧
    namesModule bindRec = true := by
  refine ⟨?_, ?_, ?_, ?_, ?_, ?_, ?_, bind_readBind _ rfl (fun len h => ?_) ?_ rfl, bind_readBind _ ?_ (fun len h => ?_) ?_ rfl, bindRec_names⟩
  case refine_1 => apply ready_of; decide +kernel
  case refine_8 => obtain rfl | rfl := h <;> decide +kernel
  case refine_11 => obtain rfl | rfl := h <;> decide +kernel
  case refine_10 => exact (show ∀ a b : List Host.Cell, a = b → a = b from fun _ _ h => h) _ _ (by rfl)
  all_goals decide +kernel
/-- The header of a KV space: DL 64, BF16, two sequences, two pages, 2^10 index entries, two chunks, pool 0 in stacked DRAM at
0x20000 with two slots and, when parking is asked for, pool 1 of KIND 2 with one slot, its PARK_POOL. -/
def kvHead (park : Bool) : List Byte :=
  toLe 4 1 ++ toLe 2 64 ++ [0, 0x0C] ++ zeros 8 ++ toLe 4 2 ++ toLe 4 2 ++ [10, 0, 0, if park then 1 else 0xFF] ++ toLe 4 2 ++
  toLe 8 0x11000 ++ toLe 8 0x12000 ++ toLe 8 0x13000 ++ toLe 8 0x1B000 ++ zeros 8 ++ toLe 8 0x1C000 ++ zeros 16 ++
  toLe 6 0x20000 ++ [1, 0] ++ toLe 4 2 ++ zeros 4 ++
  (if park then toLe 6 0x30000 ++ [2, 0] ++ toLe 4 1 ++ zeros 4 else [])

/-- The pieces of that header that are not zero, at 0x10000. -/
def kvPieces (park : Bool) : List (Nat × List Byte) :=
  [(0x10000, [1]), (0x10004, [64, 0, 0, 0x0C]), (0x10010, [2]), (0x10014, [2]), (0x10018, [10, 0, 0, if park then 1 else 0xFF, 2]),
   (0x10021, [0x10, 1]), (0x10029, [0x20, 1]), (0x10031, [0x30, 1]), (0x10039, [0xB0, 1]), (0x10049, [0xC0, 1]),
   (0x10062, [2, 0, 0, 0, 1, 0, 2])] ++ (if park then [(0x10072, [3, 0, 0, 0, 2, 0, 1])] else [])

/-- The cells of some pieces in order, zero bytes left out. -/
def listed (l : List (Nat × List Byte)) : List Host.Cell :=
  l.flatMap (fun x => x.2.zipIdx.filterMap (fun y => if y.1 = 0 then none else some (x.1 + y.2, y.1)))

/-- P1 with space 0 attached at 0x10000 and these first bytes of its two sequences' entries; `d` is fetched. -/
def kvIn (park : Bool) (a b : Byte) (d : Desc) : State :=
  let s := (run1 [] d).onPart 1 (fun q => { q with kv := [(0, 0x10000)] })
  { s with mem := { s.mem with cells := listed (kvPieces park ++ [(0x11000, [a]), (0x11140, [b])]) } }

/-- Its space. -/
def kvSpace (park : Bool) : Kv := { part := 1, space := 0, va := 0x10000, head := kvHead park ++ zeros (if park then 384 else 400) }

/-- What the KV statements ask of a state: the command is ready, no STEP runs, the space is there before and once it has started, its
header reads, and more holds of the space as its checks find it and as the commit finds it. -/
def kvB (s : State) (d : Desc) (k : Kv) (more : State → State → Bool) : Bool :=
  readyB s (ref 1) d && (s.part 1).running.isEmpty && s.kv? 1 0 == some k && isOk (s.readVa 1 (s.srcOf 1 d) 0 k.va 512) &&
    ((s.started 1 d).kv? 1 0 == some k && more (s.kvNow k) ((s.started 1 d).kvNow k))

theorem kv_of {s : State} {d : Desc} {k : Kv} {more : State → State → Bool} (h : kvB s d k more = true) :
    s.Ready (ref 1) d ∧ (s.part 1).running = [] ∧ s.kv? 1 0 = some k ∧ (∃ b, s.readVa 1 (s.srcOf 1 d) 0 k.va 512 = .ok b) ∧
      (s.started 1 d).kv? 1 0 = some k ∧ more (s.kvNow k) ((s.started 1 d).kvNow k) = true := by
  simp only [kvB, Bool.and_eq_true, beq_iff_eq, List.isEmpty_iff] at h
  refine ⟨ready_of h.1.1.1.1, h.1.1.1.2, h.1.1.2, ?_, h.2⟩
  cases hr : s.readVa 1 (s.srcOf 1 d) 0 k.va 512 with
  | ok b => exact ⟨b, rfl⟩
  | error e => rw [hr] at h; cases h.1.2

/-- The operands of each command of `KvSequenceCommandsComplete`, read by `kv_of`. -/
theorem witness_KvSequenceCommandsComplete :
    (let d := dsc 0x42 0 [(20, 4, 1)]
     let k := kvSpace false
     kvB (kvIn false 0 0 d) d k (fun u b => d.op == 0x42 && decide (d.fld 20 4 < k.seqMax) && u.seqState k 1 == 0 &&
      (u.lookupTokens k d).toOption == some [] && !u.chunksShort k (u.lookupPages k d).1.length && !(b.lookupPages k d).2)) = true ∧
    (let d := dsc 0x43 0 [(20, 4, 1), (24, 4, 60)]
     let k := kvSpace true
     kvB (kvIn true 0 1 d) d k (fun u _ => d.op == 0x43 && (u.parkBad k 1).isNone)) = true ∧
    (let d := dsc 0x44 0 [(20, 4, 1)]
     let k := kvSpace false
     kvB (kvIn false 0 2 d) d k (fun u b => d.op == 0x44 && u.seqState k 1 == 2 && b.seqState k 1 == 2 && k.poolKind (d.fld 17 1) == 1)) = true ∧
    (let d := dsc 0x46 0 [(17, 1, 0xFF), (20, 4, 1), (24, 4, 0)]
     let k := kvSpace false
     kvB (kvIn false 0 1 d) d k (fun u _ => d.op == 0x46 && d.fld 17 1 == 0xFF && decide (d.fld 24 4 < k.seqMax) &&
      d.fld 20 4 != d.fld 24 4 && u.seqState k 1 == 1 && u.seqState k 0 == 0 && decide (u.copyLen k d ≤ u.seqLen k 1) &&
      !u.chunksShort k (cdiv (u.copyLen k d) 64))) = true ∧
    (let d := dsc 0x45 0 [(20, 4, 1)]
     let k := kvSpace false
     kvB (kvIn false 0 1 d) d k (fun u _ => d.op == 0x45 && d.fld 16 1 == 0 && decide (d.fld 20 4 < k.seqMax) &&
      u.seqState k 1 != 0)) = true := by
  refine ⟨?_, ?_, ?_, ?_, ?_⟩ <;> decide +kernel

/-- The operands of each command of `KvSpaceCommandsComplete`. -/
theorem witness_KvSpaceCommandsComplete :
    (let d := dsc 0x45 0 [(16, 1, 1)]
     kvB (kvIn false 0 1 d) d (kvSpace false) (fun _ _ => d.op == 0x45 && d.fld 16 1 == 1)) = true ∧
    (let d := dsc 0x45 0 [(16, 1, 4)]
     kvB (kvIn false 0 1 d) d (kvSpace false) (fun u _ => d.fld 16 1 == 4 && !u.kvBusy 1 0 d.num)) = true ∧
    (let d := dsc 0x45 0 [(16, 1, 3)]
     kvB (kvIn false 0 0 d) d (kvSpace false) (fun u _ => d.fld 16 1 == 3 && !u.kvInUse (kvSpace false) d.num)) = true ∧
    (let d := dsc 0x45 0 [(16, 1, 2), (17, 1, 1), (24, 6, 0x10000)]
     let s := kvIn false 0 0 d
     readyB s (ref 1) d && d.op == 0x45 && d.fld 16 1 == 2 && (s.kv? 1 (d.fld 17 1)).isNone &&
      (s.kvFormat 1 d).toOption == some { kvSpace false with space := 1 } &&
      (((s.started 1 d).atWork 1 d).kvFormat 1 d).toOption == some { kvSpace false with space := 1 } &&
      (s.formatBad 1 d { kvSpace false with space := 1 }).isNone) = true ∧
    (let s := kvIn false 0 6 (dsc 0 0xFF [])
     let k := kvSpace false
     s.kv? 1 0 == some k && s.seqState k 1 == 2 && s.seqRuns k 1 && decide (s.sqf k 1 24 8 ≤ s.now)) = true := by
  refine ⟨?_, ?_, ?_, ?_, ?_⟩ <;> decide +kernel
/-- `kvIn` with a parameter block at 0x1000 and tensors. -/
def kvWith (a b : Byte) (recs : List (List Byte)) (l : List (Nat × List Byte)) (d : Desc) : State :=
  let s := kvIn false a b d
  let c := listed (recs.zipIdx.map (fun x => (0x1000 + 32 * x.2, x.1)) ++ l ++
    (kvPieces false).map (fun x => if x.1 = 0x10049 then (x.1, [0xC0, 0x41]) else x) ++ [(0x11000, [a]), (0x11140, [b])])
  { s with mem := { s.mem with cells := c } }

/-- Its space, whose allocation maps lie where nothing is mapped: the free bytes of a commit then stand nowhere. -/
def kvFar : Kv := { kvSpace false with head := updAt (kvSpace false).head 74 (fun _ => 0x41) }

set_option maxRecDepth 100000 in
/-- The operands of each command of `AttentionCommandsComplete`: an entry that appends nothing, and sequences without keys. -/
theorem witness_AttentionCommandsComplete :
    (let d := dsc 0x41 0 [(16, 6, 0x1000), (22, 1, 4), (26, 2, 1)]
     let k := kvFar
     let s := kvWith 0 1 [trec 0x2000 0x0C 1 64 0, zeros 32, trec 0x3000 0x14 1 32 0, trec 0x4000 0x13 1 1 0]
       [(0x3000, [1]), (0x3004, [255, 255, 255, 255])] d
     kvB s d k (fun u b => d.op == 0x41 && (u.kvAppendCheck k d).isNone && (match u.paramBlock 1 d with
       | .ok bl => isOk (u.kvAppendArgs k d bl) && ((s.started 1 d).paramBlock 1 d).toOption == some bl && isOk (b.kvAppendArgs k d bl)
       | .error _ => false))) = true ∧
    (let d := dsc 0x40 0 [(16, 6, 0x1000), (22, 1, 14), (26, 1, 1), (27, 1, 1), (28, 2, 16), (30, 2, 16), (52, 2, 1), (54, 2, 1)]
     let s := run1 (([trec 0x2000 0x0C 1 16 0, trec 0x2100 0x0C 1 16 0, zeros 32, trec 0x2200 0x13 1 1 0, trec 0x2240 0x13 1 1 0,
       trec 0x2300 0x0C 1 16 0, trec 0x2400 0x0C 1 16 0].zipIdx.map (fun x => (0x1000 + 32 * x.2, x.1)))) d
     readyB s (ref 1) d && d.op == 0x40 && !d.attCache && (s.attDenseCheck 1 d).isNone && isOk (((s.started 1 d).atWork 1 d).attRun 1 d)) = true ∧
    (let d := dsc 0x40 0 [(16, 6, 0x1000), (22, 1, 14), (23, 1, 3), (26, 1, 1), (27, 1, 1), (52, 2, 1), (54, 2, 1)]
     let k := kvFar
     let s := kvWith 1 0 [trec 0x2000 0x0C 1 64 0, trec 0x2100 0x0C 1 64 0, zeros 32, trec 0x2200 0x13 1 1 0, trec 0x2240 0x13 1 1 0] [] d
     kvB s d k (fun u _ => d.op == 0x40 && d.attCache && (u.attCacheCheck k d).isNone &&
      isOk ((((s.started 1 d).attOpen 1 d).atWork 1 d).attRun 1 d))) = true := by
  refine ⟨?_, ?_, ?_⟩ <;> decide +kernel
/-! ### STEP -/

/-- A model table of one absorbed layer with 128 features and two tokens, its layer's block at 0x20, its top block at 0x440, the
layer's record at 0x540 and the table at 0x580; a plan of one DECODE entry at 0x5C0, and its sampling record at 0x640. -/
def stepMem : List (Nat × List Byte) :=
  ([trec 0x40000 0x0E 1 128 0, zeros 32, trec 0x41000 0x0C 128 64 0, trec 0x45000 0x0C 128 64 0, zeros 32, zeros 32,
    trec 0x49000 0x0C 64 128 0, trec 0x40000 0x0E 1 128 0, zeros 32, trec 0x50000 0x0C 128 128 0, trec 0x58000 0x0C 128 128 0,
    trec 0x60000 0x0C 128 128 0].zipIdx.map (fun x => (0x20 + 32 * x.2, x.1))) ++
  ([trec 0x68000 0x0C 2 128 0, trec 0x40000 0x0E 1 128 0, zeros 32, trec 0x69000 0x0C 128 2 0].zipIdx.map (fun x =>
    (0x440 + 32 * x.2, x.1))) ++
  [(0x540, zeros 8 ++ toLe 6 0x20 ++ [1, 1] ++ zeros 12 ++ [1]),
   (0x580, toLe 4 1 ++ toLe 3 1 ++ [0, 1, 0, 1, 0x0C] ++ toLe 4 2 ++ toLe 2 128 ++ toLe 2 128 ++ [1] ++ zeros 11 ++ toLe 6 0x440 ++
     toLe 6 0x540 ++ zeros 8 ++ [255, 255, 255, 255] ++ toLe 6 0x70000),
   (0x5C0, toLe 4 1 ++ [1, 0, 0xFF, 0xFF] ++ toLe 4 1 ++ zeros 4 ++ toLe 6 0x580 ++ zeros 12 ++ toLe 6 0x640 ++ toLe 6 0x6C0 ++ toLe 6 0x740),
   (0x600, [0, 0, 0, 0, 9, 0, 0, 0xFF] ++ zeros 8 ++ [255, 255, 255, 255]),
   (0x640, zeros 40 ++ [1, 0, 0, 0] ++ zeros 44 ++ [6])]

/-- STEP on engine 0. -/
def stepDesc : Desc := dsc 0x50 0 [(16, 6, 0x5C0)]

/-- Its state, with the workspace and the KV space's maps where nothing is mapped. -/
def stepState : State :=
  let s := kvIn false 0 0 stepDesc
  let c := listed (stepMem ++ kvPieces false)
  { s with mem := { s.mem with cells := c } }

/-- What STEP's checks ask of its plan, but for the least workspace. -/
def planFits (s : State) (p : Nat) (d : Desc) (q : Plan) : Bool :=
  q.draft.isNone && q.main.workBytes == 2 ^ 32 - 1 && !s.rolesBad p d q.h q.es && (q.es.find? (s.stepEntryBad p q)).isNone &&
    !s.stepClash p d q && s.stepRoom p q && isOk (s.resolve p (s.srcOf p d) 0 q.resultVa (64 * q.es.length) true) &&
    (s.digestReach p d).isNone

/-- A plan that fits passes: its WORK_BYTES is the greatest there is, so the least that the manifest gives (a free value) is no
more. -/
theorem stepCheck_of {s : State} {p : Nat} {d : Desc} {q : Plan} (hq : s.readPlan p d = .ok q) (h : planFits s p d q = true) :
    s.stepCheck p d = none := by
  simp only [planFits, Bool.and_eq_true, Option.isNone_iff_eq_none, Bool.not_eq_true', beq_iff_eq] at h
  obtain ⟨⟨⟨⟨⟨⟨⟨h1, h2⟩, h3⟩, h4⟩, h5⟩, h6⟩, h7⟩, h8⟩ := h
  have hw : q.workShort = false := by
    simp only [Plan.workShort, h1, h2, Option.toList_none, List.any_cons, List.any_nil, Bool.or_false, decide_eq_false_iff_not]
    have := (Config.leastWork q.main.id q.budget).isLt
    omega
  cases hr : s.resolve p (s.srcOf p d) 0 q.resultVa (64 * q.es.length) true with
  | error e => rw [hr] at h7; cases h7
  | ok a => simp [State.stepCheck, hq, State.stepBad, h3, h4, h5, h6, h8, hw, hr]

theorem step_check : stepState.stepCheck 1 stepDesc = none := by
  have h : (match stepState.readPlan 1 stepDesc with
    | .ok q => planFits stepState 1 stepDesc q
    | .error _ => false) = true := by decide +kernel
  cases hq : stepState.readPlan 1 stepDesc with
  | error e => rw [hq] at h; cases h
  | ok q => rw [hq] at h; exact stepCheck_of hq h

/-- STEP without a digest ends in a next state whatever its plan's model computes. -/
theorem runStep_ok {s : State} {p : Nat} {d : Desc} (hp : isOk (s.readPlan p d) = true) (hd : d.digest = false) :
    ∃ t o, s.runStep p d = .ok (t, o) := by
  cases hq : s.readPlan p d with
  | error e => rw [hq] at hp; cases hp
  | ok q =>
    simp only [State.runStep, hq, bind, Except.bind]
    cases s.stepPhases p d q with
    | error e => exact ⟨_, _, rfl⟩
    | ok x => simp only [State.writeDigest, hd]; exact ⟨_, _, rfl⟩

/-- The state in which its work is carried out. -/
def stepWork : State := ((stepState.started 1 stepDesc).stepOpen 1 stepDesc).atWork 1 stepDesc

theorem step_runs : ∃ t o, stepWork.runStep 1 stepDesc = .ok (t, o) :=
  runStep_ok (by decide +kernel) (by decide +kernel)

/-- A sampling record that passes: one token at most, a ring of 2^6 entries. -/
def sampRec (va : Nat) : List (Nat × List Byte) := [(va + 40, [1]), (va + 88, [6])]

/-- The operands of each command of `ServingCommandsComplete`. -/
theorem witness_ServingCommandsComplete :
    (stepState.Ready (ref 1) stepDesc ∧ stepDesc.op = 0x50 ∧ stepState.stepCheck 1 stepDesc = none ∧
      ∃ t o, stepWork.runStep 1 stepDesc = .ok (t, o)) ∧
    (let d := tensor 0x51 4 []
     let s := onTensors d [trec 0x2000 0x0E 1 2 0, trec 0x3000 0x14 1 128 0, trec 0x4000 0x13 1 1 0, trec 0x5000 0x13 1 1 0]
       (sampRec 0x3000)
     tensorB s d sampleBad (fun b => (failOf (s.samps 1 d b 1 (slotRec b 0).rows (slotRec b 0).cols)).isNone) State.runSample = true) ∧
    (let d := tensor 0x52 6 []
     let s := onTensors d [trec 0x2000 0x0E 1 2 0, trec 0x2100 0x0E 1 2 0, trec 0x2200 0x13 1 1 0, trec 0x2300 0x14 1 16 0,
       trec 0x3000 0x14 1 128 0, trec 0x5000 0x13 1 10 0] (sampRec 0x3000)
     tensorB s d verifyBad (fun b => (failOf (s.verifyInputs 1 d b)).isNone) State.runVerify = true) ∧
    (let d := dsc 0x53 0xFF [(16, 6, 0x2000)]
     let s := run1 [] d
     readyB s (ref 1) d && d.op == 0x53 && (s.cancelsOn 1 d.cancelVa).isEmpty && isOk (s.readVa 1 none 0 d.cancelVa 128) &&
       isOk ((s.started 1 d).readVa 1 none 0 d.cancelVa 128) && !(s.started 1 d).stepOn 1 d) = true ∧
    (let d := dsc 0x53 0xFF [(16, 6, 0x2000)]
     let s := (run1 [] d).onPart 1 (fun q => { q with running := [{ num := 4, stateVa := 0x2000, seqs := [0], models := [], layers := [] }] })
     readyB s (ref 1) d && (s.cancelsOn 1 d.cancelVa).isEmpty && isOk (s.readVa 1 none 0 d.cancelVa 128) &&
       (s.started 1 d).stepOn 1 d) = true := by
  refine ⟨⟨?_, ?_, step_check, step_runs⟩, ?_, ?_, ?_, ?_⟩
  · apply ready_of; decide +kernel
  all_goals decide +kernel
end Sys2Proof.Tests
end

/-! SUPPORT. The device physical map (R197) and a transaction to a place where there is nothing (R184). -/

namespace Sys2Proof.Machine

/-! ### The ranges of the map -/

theorem placeOf_stacked {pa : Nat} (h : pa < 144 * granSize) : placeOf pa = .stacked (pa / granSize) (pa % granSize) :=
  if_pos h

theorem placeOf_bulk {pa : Nat} (lo : bulkBase ≤ pa) (hi : pa < bulkBase + 360 * granSize) :
    placeOf pa = .bulk ((pa - bulkBase) / granSize) ((pa - bulkBase) % granSize) := by
  have hs : ¬pa < 144 * granSize := by simp only [bulkBase, granSize] at lo ⊢; omega
  rw [placeOf, if_neg hs, if_pos ⟨lo, hi⟩]

/-- The window of a tile is the first 4 MiB of its 16 MiB; the router refuses the rest (R50). -/
theorem placeOf_tile {t o : Nat} (ht : t < 64) (ho : o < 0x1000000) :
    placeOf (winBase + t * 0x1000000 + o) = if o < 0x400000 then .window t o else .none := by
  have hs : ¬winBase + t * 0x1000000 + o < 144 * granSize := by simp only [winBase, granSize]; omega
  have hb : ¬(bulkBase ≤ winBase + t * 0x1000000 + o ∧ winBase + t * 0x1000000 + o < bulkBase + 360 * granSize) := by
    simp only [winBase, bulkBase, granSize]; omega
  have hw : winBase ≤ winBase + t * 0x1000000 + o ∧ winBase + t * 0x1000000 + o < winBase + 64 * 0x1000000 := by omega
  have hr : (winBase + t * 0x1000000 + o - winBase) % 0x1000000 = o := by omega
  have hq : (winBase + t * 0x1000000 + o - winBase) / 0x1000000 = t := by omega
  simp only [placeOf, if_neg hs, if_neg hb, if_pos hw, hr, hq]

theorem placeOf_none {pa : Nat} (hs : 144 * granSize ≤ pa) (hb : pa < bulkBase ∨ bulkBase + 360 * granSize ≤ pa)
    (hw : pa < winBase ∨ winBase + 64 * 0x1000000 ≤ pa) : placeOf pa = .none := by
  rw [placeOf, if_neg (by omega), if_neg (by omega), if_neg (by omega)]

/-! ### Rights by place (R184, R197) -/

/-- No partition carries the guard's tag. -/
theorem ne_tagGuard {p : Nat} (hp : p < 16) : (p == tagGuard) = false := by
  simp only [tagGuard, beq_eq_false_iff_ne]; omega

theorem State.admits_stacked (s : State) {p pa g o : Nat} (hp : p < 16) (h : placeOf pa = .stacked g o) :
    s.admits p pa = true ↔ (s.mem.grans.getD g {}).owner = p := by
  simp [State.admits, h, ne_tagGuard hp]

theorem State.admits_bulk (s : State) {p pa g o : Nat} (hp : p < 16) (h : placeOf pa = .bulk g o) :
    s.admits p pa = true ↔ (s.mem.bulk.getD g {}).owner = p := by
  simp [State.admits, h, ne_tagGuard hp]

theorem State.admits_window (s : State) {p pa t o : Nat} (hp : p < 16) (h : placeOf pa = .window t o) :
    s.admits p pa = true ↔ (s.tile t).part = some p := by
  simp [State.admits, h, ne_tagGuard hp, hp, State.tile]

/-! ### A transaction on a physical address -/

/-- The transaction of a request on a physical address, and that its data decides nothing else of it. -/
theorem State.translateReq_phys {s : State} {r : TxnReq} {a : Nat} {bs : List Byte} {t : Txn} (hv : r.virt = false)
    (ht : (s.translateReq r a bs).2 = some t) :
    t.src = r.src ∧ t.tag = r.tag ∧ t.pa = a ∧ ∀ cs, s.translateReq r a cs = (s, some { t with data := cs }) := by
  simp only [State.translateReq, hv, Bool.not_false, if_true, Option.some.injEq] at ht ⊢
  subst ht
  exact ⟨rfl, rfl, rfl, fun _ => rfl⟩

/-- How many transactions a source has outstanding does not turn on the data of the next. -/
theorem MemSys.mayIssue_data (m : MemSys) (t : Txn) (bs : List Byte) : m.mayIssue { t with data := bs } = m.mayIssue t := rfl

theorem txnParts_noDims {r : TxnReq} (h : r.dims = []) : txnParts r = [(r.addr, sliceOf r.data 0 r.len)] := by
  simp [txnParts, h, placeIn]

/-- What a source issues under its own partition's tag, while it may issue more, is launched. -/
theorem State.issuePart_launch {s : State} {r : TxnReq} {x : Nat × List Byte} {t : Txn}
    (ht : s.translateReq r x.1 x.2 = (s, some t)) (hm : s.mem.mayIssue t = true)
    (hp : ∀ a, t.src = some a → (s.tile a).part = some t.tag) : s.issuePart r x = (s.launch t, true) := by
  simp only [State.issuePart, ht, hm, Bool.not_true, Bool.false_eq_true, if_false]
  cases hs : t.src with
  | none => rfl
  | some a => simp [hp a hs]

/-- A transfer of one transaction on a physical address launches it. -/
theorem exec_meshTransactionIssue_launch {s : State} {r : TxnReq} {t : Txn} (hok : txnOk r = true) (hd : r.dims = [])
    (ht : s.translateReq r r.addr (sliceOf r.data 0 r.len) = (s, some t)) (hm : s.mem.mayIssue t = true)
    (hp : ∀ a, t.src = some a → (s.tile a).part = some t.tag) :
    exec (.meshTransactionIssue r) s = .next (s.launch t) := by
  change execMeshTransactionIssue r s = _
  have hi := State.issuePart_launch (x := (r.addr, sliceOf r.data 0 r.len)) ht hm hp
  simp only [execMeshTransactionIssue, hok, if_true, txnParts_noDims hd, State.issueAll, hi]

/-! ### Refusal where there is nothing (R184, R197) -/

theorem State.goes_none (s : State) {t : Txn} (h : placeOf t.pa = .none) : s.goes t = .refused := by
  have hw : s.wayOf t = .refused := by simp only [State.wayOf, h]
  simp only [State.goes, hw]

theorem State.launch_refused {s : State} {t : Txn} (h : s.goes t = .refused) :
    s.launch t = (s.denied t).deliver { t with data := [], refused := true } := by
  simp only [State.launch, h]

/-- A transaction to a range marked None raises MEM_DENIED and is answered with the error response, without data. -/
theorem exec_meshTransactionIssue_none {s : State} {r : TxnReq} {t : Txn} (hok : txnOk r = true) (hv : r.virt = false)
    (hd : r.dims = []) (hn : placeOf r.addr = .none) (ht : (s.translateReq r r.addr r.data).2 = some t)
    (hm : s.mem.mayIssue t = true) (hp : ∀ a, r.src = some a → (s.tile a).part = some r.tag) :
    exec (.meshTransactionIssue r) s =
      .next ((s.raisePf r.tag 0x43 (toLe 5 r.addr ++ toLe 1 r.tag ++ toLe 1 (srcCode r.src))).deliver
        { t with data := [], refused := true }) := by
  obtain ⟨hsrc, htag, hpa, htr⟩ := State.translateReq_phys hv ht
  have hgoes : s.goes { t with data := sliceOf r.data 0 r.len } = .refused := s.goes_none (hpa ▸ hn)
  have hown : ∀ a, t.src = some a → (s.tile a).part = some t.tag := by rwa [hsrc, htag]
  calc exec (.meshTransactionIssue r) s
      = .next (s.launch { t with data := sliceOf r.data 0 r.len }) :=
        exec_meshTransactionIssue_launch hok hd (htr _) (by rw [MemSys.mayIssue_data, hm]) hown
    _ = .next ((s.denied t).deliver { t with data := [], refused := true }) := by rw [State.launch_refused hgoes]; rfl
    _ = _ := by rw [State.denied, hsrc, htag, hpa]

end Sys2Proof.Machine

section
open Sys2Proof Sys2Proof.Machine

/-- Settles O54: the branches of the map at their bounds, the rights of each place, and refusal of the rest. -/
theorem devicePhysicalMapHolds : Obligations.DevicePhysicalMapHolds := by
  have bulkPlace : ∀ pa, 0x4000000000 ≤ pa → pa ≤ 0x99FFFFFFFF →
      placeOf pa = .bulk ((pa - 0x4000000000) / 0x40000000) ((pa - 0x4000000000) % 0x40000000) :=
    fun pa lo hi => placeOf_bulk lo (by simp only [bulkBase, granSize]; omega)
  have stackedPlace : ∀ pa, pa ≤ 0x23FFFFFFFF → placeOf pa = .stacked (pa / 0x40000000) (pa % 0x40000000) :=
    fun pa hi => placeOf_stacked (by simp only [granSize]; omega)
  have tilePlace : ∀ t o, t < 64 → o < 0x1000000 →
      placeOf (0xF000000000 + t * 0x1000000 + o) = if o < 0x400000 then .window t o else .none :=
    fun t o ht ho => placeOf_tile ht ho
  have noPlace : ∀ pa, 0x2400000000 ≤ pa → (pa < 0x4000000000 ∨ 0x9A00000000 ≤ pa) →
      (pa < 0xF000000000 ∨ 0xF040000000 ≤ pa) → placeOf pa = .none :=
    fun pa hs hb hw => placeOf_none hs hb hw
  refine ⟨stackedPlace, fun pa lo hi => ?_, bulkPlace, fun pa lo hi => ?_, tilePlace, fun pa lo => ?_, ?_, ?_, ?_, ?_⟩
  · exact noPlace pa (by omega) (by omega) (by omega)
  · exact noPlace pa (by omega) (by omega) (by omega)
  · exact noPlace pa (by omega) (by omega) (by omega)
  · exact fun s p pa hp hi => s.admits_stacked hp (stackedPlace pa hi)
  · exact fun s p pa hp lo hi => s.admits_bulk hp (bulkPlace pa lo hi)
  · intro s p t o hp ht ho
    exact s.admits_window hp ((tilePlace t o ht (by omega)).trans (if_pos ho))
  · exact fun s r t hok hv hd hn ht hm hp => exec_meshTransactionIssue_none hok hv hd hn ht hm hp

end

/-! SUPPORT. The ENGINE field (R250): the header's check of it, and what a descriptor that fails checks 1 to 6 of R257 does in each
descriptor row. -/

namespace Sys2Proof.Machine

/-! ### The first offending byte (R288) -/

/-- `firstBad` folds from the front, so its induction is over the reversed list. -/
theorem firstBad_reverse_isSome {l : List (Bool × Nat)} {o : Nat} (h : (true, o) ∈ l) : (firstBad l.reverse).isSome := by
  induction l with
  | nil => cases h
  | cons x xs ih =>
    obtain ⟨bad, off⟩ := x
    simp only [firstBad, List.reverse_cons, List.foldl_append, List.foldl_cons, List.foldl_nil]
    cases bad with
    | false => exact ih ((List.mem_cons.mp h).resolve_left fun e => nomatch (Prod.mk.inj e).1)
    | true =>
      rw [if_pos rfl]
      split <;> rfl

/-- A byte listed as offending gives a first one. -/
theorem firstBad_isSome {l : List (Bool × Nat)} {o : Nat} (h : (true, o) ∈ l) : (firstBad l).isSome :=
  l.reverse_reverse ▸ firstBad_reverse_isSome (List.mem_reverse.mpr h)

/-- A byte of the header that offends ends the descriptor with BAD_DESCRIPTOR. -/
theorem staticFail_of_headerBad {inAct : Bool} {bs : List Byte} {info : OpInfo} {o : Nat} (hi : opInfo (byteAt bs 0) = some info)
    (h : (true, o) ∈ headerBad inAct info bs) : ∃ x, staticFail inAct bs = some (.status stBadDescriptor x) := by
  obtain ⟨x, hx⟩ := Option.isSome_iff_exists.mp (firstBad_isSome (List.mem_append_left (opFieldsBad bs) h))
  exact ⟨x, by simp [staticFail, hi, hx, badAt]⟩

/-! ### The ENGINE field (R250) -/

/-- ENGINE holds a right value for an opcode that runs there. -/
def RunsOn.admits : RunsOn → Nat → Prop
  | .engine, eng => eng < 64
  | .hub, eng => eng = 0xFF
  | .either, eng => eng < 64 ∨ eng = 0xFF

/-- The header's check finds ENGINE bad exactly where its value is wrong for the opcode. -/
theorem engine_mem_headerBad_iff (inAct : Bool) (info : OpInfo) (bs : List Byte) :
    (true, 2) ∈ headerBad inAct info bs ↔ ¬info.on.admits (byteAt bs 2) := by
  cases hr : info.on with
  | hub => simp [headerBad, chk, hr, RunsOn.admits]
  | engine => simp [headerBad, chk, hr, RunsOn.admits]
  | either => simp [headerBad, chk, hr, RunsOn.admits, and_comm]

/-- The engine-run opcodes of the opcode map (R258). -/
theorem opInfo_engine {op : Nat} (h : op ∈ [0x10, 0x11, 0x12, 0x13, 0x14, 0x15, 0x16, 0x17, 0x18, 0x1B, 0x40, 0x41, 0x42, 0x43,
    0x44, 0x45, 0x46, 0x50, 0x51, 0x52, 0x60, 0x61, 0x62, 0x63, 0x64]) : (opInfo op).map OpInfo.on = some .engine := by
  revert op
  decide

/-- The hub-run opcodes of the opcode map (R258). -/
theorem opInfo_hub {op : Nat} (h : op ∈ [0x00, 0x01, 0x02, 0x03, 0x04, 0x05, 0x06, 0x07, 0x53, 0x6F, 0x70, 0x71, 0x72, 0x73, 0x74,
    0x75, 0x80, 0x81, 0x82, 0x90, 0x91, 0x92, 0x93, 0x94, 0x95, 0x96, 0x97, 0x98, 0x99]) :
    (opInfo op).map OpInfo.on = some .hub := by
  revert op
  decide

/-- The opcodes that run on either of the opcode map (R258). -/
theorem opInfo_either {op : Nat} (h : op ∈ [0x19, 0x1A]) : (opInfo op).map OpInfo.on = some .either := by
  revert op
  decide

/-- The wrong kind of value in ENGINE ends the descriptor with BAD_DESCRIPTOR. -/
theorem staticFail_of_wrong_engine {inAct : Bool} {bs : List Byte} {on : RunsOn}
    (hop : (opInfo (byteAt bs 0)).map OpInfo.on = some on) (h : ¬on.admits (byteAt bs 2)) :
    ∃ x, staticFail inAct bs = some (.status stBadDescriptor x) := by
  obtain ⟨info, hi, rfl⟩ := Option.map_eq_some_iff.mp hop
  exact staticFail_of_headerBad hi ((engine_mem_headerBad_iff inAct info bs).mpr h)

/-! ### Descriptors that fail checks 1 to 6 of R257 -/

/-- A descriptor that may start, whose checks 1 to 6 end it with this outcome. -/
structure State.FailsChecks (s : State) (r : DescRef) (d : Desc) (f : Fail) : Prop where
  /-- It is fetched and not complete -/
  fetched : s.desc? r.part r.num = some d
  /-- It has not started -/
  unstarted : d.startedAt = none
  /-- Its order conditions hold -/
  mayStart : s.mayStart r.part d = true
  /-- The first check that fails -/
  checks : s.checks r.part d = some f

/-- Without CHAIN, the checks of the descriptor's own bytes come first. -/
theorem State.checks_of_staticFail {s : State} {p : Nat} {d : Desc} {f : Fail} (hc : d.chain = false)
    (hf : staticFail d.act.isSome d.bytes = some f) : s.checks p d = some f := by
  simp [State.checks, Desc.chainFails, hc, hf]

section
variable {s : State} {r : DescRef} {d : Desc} {f : Fail}

/-- Such a descriptor does not reach its operation. -/
theorem State.FailsChecks.not_reaches (h : s.FailsChecks r d f) (c : Course) : s.reaches c r.part d = false := by
  simp [State.reaches, h.unstarted, h.checks]

/-- Whether its command goes on past the start makes no difference. -/
theorem State.FailsChecks.withStartOnly (h : s.FailsChecks r d f) (b : Bool) : s.FailsChecks { r with startOnly := b } d f :=
  ⟨h.fetched, h.unstarted, h.mayStart, h.checks⟩

theorem State.FailsChecks.runDesc_eq (h : s.FailsChecks r d f) {mine : Desc → Bool} (hm : mine d = true) (c : Course) :
    s.runDesc r mine c = s.failDesc r.part d f := by
  simp [State.runDesc, h.fetched, hm, h.unstarted, h.mayStart, h.checks]

theorem State.FailsChecks.startDesc_eq (h : s.FailsChecks r d f) {mine : Desc → Bool} (hm : mine d = true)
    (ck : State → Nat → Desc → Option Fail) (go : State → Nat → Desc → State) :
    s.startDesc r mine ck go = s.failDesc r.part d f := by
  simp [State.startDesc, h.fetched, hm, h.unstarted, h.mayStart, h.checks]

/-! ### The descriptor rows -/

/-- The row's command, where the descriptor is of the row, completes it with this outcome and does nothing else. -/
def State.RowFails (s : State) (r : DescRef) (d : Desc) (f : Fail) (row : Instr × (Desc → Bool)) : Prop :=
  row.2 d = true → exec row.1 s = .next (s.failDesc r.part d f)

variable {i : Instr} {mine : Desc → Bool}

/-- A row of the shared course. -/
theorem State.FailsChecks.run (h : s.FailsChecks r d f) {c : Course} (hi : exec i s = .next (s.runDesc r mine c)) :
    s.RowFails r d f (i, mine) :=
  fun hm => hi.trans (congrArg _ (h.runDesc_eq hm c))

/-- A row whose command completes later. -/
theorem State.FailsChecks.start (h : s.FailsChecks r d f) {ck : State → Nat → Desc → Option Fail}
    {go : State → Nat → Desc → State} (hi : exec i s = .next (s.startDesc r mine ck go)) : s.RowFails r d f (i, mine) :=
  fun hm => hi.trans (congrArg _ (h.startDesc_eq hm ck go))

/-- A row that may only start its descriptor, by what else its command finds. -/
theorem State.FailsChecks.runHeld (h : s.FailsChecks r d f) {c : Course} {b : Bool}
    (hi : exec i s = .next (s.runDesc { r with startOnly := b } mine c)) : s.RowFails r d f (i, mine) :=
  (h.withStartOnly b).run hi

/-- A KV row, in a partition in which no STEP runs. -/
theorem State.FailsChecks.kv (h : s.FailsChecks r d f) (hrun : (s.part r.part).running = []) {off : Nat}
    {names : Kv → Desc → List Nat} {c : Course} (hi : exec i s = .next (s.runKv r mine off names c)) :
    s.RowFails r d f (i, mine) := by
  intro hm
  have free : s.runKv r mine off names c = s.runDesc r mine c := by
    simp only [State.runKv, h.fetched, hrun, List.any_nil, Bool.and_false]
    cases s.kv? r.part (d.fld off 1 % 16) <;> rfl
  rw [hi, free, h.runDesc_eq hm]

/-- COPY reads no host memory. -/
theorem State.FailsChecks.rowFails_copy (h : s.FailsChecks r d f) (m : HostRead) : s.RowFails r d f (.copy r m, isOp 0x19) := by
  intro hm
  change execCopy r m s = _
  simp [execCopy, h.fetched, h.not_reaches, h.runDesc_eq hm]

/-- RESTORE reads no host memory. -/
theorem State.FailsChecks.rowFails_restore (h : s.FailsChecks r d f) (m : HostRead) : s.RowFails r d f (.restore r m, isOp 0x81) := by
  intro hm
  change execRestore r m s = _
  simp [execRestore, State.ckRun, h.fetched, h.not_reaches, (h.withStartOnly _).runDesc_eq hm]

/-- FW_STAGE reads no host memory. -/
theorem State.FailsChecks.rowFails_fwStage (h : s.FailsChecks r d f) (m : HostRead) : s.RowFails r d f (.fwStage r m, isOp 0x98) := by
  intro hm
  change execFwStage r m s = _
  simp [execFwStage, h.fetched, h.not_reaches, (h.withStartOnly _).runDesc_eq hm]

/-- WEIGHT_LOAD counts no failed read. -/
theorem State.FailsChecks.rowFails_keyOpWeightLoad (h : s.FailsChecks r d f) (chunks : List (List Byte)) :
    s.RowFails r d f (.keyOpWeightLoad r chunks, isKeyOp 5) := by
  intro hm
  change execKeyOpWeightLoad r chunks s = _
  simp [execKeyOpWeightLoad, h.fetched, h.not_reaches, (h.withStartOnly _).runDesc_eq hm]

/-- CANCEL takes the start of the shared course while it has not started (R367). -/
theorem State.FailsChecks.rowFails_cancel (h : s.FailsChecks r d f) : s.RowFails r d f (.cancel r, isOp 0x53) := by
  intro hm
  change execCancel r s = _
  simp [execCancel, h.fetched, h.unstarted, h.startDesc_eq hm]

/-- So does the RESET of PART_STATE (R286). -/
theorem State.FailsChecks.rowFails_partStateReset (h : s.FailsChecks r d f) : s.RowFails r d f (.partStateReset r, isAction 4) := by
  intro hm
  change execPartStateReset r s = _
  simp [execPartStateReset, h.fetched, h.unstarted, h.startDesc_eq hm]

/-- The control and tensor rows. -/
theorem State.FailsChecks.tensorRows_fail (h : s.FailsChecks r d f) (m : HostRead) : ∀ row ∈
    [(Instr.nop r, isOp 0x00), (.barrier r, isOp 0x01), (.fence r, isOp 0x02), (.eventSignal r, isOp 0x03),
      (.eventWait r, isOp 0x04), (.timerWait r, isOp 0x05), (.actRun r, isOp 0x06), (.actStop r, isOp 0x07), (.matmul r, isOp 0x10),
      (.conv r, isOp 0x11), (.eltwise r, isOp 0x12), (.reduce r, isOp 0x13), (.norm r, isOp 0x14), (.softmax r, isOp 0x15),
      (.convert r, isOp 0x16), (.gather r, isOp 0x17), (.scatter r, isOp 0x18), (.copy r m, isOp 0x19), (.fill r, isOp 0x1A),
      (.digest r, isOp 0x1B)], s.RowFails r d f row := by
  simp only [List.forall_mem_cons]
  exact ⟨h.run rfl, h.run rfl, h.run rfl, h.start rfl, h.start rfl, h.start rfl, h.start rfl, h.start rfl, h.run rfl, h.run rfl,
    h.run rfl, h.run rfl, h.run rfl, h.run rfl, h.run rfl, h.run rfl, h.run rfl, h.rowFails_copy m, h.run rfl, h.run rfl,
    List.forall_mem_nil _⟩

/-- The rows of attention and the KV cache, of serving and of the collectives, in a partition in which no STEP runs. -/
theorem State.FailsChecks.servingRows_fail (h : s.FailsChecks r d f) (hrun : (s.part r.part).running = []) (peers : List RankMsg) :
    ∀ row ∈
    [(Instr.attend r, isOp 0x40), (.kvAppend r, isOp 0x41), (.kvLookup r, isOp 0x42), (.kvPark r, isOp 0x43),
      (.kvResume r, isOp 0x44), (.kvFreeSeq r, isKvFree 0), (.kvFreeAll r, isKvFree 1), (.kvFreeFormat r, isKvFree 2),
      (.kvFreeDetach r, isKvFree 3), (.kvFreeRehash r, isKvFree 4), (.kvCopy r, isOp 0x46), (.step r, isOp 0x50), (.sample r, isOp 0x51),
      (.verify r, isOp 0x52), (.cancel r, isOp 0x53), (.allReduce r peers, isOp 0x60), (.reduceScatter r peers, isOp 0x61),
      (.allGather r peers, isOp 0x62), (.allToAll r peers, isOp 0x63), (.broadcast r peers, isOp 0x64), (.groupSet r, isOp 0x6F)],
    s.RowFails r d f row := by
  simp only [List.forall_mem_cons]
  exact ⟨h.kv hrun rfl, h.kv hrun rfl, h.kv hrun rfl, h.kv hrun rfl, h.kv hrun rfl, h.kv hrun rfl, h.kv hrun rfl, h.run rfl,
    h.run rfl, h.run rfl, h.kv hrun rfl, h.run rfl, h.run rfl, h.run rfl, h.rowFails_cancel, h.runHeld rfl, h.runHeld rfl, h.runHeld rfl,
    h.runHeld rfl, h.runHeld rfl, h.run rfl, List.forall_mem_nil _⟩

/-- The rows of media, images, the step journal and partitions. -/
theorem State.FailsChecks.partRows_fail (h : s.FailsChecks r d f) (m : HostRead) : ∀ row ∈
    [(Instr.streamOpen r, isOp 0x70), (.streamClose r, isOp 0x71), (.decode r, isOp 0x72), (.encode r, isOp 0x73), (.scale r, isOp 0x74),
      (.resultFrame r, isOp 0x75), (.checkpoint r, isOp 0x80), (.restore r m, isOp 0x81), (.stepCommit r, isCommit false),
      (.stepCommitEndJob r, isCommit true), (.partConfig r, isOp 0x90), (.partStateAdmit r, isAction 1), (.partStateRun r, isAction 2),
      (.partStateQuiesce r, isAction 3), (.partStateReset r, isAction 4), (.partStateUnconfigure r, isAction 5)],
    s.RowFails r d f row := by
  simp only [List.forall_mem_cons]
  exact ⟨h.run rfl, h.run rfl, h.start rfl, h.start rfl, h.run rfl, h.run rfl, h.runHeld rfl, h.rowFails_restore m, h.run rfl, h.run rfl,
    h.start rfl, h.start rfl, h.start rfl, h.start rfl, h.rowFails_partStateReset, h.start rfl, List.forall_mem_nil _⟩

/-- The rows of granules, engines, tiles, keys and firmware. -/
theorem State.FailsChecks.adminRows_fail (h : s.FailsChecks r d f) (failed : Nat) (chunks : List (List Byte)) (m : HostRead) : ∀ row ∈
    [(Instr.memGrant r, isOp 0x92), (.memRelease r, isOp 0x93), (.engineConfig r, isOp 0x94), (.engineRelease r, isOp 0x95),
      (.tileFence r, fun y => isOp 0x96 y && y.fld 17 1 != 0), (.tileUnfence r failed, fun y => isOp 0x96 y && y.fld 17 1 == 0),
      (.keyOpRotate r, isKeyOp 1), (.keyOpRetire r, isKeyOp 2), (.keyOpClearRetired r, isKeyOp 3), (.keyOpBindLoad r, isKeyOp 4),
      (.keyOpWeightLoad r chunks, isKeyOp 5), (.keyOpContentDrop r, isKeyOp 6), (.fwStage r m, isOp 0x98), (.fwActivate r, isOp 0x99)],
    s.RowFails r d f row := by
  simp only [List.forall_mem_cons]
  exact ⟨h.start rfl, h.start rfl, h.start rfl, h.start rfl, h.start rfl, h.start rfl, h.start rfl, h.start rfl, h.start rfl,
    h.start rfl, h.rowFails_keyOpWeightLoad chunks, h.start rfl, h.rowFails_fwStage m, h.start rfl, List.forall_mem_nil _⟩

end

end Sys2Proof.Machine

section
open Sys2Proof Sys2Proof.Machine

/-- Settles O53: the header's check of ENGINE by where the opcode runs, and the rows' common course up to the check that fails. -/
theorem engineFieldChecked : Obligations.EngineFieldChecked := by
  refine ⟨?_, ?_, ?_⟩
  · rintro inAct bs op eng rfl rfl (⟨hop, hbad⟩ | ⟨hop, hbad⟩ | ⟨hop, hbad, hhub⟩)
    · exact staticFail_of_wrong_engine (opInfo_engine hop) (Nat.not_lt.mpr hbad)
    · exact staticFail_of_wrong_engine (opInfo_hub hop) hbad
    · exact staticFail_of_wrong_engine (opInfo_either hop) (not_or.mpr ⟨Nat.not_lt.mpr hbad, hhub⟩)
  · intro inAct bs info _ hright
    rw [engine_mem_headerBad_iff]
    refine not_not_intro ?_
    rcases hright with ⟨hon, heng⟩ | ⟨hon, heng⟩ | ⟨hon, heng⟩ <;> rw [hon] <;> exact heng
  · intro s r d x failed m peers chunks c mine hrow hfetched hmine hunstarted hmay hchain hrun hstatic
    have h : s.FailsChecks r d (.status 0x11 x) :=
      ⟨hfetched, hunstarted, hmay, State.checks_of_staticFail hchain hstatic⟩
    have rows := List.forall_mem_append.mpr ⟨List.forall_mem_append.mpr ⟨List.forall_mem_append.mpr
      ⟨h.tensorRows_fail m, h.servingRows_fail hrun peers⟩, h.partRows_fail m⟩, h.adminRows_fail failed chunks m⟩
    exact rows (c, mine) hrow hmine

end

/-! SUPPORT. The memories: every command keeps their canonical form, and so does a step; what a byte memory in that form reads
back. -/

namespace Sys2Proof.Machine

/-- Every command answers a next state, and keeps the memories in canonical form. -/
theorem exec_inv (i : Instr) {s : State} (hs : s.Inv) : ∃ t, exec i s = .next t ∧ t.Inv := by
  cases i with
  | curtainEnter dv us => exact (execCurtainEnter_inv dv us hs :)
  | curtainExit dv ms => exact (execCurtainExit_inv dv ms hs :)
  | orderlyShutdown dv ms nodeDv => exact (execOrderlyShutdown_inv dv ms nodeDv hs :)
  | shutdownComplete => exact (execShutdownComplete_inv hs :)
  | prechargeStart dv ms => exact (execPrechargeStart_inv dv ms hs :)
  | prechgDeassert us => exact (execPrechgDeassert_inv us hs :)
  | inputSwitchOpen dv nodeDv ms => exact (execInputSwitchOpen_inv dv nodeDv ms hs :)
  | inputSwitchClose dv ms nodeDv => exact (execInputSwitchClose_inv dv ms nodeDv hs :)
  | pqRecordOpen m => exact (execPqRecordOpen_inv m hs :)
  | pqRecordClose m => exact (execPqRecordClose_inv m hs :)
  | railFault r us => exact (execRailFault_inv r us hs :)
  | shedAssert => exact (execShedAssert_inv hs :)
  | shedDeassert => exact (execShedDeassert_inv hs :)
  | precedenceResolution r => exact (execPrecedenceResolution_inv r hs :)
  | fixedRateResume p => exact (execFixedRateResume_inv p hs :)
  | stateSelection p cadence => exact (execStateSelection_inv p cadence hs :)
  | domainWake k why => exact (execDomainWake_inv k why hs :)
  | domainStateReached k => exact (execDomainStateReached_inv k hs :)
  | voltageStep k => exact (execVoltageStep_inv k hs :)
  | sensorSample x => exact (execSensorSample_inv x hs :)
  | sensorSuspect spot => exact (execSensorSuspect_inv spot hs :)
  | sensorRestore spot sensor => exact (execSensorRestore_inv spot sensor hs :)
  | stackOvertempShutdown k => exact (execStackOvertempShutdown_inv k hs :)
  | refreshRestore k => exact (execRefreshRestore_inv k hs :)
  | predictorUpdate => exact (execPredictorUpdate_inv hs :)
  | flowWarn => exact (execFlowWarn_inv hs :)
  | flowLimitExit => exact (execFlowLimitExit_inv hs :)
  | thermalClear => exact (execThermalClear_inv hs :)
  | thermalRearm => exact (execThermalRearm_inv hs :)
  | rateSample page => exact (execRateSample_inv page hs :)
  | fabRateCtrlWrite page v => exact (execFabRateCtrlWrite_inv page v hs :)
  | clockLockLoss n => exact (execClockLockLoss_inv n hs :)
  | workItemComplete t => exact (execWorkItemComplete_inv t hs :)
  | engineLoadComplete p e digestOk => exact (execEngineLoadComplete_inv p e digestOk hs :)
  | meshTransactionIssue r => exact (execMeshTransactionIssue_inv r hs :)
  | availabilityMapUpdate => exact (execAvailabilityMapUpdate_inv hs :)
  | memoryPortAccess port idx flips => exact (execMemoryPortAccess_inv port idx flips hs :)
  | xlatInvalidate p => exact (execXlatInvalidate_inv p hs :)
  | ptRootWrite p v => exact (execPtRootWrite_inv p v hs :)
  | scrubStep port ch flips => exact (execScrubStep_inv port ch flips hs :)
  | scrubForcedSlice port ch us => exact (execScrubForcedSlice_inv port ch us hs :)
  | recalDue port ch moved => exact (execRecalDue_inv port ch moved hs :)
  | recalForcedSlice port ch => exact (execRecalForcedSlice_inv port ch hs :)
  | bulkMr4Read c code above => exact (execBulkMr4Read_inv c code above hs :)
  | bar0AccessIgnored fn off len => exact (execBar0AccessIgnored_inv fn off len hs :)
  | registerWrite fn off v => exact (execRegisterWrite_inv fn off v hs :)
  | bar2Write p off data => exact (execBar2Write_inv p off data hs :)
  | bar2Read p off len => exact (execBar2Read_inv p off len hs :)
  | ringEnable p r v => exact (execRingEnable_inv p r v hs :)
  | ringPause p q => exact (execRingPause_inv p q hs :)
  | ringUnpause p q => exact (execRingUnpause_inv p q hs :)
  | ringDisable p r => exact (execRingDisable_inv p r hs :)
  | ringDrainDone p q => exact (execRingDrainDone_inv p q hs :)
  | nudge p => exact (execNudge_inv p hs :)
  | pollExpiry p => exact (execPollExpiry_inv p hs :)
  | doorbellReadReturn p r => exact (execDoorbellReadReturn_inv p r hs :)
  | dozeSequence p => exact (execDozeSequence_inv p hs :)
  | descriptorFetch p r => exact (execDescriptorFetch_inv p r hs :)
  | eventRecordWrite p => exact (execEventRecordWrite_inv p hs :)
  | msixSend p r => exact (execMsixSend_inv p r hs :)
  | hostReadFailure p what r => exact (execHostReadFailure_inv p what r hs :)
  | hostLinkDown => exact (execHostLinkDown_inv hs :)
  | linkChange speed width flit => exact (execLinkChange_inv speed width flit hs :)
  | perstAssert => exact (execPerstAssert_inv hs :)
  | ptmDialog offset => exact (execPtmDialog_inv offset hs :)
  | functionLevelReset p => exact (execFunctionLevelReset_inv p hs :)
  | nop d => exact (execNop_inv d hs :)
  | barrier d => exact (execBarrier_inv d hs :)
  | fence d => exact (execFence_inv d hs :)
  | eventSignal d => exact (execEventSignal_inv d hs :)
  | eventWait d => exact (execEventWait_inv d hs :)
  | eventWaitDeadline d => exact (execEventWaitDeadline_inv d hs :)
  | timerWait d => exact (execTimerWait_inv d hs :)
  | timerWaitExpiry d => exact (execTimerWaitExpiry_inv d hs :)
  | descriptorTimeout d => exact (execDescriptorTimeout_inv d hs :)
  | actRun d => exact (execActRun_inv d hs :)
  | actStop d => exact (execActStop_inv d hs :)
  | matmul d => exact (execMatmul_inv d hs :)
  | conv d => exact (execConv_inv d hs :)
  | eltwise d => exact (execEltwise_inv d hs :)
  | reduce d => exact (execReduce_inv d hs :)
  | norm d => exact (execNorm_inv d hs :)
  | softmax d => exact (execSoftmax_inv d hs :)
  | convert d => exact (execConvert_inv d hs :)
  | gather d => exact (execGather_inv d hs :)
  | scatter d => exact (execScatter_inv d hs :)
  | copy d h => exact (execCopy_inv d h hs :)
  | fill d => exact (execFill_inv d hs :)
  | digest d => exact (execDigest_inv d hs :)
  | badOpcode d => exact (execBadOpcode_inv d hs :)
  | attend d => exact (execAttend_inv d hs :)
  | kvAppend d => exact (execKvAppend_inv d hs :)
  | kvLookup d => exact (execKvLookup_inv d hs :)
  | kvPark d => exact (execKvPark_inv d hs :)
  | kvResume d => exact (execKvResume_inv d hs :)
  | kvFreeSeq d => exact (execKvFreeSeq_inv d hs :)
  | kvFreeAll d => exact (execKvFreeAll_inv d hs :)
  | kvFreeFormat d => exact (execKvFreeFormat_inv d hs :)
  | kvFreeDetach d => exact (execKvFreeDetach_inv d hs :)
  | kvFreeRehash d => exact (execKvFreeRehash_inv d hs :)
  | kvCopy d => exact (execKvCopy_inv d hs :)
  | kvExpiry p space seq => exact (execKvExpiry_inv p space seq hs :)
  | step d => exact (execStep_inv d hs :)
  | sample d => exact (execSample_inv d hs :)
  | verify d => exact (execVerify_inv d hs :)
  | cancel d => exact (execCancel_inv d hs :)
  | allReduce d peers => exact (execAllReduce_inv d peers hs :)
  | reduceScatter d peers => exact (execReduceScatter_inv d peers hs :)
  | allGather d peers => exact (execAllGather_inv d peers hs :)
  | allToAll d peers => exact (execAllToAll_inv d peers hs :)
  | broadcast d peers => exact (execBroadcast_inv d peers hs :)
  | groupSet d => exact (execGroupSet_inv d hs :)
  | collAbort port gid seq => exact (execCollAbort_inv port gid seq hs :)
  | streamOpen d => exact (execStreamOpen_inv d hs :)
  | streamClose d => exact (execStreamClose_inv d hs :)
  | decode d => exact (execDecode_inv d hs :)
  | decodeTimeReached d => exact (execDecodeTimeReached_inv d hs :)
  | encode d => exact (execEncode_inv d hs :)
  | scale d => exact (execScale_inv d hs :)
  | resultFrame d => exact (execResultFrame_inv d hs :)
  | checkpoint d => exact (execCheckpoint_inv d hs :)
  | restore d h => exact (execRestore_inv d h hs :)
  | stepCommit d => exact (execStepCommit_inv d hs :)
  | stepCommitEndJob d => exact (execStepCommitEndJob_inv d hs :)
  | partConfig d => exact (execPartConfig_inv d hs :)
  | partStateAdmit d => exact (execPartStateAdmit_inv d hs :)
  | partStateRun d => exact (execPartStateRun_inv d hs :)
  | partStateQuiesce d => exact (execPartStateQuiesce_inv d hs :)
  | quiesceDone p => exact (execQuiesceDone_inv p hs :)
  | partStateReset d => exact (execPartStateReset_inv d hs :)
  | partStateUnconfigure d => exact (execPartStateUnconfigure_inv d hs :)
  | memGrant d => exact (execMemGrant_inv d hs :)
  | memRelease d => exact (execMemRelease_inv d hs :)
  | engineConfig d => exact (execEngineConfig_inv d hs :)
  | engineRelease d => exact (execEngineRelease_inv d hs :)
  | tileFence d => exact (execTileFence_inv d hs :)
  | tileUnfence d failed => exact (execTileUnfence_inv d failed hs :)
  | keyOpRotate d => exact (execKeyOpRotate_inv d hs :)
  | keyOpRetire d => exact (execKeyOpRetire_inv d hs :)
  | keyOpClearRetired d => exact (execKeyOpClearRetired_inv d hs :)
  | keyOpBindLoad d => exact (execKeyOpBindLoad_inv d hs :)
  | keyOpWeightLoad d chunks => exact (execKeyOpWeightLoad_inv d chunks hs :)
  | keyOpContentDrop d => exact (execKeyOpContentDrop_inv d hs :)
  | frameConvert p => exact (execFrameConvert_inv p hs :)
  | fwStage d r => exact (execFwStage_inv d r hs :)
  | fwActivate d => exact (execFwActivate_inv d hs :)
  | admissionLost p => exact (execAdmissionLost_inv p hs :)
  | spdmRequest fn m => exact (execSpdmRequest_inv fn m hs :)
  | spdmHeartbeatMiss fn => exact (execSpdmHeartbeatMiss_inv fn hs :)
  | lockInterface p => exact (execLockInterface_inv p hs :)
  | getDeviceInterfaceReport p => exact (execGetDeviceInterfaceReport_inv p hs :)
  | startInterface p => exact (execStartInterface_inv p hs :)
  | stopInterface p => exact (execStopInterface_inv p hs :)
  | ideKm fn => exact (execIdeKm_inv fn hs :)
  | ideTlpFailure fn => exact (execIdeTlpFailure_inv fn hs :)
  | mailboxSetPower seq k code st => exact (execMailboxSetPower_inv seq k code st hs :)
  | mailboxFenceReset seq act kind unit failed => exact (execMailboxFenceReset_inv seq act kind unit failed hs :)
  | mailboxChannelFilter seq p chan filter => exact (execMailboxChannelFilter_inv seq p chan filter hs :)
  | mailboxReadSensors seq off => exact (execMailboxReadSensors_inv seq off hs :)
  | mailboxWriteRecord seq power r => exact (execMailboxWriteRecord_inv seq power r hs :)
  | mailboxDebugRead seq kind unit window => exact (execMailboxDebugRead_inv seq kind unit window hs :)
  | stewardHeartbeatLoss => exact (execStewardHeartbeatLoss_inv hs :)
  | stewardRestartDone => exact (execStewardRestartDone_inv hs :)
  | sealWrite => exact (execSealWrite_inv hs :)
  | linkPortEnable n v => exact (execLinkPortEnable_inv n v hs :)
  | linkPortDisable n v => exact (execLinkPortDisable_inv n v hs :)
  | linkTrainingComplete n lanes slow => exact (execLinkTrainingComplete_inv n lanes slow hs :)
  | linkTrainingTimeout n => exact (execLinkTrainingTimeout_inv n hs :)
  | linkRetrain n why => exact (execLinkRetrain_inv n why hs :)
  | retrainTimeout n => exact (execRetrainTimeout_inv n hs :)
  | dataFrame n f => exact (execDataFrame_inv n f hs :)
  | nakFrame n f => exact (execNakFrame_inv n f hs :)
  | helloFrame n f => exact (execHelloFrame_inv n f hs :)
  | idleFrame n f => exact (execIdleFrame_inv n f hs :)
  | replayTimer n => exact (execReplayTimer_inv n hs :)
  | creditReturn n => exact (execCreditReturn_inv n hs :)
  | linkPairWrite v => exact (execLinkPairWrite_inv v hs :)
  | fieldFrameReceive n f => exact (execFieldFrameReceive_inv n f hs :)
  | fieldLink n up fec => exact (execFieldLink_inv n up fec hs :)
  | protocolEngineSlice => exact (execProtocolEngineSlice_inv hs :)
  | unitDeadline c => exact (execUnitDeadline_inv c hs :)
  | ptpHoldover => exact (execPtpHoldover_inv hs :)
  | ptpCtrlWrite v => exact (execPtpCtrlWrite_inv v hs :)
  | ptmCtrlWrite v => exact (execPtmCtrlWrite_inv v hs :)
  | rtcpReport c => exact (execRtcpReport_inv c hs :)
  | streamStall c => exact (execStreamStall_inv c hs :)
  | codecCoreDispatch core => exact (execCodecCoreDispatch_inv core hs :)
  | codecPreempt => exact (execCodecPreempt_inv hs :)
  | pictureDone core => exact (execPictureDone_inv core hs :)
  | readIdxPoll c => exact (execReadIdxPoll_inv c hs :)
  | poolWait c => exact (execPoolWait_inv c hs :)
  | encodeUnitDone core => exact (execEncodeUnitDone_inv core hs :)
  | carouselWrite v => exact (execCarouselWrite_inv v hs :)
  | setdasa static dyn eniUs => exact (execSetdasa_inv static dyn eniUs hs :)
  | rstdaa => exact (execRstdaa_inv hs :)
  | setnewda a dyn => exact (execSetnewda_inv a dyn hs :)
  | enecDisec enable events => exact (execEnecDisec_inv enable events hs :)
  | getpid a => exact (execGetpid_inv a hs :)
  | getbcr a => exact (execGetbcr_inv a hs :)
  | getdcr a => exact (execGetdcr_inv a hs :)
  | getstatus a => exact (execGetstatus_inv a hs :)
  | getmwl a => exact (execGetmwl_inv a hs :)
  | getmrl a => exact (execGetmrl_inv a hs :)
  | setmwl a len => exact (execSetmwl_inv a len hs :)
  | setmrl a len => exact (execSetmrl_inv a len hs :)
  | chainMessageError a m => exact (execChainMessageError_inv a m hs :)
  | chainPrivateRead a => exact (execChainPrivateRead_inv a hs :)
  | status a => exact (execStatus_inv a hs :)
  | ident a => exact (execIdent_inv a hs :)
  | shedBudget a w => exact (execShedBudget_inv a w hs :)
  | service a v => exact (execService_inv a v hs :)
  | sparePool a v => exact (execSparePool_inv a v hs :)
  | moduleReset a v => exact (execModuleReset_inv a v hs :)
  | clearAlert a v => exact (execClearAlert_inv a v hs :)
  | monitorIn a data => exact (execMonitorIn_inv a data hs :)
  | monitorOut a => exact (execMonitorOut_inv a hs :)
  | svcReset us => exact (execSvcReset_inv us hs :)
  | guardWatchdog => exact (execGuardWatchdog_inv hs :)
  | guardBoot dv nodeDv => exact (execGuardBoot_inv dv nodeDv hs :)
  | guardImageRunning => exact (execGuardImageRunning_inv hs :)
  | firstStewardHeartbeat => exact (execFirstStewardHeartbeat_inv hs :)
  | stewardBootFallback => exact (execStewardBootFallback_inv hs :)
  | channelTrainingDone ports bulk => exact (execChannelTrainingDone_inv ports bulk hs :)
  | selftestPassDone tiles slices => exact (execSelftestPassDone_inv tiles slices hs :)
  | progressWatchdogExpiry h => exact (execProgressWatchdogExpiry_inv h hs :)
  | dumpComplete kind unit r => exact (execDumpComplete_inv kind unit r hs :)
  | hltResetWrite v => exact (execHltResetWrite_inv v hs :)
  | recoveryComplete kind unit r => exact (execRecoveryComplete_inv kind unit r hs :)
  | recoveryOverdue kind unit => exact (execRecoveryOverdue_inv kind unit hs :)
  | strikerRoundStart t => exact (execStrikerRoundStart_inv t hs :)
  | strikerRoundDone t failed => exact (execStrikerRoundDone_inv t failed hs :)
  | strikerOverdue t => exact (execStrikerOverdue_inv t hs :)
  | memoryTestSlice port slice pass => exact (execMemoryTestSlice_inv port slice pass hs :)
  | scoreRecompute => exact (execScoreRecompute_inv hs :)
  | expelClear => exact (execExpelClear_inv hs :)
  | flashWearLevel ms => exact (execFlashWearLevel_inv ms hs :)
  | telemetrySweep us => exact (execTelemetrySweep_inv us hs :)
  | cycleStart p slot => exact (execCycleStart_inv p slot hs :)
  | laneComplete p slot => exact (execLaneComplete_inv p slot hs :)
  | cycleDeadline p slot => exact (execCycleDeadline_inv p slot hs :)
  | pairCfgWrite v => exact (execPairCfgWrite_inv v hs :)
  | claimStart => exact (execClaimStart_inv hs :)
  | claimCheck => exact (execClaimCheck_inv hs :)
  | partnerLineAssert => exact (execPartnerLineAssert_inv hs :)
  | stateLoaded slot a b img => exact (execStateLoaded_inv slot a b img hs :)
  | stateCopyReceive m start fin => exact (execStateCopyReceive_inv m start fin hs :)
  | pairRearm => exact (execPairRearm_inv hs :)
  | pairHandover => exact (execPairHandover_inv hs :)
  | uartByteReceive b => exact (execUartByteReceive_inv b hs :)
  | uartBreak ms => exact (execUartBreak_inv ms hs :)
  | baudIdleRevert => exact (execBaudIdleRevert_inv hs :)
  | engineerIdleLapse relay => exact (execEngineerIdleLapse_inv relay hs :)
  | challengeLapse => exact (execChallengeLapse_inv hs :)
  | authLockoutEnd => exact (execAuthLockoutEnd_inv hs :)
  | monitorOutputStall relay => exact (execMonitorOutputStall_inv relay hs :)
  | monitorHelp relay => exact (execMonitorHelp_inv relay hs :)
  | monitorWhoami relay => exact (execMonitorWhoami_inv relay hs :)
  | monitorState relay => exact (execMonitorState_inv relay hs :)
  | monitorTime relay => exact (execMonitorTime_inv relay hs :)
  | monitorPower relay => exact (execMonitorPower_inv relay hs :)
  | monitorSensors relay => exact (execMonitorSensors_inv relay hs :)
  | monitorHealth relay => exact (execMonitorHealth_inv relay hs :)
  | monitorTiles relay => exact (execMonitorTiles_inv relay hs :)
  | monitorParts relay => exact (execMonitorParts_inv relay hs :)
  | monitorLinks relay => exact (execMonitorLinks_inv relay hs :)
  | monitorFw relay => exact (execMonitorFw_inv relay hs :)
  | monitorLog relay => exact (execMonitorLog_inv relay hs :)
  | monitorAuthChallenge relay => exact (execMonitorAuthChallenge_inv relay hs :)
  | monitorAuthResponse relay => exact (execMonitorAuthResponse_inv relay hs :)
  | monitorLogout relay => exact (execMonitorLogout_inv relay hs :)
  | monitorBaud relay => exact (execMonitorBaud_inv relay hs :)
  | monitorFence relay => exact (execMonitorFence_inv relay hs :)
  | monitorUnfence relay failed => exact (execMonitorUnfence_inv relay failed hs :)
  | monitorReset relay => exact (execMonitorReset_inv relay hs :)
  | monitorDump relay => exact (execMonitorDump_inv relay hs :)
  | monitorPstate relay => exact (execMonitorPstate_inv relay hs :)
  | monitorVset relay => exact (execMonitorVset_inv relay hs :)
  | monitorRegRead relay => exact (execMonitorRegRead_inv relay hs :)
  | monitorRegWrite relay => exact (execMonitorRegWrite_inv relay hs :)
  | monitorUnknownCommand relay => exact (execMonitorUnknownCommand_inv relay hs :)
  | guardOwnWatchdog canSend => exact (execGuardOwnWatchdog_inv canSend hs :)
  | perstRelease => exact (execPerstRelease_inv hs :)
  | hostLinkUp speed width flit => exact (execHostLinkUp_inv speed width flit hs :)
  | svcResetRelease => exact (execSvcResetRelease_inv hs :)
  | configurationRequest fn r => exact (execConfigurationRequest_inv fn r hs :)

/-- The passing of time and the command in front keep the canonical form. -/
theorem step_inv {s t : State} (hs : s.Inv) (h : step s = .next t) : t.Inv := by
  unfold step at h
  split at h
  · cases h
    exact State.passTime_inv hs
  · rename_i c cs _
    obtain ⟨u, hu, hinv⟩ := exec_inv c (s := { s with pending := cs }) hs
    cases hu.symm.trans h
    exact hinv

end Sys2Proof.Machine

section
open Sys2Proof Sys2Proof.Machine

/-- Settles O60: each row's command keeps the form, and so does the passing of time. -/
theorem stepKeepsTheInvariant : Obligations.StepKeepsTheInvariant := by
  intro s t hs h
  exact step_inv hs h

/-- Settles O59: the memories after reset list nothing. -/
theorem resetMeetsTheInvariant : Obligations.ResetMeetsTheInvariant := State.reset_inv

end

/-! SUPPORT. Bytes read back from runs of bytes, and what the named updates of the state leave of a partition's rings. -/

namespace Sys2Proof.Machine

/-! ### Bytes -/

@[simp] theorem length_toLe (len n : Nat) : (toLe len n).length = len := by
  induction len generalizing n with
  | zero => rfl
  | succ len ih => simp [toLe, ih]

@[simp] theorem length_zeros (len : Nat) : (zeros len).length = len := List.length_replicate

@[simp] theorem length_crcBytes (c : CrcParams) (bs : List Byte) : (c.bytes bs).length = cdiv c.width 8 := length_toLe _ _

/-- The low bytes of a number spell what of it they hold. -/
theorem leNat_toLe_eq_mod (len n : Nat) : leNat (toLe len n) = n % 256 ^ len := by
  induction len generalizing n with
  | zero => exact (Nat.mod_one n).symm
  | succ len ih =>
    simp only [toLe, leNat, ih, BitVec.toNat_ofNat, Nat.pow_succ', Nat.mod_mul (a := 256)]

/-- A slice past the front of a run. -/
theorem sliceOf_append_right {a : List Byte} {off : Nat} (h : a.length ≤ off) (b : List Byte) (len : Nat) :
    sliceOf (a ++ b) off len = sliceOf b (off - a.length) len := by
  simp [sliceOf, List.drop_append, List.drop_eq_nil_of_le h]

/-- The front of a run. -/
theorem sliceOf_append_left {a : List Byte} {len : Nat} (h : a.length = len) (b : List Byte) : sliceOf (a ++ b) 0 len = a := by
  simp [sliceOf, h]

/-- The whole of a run. -/
theorem sliceOf_all {a : List Byte} {len : Nat} (h : a.length = len) : sliceOf a 0 len = a := by
  rw [sliceOf, List.drop_zero, List.take_of_length_le (Nat.le_of_eq h)]

/-- Every element of a list of defaults is the default. -/
theorem getD_replicate_self {α : Type} (n i : Nat) (a : α) : (List.replicate n a).getD i a = a := by
  rw [List.getD_eq_getElem?_getD, List.getElem?_replicate]
  split <;> rfl

/-- Past the end of a list there is the default. -/
theorem getD_past {α : Type} {l : List α} {i : Nat} {d : α} (h : l.length ≤ i) : l.getD i d = d := by
  rw [List.getD_eq_getElem?_getD, List.getElem?_eq_none h, Option.getD_none]

/-! ### The rings of a partition -/

section
variable (s : State)

@[simp] theorem State.sq_raiseAt (p code subject time : Nat) (data : List Byte) (x y : Nat) :
    (s.raiseAt p code subject time data).sq x y = s.sq x y := by
  simp only [State.raiseAt, State.onEvt, State.onHost, State.sq, State.part_onPart]
  split <;> rfl

@[simp] theorem State.cq_raiseAt (p code subject time : Nat) (data : List Byte) (x y : Nat) :
    (s.raiseAt p code subject time data).cq x y = s.cq x y := by
  simp only [State.raiseAt, State.onEvt, State.onHost, State.cq, State.part_onPart]
  split <;> rfl

/-- An event is the partition's alone. -/
theorem State.part_raiseAt_ne {p x : Nat} (h : x ≠ p) (code subject time : Nat) (data : List Byte) :
    (s.raiseAt p code subject time data).part x = s.part x := by
  simp [State.raiseAt, State.onEvt, State.onHost, State.part_onPart, h]

@[simp] theorem State.sq_raiseBoth (p code : Nat) (data : List Byte) (x y : Nat) : (s.raiseBoth p code data).sq x y = s.sq x y := by
  unfold State.raiseBoth
  split <;> simp [State.raise, State.raisePf]

@[simp] theorem State.cq_raiseBoth (p code : Nat) (data : List Byte) (x y : Nat) : (s.raiseBoth p code data).cq x y = s.cq x y := by
  unfold State.raiseBoth
  split <;> simp [State.raise, State.raisePf]

/-- An event to a partition and to the physical function changes no other partition. -/
theorem State.part_raiseBoth_ne {p x : Nat} (h : x ≠ p) (h0 : x ≠ 0) (code : Nat) (data : List Byte) :
    (s.raiseBoth p code data).part x = s.part x := by
  unfold State.raiseBoth
  split <;> simp [State.raise, State.raisePf, State.part_raiseAt_ne, h, h0]

@[simp] theorem State.cq_onSq (p q : Nat) (f : Sq → Sq) (x y : Nat) : (s.onSq p q f).cq x y = s.cq x y := by
  simp only [State.onSq, State.onHost, State.cq, State.part_onPart]
  split <;> rfl

@[simp] theorem State.sq_onCq (p c : Nat) (f : Cq → Cq) (x y : Nat) : (s.onCq p c f).sq x y = s.sq x y := by
  simp only [State.onCq, State.onHost, State.sq, State.part_onPart]
  split <;> rfl

theorem State.part_onSq_ne {p x : Nat} (h : x ≠ p) (q : Nat) (f : Sq → Sq) : (s.onSq p q f).part x = s.part x := by
  simp [State.onSq, State.onHost, State.part_onPart, h]

theorem State.part_onCq_ne {p x : Nat} (h : x ≠ p) (c : Nat) (f : Cq → Cq) : (s.onCq p c f).part x = s.part x := by
  simp [State.onCq, State.onHost, State.part_onPart, h]

variable {s}

/-- A partition that is not there holds nothing. -/
theorem State.part_of_length_le {p : Nat} (h : s.parts.length ≤ p) : s.part p = {} := getD_past h

/-- A submission queue that is live is there. -/
theorem State.sq_live_there {p q : Nat} (h : (s.sq p q).st.live = true) :
    p < s.parts.length ∧ q < (s.part p).host.sqs.length := by
  have hq : q < (s.part p).host.sqs.length := by
    refine Nat.lt_of_not_le fun hn => ?_
    simp only [State.sq, getD_past hn] at h
    cases h
  refine ⟨?_, hq⟩
  refine Nat.lt_of_not_le fun hn => ?_
  rw [State.sq, State.part_of_length_le hn] at h
  change (List.getD (List.replicate 64 ({} : Sq)) q {}).st.live = true at h
  rw [getD_replicate_self] at h
  cases h

/-- A completion queue that is live is there. -/
theorem State.cq_live_there {p c : Nat} (h : (s.cq p c).st.live = true) :
    p < s.parts.length ∧ c < (s.part p).host.cqs.length := by
  have hc : c < (s.part p).host.cqs.length := by
    refine Nat.lt_of_not_le fun hn => ?_
    simp only [State.cq, getD_past hn] at h
    cases h
  refine ⟨?_, hc⟩
  refine Nat.lt_of_not_le fun hn => ?_
  rw [State.cq, State.part_of_length_le hn] at h
  change (List.getD (List.replicate 16 ({} : Cq)) c {}).st.live = true at h
  rw [getD_replicate_self] at h
  cases h

end

/-! ### Events to every live partition -/

section
variable (s : State)

/-- Events to several partitions change the partitions alone, whatever the boot block holds. -/
theorem State.foldl_raise_boot (l : List Nat) (code : Nat) (data : List Byte) (b : Boot) :
    l.foldl (fun t p => t.raise p code data) { s with boot := b } =
      { s with boot := b, parts := (l.foldl (fun t p => t.raise p code data) s).parts } := by
  induction l generalizing s with
  | nil => rfl
  | cons p l ih => exact ih (s.raise p code data)

/-- Events to every live partition change the partitions alone. -/
theorem State.raiseLive_boot (code : Nat) (data : List Byte) (b : Boot) :
    ({ s with boot := b } : State).raiseLive code data = { s with boot := b, parts := (s.raiseLive code data).parts } :=
  s.foldl_raise_boot _ code data b

/-- A module reset that is announced is due 100 µs later (R491). -/
theorem State.announceReset_none {s : State} (h : s.boot.resetAt = none) : s.announceReset = { s with
    boot := { s.boot with resetAt := some (s.now + 100000) }
    parts := (s.raiseLive 0x64 (toLe 8 (s.now + 100000))).parts } := by
  simp only [State.announceReset, h, State.raiseLive_boot]

end

/-! ### Rows of descriptors -/

/-- A descriptor of the opcode is a row's of that opcode. -/
theorem isOp_of {d : Desc} {op : Nat} (h : d.op = op) : isOp op d = true := beq_iff_eq.mpr h

section
variable {s : State} {r : DescRef} {d : Desc} {i : Instr} {mine : Desc → Bool}

/-- The command of a row whose descriptors complete later, on a ready one that its own checks pass. -/
theorem State.Ready.exec_start (h : s.Ready r d) {ck : State → Nat → Desc → Option Fail} {go : State → Nat → Desc → State}
    (hi : exec i s = .next (s.startDesc r mine ck go)) (hm : mine d = true) (hc : ck s r.part d = none) :
    exec i s = .next (go (s.started r.part d) r.part d) := by
  rw [hi, State.startDesc_ready h hm hc]

/-- The same on a ready one that its own checks fail. -/
theorem State.Ready.exec_barred (h : s.Ready r d) {ck : State → Nat → Desc → Option Fail} {go : State → Nat → Desc → State} {f : Fail}
    (hi : exec i s = .next (s.startDesc r mine ck go)) (hm : mine d = true) (hc : ck s r.part d = some f) :
    exec i s = .next (s.failDesc r.part d f) := by
  rw [hi, State.startDesc_barred h hm hc]

/-- The command of a row of the shared course, on a ready descriptor that its own checks pass and whose operation answers. -/
theorem State.Ready.exec_run (h : s.Ready r d) {c : Course} {t u : State} {o : Done} (hi : exec i s = .next (s.runDesc r mine c))
    (hm : mine d = true) (hc : c.check s r.part d = none) (hu : c.opens (s.started r.part d) r.part d = u)
    (hr : c.run (u.atWork r.part d) r.part d = .ok (t, o)) : exec i s = .next (u.afterWork t r.part d o) := by
  rw [hi, State.runDesc_done h hm hc hu hr]

end

end Sys2Proof.Machine

/-! SUPPORT. Byte memories read back, a CQ in ERROR, lanes and save slots, the step and the state after reset. -/

namespace Sys2Proof.Machine

/-! ### Byte memories (`Cells`) -/

/-- A memory in form from `lo` on reads 0 below `lo`. -/
theorem Cells.get_below {m : Cells} {lo a : Nat} (hm : cellsFrom lo m = true) (ha : a < lo) : m.get a = 0#8 := by
  cases m with
  | nil => rfl
  | cons c cs =>
    simp only [cellsFrom, Bool.and_eq_true, decide_eq_true_eq] at hm
    have hac : a < c.1 := Nat.lt_of_lt_of_le ha hm.1.1
    simp [Cells.get, hac, Nat.ne_of_gt hac]

/-- A byte written reads back, and no other byte changes. -/
theorem Cells.get_set {m : Cells} {lo : Nat} (hm : cellsFrom lo m = true) (a x : Nat) (b : Byte) :
    (m.set a b).get x = if x = a then b else m.get x := by
  induction m generalizing lo with
  | nil => grind [Cells.set, Cells.get]
  | cons c cs ih =>
    simp only [cellsFrom, Bool.and_eq_true, decide_eq_true_eq] at hm
    have below : ∀ y, y ≤ c.1 → Cells.get cs y = 0#8 := fun y hy => Cells.get_below hm.2 (by omega)
    have hrest := ih hm.2
    grind [Cells.set, Cells.get]

/-- A run of bytes written reads back, and no other byte changes. -/
theorem Cells.get_write {m : Cells} (hm : m.wf = true) (a x : Nat) (bs : List Byte) :
    (m.write a bs).get x = if a ≤ x ∧ x < a + bs.length then bs.getD (x - a) 0#8 else m.get x := by
  induction bs generalizing m a with
  | nil => rw [Cells.write, if_neg (by rw [List.length_nil]; omega)]
  | cons b bs ih =>
    rw [Cells.write, ih (Cells.set_wf hm a b), Cells.get_set hm]
    by_cases hne : x = a
    · subst hne
      rw [if_neg (by omega), if_pos rfl, if_pos (by simp), Nat.sub_self]
      rfl
    · by_cases h : a + 1 ≤ x ∧ x < a + 1 + bs.length
      · obtain ⟨k, rfl⟩ := Nat.exists_eq_add_of_le h.1
        rw [if_pos h, if_pos (by simp; omega)]
        simp [show a + 1 + k - (a + 1) = k by omega, show a + 1 + k - a = k + 1 by omega]
      · rw [if_neg h, if_neg hne, if_neg (by simp; omega)]

/-- A run of bytes reads back as it was written. -/
theorem Cells.read_write {m : Cells} (hm : m.wf = true) (a : Nat) (bs : List Byte) : (m.write a bs).read a bs.length = bs := by
  apply List.ext_getElem
  · simp [Cells.read]
  · intro i _ hi
    simp [Cells.read, Cells.get_write hm, hi]

/-- Bytes that a filter by address leaves read as before, the others 0. -/
theorem Cells.get_filter {m : Cells} {lo : Nat} (hm : cellsFrom lo m = true) (f : Nat → Bool) (x : Nat) :
    Cells.get (m.filter (fun c => f c.1)) x = if f x then m.get x else 0#8 := by
  induction m generalizing lo with
  | nil => simp [Cells.get]
  | cons c cs ih =>
    simp only [cellsFrom, Bool.and_eq_true, decide_eq_true_eq] at hm
    have below : ∀ y, y ≤ c.1 → Cells.get cs y = 0#8 := fun y hy => Cells.get_below hm.2 (by omega)
    have hrest := ih hm.2
    rw [List.filter_cons]
    grind [Cells.get]

/-- A range that is zeroed reads 0, and no other byte changes. -/
theorem Cells.get_clear {m : Cells} (hm : m.wf = true) (lo hi x : Nat) :
    (m.clear lo hi).get x = if lo ≤ x ∧ x < hi then 0#8 else m.get x := by
  rw [Cells.clear, Cells.get_filter hm (fun y => decide (y < lo) || decide (hi ≤ y))]
  grind

/-- Two memories in canonical form that read alike are equal. -/
theorem Cells.ext_get {m n : Cells} {lo : Nat} (hm : cellsFrom lo m = true) (hn : cellsFrom lo n = true)
    (h : ∀ a, m.get a = n.get a) : m = n := by
  induction m generalizing n lo with
  | nil =>
    cases n with
    | nil => rfl
    | cons d ds =>
      simp only [cellsFrom, Bool.and_eq_true, bne_iff_ne] at hn
      exact absurd (by simpa [Cells.get] using (h d.1).symm) hn.1.2
  | cons c cs ih =>
    simp only [cellsFrom, Bool.and_eq_true, decide_eq_true_eq, bne_iff_ne] at hm
    cases n with
    | nil => exact absurd (by simpa [Cells.get] using h c.1) hm.1.2
    | cons d ds =>
      simp only [cellsFrom, Bool.and_eq_true, decide_eq_true_eq, bne_iff_ne] at hn
      have hc := h c.1
      have hd := h d.1
      have haddr : c.1 = d.1 := by grind [Cells.get]
      have hcd : c = d := Prod.ext haddr (by simpa [Cells.get, haddr] using hc)
      subst hcd
      congr 1
      refine ih hm.2 hn.2 fun a => ?_
      by_cases ha : a ≤ c.1
      · rw [Cells.get_below hm.2 (by omega), Cells.get_below hn.2 (by omega)]
      · have := h a
        simpa [Cells.get, Nat.not_lt.mpr (Nat.le_of_not_le ha), show c.1 ≠ a by omega] using this

/-! ### A CQ in ERROR (R244) -/

section
variable (s : State) (p : Nat)

/-- A live SQ that fails enters ERROR with its cause, and no other SQ changes. -/
theorem State.sq_sqError (q cause y : Nat) : (s.sqError p q cause).sq p y =
    if y = q ∧ (s.sq p q).st.live = true then { s.sq p q with st := .error, errCode := cause } else s.sq p y := by
  unfold State.sqError
  split
  · rename_i hlive
    obtain ⟨hp, hq⟩ := State.sq_live_there hlive
    rw [State.sq_raiseBoth, State.sq_onSq]
    grind
  · rename_i hdead
    rw [if_neg fun h => hdead h.2]

@[simp] theorem State.cq_sqError (q cause x y : Nat) : (s.sqError p q cause).cq x y = s.cq x y := by
  unfold State.sqError
  split <;> simp

theorem State.part_sqError_ne {x : Nat} (h : x ≠ p) (h0 : x ≠ 0) (q cause : Nat) : (s.sqError p q cause).part x = s.part x := by
  unfold State.sqError
  split <;> simp [State.part_raiseBoth_ne, State.part_onSq_ne, h, h0]

/-- SQ q follows its CQ c into ERROR. -/
def State.followCq (c : Nat) (t : State) (q : Nat) : State := if (t.sq p q).cq = c then t.sqError p q 0x06 else t

theorem State.sq_followCq (c q y : Nat) : (State.followCq p c s q).sq p y =
    if y = q ∧ (s.sq p q).cq = c ∧ (s.sq p q).st.live = true then { s.sq p q with st := .error, errCode := 0x06 } else s.sq p y := by
  unfold State.followCq
  split <;> simp_all [State.sq_sqError]

/-- The listed SQs follow: each one that is live and bound to c, and no other. -/
theorem State.sq_foldl_followCq (c : Nat) (l : List Nat) (y : Nat) : (l.foldl (State.followCq p c) s).sq p y =
    if y ∈ l ∧ (s.sq p y).cq = c ∧ (s.sq p y).st.live = true then { s.sq p y with st := .error, errCode := 0x06 } else s.sq p y := by
  induction l generalizing s with
  | nil => simp
  | cons q l ih =>
    rw [List.foldl_cons, ih, State.sq_followCq]
    by_cases hy : y = q ∧ (s.sq p q).cq = c ∧ (s.sq p q).st.live = true
    · obtain ⟨rfl, hc, hl⟩ := hy
      simp [hc, hl, show (RingSt.error).live = false from rfl]
    · rw [if_neg hy]
      grind

/-- What the SQs' following leaves: the CQs, and the other partitions. -/
theorem State.foldl_followCq_frame (c : Nat) (l : List Nat) :
    (∀ x y, (l.foldl (State.followCq p c) s).cq x y = s.cq x y) ∧
      ∀ x, x ≠ p → x ≠ 0 → (l.foldl (State.followCq p c) s).part x = s.part x := by
  induction l generalizing s with
  | nil => exact ⟨fun _ _ => rfl, fun _ _ _ => rfl⟩
  | cons q l ih =>
    obtain ⟨hcq, hpart⟩ := ih (State.followCq p c s q)
    rw [List.foldl_cons]
    refine ⟨fun x y => (hcq x y).trans ?_, fun x h h0 => (hpart x h h0).trans ?_⟩ <;> unfold State.followCq <;> split
    · exact s.cq_sqError p q 6 x y
    · rfl
    · exact s.part_sqError_ne p h h0 q 6
    · rfl

end

/-- A live CQ that fails: its own change, its event, and the SQs' following. -/
theorem State.cqError_live {s : State} {p c : Nat} (h : (s.cq p c).st.live = true) (cause : Nat) : s.cqError p c cause =
    (List.range 64).foldl (State.followCq p c) ((s.onCq p c (fun r => { r with st := .error, errCode := cause })).raiseBoth p 0x01
      (toLe 1 1 ++ toLe 1 c ++ toLe 1 cause)) := if_pos h

/-! ### Lanes (R530) -/

/-- What a total reading of a list gave for each of its elements. -/
theorem mem_of_mapM_eq_some {α β : Type} {f : α → Option β} {l : List α} {bs : List β} (h : l.mapM f = some bs) :
    ∀ a ∈ l, ∃ b ∈ bs, f a = some b := by
  induction l generalizing bs with
  | nil => exact fun a ha => nomatch ha
  | cons x l ih =>
    simp only [List.mapM_cons, Option.bind_eq_bind, Option.bind_eq_some_iff, Option.pure_def, Option.some.injEq] at h
    obtain ⟨b, hb, bs', hbs, rfl⟩ := h
    intro a ha
    rcases List.mem_cons.mp ha with rfl | ha
    · exact ⟨b, List.mem_cons_self, hb⟩
    · obtain ⟨b', hb', hf⟩ := ih hbs a ha
      exact ⟨b', List.mem_cons_of_mem _ hb', hf⟩

/-- Lanes that match: every one is good, each gave its regions, and the regions' digests are the one digest. -/
theorem State.matched_some {s : State} {p n : Nat} {c : Cyclic} {dig : List Byte} (h : s.matched p n c = some dig) :
    (s.act p n).lanesGood c = true ∧ ∀ l ∈ c.lanes, ∃ r, s.laneRegions p c l = some r ∧ digestOf r = dig := by
  unfold State.matched at h
  split at h
  · cases h
  · rename_i hgood
    refine ⟨by simpa using hgood, fun l hl => ?_⟩
    split at h
    · rename_i r rs hmap
      split at h
      · rename_i hall
        cases h
        obtain ⟨x, hx, hlx⟩ := mem_of_mapM_eq_some hmap l hl
        refine ⟨x, hlx, ?_⟩
        rcases List.mem_cons.mp hx with rfl | hx
        · rfl
        · exact eq_of_beq (List.all_eq_true.mp hall x hx)
      · cases h
    · cases h

/-- Good lanes: each act descriptor of each lane completed well, with the same flags in every lane. -/
theorem ActSlot.lanesGood_iff (a : ActSlot) (c : Cyclic) : a.lanesGood c = true ↔
    a.outs.length = a.count * c.lanes.length ∧ (∀ o ∈ a.outs, statusGood o.status = true) ∧
      ∀ o ∈ a.outs, ∀ q ∈ a.outs, o.idx = q.idx → o.cflags = q.cflags := by
  simp [ActSlot.lanesGood, and_assoc, Decidable.imp_iff_not_or]

/-! ### Save slots (R540, R541) -/

/-- The first 56 bytes of a save slot. -/
def saveHead (k : Nat) (st : List Byte) : List Byte :=
  toLe 4 0x53415645 ++ (toLe 4 st.length ++ (toLe 8 k ++ (toLe 8 Config.serial.toNat ++ (regionDigest st ++ zeros 16))))

theorem saveSlot_eq (k : Nat) (st : List Byte) :
    saveSlot k st = saveHead k st ++ (crc64.bytes (saveHead k st) ++ (st ++ crc64.bytes st)) := by
  simp only [saveSlot, saveHead, List.append_assoc]

@[simp] theorem length_siphash (key : BitVec 128) (bs : List Byte) : (siphash key bs).length = 16 := by
  simp [siphash]

@[simp] theorem length_regionDigest (bs : List Byte) : (regionDigest bs).length = 16 := length_siphash _ _

@[simp] theorem length_saveHead (k : Nat) (st : List Byte) : (saveHead k st).length = 56 := by
  simp [saveHead]

/-- A field of a slot's first 56 bytes. -/
theorem sliceOf_saveSlot_head {off len : Nat} (h : off + len ≤ 56) (k : Nat) (st : List Byte) :
    sliceOf (saveSlot k st) off len = sliceOf (saveHead k st) off len := by
  rw [saveSlot_eq]
  unfold sliceOf
  rw [List.drop_append_of_le_length (by simp; omega), List.take_append_of_le_length (by simp; omega)]

end Sys2Proof.Machine

section
open Sys2Proof Sys2Proof.Machine

/-- Settles O56: each of the memory's laws, by induction on its list of bytes. -/
theorem memoryReadsBack : Obligations.MemoryReadsBack :=
  ⟨fun _ a x b hm => Cells.get_set hm a x b, fun _ a x bs hm => Cells.get_write hm a x bs,
    fun _ a bs hm => Cells.read_write hm a bs, fun _ lo hi x hm => Cells.get_clear hm lo hi x,
    fun _ _ hm hn h => Cells.ext_get hm hn h⟩

/-- Settles O55: the CQ's own change, then the following of the SQs bound to it. -/
theorem cqErrorReachesItsSqs : Obligations.CqErrorReachesItsSqs := by
  intro s p c cause hlive
  obtain ⟨hp, hc⟩ := State.cq_live_there hlive
  rw [State.cqError_live hlive]
  obtain ⟨hcq, hpart⟩ := State.foldl_followCq_frame ((s.onCq p c (fun r => { r with st := .error, errCode := cause })).raiseBoth p 0x01
      (toLe 1 1 ++ toLe 1 c ++ toLe 1 cause)) p c (List.range 64)
  refine ⟨?_, fun q hq hbound hl => ?_, fun q hfree => ?_, fun x hx => ?_, fun x hx h0 => ?_⟩
  · rw [hcq, State.cq_raiseBoth, State.cq_onCq, if_pos ⟨rfl, hp, rfl, hc⟩]
  · simp [State.sq_foldl_followCq, hq, hbound, hl]
  · rw [State.sq_foldl_followCq, State.sq_raiseBoth, State.sq_onCq, if_neg]
    grind
  · rw [hcq, State.cq_raiseBoth, State.cq_onCq, if_neg fun h => hx h.2.2.1]
  · rw [hpart x hx h0, State.part_raiseBoth_ne _ hx h0, State.part_onCq_ne _ hx]

end

section
open Sys2Proof Sys2Proof.Machine

/-- Settles O50: what lanes that match have in common. -/
theorem lanesMatchOnlyWhenEqual : Obligations.LanesMatchOnlyWhenEqual := by
  intro s p n c dig h
  obtain ⟨hgood, hlanes⟩ := State.matched_some h
  obtain ⟨hlen, hst, hflags⟩ := (ActSlot.lanesGood_iff _ _).mp hgood
  exact ⟨hst, hlen, hflags, hlanes⟩

/-- Settles O52: each field of the slot reads back at its place. -/
theorem saveSlotLoads : Obligations.SaveSlotLoads := by
  intro k st hk hst
  have skip := fun (a : List Byte) off (h : a.length ≤ off) => sliceOf_append_right h
  have take := fun (a : List Byte) len (h : a.length = len) => sliceOf_append_left h
  have width : cdiv crc64.width 8 = 8 := rfl
  have magic : fieldAt (saveSlot k st) 0 4 = 0x53415645 := by
    simp [fieldAt, sliceOf_saveSlot_head, saveHead, take, leNat_toLe_eq_mod]
  have len : fieldAt (saveSlot k st) 4 4 = st.length := by
    simpa [fieldAt, sliceOf_saveSlot_head, saveHead, skip, take, leNat_toLe_eq_mod] using hst
  have cycle : fieldAt (saveSlot k st) 8 8 = k := by
    simpa [fieldAt, sliceOf_saveSlot_head, saveHead, skip, take, leNat_toLe_eq_mod] using hk
  have dig : sliceOf (saveSlot k st) 24 16 = regionDigest st := by
    simp [sliceOf_saveSlot_head, saveHead, skip, take]
  have head : sliceOf (saveSlot k st) 0 56 = saveHead k st := by
    rw [sliceOf_saveSlot_head (by decide), sliceOf_all (length_saveHead k st)]
  have headCrc : sliceOf (saveSlot k st) 56 8 = crc64.bytes (saveHead k st) := by
    simp [saveSlot_eq, skip, take, width]
  have state : sliceOf (saveSlot k st) 64 st.length = st := by
    simp [saveSlot_eq, skip, take, width]
  have stateCrc : sliceOf (saveSlot k st) (64 + st.length) 8 = crc64.bytes st := by
    simp [saveSlot_eq, skip, sliceOf_all, width, Nat.add_comm 64, Nat.add_sub_assoc]
  simp [saveOk, readBytes, magic, len, cycle, dig, head, headCrc, state, stateCrc]

end

namespace Sys2Proof.Machine

/-! ### A step (R217, notes/assumptions/2.md) -/

section
variable (s : State)

/-- A rail's step is of the power block alone. -/
theorem State.railTick_eq : s.railTick = { s with power := s.railTick.power } := by
  unfold State.railTick
  dsimp only
  split
  · split <;> rfl
  · split <;> rfl

/-- The codewords that ports receive are of the link block and the free values alone. -/
theorem State.codewords_eq : s.codewords = { s with links := s.codewords.links, fresh := s.codewords.fresh } := by
  unfold State.codewords
  split <;> rfl

/-- Slewing changes the time and the PTM state alone, and takes no time back. -/
theorem State.slewed_spec : s.slewed = { s with now := s.slewed.now, host := s.slewed.host } ∧ s.now ≤ s.slewed.now := by
  unfold State.slewed
  dsimp only
  split
  · exact ⟨rfl, by simp⟩
  split
  · exact ⟨rfl, by simp⟩
  split
  · exact ⟨rfl, by simp⟩
  · exact ⟨rfl, Nat.le_refl _⟩

theorem State.passTime_spec : s.passTime.pending = s.pending ∧ s.now ≤ s.passTime.now := by
  obtain ⟨hs, hnow⟩ := s.slewed_spec
  rw [State.passTime, State.codewords_eq, State.railTick_eq, hs]
  exact ⟨rfl, hnow⟩

variable {s}

/-- Rails that are where they are to be stay there. -/
theorem State.railTick_settled (h : ∀ i, i < 12 → s.power.rails.getD i .off = if s.railWanted i then .good else .off) :
    s.railTick = s := by
  have down : (List.range 12).reverse.find? (fun i => !s.railWanted i && s.power.rails.getD i .off != .off) = none := by
    simp only [List.find?_eq_none, List.mem_reverse, List.mem_range]
    intro i hi
    simp only [h i hi]
    cases s.railWanted i <;> simp
  have up : (List.range 12).find? (fun i => s.railWanted i && s.power.rails.getD i .off != .good) = none := by
    simp only [List.find?_eq_none, List.mem_range]
    intro i hi
    simp only [h i hi]
    cases s.railWanted i <;> simp
  simp only [State.railTick, down, up]

/-- Ports short of UP receive nothing. -/
theorem State.codewords_quiet (h : ∀ p, p ∈ s.links.ports → p.st ≠ .up) : s.codewords = s := by
  refine if_neg ?_
  simpa using h

end

/-! ### After reset -/

/-- Every partition is as at reset. -/
theorem State.part_reset (p : Nat) : State.reset.part p = {} := getD_replicate_self 16 p ({} : Part)

theorem State.sq_reset (p q : Nat) : State.reset.sq p q = {} := by
  rw [State.sq, State.part_reset]
  exact getD_replicate_self 64 q ({} : Sq)

theorem State.cq_reset (p c : Nat) : State.reset.cq p c = {} := by
  rw [State.cq, State.part_reset]
  exact getD_replicate_self 16 c ({} : Cq)

theorem State.act_reset (p n : Nat) : State.reset.act p n = {} := by
  rw [State.act, State.part_reset]
  exact getD_replicate_self 64 n ({} : ActSlot)

theorem State.counter_reset (p n : Nat) : State.reset.counter p n = 0 := by
  rw [State.counter, State.part_reset]
  exact getD_replicate_self 256 n 0

/-- A partition that is not being reset shows its SQs' registers. -/
theorem State.readPage_sq {s : State} {p q o : Nat} (h : (s.part p).sec.resetting = false) (hq : q < 64) (ho : o < 0x20)
    (h4 : o % 4 = 0) : s.readPage p (0x1000 + 0x20 * q + o) = (s.sq p q).read o := by
  have el : elemAt (0x1000 + 0x20 * q + o) 0x1000 0x20 64 = some (q, o) := by
    rw [elemAt, if_pos (by simp; omega)]
    simp only [Option.some.injEq, Prod.mk.injEq]
    omega
  have hoff : (0x1000 + 0x20 * q + o) % 4 = 0 := by omega
  have hlt : ∀ n, n ≤ 0x1000 → ¬0x1000 + 0x20 * q + o < n := by omega
  simp [State.readPage, h, el, hoff, hlt]

/-- It shows its CQs' registers. -/
theorem State.readPage_cq {s : State} {p c o : Nat} (h : (s.part p).sec.resetting = false) (hc : c < 16) (ho : o < 0x20)
    (h4 : o % 4 = 0) : s.readPage p (0x1800 + 0x20 * c + o) = (s.cq p c).read o := by
  have sq : elemAt (0x1800 + 0x20 * c + o) 0x1000 0x20 64 = none := if_neg (by simp; omega)
  have el : elemAt (0x1800 + 0x20 * c + o) 0x1800 0x20 16 = some (c, o) := by
    rw [elemAt, if_pos (by simp; omega)]
    simp only [Option.some.injEq, Prod.mk.injEq]
    omega
  have hoff : (0x1800 + 0x20 * c + o) % 4 = 0 := by omega
  have hlt : ∀ n, n ≤ 0x1000 → ¬0x1800 + 0x20 * c + o < n := by omega
  simp [State.readPage, h, sq, el, hoff, hlt]

end Sys2Proof.Machine

section
open Sys2Proof Sys2Proof.Machine

/-- Settles O57: the step's own two cases, and what each part of the passing of time leaves. -/
theorem stepRunsTheFrontCommand : Obligations.StepRunsTheFrontCommand := by
  have idle : ∀ s : State, s.pending = [] → step s = .next s.passTime := by
    intro s h
    simp only [step, h, Machine.idle]
  refine ⟨fun s c cs h => ?_, fun s h => ?_, fun s h hslew hrails hports => ?_⟩
  · simp only [step, h]
  · obtain ⟨hpending, hnow⟩ := s.passTime_spec
    exact ⟨_, idle s h, hpending.trans h, hnow⟩
  · have slewed : s.slewed = { s with now := s.now + 1 } := if_pos hslew
    rw [idle s h, State.passTime, slewed, State.railTick_settled, State.codewords_quiet]
    · exact hports
    · exact hrails

/-- Settles O58: each partition, ring, counter and act slot is as its list was filled; the registers are read at their places. -/
theorem resetLeavesResetValues : Obligations.ResetLeavesResetValues := by
  have still : ∀ p, (State.reset.part p).sec.resetting = false := fun p => by rw [State.part_reset]
  refine ⟨rfl, rfl, rfl, rfl, rfl, rfl, rfl, rfl, fun p _ => ?_, fun q hq => ?_, fun c hc => ⟨?_, ?_⟩, rfl, by decide⟩
  · refine ⟨?_, ?_, ?_, ?_, fun q _ => ?_, fun c _ => ?_, fun n _ => State.counter_reset p n, fun n _ => ?_⟩
    · rw [State.part_reset]
    · rw [State.part_reset]
    · rw [State.part_reset]
    · rw [State.part_reset]
    · rw [State.sq_reset]
    · rw [State.cq_reset]
    · rw [State.act_reset]
  · rw [State.readPage_sq (still 3) hq (by decide) (by decide), State.sq_reset]
    rfl
  · rw [State.readPage_cq (still 3) hc (by decide) (by decide), State.cq_reset]
    rfl
  · rw [State.readPage_cq (still 3) hc (by decide) (by decide), State.cq_reset]
    rfl

end

/-! SUPPORT. The management chain (R475 to R486): what an addressed target does with a common command code and with a message. -/

namespace Sys2Proof.Machine

section
variable {s : State} {a : Nat}

/-- The chain logic answers at its dynamic address. -/
theorem State.addressed_of (hup : s.chainUp = true) (ha : s.boot.dynAddr = some a) : s.addressed a = true := by
  simp [State.addressed, hup, ha]

/-- A code that returns bytes returns them at the address. -/
theorem State.ccc_addressed (h : s.addressed a = true) (bytes : List Byte) : s.ccc a bytes = s.bus (some bytes) := by
  simp [State.ccc, h]

/-- A length of 64 to 256 bytes is set at the address and by broadcast. -/
theorem State.setLen_taken {len : Nat} (hup : s.chainUp = true) (ha : s.boot.dynAddr = some a ∨ a = broadcast) (hlo : 64 ≤ len)
    (hhi : len ≤ 256) (f : Boot → Boot) : s.setLen a len f = ({ s with boot := f s.boot } : State).bus (some []) := by
  refine if_pos ?_
  rcases ha with ha | rfl
  · simp [State.addressed, hup, ha, hlo, hhi]
  · simp [hup, hlo, hhi]

/-- A message at the address is carried out and acknowledged. -/
theorem State.message'_addressed (h : s.addressed a = true) (f : State → State) : s.message' a f = (f s).bus (some []) := if_pos h

/-- A read of the module gives the pending response, which no command but MONITOR_OUT takes anew. -/
theorem execChainPrivateRead_pending {cmd : Nat} {data : List Byte} (h : s.addressed a = true) (hp : s.boot.pendResp.getD (0, []) = (cmd, data))
    (hcmd : cmd ≠ 0x41) : execChainPrivateRead a s = .next { s with boot := { s.boot with
      pendResp := none
      busReply := some (toLe 1 cmd ++ toLe 1 data.length ++ data ++
        [chainCheck a 1 (toLe 1 cmd ++ toLe 1 data.length ++ data)]) } } := by
  have kept : s.takeResponse (cmd, data) = (s, data) := by simp [State.takeResponse, hcmd]
  refine congrArg _ ((if_pos h).trans ?_)
  simp only [hp, kept]
  rfl

end

/-- The review of expulsion touches of the boot block the alert's causes alone. -/
theorem State.checkExpel_boot (s : State) : ∃ c, s.checkExpel.boot = { s.boot with causes := c } := by
  unfold State.checkExpel
  split
  all_goals try exact ⟨_, rfl⟩
  all_goals
    split
    · split <;> exact ⟨_, rfl⟩
    · exact ⟨_, rfl⟩

end Sys2Proof.Machine

section
open Sys2Proof Sys2Proof.Machine

/-- Settles O1: each code's answer where the chain logic answers. -/
theorem chainCodesComplete : Obligations.ChainCodesComplete := by
  refine ⟨fun s dyn us hup hnone hus hlo hhi => ?_, fun s hup => ?_, fun s a dyn => rfl, fun s on ev hup => ?_, fun s a hup ha => ?_,
    fun s a len hup ha hlo hhi => ⟨?_, ?_⟩⟩
  · have taken : (s.chainUp && 0x50 = 0x50 && s.boot.dynAddr.isNone && us ≥ 1000 && 0x08 ≤ dyn && dyn ≤ 0x37) = true := by
      simp [hup, hnone, hus, hlo, hhi]
    have eni : decide (0 < us) = true := decide_eq_true (by omega)
    refine congrArg _ ((if_pos taken).trans ?_)
    rw [eni]
    rfl
  · exact congrArg _ (if_pos hup)
  · exact congrArg (fun r => Host.Outcome.next (s.bus r)) (if_pos hup)
  · have h := State.addressed_of hup ha
    have pid : s.pid = 0x3A5 * 2 ^ 33 + 0x0828 * 2 ^ 16 + (a - 8) := by simp [State.pid, State.position, ha]
    refine ⟨?_, ?_, ?_, ?_, ?_, ?_⟩
    · exact congrArg _ (State.ccc_addressed h _)
    · exact congrArg _ (State.ccc_addressed h _)
    · exact congrArg _ (State.ccc_addressed h _)
    · exact congrArg _ (State.ccc_addressed h _)
    · rw [← pid]
      exact congrArg _ (State.ccc_addressed h _)
    · exact congrArg (fun t : State => Host.Outcome.next t.tick) (State.ccc_addressed h _)
  · exact congrArg _ (State.setLen_taken hup ha hlo hhi _)
  · exact congrArg _ (State.setLen_taken hup ha hlo hhi _)

/-- Settles O2: each message's effect at the target's address, and the response that a read of the module gives. -/
theorem chainMessagesComplete : Obligations.ChainMessagesComplete := by
  refine ⟨fun s a hup ha => ⟨?_, ?_, ?_⟩, fun s a w hup ha hw => ?_, fun s a v hup ha hv hchange => ?_, fun s a v hup ha hv => ?_,
    fun s a hup ha hguard hnone => ?_, fun s a v hup ha hv => ?_, fun s a data hup ha hmon hlo hhi => ?_, fun s a m hup ha hcheck => ?_,
    fun s a m hup ha hcheck hbad => ?_, fun s a cmd data hup ha hp hcmd => ?_, fun s a hup ha hp => ?_⟩ <;>
    have h := State.addressed_of hup ha
  · exact congrArg _ (State.message'_addressed h _)
  · exact congrArg _ (State.message'_addressed h _)
  · exact congrArg _ (State.message'_addressed h _)
  · refine congrArg _ ((State.message'_addressed h _).trans ?_)
    rw [Nat.mod_eq_of_lt hw]
  · refine congrArg _ ((State.message'_addressed h _).trans ?_)
    have changes : s.boot.outOfService ≠ decide (v = 1) := by
      rw [hchange]
      obtain rfl | rfl := Nat.le_one_iff_eq_zero_or_eq_one.mp hv <;> decide
    dsimp only
    rw [if_neg (Nat.not_lt.mpr hv), if_neg changes]
    rfl
  · obtain ⟨c, hboot⟩ := ({ s with boot := { s.boot with spareEmpty := decide (v = 1) } } : State).checkExpel_boot
    refine ⟨_, congrArg Host.Outcome.next (State.message'_addressed h _), ?_, rfl⟩
    rw [if_neg (Nat.not_lt.mpr hv)]
    exact congrArg Boot.spareEmpty hboot
  · have announced : s.askReset = _ := (if_pos hguard).trans (State.announceReset_none hnone)
    refine ⟨_, congrArg Host.Outcome.next (State.message'_addressed h _), ?_, ?_⟩
    · rw [if_pos rfl, announced]
      rfl
    · rw [if_pos rfl, announced]
      rfl
  · refine congrArg _ ((State.message'_addressed h _).trans ?_)
    have clean : v % 256 &&& 0xF9 = 0 := by
      simp only [List.mem_cons, List.not_mem_nil, or_false] at hv
      obtain rfl | rfl | rfl | rfl := hv <;> decide
    dsimp only
    rw [if_pos clean]
    rfl
  · have right : (data.isEmpty || decide (data.length > 64)) = false := by
      cases data with
      | nil => cases hlo
      | cons b bs => simpa using hhi
    refine ⟨_, congrArg Host.Outcome.next (State.message'_addressed h _), rfl, ?_⟩
    simp only [right, hmon, State.bus, Bool.false_eq_true, if_false, if_true]
  · refine congrArg _ ((State.message'_addressed h _).trans ?_)
    simp only [bne_iff_ne, ne_eq, hcheck, not_false_eq_true, if_true]
    rfl
  · refine congrArg _ ((State.message'_addressed h _).trans ?_)
    simp only [hcheck, hbad, bne_self_eq_false, Bool.false_eq_true, if_false]
    rfl
  · exact execChainPrivateRead_pending h (by simp [hp]) hcmd
  · have hread := execChainPrivateRead_pending (data := []) h (by rw [hp]; rfl) (by decide : (0 : Nat) ≠ 0x41)
    refine hread.trans ?_
    simp [hp, toLe]

end

/-! SUPPORT. The shared checks of a descriptor (R257), and the rows that fail them. -/

namespace Sys2Proof.Machine

section
variable {s : State} {p : Nat} {d : Desc}

/-- A predecessor that failed ends its successor first (R256). -/
theorem State.checks_of_predStatus {n st : Nat} (hc : d.chain = true) (hp : d.pred = some n) (hst : d.predStatus = some st)
    (hbad : statusGood st = false) : s.checks p d = some (.status stChainAborted 0) := by
  simp [State.checks, Desc.chainFails, hc, hp, hst, hbad]

/-- Without a predecessor no chain fails. -/
theorem Desc.chainFails_free (h : d.chain = false ∨ d.pred = none) : d.chainFails = false := by
  rcases h with h | h <;> simp [Desc.chainFails, h]

end

/-- A row of one opcode that fails a shared check: its command, whatever the descriptor's opcode says. -/
theorem State.RowFails.ofOp {s : State} {r : DescRef} {d : Desc} {f : Fail} {c : Instr} {op : Nat}
    (h : s.RowFails r d f (c, isOp op)) : d.op = op → exec c s = .next (s.failDesc r.part d f) :=
  fun hop => h (beq_iff_eq.mpr hop)

end Sys2Proof.Machine

section
open Sys2Proof Sys2Proof.Machine

/-- Settles O10: the rows' shared course up to the check that fails, and the first checks of R257. -/
theorem firstFailedCheckCompletes : Obligations.FirstFailedCheckCompletes := by
  refine ⟨fun s r d f c op hrow hfetched hop hunstarted hmay hchecks => ?_, fun s p d n st hc hp hst h0 h1 => ?_,
    fun s p d hfree hop hbyte => ?_, fun s p d hfree hstatic hlo hhi hring => ?_⟩
  · have h : s.FailsChecks r d f := ⟨hfetched, hunstarted, hmay, hchecks⟩
    suffices rows : ∀ row ∈ (_ : List (Instr × Nat)), d.op = row.2 → exec row.1 s = .next (s.failDesc r.part d f) from rows (c, op) hrow hop
    simp only [List.forall_mem_cons]
    exact ⟨(h.run rfl).ofOp, (h.run rfl).ofOp, (h.run rfl).ofOp, (h.start rfl).ofOp, (h.start rfl).ofOp, (h.start rfl).ofOp,
      (h.start rfl).ofOp, (h.start rfl).ofOp, (h.run rfl).ofOp, (h.run rfl).ofOp, (h.run rfl).ofOp, (h.run rfl).ofOp, (h.run rfl).ofOp,
      (h.run rfl).ofOp, (h.run rfl).ofOp, (h.run rfl).ofOp, (h.run rfl).ofOp, (h.run rfl).ofOp, (h.run rfl).ofOp, (h.run rfl).ofOp,
      (h.run rfl).ofOp, (h.run rfl).ofOp, (h.run rfl).ofOp, (h.run rfl).ofOp, (h.start rfl).ofOp, (h.start rfl).ofOp,
      (h.start rfl).ofOp, (h.start rfl).ofOp, (h.start rfl).ofOp, List.forall_mem_nil _⟩
  · exact State.checks_of_predStatus hc hp hst (by simp [statusGood, stOk, stOkFlagged, h0, h1])
  · have static : staticFail d.act.isSome d.bytes = some (.status 0x10 0) := by
      rw [hbyte] at hop
      simp [staticFail, hop, stBadOpcode]
    simp [State.checks, Desc.chainFails_free hfree, static]
  · have admin : isAdmin d.op = true := by simp [isAdmin, hlo, hhi]
    have outside : onAdminRing p d = false := by
      rcases hring with h | h <;> simp [onAdminRing, h]
    simp [State.checks, Desc.chainFails_free hfree, hstatic, admin, outside, stAccessDenied]

end

/-! SUPPORT. The control commands (R259 to R266). -/

namespace Sys2Proof.Machine

/-- EVENT_SIGNAL's operations, by OP (R261). -/
theorem signalled_eq (op v : Nat) (old : BitVec 64) (hv : v < 2 ^ 64) : signalled op old (BitVec.ofNat 64 v) =
    (if op = 0 then old + BitVec.ofNat 64 v
     else if op = 1 then BitVec.ofNat 64 v
     else if old.toNat < v then BitVec.ofNat 64 v else old) := by
  have val : (BitVec.ofNat 64 v).toNat = v := Nat.mod_eq_of_lt hv
  match op with
  | 0 => rfl
  | 1 => rfl
  | n + 2 =>
    rw [if_neg (Nat.succ_ne_zero _), if_neg (by omega)]
    simp only [signalled, val]

/-- A timer that stands at an absolute time waits for it, another for its own length (R262). -/
theorem timerTarget_absolute {d : Desc} (h : d.fld 16 1 = 1) (t : Nat) : timerTarget d t = d.fld 24 8 := if_pos h

theorem timerTarget_relative {d : Desc} (h : d.fld 16 1 = 0) (t : Nat) : timerTarget d t = t + d.fld 24 8 := if_neg (by simp [h])

end Sys2Proof.Machine

section
open Sys2Proof Sys2Proof.Machine

/-- Settles O11: the shared course of each row, and what each row's own step does once it has started. -/
theorem controlCommandsComplete : Obligations.ControlCommandsComplete := by
  refine ⟨fun s u r d h hu => ⟨fun hop => ?_, fun hop => ?_, fun hop hx => ?_, fun hop hx => ?_⟩,
    fun s r d c v h hop hc hv hlt heng => ?_, fun s r d v h hop heng hv hholds => ?_, fun s r d h hop heng hholds => ?_,
    fun s r d t hfetched hop hst hne hle => ?_, fun s r d h hop heng habs => ?_, fun s r d h hop heng hrel hne => ?_,
    fun s r d t hfetched hop hst hle => ?_, fun s r d hfetched hop hun hchain hmay => ?_,
    fun s r d a h hop heng hmode hfree hread hread' => ?_, fun s r d h hop hbusy hmode => ?_, fun s r d h hop heng hbusy => ?_,
    fun s r d h hop hfree => ?_⟩
  · exact h.exec_run rfl (isOp_of hop) rfl hu.symm rfl
  · exact h.exec_run rfl (isOp_of hop) rfl hu.symm rfl
  · exact h.exec_run rfl (isOp_of hop) rfl hu.symm (congrArg okDone (if_pos hx))
  · exact h.exec_run rfl (isOp_of hop) rfl hu.symm (congrArg okDone (if_neg (by simp [bitOf, hx])))
  · refine ⟨_, rfl, (h.exec_start rfl (isOp_of hop) rfl).trans ?_⟩
    have val : signalled (d.fld 17 1) ((s.started r.part d).counter r.part (d.fld 16 1)) (BitVec.ofNat 64 (d.fld 24 8)) = v := by
      rw [State.counter_started _ _ _ _ heng, signalled_eq _ _ _ hlt, hv, hc]
    dsimp only
    rw [val, ← hc]
  · have holds : waitHolds d (s.counter r.part (d.fld 16 1)) = true := hv ▸ hholds
    refine (h.exec_start (i := .eventWait r) rfl (isOp_of hop) (by simp [holds])).trans ?_
    dsimp only
    rw [State.counter_started _ _ _ _ heng, if_pos holds, hv]
  · by_cases hroom : (s.waiters r.part).length < 4096
    · refine (h.exec_start (i := .eventWait r) rfl (isOp_of hop) (by simpa [hholds] using hroom)).trans ?_
      dsimp only
      rw [State.counter_started _ _ _ _ heng, if_neg (by simp [hholds]), if_pos hroom]
    · rw [if_neg hroom]
      exact h.exec_barred rfl (isOp_of hop) (by simpa [hholds, stBusy] using hroom)
  · have ends : (isOp 0x04 d && d.startedAt.isSome && d.fld 32 8 != 0 && s.now ≥ d.fld 32 8) = true := by
      simp [isOp, hop, hst, hne, hle]
    change execEventWaitDeadline r s = _
    simp only [execEventWaitDeadline, hfetched, ends, if_true]
    rfl
  · refine (h.exec_start (i := .timerWait r) rfl (isOp_of hop) rfl).trans ?_
    rw [timerTarget_absolute habs, State.now_started _ _ _ heng]
  · refine (h.exec_start (i := .timerWait r) rfl (isOp_of hop) rfl).trans ?_
    rw [timerTarget_relative hrel, if_neg (by omega)]
  · have ends : (isOp 0x05 d && s.now ≥ timerTarget d t) = true := by
      simp only [isOp, hop, beq_self_eq_true, Bool.true_and, decide_eq_true_eq]
      exact hle
    change execTimerWaitExpiry r s = _
    simp only [execTimerWaitExpiry, hfetched, hst, ends, if_true]
  · have static : staticFail d.act.isSome d.bytes = some (.status 0x10 0) := by
      have undefd : opInfo (byteAt d.bytes 0) = none := hop
      simp [staticFail, undefd, stBadOpcode]
    have fails : s.FailsChecks r d (.status 0x10 0) := ⟨hfetched, hun, hmay, State.checks_of_staticFail hchain static⟩
    exact fails.run (mine := fun x => (opInfo x.op).isNone) rfl (by simp [hop])
  · have passes : s.actRunCheck r.part d = none := by simp [State.actRunCheck, hfree, hread]
    refine (h.exec_start (i := .actRun r) rfl (isOp_of hop) passes).trans ?_
    simp only [State.openAct, hread', hmode]
    rfl
  · exact h.exec_barred rfl (isOp_of hop) (by simp [State.actRunCheck, hbusy, stIllegalState])
  · exact (h.exec_start (i := .actStop r) rfl (isOp_of hop) (by simp [hbusy])).trans rfl
  · exact h.exec_barred rfl (isOp_of hop) (by simp [hfree, stIllegalState])

end

/-! SUPPORT. The tensor commands (R267 to R279): a block that passes its checks, and the operation on it. -/

namespace Sys2Proof.Machine

section
variable {s t u : State} {p : Nat} {r : DescRef} {d : Desc} {b : List Byte} {o : Done}
  {bad : Desc → List Byte → List (Bool × Nat)} {run : State → Nat → Desc → List Byte → Except Fail (State × Done)}

/-- A block without an offending byte, and a digest that can be written. -/
theorem tensorCourse_check (bad) (run) (hb : s.paramBlock p d = .ok b) (hd : s.digestReach p d = none) (hbad : firstBad (bad d b) = none) :
    (tensorCourse bad run).check s p d = none := by
  simp [tensorCourse, hb, hbad, hd]

/-- The operation runs on the block. -/
theorem tensorCourse_run (bad) (run) (hb : s.paramBlock p d = .ok b) : (tensorCourse bad run).run s p d = run s p d b := by
  simp only [tensorCourse, hb]
  rfl

/-- A product's block whose mode is right passes likewise. -/
theorem prodCourse_check (bad) (run) {inner : Desc → List Byte → Nat} (hb : s.paramBlock p d = .ok b) (hd : s.digestReach p d = none)
    (hmode : modeBad d (!is16 (slotRec b 0).fmt) (inner d b) = none) (hbad : firstBad (bad d b) = none) :
    (prodCourse bad inner run).check s p d = none := by
  simp [prodCourse, prodCheck, hb, hmode, tensorCourse_check _ _ hb hd hbad]

/-- A row whose course runs on its block and starts plainly, on a ready descriptor whose block passes. -/
theorem State.Ready.exec_block (h : s.Ready r d) {i : Instr} {op : Nat} {c : Course} (hi : exec i s = .next (s.runDesc r (isOp op) c))
    (hop : d.op = op) (hc : c.check s r.part d = none) (ho : c.opens = (tensorCourse bad run).opens)
    (hrun : c.run = (tensorCourse bad run).run) (hu : u = s.started r.part d)
    (hbu : (u.atWork r.part d).paramBlock r.part d = .ok b) (hr : run (u.atWork r.part d) r.part d b = .ok (t, o)) :
    exec i s = .next (u.afterWork t r.part d o) := by
  refine h.exec_run hi (isOp_of hop) hc ?_ ?_
  · rw [ho, hu]
    rfl
  · rw [hrun, tensorCourse_run bad run hbu, hr]

/-- COPY's course, with what a failure leaves. -/
def copyCourse (m : HostRead) : Course :=
  { tensorCourse copyBad (fun s p x b => s.runCopy p x m b) with leaves := State.copyLeft }

/-- COPY from host memory notes the read, COPY from device memory does not. -/
theorem State.Ready.execCopy_eq (h : s.Ready r d) (m : HostRead) (hop : d.op = 0x19) (hb : s.paramBlock r.part d = .ok b)
    (hd : s.digestReach r.part d = none) (hbad : firstBad (copyBad d b) = none) : exec (.copy r m) s = .next
      (if d.srcHost then (s.runDesc r (isOp 0x19) (copyCourse m)).noteHostRead r.part m
       else s.runDesc r (isOp 0x19) (copyCourse m)) := by
  have check : (copyCourse m).check s r.part d = none := tensorCourse_check copyBad (fun s p x b => s.runCopy p x m b) hb hd hbad
  have reaches : s.reaches (copyCourse m) r.part d = true := by
    simp [State.reaches, h.mayStart, h.checks, check]
  change execCopy r m s = _
  simp only [execCopy, h.fetched, h.toEnd, isOp_of hop]
  change Host.Outcome.next (if (true && (true && d.srcHost && s.reaches (copyCourse m) r.part d)) then _ else _) = _
  rw [reaches]
  simp only [Bool.true_and, Bool.and_true]
  rfl

/-- COPY's course on a ready descriptor whose block passes. -/
theorem State.Ready.runDesc_copy (h : s.Ready r d) (m : HostRead) (hop : d.op = 0x19) (hb : s.paramBlock r.part d = .ok b)
    (hd : s.digestReach r.part d = none) (hbad : firstBad (copyBad d b) = none) (hu : u = s.started r.part d)
    (hbu : (u.atWork r.part d).paramBlock r.part d = .ok b) (hr : (u.atWork r.part d).runCopy r.part d m b = .ok (t, o)) :
    s.runDesc r (isOp 0x19) (copyCourse m) = u.afterWork t r.part d o := by
  have run : (copyCourse m).run (u.atWork r.part d) r.part d = .ok (t, o) := by
    rw [copyCourse, tensorCourse_run _ _ hbu, hr]
  exact State.runDesc_done h (isOp_of hop) (tensorCourse_check copyBad (fun s p x b => s.runCopy p x m b) hb hd hbad) hu.symm run

end

end Sys2Proof.Machine

section
open Sys2Proof Sys2Proof.Machine

/-- Settles O12: each row's checks on its block, and its operation's outcome. -/
theorem tensorCommandsComplete : Obligations.TensorCommandsComplete := by
  intro s t u r d b o h hb hd hu hbu
  refine ⟨fun hop hmode hbad hlists hr => ?_, fun hop hmode hbad hr => ?_, fun hop hbad hr => ?_, fun hop hbad hr => ?_,
    fun hop hbad hr => ?_, fun hop hbad hr => ?_, fun hop hbad hr => ?_, fun hop hbad hr => ?_, fun hop hbad hr => ?_,
    fun hop hsrc hbad m hr => ?_, fun hop hsrc hbad m hr => ?_, fun hop hbad hpat hr => ?_, fun hop hbad hr => ?_⟩
  · refine h.exec_block (i := .matmul r) (bad := matmulBad) (run := State.runMatmul) rfl hop ?_ rfl rfl hu hbu hr
    simp [Course.withLists, prodCourse_check matmulBad State.runMatmul (inner := fun _ b => (slotRec b 0).cols) hb hd hmode hbad, hb, hlists]
  · have passes := prodCourse_check convBad State.runConv
      (inner := fun d b => d.geo.kh * d.geo.kw * ((slotRec b 0).cols / d.geo.g)) hb hd hmode hbad
    exact h.exec_block (i := .conv r) (bad := convBad) (run := State.runConv) rfl hop passes rfl rfl hu hbu hr
  · exact h.exec_block (i := .eltwise r) rfl hop (tensorCourse_check _ _ hb hd hbad) rfl rfl hu hbu hr
  · exact h.exec_block (i := .reduce r) rfl hop (tensorCourse_check _ _ hb hd hbad) rfl rfl hu hbu hr
  · exact h.exec_block (i := .norm r) rfl hop (tensorCourse_check _ _ hb hd hbad) rfl rfl hu hbu hr
  · exact h.exec_block (i := .softmax r) rfl hop (tensorCourse_check _ _ hb hd hbad) rfl rfl hu hbu hr
  · exact h.exec_block (i := .convert r) rfl hop (tensorCourse_check _ _ hb hd hbad) rfl rfl hu hbu hr
  · exact h.exec_block (i := .gather r) rfl hop (tensorCourse_check _ _ hb hd hbad) rfl rfl hu hbu hr
  · exact h.exec_block (i := .scatter r) rfl hop (tensorCourse_check _ _ hb hd hbad) rfl rfl hu hbu hr
  · rw [h.execCopy_eq m hop hb hd hbad, hsrc, h.runDesc_copy m hop hb hd hbad hu hbu hr]
    rfl
  · rw [h.execCopy_eq m hop hb hd hbad, hsrc, h.runDesc_copy m hop hb hd hbad hu hbu hr]
    rfl
  · refine h.exec_block (i := .fill r) (bad := fillBad) (run := State.runFill) rfl hop ?_ rfl rfl hu hbu hr
    simp [State.fillCheck, tensorCourse_check fillBad State.runFill hb hd hbad, hb, hpat]
  · exact h.exec_block (i := .digest r) rfl hop (tensorCourse_check _ _ hb hd hbad) rfl rfl hu hbu hr

end

/-! SUPPORT. Partitions and granules (R189, R193, R286, R440, R441). -/

namespace Sys2Proof.Machine

section
variable {s : State} {d : Desc}

/-- A descriptor of PART_STATE with the action is a row's of that action. -/
theorem isAction_of {a : Nat} (hop : d.op = 0x91) (ha : d.fld 17 1 = a) : isAction a d = true := by
  simp [isAction, isOp_of hop, ha]

/-- An action that finds the partition in the state it needs, with no reset under way. -/
theorem State.actionCheck_none {st : PartSt} (hreset : (s.part (d.fld 16 1)).sec.resetting = false)
    (hst : (s.part (d.fld 16 1)).sec.st = st) : s.actionCheck st d = none := by
  simp [State.actionCheck, State.named, hreset, hst]

/-- ADMIT's checks: a configured partition without engines that is admissible and whose engines fit. -/
theorem State.admitCheck_none {p : Nat} (hreset : (s.part (d.fld 16 1)).sec.resetting = false)
    (hst : (s.part (d.fld 16 1)).sec.st = .configured) (heng : (s.part (d.fld 16 1)).engines = [])
    (hadm : s.admissible (d.fld 16 1) = true)
    (hfit : ∀ e, e ∈ (s.part (d.fld 16 1)).sec.engSpecs → s.engineBars (d.fld 16 1) e = none) : s.admitCheck p d = none := by
  simp [State.admitCheck, State.actionCheck_none hreset hst, heng, hadm, List.findSome?_eq_none_iff.mpr hfit]

/-- Reading a granule of the stacked memory after one is changed. -/
theorem State.gran_onGranule {g : Nat} (hg : g < 0x8000) (hlen : g < s.mem.grans.length) (f : Granule → Granule) :
    (s.onGranule g f).gran g = f (s.gran g) := by
  simp only [State.onGranule, State.gran, if_pos hg, getD_updAt, hlen, and_self, if_true]

/-- Zeroing a granule's bytes leaves the granules' owners and places. -/
@[simp] theorem State.gran_zeroGranule (g x : Nat) : (s.zeroGranule g).gran x = s.gran x := rfl

end

end Sys2Proof.Machine

section
open Sys2Proof Sys2Proof.Machine

/-- Settles O13: each action's checks in the state it needs, and what it then does. -/
theorem partitionCommandsComplete : Obligations.PartitionCommandsComplete := by
  refine ⟨fun s t r d b h hop ht hc hread => ?_, fun s t r d k h hop ht hk hreset => ?_, fun s t r d k h hop ha ht hk hst hreset => ?_,
    fun s p hst hadm hacts => ?_, fun s t p hfn hup hreset ht => ?_⟩
  · refine (h.exec_start (i := .partConfig r) rfl (isOp_of hop) hc).trans ?_
    rw [← ht]
    simp only [hread]
  · subst hk ht
    refine ⟨fun ha hst heng hadm hnone hnone' => ?_, fun ha hst heng hadm hfit hsome => ?_, fun ha hst => ?_, fun ha hst => ?_,
      fun ha hst => ?_⟩
    · refine (h.exec_start (i := .partStateAdmit r) rfl (isAction_of hop ha)
        (State.admitCheck_none hreset hst heng hadm (by simp [hnone']))).trans ?_
      simp only [hnone, List.isEmpty_nil, if_true]
    · refine (h.exec_start (i := .partStateAdmit r) rfl (isAction_of hop ha) (State.admitCheck_none hreset hst heng hadm hfit)).trans ?_
      simp only [List.isEmpty_iff, hsome, if_false]
    · exact (h.exec_start (i := .partStateRun r) rfl (isAction_of hop ha) (State.actionCheck_none hreset hst)).trans rfl
    · exact (h.exec_start (i := .partStateQuiesce r) rfl (isAction_of hop ha) (State.actionCheck_none hreset hst)).trans rfl
    · exact (h.exec_start (i := .partStateUnconfigure r) rfl (isAction_of hop ha) (State.actionCheck_none hreset hst)).trans rfl
  · subst hk ht
    change execPartStateReset r s = _
    simp only [execPartStateReset, h.fetched, h.unstarted, Option.isSome_none, Bool.and_false, Bool.false_eq_true, if_false]
    rw [State.startDesc_ready h (isAction_of hop ha) (if_neg (by simpa using hst))]
    simp only [h.toEnd, hreset, Bool.false_and, Bool.false_eq_true, if_false]
  · have done : (decide ((s.part p).sec.st = .quiescing) && (s.part p).fetched.all (fun d => isAdmin d.op) &&
        (s.part p).acts.all (fun a => a.st == .free)) = true := by
      simpa [hst] using And.intro hadm hacts
    exact congrArg _ (if_pos done)
  · rw [ht]
    refine congrArg _ (if_neg ?_)
    simp [hfn, hup, hreset]

/-- Settles O14: the two rows' own steps, and a granule's owner and place once it is granted. -/
theorem granuleCommandsComplete : Obligations.GranuleCommandsComplete := by
  refine ⟨fun s t u r d h hop ht hc hgrant => ?_, fun s t r d h hop ht hc => ?_, fun s t o mode port g sl hg hlen hback hgrant => ?_⟩
  · refine (h.exec_start (i := .memGrant r) rfl (isOp_of hop) hc).trans ?_
    rw [← ht]
    simp only [hgrant, Option.getD_some]
  · rw [ht]
    exact (h.exec_start (i := .memRelease r) rfl (isOp_of hop) hc).trans rfl
  · simp only [State.grantOne, hback, Option.map_some, Option.some.injEq] at hgrant
    rw [← hgrant, State.gran_zeroGranule, State.gran_onGranule hg hlen]
    exact ⟨rfl, rfl, rfl⟩

end

/-! SUPPORT. Engines and tile fences (R63, R286, R512 to R514). -/

namespace Sys2Proof.Machine

/-- The loading tiles of an engine. -/
def State.loadingOf (s : State) (p i : Nat) (e : Engine) : List Nat :=
  e.tiles.filter (fun k => (s.tile k).st == .loading && (s.tile k).engine == some i && (s.tile k).part == some p)

/-- The end of the load that is first in the order of loads (R64). -/
theorem execEngineLoadComplete_next {s : State} {p i : Nat} {e : Engine} (he : s.engine? p i = some e) (hl : s.loadingOf p i e ≠ [])
    (hfirst : s.loads.head? = some (p, i)) (ok : Bool) : execEngineLoadComplete p i ok s = .next (if ok then
      ((s.loadingOf p i e).foldl (fun (u : State) k =>
        (u.onTile k (fun x => { x with st := .idle, release := e.release, image := e.image })).settleFence k)
        (s.onPart p (fun q => { q with engines := q.engines.map (fun (x : Engine) =>
          if x.idx == i then { x with loadedBy := none } else x) }))).loadedFor p e.loadedBy
      else s.loadFailed p e) := by
  have goes : ((s.loadingOf p i e).isEmpty || s.loads.head? != some (p, i)) = false := by
    simp [hl, hfirst]
  unfold State.loadingOf at goes ⊢
  unfold execEngineLoadComplete
  simp only [he, goes]
  cases ok <;> rfl

end Sys2Proof.Machine

section
open Sys2Proof Sys2Proof.Machine

/-- Settles O15: each row's own step, the end of a load, and the end of a tile's oldest item. -/
theorem engineCommandsComplete : Obligations.EngineCommandsComplete := by
  refine ⟨fun s t r d h ht => ⟨fun hop hc => ?_, fun hop hc => ?_, fun hop hact hst => ?_, fun failed hop hact hst => ?_⟩,
    fun s t p i e tiles he hne hfirst htiles ht => ⟨?_, ?_⟩, fun s k p num l hitems hst hrun => ?_⟩
  · rw [ht]
    exact (h.exec_start (i := .engineConfig r) rfl (isOp_of hop) hc).trans rfl
  · rw [ht]
    exact (h.exec_start (i := .engineRelease r) rfl (isOp_of hop) hc).trans rfl
  · rw [ht]
    exact (h.exec_start (i := .tileFence r) rfl (by simp [isOp_of hop, hact]) (by simp [hst])).trans rfl
  · refine (h.exec_start (i := .tileUnfence r failed) rfl (by simp [isOp_of hop, hact]) (by simp [hst])).trans ?_
    rw [← ht]
    rfl
  · rw [ht, htiles]
    exact execEngineLoadComplete_next he (by rwa [htiles] at hne) hfirst true
  · exact execEngineLoadComplete_next he (by rwa [htiles] at hne) hfirst false
  · change execWorkItemComplete k s = _
    simp [execWorkItemComplete, hitems, hst, hrun]

end

namespace Sys2Proof.Machine

/-! ### Keys and firmware (R464 to R471, R492 to R496) -/

section
variable {s : State} {r : DescRef} {d : Desc}

/-- A descriptor of KEY_OP with the sub-operation is a row's of that sub-operation. -/
theorem isKeyOp_of {k : Nat} (hop : d.op = 0x97) (hk : d.fld 17 1 = k) : isKeyOp k d = true := by
  simp [isKeyOp, isOp_of hop, hk]

/-- The checks of a key operation on a partition in a state that it may have, frozen only where that does not matter. -/
theorem State.keyCheck_none {frozenToo : Bool} {legal : PartSec → Bool} (hfrozen : frozenToo = true ∨ (s.part (d.fld 16 1)).sec.frozen = false)
    (hreset : (s.part (d.fld 16 1)).sec.resetting = false) (hlegal : legal (s.part (d.fld 16 1)).sec = true) :
    s.keyCheck frozenToo d legal = none := by
  rcases hfrozen with h | h <;> simp [State.keyCheck, Desc.keyPart, State.named, State.frozenBars, h, hreset, hlegal]

/-- WEIGHT_LOAD's course on the chunks that its command brings. -/
def weightCourse (chunks : List (List Byte)) : Course :=
  { check := State.weightCheck, run := fun t p x => t.weightLoad p x chunks }

/-- FW_STAGE's course on what its command's read of host memory gave. -/
def fwCourse (k : HostRead) : Course :=
  { check := fun t _ x => t.fwStageCheck k x, opens := fun t _ x => t.fwOpen x, run := fun t _ x => t.fwStage k x }

/-- A ready descriptor is ready for a command that runs it to its end. -/
theorem State.Ready.toItsEnd (h : s.Ready r d) {b : Bool} (hb : b = false) : s.Ready { r with startOnly := b } d :=
  ⟨h.fetched, h.unstarted, h.mayStart, h.checks, hb⟩

/-- A ready descriptor whose own checks pass reaches its operation. -/
theorem State.Ready.reaches (h : s.Ready r d) {c : Course} (hc : c.check s r.part d = none) : s.reaches c r.part d = true := by
  simp [State.reaches, h.mayStart, h.checks, hc]

end

end Sys2Proof.Machine

section
open Sys2Proof Sys2Proof.Machine

/-- Settles O16: the checks and the step of each sub-operation, the conversion's two ends, and the course of a package. -/
theorem keyAndFirmwareCommandsComplete : Obligations.KeyAndFirmwareCommandsComplete := by
  refine ⟨fun s t r d k h ht hop hk hreset => ?_, fun s r d chunks t u o h hop hk hfit hup hc hu hr => ?_,
    fun s p f n l hp hprev hn hold => ?_, fun s p f hp hprev hold => ?_, fun s t u r d k o h hop hwhole hc hu hr => ?_,
    fun s t r d h hop hk hc ht => ?_⟩
  · subst hk
    refine ⟨fun ha hst hprev hret => ?_, fun ha hst hprev => ?_, fun ha hfrozen hst => ?_, fun b key ha hfrozen hloads hb hb' hnames => ⟨?_, ?_⟩,
      fun b ha hfrozen hst hb hslot => ?_⟩
    · rw [ht]
      refine (h.exec_start (i := .keyOpRotate r) rfl (isKeyOp_of hop ha) ?_).trans rfl
      have legal : s.keyCheck true d (fun y => y.st.rotates) = none := State.keyCheck_none (.inl rfl) hreset hst
      simp [legal, Desc.keyPart, hprev, hret]
    · rw [ht]
      refine (h.exec_start (i := .keyOpRetire r) rfl (isKeyOp_of hop ha) ?_).trans rfl
      exact State.keyCheck_none (.inl rfl) hreset (by simp [hst, hprev])
    · rw [ht]
      exact (h.exec_start (i := .keyOpClearRetired r) rfl (isKeyOp_of hop ha) (State.keyCheck_none (.inr hfrozen) hreset hst)).trans rfl
    · intro hkey
      refine (h.exec_start (i := .keyOpBindLoad r) rfl (isKeyOp_of hop ha) ?_).trans ?_
      · simp [State.keyCheck_none (.inr hfrozen) hreset hloads, hb]
      · rw [← ht]
        simp only [hb', hnames, hkey]
        rfl
    · intro hkey
      refine (h.exec_start (i := .keyOpBindLoad r) rfl (isKeyOp_of hop ha) ?_).trans ?_
      · simp [State.keyCheck_none (.inr hfrozen) hreset hloads, hb]
      · rw [← ht]
        simp only [hb', hnames, hkey]
        rfl
    · rw [ht]
      refine (h.exec_start (i := .keyOpContentDrop r) rfl (isKeyOp_of hop ha) ?_).trans rfl
      have legal : s.keyCheck false d (fun y => y.st != .unconfigured) = none :=
        State.keyCheck_none (.inr hfrozen) hreset (by simpa using hst)
      simp [legal, hb, chk, firstBad, Nat.not_lt.mpr hslot]
  · have whole : (r.startOnly || !(chunksFit (fieldAt (s.peekVa r.part (d.fld 20 6) 64) 16 8) chunks || !s.host.up)) = false := by
      simp [h.toEnd, hfit]
    have done := State.runDesc_done (c := weightCourse chunks) (h.toItsEnd (b := false) rfl) (isKeyOp_of hop hk) hc hu.symm hr
    change execKeyOpWeightLoad r chunks s = _
    simp only [execKeyOpWeightLoad, h.fetched]
    rw [whole]
    simp only [hup, Bool.not_true, Bool.false_and, Bool.false_eq_true, if_false]
    exact congrArg _ done
  · change execFrameConvert p s = _
    simp [execFrameConvert, Nat.not_le.mpr hp, Option.isSome_iff_ne_none.mp hprev, hold, dropLowest, Nat.not_le.mpr hn]
  · change execFrameConvert p s = _
    simp [execFrameConvert, Nat.not_le.mpr hp, Option.isSome_iff_ne_none.mp hprev, hold, dropLowest]
  · have whole : (r.startOnly || !(fwWhole k (d.fld 32 4) || !s.host.up)) = false := by
      simp [h.toEnd, hwhole]
    have done := State.runDesc_done (c := fwCourse k) (h.toItsEnd (b := false) rfl) (isOp_of hop) hc hu.symm hr
    have reads : s.reaches (fwCourse k) r.part d = true := h.reaches hc
    change execFwStage r k s = _
    simp only [execFwStage, h.fetched]
    rw [whole]
    change Host.Outcome.next (if (true && (isOp 0x98 d && s.reaches (fwCourse k) r.part d)) then _ else _) = _
    rw [isOp_of hop, reads, Bool.and_self, Bool.and_self, if_pos rfl]
    exact congrArg (fun x : State => Host.Outcome.next (x.noteHostRead r.part k)) done
  · refine (h.exec_start (i := .fwActivate r) rfl (isOp_of hop) hc).trans ?_
    simp only [Desc.target, ← ht, hk, if_false]

end

/-! SUPPORT. The KV cache and attention (R293 to R331): a KV command on an attached space in a partition in which no STEP runs. -/

namespace Sys2Proof.Machine

section
variable {s t u w : State} {r : DescRef} {d : Desc} {o : Done} {i : Instr} {mine : Desc → Bool} {off : Nat} {names : Kv → Desc → List Nat}

/-- A KV row's command on a ready descriptor that its own checks pass, where no STEP runs. -/
theorem State.Ready.exec_runKv (h : s.Ready r d) (hrun : (s.part r.part).running = []) {c : Course}
    (hi : exec i s = .next (s.runKv r mine off names c)) (hm : mine d = true) (hc : c.check s r.part d = none)
    (hu : c.opens (s.started r.part d) r.part d = u) (hr : c.run (u.atWork r.part d) r.part d = .ok (t, o)) :
    exec i s = .next (u.afterWork t r.part d o) := by
  rw [hi, State.runKv_ready h hrun hm hc, hu, State.finish_done hr]

variable {k : Kv} {hd : List Byte} {bad : State → Kv → Desc → Option Fail} {go : State → Kv → Desc → State × Done}

/-- The checks of a KV command on an attached space whose header reads. -/
theorem kvCourse_check {p : Nat} (go) (hk : s.kv? p (d.fld off 1 % 16) = some k) (hhd : s.readVa p (s.srcOf p d) 0 k.va 512 = .ok hd)
    (hbad : bad (s.kvNow k) k d = none) : (kvCourse off bad go).check s p d = none := by
  simp [kvCourse, hk, hhd, hbad]

/-- The commit of a KV command, made as it starts. -/
theorem kvCourse_opens {p : Nat} (bad) {v : State} (hk : s.kv? p (d.fld off 1 % 16) = some k) (hgo : go (s.kvNow k) k d = (v, o)) :
    (kvCourse off bad go).opens s p d =
      (v.settle k (s.kvNow k) (s.kvNow k).now).kvOpen p { num := d.num, space := k.space, seqs := [], out := o } := by
  simp only [kvCourse, hk, hgo]

/-- A KV command that commits completes with what its commit gave. -/
theorem State.Ready.exec_kv (h : s.Ready r d) (hrun : (s.part r.part).running = [])
    (hi : exec i s = .next (s.runKv r mine off names (kvCourse off bad go))) (hm : mine d = true)
    (hk : s.kv? r.part (d.fld off 1 % 16) = some k) (hhd : s.readVa r.part (s.srcOf r.part d) 0 k.va 512 = .ok hd)
    (hbad : bad (s.kvNow k) k d = none) (hk' : (s.started r.part d).kv? r.part (d.fld off 1 % 16) = some k) {v : State}
    (hgo : go ((s.started r.part d).kvNow k) k d = (v, o))
    (hw : w = (v.settle k ((s.started r.part d).kvNow k) ((s.started r.part d).kvNow k).now).kvOpen r.part
      { num := d.num, space := k.space, seqs := [], out := o }) :
    exec i s = .next (w.afterWork (w.atWork r.part d) r.part d ((w.atWork r.part d).kvOutcome r.part d.num)) :=
  h.exec_runKv hrun hi hm (kvCourse_check go hk hhd hbad) ((kvCourse_opens bad hk' hgo).trans hw.symm) rfl

/-- The same for a row that no running STEP holds up. -/
theorem State.Ready.exec_kvDesc (h : s.Ready r d) (hi : exec i s = .next (s.runDesc r mine (kvCourse off bad go))) (hm : mine d = true)
    (hk : s.kv? r.part (d.fld off 1 % 16) = some k) (hhd : s.readVa r.part (s.srcOf r.part d) 0 k.va 512 = .ok hd)
    (hbad : bad (s.kvNow k) k d = none) (hk' : (s.started r.part d).kv? r.part (d.fld off 1 % 16) = some k) {v : State}
    (hgo : go ((s.started r.part d).kvNow k) k d = (v, o))
    (hw : w = (v.settle k ((s.started r.part d).kvNow k) ((s.started r.part d).kvNow k).now).kvOpen r.part
      { num := d.num, space := k.space, seqs := [], out := o }) :
    exec i s = .next (w.afterWork (w.atWork r.part d) r.part d ((w.atWork r.part d).kvOutcome r.part d.num)) :=
  h.exec_run hi hm (kvCourse_check go hk hhd hbad) ((kvCourse_opens bad hk' hgo).trans hw.symm) rfl

/-- A row that names no sequence of its space is held up by no STEP. -/
theorem State.runKv_unnamed (hn : ∀ k, names k d = []) (hd : s.desc? r.part r.num = some d) (c : Course) :
    s.runKv r mine off names c = s.runDesc r mine c := by
  simp only [State.runKv, hd, hn]
  cases s.kv? r.part (d.fld off 1 % 16) <;> simp

/-- A sequence number below the space's count is right. -/
theorem seqBad_none {at_ : Nat} (h : d.fld at_ 4 < k.seqMax) : seqBad k d at_ = none := by
  exact if_pos h

/-- A descriptor of KV_FREE with the scope is a row's of that scope. -/
theorem isKvFree_of {scope : Nat} (hop : d.op = 0x45) (hs : d.fld 16 1 = scope) : isKvFree scope d = true := by
  simp [isKvFree, isOp_of hop, hs]

end

end Sys2Proof.Machine

section
open Sys2Proof Sys2Proof.Machine

/-- Settles O17: each command's checks, and its commit on the space. -/
theorem kvSequenceCommandsComplete : Obligations.KvSequenceCommandsComplete := by
  intro s a u b v w r d k hd q h hrun hhd hu ha hb
  subst hu hb ha
  refine ⟨fun n hk hk' hq hlt hw => ⟨fun toks hop hfree htoks hshort hclash hv hn => ?_, fun hop hbad hv hn => ?_,
    fun x hop hst hst' hpool hx hv hn => ?_, fun pages hop hpool hdst hne hsrc hfree hlen hshort hpages hv hn => ?_⟩,
    fun n hk hk' hop hscope hlt hst hv hn hw => ?_⟩
  · subst hq
    refine h.exec_kv (i := .kvLookup r) hrun rfl (isOp_of hop) hk hhd ?_ hk' ?_ hw
    · simp [seqBad_none hlt, hfree, htoks, hshort]
    · rw [hv, hn]
      simp only [hclash, Bool.false_eq_true, if_false]
  · subst hq hv hn
    refine h.exec_kv (i := .kvPark r) hrun rfl (isOp_of hop) hk hhd ?_ hk' rfl hw
    simp [seqBad_none hlt, hbad]
  · subst hq hv hn hx
    refine h.exec_kv (i := .kvResume r) hrun rfl (isOp_of hop) hk hhd ?_ hk' ?_ hw
    · simp [seqBad_none hlt, hst, hpool]
    · simp [hst']
  · subst hq hv hn hpages
    refine h.exec_kv (i := .kvCopy r) hrun rfl (isOp_of hop) hk hhd ?_ hk' ?_ hw
    · rcases hsrc with hsrc | hsrc <;>
        simp [seqBad_none hlt, seqBad_none hdst, hne, hsrc, hfree, Nat.not_lt.mpr hlen, hshort]
    · simp only [hpool, if_true]
  · refine h.exec_kv (i := .kvFreeSeq r) hrun rfl (isKvFree_of hop hscope) hk hhd ?_ hk' ?_ hw
    · simp [seqBad_none hlt, unlessOk, hst]
    · rw [hv, hn]

/-- Settles O18: the whole-space commands' checks and commits, and the expiry of a parked handle. -/
theorem kvSpaceCommandsComplete : Obligations.KvSpaceCommandsComplete := by
  refine ⟨fun s x u w r d k hd h hrun hop hx hk hk' hhd hu => ⟨fun a hscope ha hw => ?_, fun new a b hscope hbusy hnew ha hb hw => ?_⟩,
    fun s u r d k h hop hscope hu hk huse => ?_, fun s u r d k h hop hscope hnone hfmt hbad hu hfmt' => ?_,
    fun s p space q k hk hq hst hruns hle => ?_⟩
  · subst hu hx ha
    exact h.exec_kv (i := .kvFreeAll r) hrun rfl (isKvFree_of hop hscope) hk hhd rfl hk' rfl hw
  · subst hu hx hb ha hnew
    refine h.exec_kvDesc (i := .kvFreeRehash r) rfl (isKvFree_of hop hscope) hk hhd ?_ hk' rfl hw
    simp [unlessOk, hbusy]
  · refine h.exec_run (i := .kvFreeDetach r) rfl (isKvFree_of hop hscope) ?_ hu.symm rfl
    simp [hk, unlessOk, huse]
  · refine h.exec_run (i := .kvFreeFormat r) rfl (isKvFree_of hop hscope) ?_ hu.symm ?_
    · simp [hnone, hfmt, hbad]
    · simp only [hfmt']
      rfl
  · change execKvExpiry p space q s = _
    simp only [execKvExpiry, hk]
    exact congrArg _ (if_pos ⟨hq, hst, hruns, hle⟩)

/-- Settles O19: the append's commit, and the run of an ATTEND in either mode. -/
theorem attentionCommandsComplete : Obligations.AttentionCommandsComplete := by
  refine ⟨fun s a u b v w r d k hd bl f g o l h hop hrun hk hlt hhd hu hc hbl hf ha hk' hbl' hb hg hgo hw => ?_,
    fun s t u r d o h hop hdense hc hu hr => ?_, fun s t u r d k hd o h hop hcache hrun hk hhd hc hu hr => ?_⟩
  · have mod : d.fld 24 1 % 16 = d.fld 24 1 := Nat.mod_eq_of_lt hlt
    subst hu hb ha
    refine h.exec_runKv (i := .kvAppend r) hrun rfl (isOp_of hop) (kvCourse_check (fun s _ _ => (s, {})) (by rwa [mod]) hhd hc) ?_ rfl
    simp only [kvAppendCourse, hk', hbl', hg, hgo, hw]
  · have runs : exec (.attend r) s = .next (s.runDesc r (isOp 0x40) attendCourse) :=
      congrArg Host.Outcome.next (State.runKv_unnamed (fun k => by simp [State.attNames, hdense]) h.fetched attendCourse)
    refine h.exec_run runs (isOp_of hop) ?_ ?_ hr
    · simp only [attendCourse, hdense, Bool.false_eq_true, if_false, hc]
    · simp only [attendCourse, hdense, Bool.false_eq_true, if_false, hu]
  · refine h.exec_runKv (i := .attend r) hrun rfl (isOp_of hop) ?_ ?_ hr
    · simp only [attendCourse, hcache, if_true]
      exact kvCourse_check _ hk hhd hc
    · simp only [attendCourse, hcache, if_true, hu]

end

/-! SUPPORT. Serving, collectives, memory images and the step journal (R282 to R284, R341 to R387). -/

namespace Sys2Proof.Machine

section
variable {s t u : State} {r : DescRef} {d : Desc} {b : List Byte} {o : Done}

/-- A tensor course with lists, on a block and lists that pass. -/
theorem withLists_check {p : Nat} {c : Course} {lists : State → Nat → Desc → List Byte → Option Fail} (hc : c.check s p d = none)
    (hb : s.paramBlock p d = .ok b) (hl : lists s p d b = none) : (c.withLists lists).check s p d = none := by
  simp [Course.withLists, hc, hb, hl]

/-- A CANCEL whose record reads and that no other CANCEL names carries on, or waits for a STEP. -/
theorem State.Ready.execCancel_eq (h : s.Ready r d) (hop : d.op = 0x53) (hnone : s.cancelsOn r.part d.cancelVa = [])
    (hb : s.readVa r.part none 0 d.cancelVa 128 = .ok b) : exec (.cancel r) s = .next
      (if (s.started r.part d).stepOn r.part d then s.started r.part d else (s.started r.part d).cancelNow r.part d) := by
  change execCancel r s = _
  simp only [execCancel, h.fetched, h.unstarted, Option.isSome_none, Bool.and_false, Bool.false_eq_true, if_false]
  rw [State.startDesc_ready h (isOp_of hop) (by simp [hnone, hb])]

/-- What a CANCEL does with the record that it reads (R367). -/
theorem State.cancelNow_eq {p : Nat} (hb : s.readVa p none 0 d.cancelVa 128 = .ok b) : s.cancelNow p d =
    (if (byteAt b 0).testBit 0 then s.complete p d { status := 0x31, result := generatedOf b }
     else ((s.cancelMark p d.cancelVa b).endAction p (d.fld 24 4) (byteAt b 5) (fieldAt b 16 4)
       (s.servingModels p b)).complete p d { result := generatedOf b }) := by
  simp only [State.cancelNow, hb, bitOf, stCancelTooLate]
  rfl

/-- A collective's course with the messages of the other ranks. -/
def collCourse (peers : List RankMsg) : Course :=
  { check := State.collCheck
    opens := fun t p d => match t.group? p (d.fld 24 1) with
      | some g => if (t.ringHolder p g).isNone && t.ringOk g (d.fld 28 4) then t.enterRing p d else t
      | none => t
    run := State.runColl peers }

/-- A collective whose other ranks have sent, and whose turn has come. -/
theorem State.Ready.collective_eq (h : s.Ready r d) {op : Nat} {peers : List RankMsg} {g : Group} (hop : d.op = op)
    (hends : s.collEnds r peers = true) (hc : s.collCheck r.part d = none)
    (hg : (s.started r.part d).group? r.part (d.fld 24 1) = some g) (hring : (s.started r.part d).ringHolder r.part g = none)
    (hseq : (s.started r.part d).ringOk g (d.fld 28 4) = true) (hu : u = (s.started r.part d).enterRing r.part d)
    (hr : State.runColl peers (u.atWork r.part d) r.part d = .ok (t, o)) :
    s.collective r op peers = u.afterWork t r.part d o := by
  have opens : (collCourse peers).opens (s.started r.part d) r.part d = u := by
    simp [collCourse, hg, hring, hseq, hu]
  exact State.runDesc_done (c := collCourse peers) (h.toItsEnd (b := r.startOnly || !s.collEnds r peers) (by simp [h.toEnd, hends]))
    (isOp_of hop) hc opens hr

/-- An image's row with a CRC context that is free. -/
theorem State.Ready.ckRun_eq (h : s.Ready r d) {op : Nat} {run : State → Nat → Desc → Except Fail (State × Done)} (hop : d.op = op)
    (hfree : s.ckFree r.part d = true) (hc : s.ckCheck r.part d = none) (hu : u = (s.started r.part d).ckBind r.part d)
    (hr : run ((u.atWork r.part d).ckBind r.part d) r.part d = .ok (t, o)) : s.ckRun r op run = u.afterWork t r.part d o := by
  have there : (r.startOnly || !(match s.desc? r.part r.num with | some d => s.ckFree r.part d | none => true)) = false := by
    simp [h.toEnd, h.fetched, hfree]
  exact State.runDesc_done (c := ckCourse run) (h.toItsEnd there) (isOp_of hop) hc hu.symm hr

/-- A descriptor of STEP_COMMIT with its END_JOB bit is a row's. -/
theorem isCommit_of {ends : Bool} (hop : d.op = 0x82) (he : (d.fld 16 1).testBit 0 = ends) : isCommit ends d = true := by
  simp [isCommit, isOp_of hop, bitOf, he]

/-- A ready descriptor whose row's own check it fails completes with that failure. -/
theorem State.Ready.runDesc_barred (h : s.Ready r d) {mine : Desc → Bool} {c : Course} {f : Fail} (hm : mine d = true)
    (hc : c.check s r.part d = some f) : s.runDesc r mine c = s.failDesc r.part d f := by
  simp [State.runDesc, h.fetched, hm, h.unstarted, h.mayStart, h.checks, hc]

end

end Sys2Proof.Machine

section
open Sys2Proof Sys2Proof.Machine

/-- Settles O20: the courses of STEP, SAMPLE and VERIFY, and CANCEL's three outcomes. -/
theorem servingCommandsComplete : Obligations.ServingCommandsComplete := by
  refine ⟨fun s t u r d o h hop hc hu hr => ?_, fun s t u r d b o h hb hd hu hbu => ⟨fun hop hbad hl hr => ?_, fun hop hbad hl hr => ?_⟩,
    fun s t r d b c h hop ht hnone hb hb' hstep => ?_, fun s t r d b h hop ht hnone hb hstep => ?_⟩
  · exact h.exec_run (i := .step r) rfl (isOp_of hop) hc hu.symm hr
  · refine h.exec_block (i := .sample r) (bad := sampleBad) (run := State.runSample) rfl hop ?_ rfl rfl hu hbu hr
    exact withLists_check (tensorCourse_check _ _ hb hd hbad) hb hl
  · refine h.exec_block (i := .verify r) (bad := verifyBad) (run := State.runVerify) rfl hop ?_ rfl rfl hu hbu hr
    exact withLists_check (tensorCourse_check _ _ hb hd hbad) hb hl
  · subst ht
    rw [h.execCancel_eq hop hnone hb, hstep, State.cancelNow_eq hb']
    rfl
  · subst ht
    rw [h.execCancel_eq hop hnone hb, hstep, if_pos rfl]

/-- Settles O21: the courses of GROUP_SET, the collectives and the images, an abort's end of collectives, and the journal. -/
theorem collectiveAndCheckpointCommandsComplete : Obligations.CollectiveAndCheckpointCommandsComplete := by
  refine ⟨fun s u r d b h hop hc hu hb => ?_, fun s t a u r d g peers c op o hrow h hop hends hc ha hg hring hseq hu hr => ?_,
    fun s n gid seq hn hown hst => ?_, fun s u t r d o h hop hfree hc hu hr => ?_, fun s u t r d k o h hop hfree hc hu hr => ?_,
    fun s u r d h hop he hu hj hlen => ?_, fun s u r d n h hop he hu hj => ?_, fun s u r d n h hop he hu hj hj' => ?_⟩
  · refine h.exec_run (i := .groupSet r) rfl (isOp_of hop) hc hu.symm ?_
    simp only [hb]
    rfl
  · subst ha
    have ends := h.collective_eq hop hends hc hg hring hseq hu hr
    suffices rows : ∀ row ∈ (_ : List (Instr × Nat)), exec row.1 s = .next (s.collective r row.2 peers) from
      (rows (c, op) hrow).trans (congrArg _ ends)
    simp only [List.forall_mem_cons]
    exact ⟨rfl, rfl, rfl, rfl, rfl, List.forall_mem_nil _⟩
  · refine congrArg _ (if_pos ?_)
    simp [hn, hown, hst]
  · exact congrArg Host.Outcome.next (h.ckRun_eq hop hfree hc hu hr)
  · have reads : s.reaches (ckCourse (State.runRestore k)) r.part d = true := h.reaches hc
    change execRestore r k s = _
    simp only [execRestore, h.fetched, h.toEnd, isOp_of hop, hfree, reads, h.ckRun_eq hop hfree hc hu hr]
    rfl
  · refine h.exec_run (i := .stepCommit r) rfl (isCommit_of hop he) ?_ hu.symm rfl
    simp [hj, hlen]
  · by_cases hlt : n < d.fld 32 8
    · rw [if_pos hlt]
      refine h.exec_run (i := .stepCommit r) rfl (isCommit_of hop he) ?_ hu.symm rfl
      simp [hj, hlt]
    · rw [if_neg hlt]
      refine congrArg Host.Outcome.next (h.runDesc_barred (isCommit_of hop he) ?_)
      simp [hj, stIllegalState, Nat.le_of_not_lt hlt]
  · refine h.exec_run (i := .stepCommitEndJob r) rfl (isCommit_of hop he) ?_ hu.symm ?_
    · simp [hj]
    · simp only [hj', Option.getD_some]

end

/-! SUPPORT. A module reset (R491). -/

namespace Sys2Proof.Machine

/-! ### A module reset -/

/-- Settling a tile's counters changes the tiles and takes free values. -/
theorem State.settleTile_eq (s : State) (t : Nat) : ∃ f n, s.settleTile t = { s with fabric := f, fresh := n } := by
  unfold State.settleTile
  extract_lets x dt d pace beats work
  split <;> exact ⟨_, _, rfl⟩

theorem State.foldl_settleTile_eq (s : State) (l : List Nat) : ∃ f n, l.foldl State.settleTile s = { s with fabric := f, fresh := n } := by
  induction l generalizing s with
  | nil => exact ⟨_, _, rfl⟩
  | cons t l ih =>
    obtain ⟨f, n, h⟩ := ih (s.settleTile t)
    obtain ⟨g, m, ht⟩ := s.settleTile_eq t
    rw [List.foldl_cons, h, ht]
    exact ⟨f, n, rfl⟩

/-- An event changes a partition's event ring alone. -/
theorem State.part_raise (s : State) (p code : Nat) (data : List Byte) (x : Nat) : ∃ e : EvtRing,
    (s.raise p code data).part x = { s.part x with host := { (s.part x).host with evt := e } } := by
  simp only [State.raise, State.raiseAt, State.onEvt, State.onHost, State.part_onPart]
  split <;> exact ⟨_, rfl⟩

/-- The move to GUARD_BOOT changes the start-up block, the own line and the events of the physical function. -/
theorem State.setModule_guardBoot (s : State) : ∃ own b ps, s.setModule .guardBoot =
    { s with boot := b, pair := { s.pair with own := own }, parts := ps } ∧
    b = { s.boot with st := .guardBoot, safeCause := b.safeCause, causes := b.causes } ∧ (s.pair.own = false → own = false) ∧
    ∀ p, ∃ e : EvtRing, ps.getD p {} = { s.part p with host := { (s.part p).host with evt := e } } := by
  unfold State.setModule
  split
  · next h => exact ⟨s.pair.own, s.boot, s.parts, rfl, by rw [← h], id, fun p => ⟨_, rfl⟩⟩
  · refine ⟨_, _, _, rfl, rfl, fun h => by simp [h], fun p => ?_⟩
    exact State.part_raise _ 0 _ _ p

end Sys2Proof.Machine

section
open Sys2Proof Sys2Proof.Machine

/-- Settles O4: the fields of the state that a restart builds, and what the move to GUARD_BOOT leaves of it. -/
theorem moduleResetKeepsWhatR491Names : Obligations.ModuleResetKeepsWhatR491Names := by
  intro s
  obtain ⟨f, n, settled⟩ := s.foldl_settleTile_eq (List.range 64)
  unfold State.moduleReset
  rw [settled]
  extract_lets k u w v t
  obtain ⟨own, b, ps, ht, hb, hown, hps⟩ := v.setModule_guardBoot
  have parts : ∀ p, (t.part p).sec.st = .unconfigured ∧ (t.part p).fetched = [] ∧ (t.part p).kv = [] ∧ (t.part p).journal = [] := by
    intro p
    obtain ⟨e, he⟩ := hps p
    have hv : v.part p = {} := getD_replicate_self (α := Part) 16 p {}
    have htp : t.part p = { v.part p with host := { (v.part p).host with evt := e } } := by simp only [t, ht, State.part, he]
    rw [htp, hv]
    exact ⟨rfl, rfl, rfl, rfl⟩
  simp only [t] at parts ⊢
  rw [ht] at parts ⊢
  have hown' : own = false := hown rfl
  rw [hb, hown']
  exact ⟨rfl, rfl, rfl, rfl, rfl, rfl, rfl, rfl, rfl, rfl, rfl, rfl, rfl, rfl, rfl, rfl, rfl, rfl, rfl, rfl, rfl, rfl, parts⟩
end

/-! SUPPORT. The orders of a route over the mesh and the availability map (R180, R181). -/


namespace Sys2Proof.Machine

/-! ### The orders of a route -/

/-- The orders of a way over the mesh (R180, R181). -/
theorem State.goes_mesh {s : State} {t : Txn} {a b : Nat} {yx c : Bool} {first other : List Nat} (hw : s.wayOf t = .mesh a b yx c)
    (hf : first = (if yx then routeYX a b else routeXY a b)) (ho : other = (if yx then routeXY a b else routeYX a b)) :
    s.goes t = (if !(c || s.avoids t.tag first) && !(c || s.avoids t.tag other) then .refused
      else if (c || s.avoids t.tag first) && s.routeUp first then .reaches (s.queueOf t.pa) false first
      else if (c || s.avoids t.tag other) && s.routeUp other then .reaches (s.queueOf t.pa) true other
      else .waits) := by
  subst hf ho
  simp only [State.goes, hw]

theorem mem_span {i j x : Nat} : x ∈ span i j ↔ (i ≤ x ∧ x ≤ j) ∨ (j ≤ x ∧ x ≤ i) := by
  simp only [span, List.mem_map, List.mem_range, Nat.max_def, Nat.min_def]
  constructor
  · rintro ⟨k, hk, rfl⟩
    split at hk <;> split <;> omega
  · intro h
    refine ⟨x - if i ≤ j then i else j, ?_, ?_⟩ <;> repeat' split
    all_goals omega

theorem mem_routeXY {a b x : Nat} : x ∈ routeXY a b ↔
    (∃ c ∈ span (a % 8) (b % 8), a / 8 * 8 + c = x) ∨ ∃ r ∈ span (a / 8) (b / 8), r * 8 + b % 8 = x := by
  simp only [routeXY, List.mem_append, List.mem_map]

/-- An order by columns first is one by rows first, the other way round. -/
theorem mem_routeYX {a b x : Nat} : x ∈ routeYX a b ↔ x ∈ routeXY b a := by
  simp only [routeYX, routeXY, List.mem_append, List.mem_map, mem_span, or_comm]

/-- A row-first route joins its ends by the corner in the first row, and stays in its two lines of the mesh. -/
theorem routeXY_spec {a b : Nat} (ha : a < 64) (hb : b < 64) :
    a ∈ routeXY a b ∧ b ∈ routeXY a b ∧ a / 8 * 8 + b % 8 ∈ routeXY a b ∧
      ∀ x ∈ routeXY a b, x < 64 ∧ (x / 8 = a / 8 ∨ x % 8 = b % 8) := by
  simp only [mem_routeXY, mem_span]
  refine ⟨.inl ⟨a % 8, by omega, by omega⟩, .inr ⟨b / 8, by omega, by omega⟩, .inl ⟨b % 8, by omega, rfl⟩, ?_⟩
  rintro x (⟨c, hc, rfl⟩ | ⟨r, hr, rfl⟩) <;> omega

end Sys2Proof.Machine

section
open Sys2Proof Sys2Proof.Machine

/-- Settles O33: the choice between the two orders, their lines on the mesh, and the bits of the map. -/
theorem routesFollowTheMap : Obligations.RoutesFollowTheMap := by
  refine ⟨fun s t a b yx c first other hw hf ho => ?_, fun a b ha hb => ?_, fun s => ⟨_, rfl, fun i hi => ?_⟩⟩
  · rw [State.goes_mesh hw hf ho]
    refine ⟨fun h => ?_, fun hc h1 h2 => by simp [hc, h1, h2], fun hc h1 h2 => by simp [hc, h1, h2]⟩
    rcases h with hc | ⟨h1, h2⟩
    · simp [hc]
    · simp [h1, h2]
  · obtain ⟨ha1, hb1, hc1, hin1⟩ := routeXY_spec ha hb
    obtain ⟨hb2, ha2, hc2, hin2⟩ := routeXY_spec hb ha
    simp only [mem_routeYX]
    exact ⟨ha1, hb1, ha2, hb2, hc1, hc2, hin1, fun x hx => (hin2 x hx).imp id Or.symm⟩
  · rw [BitVec.getLsbD_ofNat, testBit_maskOf]
    simp [hi, State.routerUp, State.lit]
    rfl
end

/-! SUPPORT. What becomes of a transaction on the mesh (R180, R181, R183, R184, R446). -/

namespace Sys2Proof.Machine

/-- Where every element passes, none is left. -/
theorem dropWhile_nil {α : Type} {f : α → Bool} {l : List α} (h : ∀ x ∈ l, f x = true) : l.dropWhile f = [] := by
  induction l with
  | nil => rfl
  | cons x l ih =>
    rw [List.dropWhile_cons_of_pos (h x (.head l))]
    exact ih fun y hy => h y (.tail x hy)

/-- A route that is found ends in the queue of its address. -/
theorem State.goes_reaches {s : State} {t : Txn} {i : Nat} {alt : Bool} {route : List Nat} (h : s.goes t = .reaches i alt route) :
    i = s.queueOf t.pa := by
  unfold State.goes at h
  split at h
  · cases h
  · cases h; rfl
  · cases h
  · extract_lets first other okFirst okOther at h
    clear_value first other okFirst okOther
    split at h
    · cases h
    · split at h
      · cases h
        rfl
      · split at h
        · cases h
          rfl
        · cases h

theorem State.launch_waits {s : State} {t : Txn} (h : s.goes t = .waits) :
    s.launch t = { s with mem := { s.mem with waiting := s.mem.waiting ++ [t] } } := by
  simp only [State.launch, h]

/-- A transaction that passes no gate, on a route whose routers are all up, arrives. -/
theorem State.launch_arrives {s : State} {t : Txn} {i : Nat} {alt : Bool} {route : List Nat} (h : s.goes t = .reaches i alt route)
    (hg : t.gate = none) (hup : route.all s.routerUp = true) : s.launch t = s.arrive { t with alt := alt, route := route } := by
  have there : route.dropWhile s.routerUp = [] := dropWhile_nil (List.all_eq_true.mp hup)
  simp [State.launch, h, Flight.gateFirst, hg, State.travel, there, Flight.gateLast]

/-- A transaction that its port admits joins its queue while there is room. -/
theorem State.arrive_queues {s : State} {t : Txn} {alt : Bool} {route : List Nat} (ha : s.admits t.tag t.pa = true)
    (hroom : (s.mem.queued.getD (s.queueOf t.pa) []).length < 1024) : s.arrive { t with alt := alt, route := route } = { s with
      mem := { s.mem with queued := updAt s.mem.queued (s.queueOf t.pa) (fun q => q ++ [{ t with alt := alt, route := route }]) } } := by
  simp only [State.arrive, ha, Bool.not_true, Bool.false_eq_true, if_false]
  exact if_neg (by simp only [Bool.and_eq_true, decide_eq_true_eq, not_and, Nat.not_le]; exact fun _ => hroom)

/-- One whose port's queue is full is held. -/
theorem State.arrive_holds {s : State} {t : Txn} {alt : Bool} {route : List Nat} (ha : s.admits t.tag t.pa = true)
    (hi : s.queueOf t.pa < 16) (hfull : 1024 ≤ (s.mem.queued.getD (s.queueOf t.pa) []).length) :
    s.arrive { t with alt := alt, route := route } = s.holdFlight { txn := { t with alt := alt, route := route }, rest := [] } := by
  simp only [State.arrive, ha, Bool.not_true, Bool.false_eq_true, if_false]
  exact if_pos (by simp only [Bool.and_eq_true, decide_eq_true_eq]; exact ⟨hi, hfull⟩)

/-- One that its port does not take is sent back with the error response. -/
theorem State.arrive_denied {s : State} {t : Txn} {alt : Bool} {route : List Nat} (ha : s.admits t.tag t.pa = false) :
    s.arrive { t with alt := alt, route := route } =
      (s.denied t).sendBack { t with alt := alt, route := route, data := [], refused := true } := by
  simp only [State.arrive, ha, Bool.not_false, if_true]
  rfl

/-- A source that issues in the confined class under another partition's tag is reported and its partition faulted (R446). -/
theorem State.issuePart_discards {s : State} {r : TxnReq} {x : Nat × List Byte} {t : Txn} {a q : Nat}
    (ht : s.translateReq r x.1 x.2 = (s, some t)) (hm : s.mem.mayIssue t = true) (hs : t.src = some a)
    (hq : (s.tile a).part = some q) (hne : q ≠ t.tag) (hc : t.confined = true) :
    s.issuePart r x = ((s.logHealth 6 0 a (s.tilePart a) t.tag).faultPart q, true) := by
  have foreign : ((s.tile a).part == some t.tag) = false := by simp [hq, hne]
  have kept : ((s.logHealth 6 0 a (s.tilePart a) t.tag).tile a).part = some q := hq
  simp only [State.issuePart, ht, hm, hs, foreign, hc, kept, Bool.not_true, Bool.false_eq_true, if_false]

end Sys2Proof.Machine

section
open Sys2Proof Sys2Proof.Machine

/-- Settles O32: the launch of the transaction, by where it goes, and the discard of a foreign tag. -/
theorem meshTransactionsComplete : Obligations.MeshTransactionsComplete := by
  intro s r t hok hv hd ht hm
  obtain ⟨hsrc, htag, hpa, htr⟩ := State.translateReq_phys hv ht
  have made : s.translateReq r r.addr (sliceOf r.data 0 r.len) = (s, some t) := by
    simp only [State.translateReq, hv, Bool.not_false, if_true, Option.some.injEq] at ht ⊢
    rw [ht]
  have fields : t.op = r.op ∧ t.len = r.len ∧ t.data = sliceOf r.data 0 r.len ∧ t.num = s.mem.nextNum r.src := by
    simp only [State.translateReq, hv, Bool.not_false, if_true, Option.some.injEq] at ht
    subst ht
    exact ⟨rfl, rfl, rfl, rfl⟩
  obtain ⟨hop, hlen, hdata, hnum⟩ := fields
  have denied : s.denied t = s.raisePf r.tag 0x43 (toLe 5 r.addr ++ toLe 1 r.tag ++ toLe 1 (srcCode r.src)) := by
    rw [State.denied, hsrc, htag, hpa]
  refine ⟨hsrc, htag, hop, hpa, hlen, hdata, hnum, fun own => ?_, fun a q ha hq hne hc => ?_⟩
  · have launch := exec_meshTransactionIssue_launch hok hd made hm (by rwa [hsrc, htag])
    rw [launch]
    refine ⟨fun h => by rw [State.launch_waits h], fun h => by rw [State.launch_refused h, denied], fun i alt route h hg hup => ?_⟩
    have hi := State.goes_reaches h
    rw [State.launch_arrives h hg hup, ← htag, ← hpa]
    refine ⟨fun hadm hroom => ?_, fun hadm hi16 hfull => ?_, fun hadm => ?_⟩
    · rw [State.arrive_queues hadm (by rwa [← hi]), hi]
    · rw [State.arrive_holds hadm (by rwa [← hi]) (by rwa [← hi])]
      rfl
    · rw [State.arrive_denied hadm, State.denied, hsrc]
  · have discard := State.issuePart_discards (x := (r.addr, sliceOf r.data 0 r.len)) made hm (hsrc.trans ha) hq (htag ▸ hne) hc
    change execMeshTransactionIssue r s = _
    simp only [execMeshTransactionIssue, hok, if_true, txnParts_noDims hd, State.issueAll, discard, htag]
end

/-! SUPPORT. A memory port's access and the words that it decodes (R124, R125, R186, R202, R203). -/

namespace Sys2Proof.Machine

/-! ### The crossing of a port -/

/-- A change that leaves an entry as it is leaves the list as it is. -/
theorem updAt_self {α : Type} {l : List α} {i : Nat} {f : α → α} {d : α} (h : f (l.getD i d) = l.getD i d) : updAt l i f = l := by
  refine List.ext_getElem? fun j => ?_
  rw [updAt, List.getElem?_modify]
  split
  · next e =>
    subst e
    by_cases hl : i < l.length
    · simpa [List.getD, hl] using h
    · simp [hl]
  · simp

theorem State.onCross_onCross (s : State) (i : Nat) (f g : Crossing → Crossing) :
    (s.onCross i f).onCross i g = s.onCross i (g ∘ f) := by
  simp only [State.onCross, updAt, List.modify_modify_eq]

theorem State.onCross_self {s : State} {i : Nat} {f : Crossing → Crossing} (h : f (s.crossing i) = s.crossing i) :
    s.onCross i f = s := by
  have same : updAt s.mem.cross i f = s.mem.cross := updAt_self (d := ({} : Crossing)) h
  rw [State.onCross, same]

theorem State.crossing_onCross {s : State} {i : Nat} (h : i < s.mem.cross.length) (f : Crossing → Crossing) :
    (s.onCross i f).crossing i = f (s.crossing i) := by
  simp only [State.crossing, State.onCross, getD_updAt, h, and_self, if_true]

section
variable {s : State} {i idx : Nat} {t : Txn} {f : Flight} {fs : List Nat}

theorem State.takes_none (h : (s.mem.queued.getD i [])[idx]? = some t)
    (hm : ((s.mem.queued.getD i []).take idx).any (fun y => y.meets t) = true) : s.takes i idx = none := by
  simp only [State.takes, h, hm, if_true]

theorem State.takes_some (h : (s.mem.queued.getD i [])[idx]? = some t)
    (hm : ((s.mem.queued.getD i []).take idx).any (fun y => y.meets t) = false) : s.takes i idx = some t := by
  simp only [State.takes, h, hm, Bool.false_eq_true, if_false]

/-- A transaction that goes to the memory interface over an empty crossing leaves the controller's queue for it. -/
theorem State.toPhy_eq (ht : s.takes i idx = some t) (hc : s.crossing i = {}) (hl : s.lit (domOfTile (rimTile i)) = true)
    (hf : f = { txn := t, rest := [] }) (he : entriesOf 128 [f] ≤ 96) :
    s.toPhy i idx = (s.dequeue i idx).onCross i (fun c => { c with inward := c.inward ++ [f] }) := by
  subst hf
  simp only [State.toPhy, ht, hl, hc, List.nil_append, he, decide_true, Bool.and_true, if_true]

/-- Alone on its crossing it is carried out at the interface and its answer goes onto the crossing back. -/
theorem State.atPhy_eq (hi : i < s.mem.cross.length) (hc : s.crossing i = {}) (hd : s.dramUp i f.txn = true)
    (he : entriesOf 128 [{ f with back := true }] ≤ 96) :
    (s.onCross i (fun c => { c with inward := c.inward ++ [f] })).atPhy i fs = (s.carryOut i f.txn fs).1.onCross i (fun c =>
      { c with outward := c.outward ++ [{ txn := (s.carryOut i f.txn fs).2, rest := [], back := true }] }) := by
  have cross : (s.onCross i (fun c => { c with inward := c.inward ++ [f] })).crossing i = { inward := [f] } := by
    rw [State.crossing_onCross hi, hc]; rfl
  have up : (s.onCross i (fun c => { c with inward := c.inward ++ [f] })).dramUp i f.txn = true := hd
  have taken : (s.onCross i (fun c => { c with inward := c.inward ++ [f] })).onCross i (fun c => { c with inward := [] }) = s := by
    rw [State.onCross_onCross, State.onCross_self (by rw [hc]; rfl)]
  simp only [State.atPhy, cross, up, List.nil_append, he, decide_true, Bool.and_true, if_true, taken]

/-- An answer alone on its crossing is sent back. -/
theorem State.fromPhy_eq (hi : i < s.mem.cross.length) (hc : s.crossing i = {}) (hl : s.lit (domOfTile (rimTile i)) = true) :
    (s.onCross i (fun c => { c with outward := c.outward ++ [f] })).fromPhy i = s.sendBack f.txn := by
  have cross : (s.onCross i (fun c => { c with outward := c.outward ++ [f] })).crossing i = { outward := [f] } := by
    rw [State.crossing_onCross hi, hc]; rfl
  have lit : (s.onCross i (fun c => { c with outward := c.outward ++ [f] })).lit (domOfTile (rimTile i)) = true := hl
  have taken : (s.onCross i (fun c => { c with outward := c.outward ++ [f] })).onCross i (fun c => { c with outward := [] }) = s := by
    rw [State.onCross_onCross, State.onCross_self (by rw [hc]; rfl)]
  simp only [State.fromPhy, lit, if_true, cross, List.foldl_cons, List.foldl_nil, taken]

/-! ### Words -/

/-- A word that is clean, or poisoned already, is decoded without a trace. -/
theorem State.decodeWord_clean {w : Nat} (h : s.verdict w fs = .clean) : s.decodeWord i w fs = s := by
  simp only [State.decodeWord, h, ite_self]

theorem State.foldl_decodeWord_clean {ws : List Nat} (h : ∀ w ∈ ws, s.verdict w fs = .clean) :
    ws.foldl (fun (a : State) w => a.decodeWord i w fs) s = s := by
  induction ws with
  | nil => rfl
  | cons w ws ih =>
    rw [List.foldl_cons, State.decodeWord_clean (h w List.mem_cons_self)]
    exact ih fun x hx => h x (List.mem_cons_of_mem _ hx)

end

/-- What the accounts of a frame keep of the memory: its bytes, its poisoned words and the counters of its ports. -/
structure State.KeepsWords (s t : State) : Prop where
  cells : t.mem.cells = s.mem.cells
  poison : t.mem.poison = s.mem.poison
  ports : t.mem.ports = s.mem.ports
  bchans : t.mem.bchans = s.mem.bchans

theorem State.KeepsWords.trans {s t u : State} (h : s.KeepsWords t) (k : t.KeepsWords u) : s.KeepsWords u :=
  ⟨k.cells.trans h.cells, k.poison.trans h.poison, k.ports.trans h.ports, k.bchans.trans h.bchans⟩

theorem State.KeepsWords.of_mem {s t : State} (h : t.mem = s.mem) : s.KeepsWords t := by
  constructor <;> rw [h]

theorem State.KeepsWords.port {s t : State} (h : s.KeepsWords t) (i : Nat) : t.mem.port i = s.mem.port i := by
  simp only [MemSys.port, h.ports, h.bchans]

theorem State.onOwnerMem_mem (s : State) (pa : Nat) (f : PartMem → PartMem) : (s.onOwnerMem pa f).mem = s.mem := by
  unfold State.onOwnerMem; split <;> rfl

theorem State.raiseMem_mem (s : State) (code pa : Nat) : (s.raiseMem code pa).mem = s.mem := by
  unfold State.raiseMem; split <;> simp

theorem State.onGran_keepsWords (s : State) (pa : Nat) (f : Granule → Granule) : s.KeepsWords (s.onGran pa f) := by
  unfold State.onGran
  split <;> exact ⟨rfl, rfl, rfl, rfl⟩

theorem State.retireFrame_keepsWords (s : State) (pa : Nat) (ws : List Nat) : s.KeepsWords (s.retireFrame pa ws) := by
  unfold State.retireFrame
  extract_lets frame was u
  have gran : s.KeepsWords u := s.onGran_keepsWords _ _
  split
  · exact gran
  · exact gran.trans (.of_mem (by rw [State.raiseMem_mem, State.onOwnerMem_mem]))

theorem State.logMem_mem (s : State) (i pa : Nat) : (s.logMem i pa).mem = s.mem := by simp [State.logMem]

/-- A change of the counters of a port. -/
theorem MemSys.port_onPort {m : MemSys} {i : Nat} (hi : i < 24) (hp : m.ports.length = 16) (hb : m.bchans.length = 8)
    (f : MemPort → MemPort) : (m.onPort i f).port i = f (m.port i) := by
  by_cases h : i < 16
  · simp only [MemSys.onPort, MemSys.port, h, if_true, getD_updAt, hp, and_self]
  · have hc : i - 16 < m.bchans.length := by omega
    simp only [MemSys.onPort, MemSys.port, h, if_false, getD_updAt, hc, and_self, if_true]

theorem MemSys.onPort_poison (m : MemSys) (i : Nat) (f : MemPort → MemPort) : (m.onPort i f).poison = m.poison := by
  unfold MemSys.onPort; split <;> rfl

theorem MemSys.mem_poisonWord (m : MemSys) (w : Nat) : wordOf w ∈ (m.poisonWord w).poison := by
  unfold MemSys.poisonWord
  split
  · next h => exact List.contains_iff_mem.mp h
  · exact List.mem_cons_self

theorem MemSys.poisonWord_ports (m : MemSys) (w : Nat) : (m.poisonWord w).ports = m.ports ∧ (m.poisonWord w).bchans = m.bchans := by
  unfold MemSys.poisonWord
  split <;> exact ⟨rfl, rfl⟩

theorem MemSys.poisoned_of_mem {m : MemSys} {w : Nat} (h : wordOf w ∈ m.poison) : m.poisoned w = true := by
  simp [MemSys.poisoned, h]

/-- A corrected word changes counters and frames, and no byte. -/
theorem State.wordCorrected_keeps (s : State) (i pa n : Nat) :
    ({ s with mem := s.mem.onPort i (fun q => { q with corr := satTo 16 (q.corr + n) }) } : State).KeepsWords (s.wordCorrected i pa n) := by
  unfold State.wordCorrected
  extract_lets w t u v seen m x here
  have htv : t.KeepsWords v := .of_mem (State.onOwnerMem_mem _ _ _)
  have htx : t.KeepsWords x := htv.trans ⟨rfl, rfl, rfl, rfl⟩
  split
  · exact htx
  · refine htx.trans (State.KeepsWords.trans (.of_mem ?_) (State.retireFrame_keepsWords _ _ _))
    split
    · rfl
    · exact State.logMem_mem _ _ _

/-- A lost word is poisoned and counted, and no byte changes. -/
theorem State.wordLost_keeps (s : State) (i pa : Nat) :
    ({ s with mem := (s.mem.poisonWord (wordOf pa)).onPort i (fun q => { q with uncorr := satTo 8 (q.uncorr + 1) }) } :
      State).KeepsWords (s.wordLost i pa) := by
  unfold State.wordLost
  extract_lets w t u v
  have htv : t.KeepsWords v := .of_mem (State.onOwnerMem_mem _ _ _)
  exact htv.trans (State.KeepsWords.trans (.of_mem (by rw [State.logMem_mem, State.raiseMem_mem])) (State.retireFrame_keepsWords _ _ _))

/-! ### Carrying an access out -/

section
variable {s u : State} {i : Nat} {t : Txn} {fs : List Nat}

theorem State.carryOut_denied (hi : i < 24) (hu : u = s.progress (portUnit i).1 (portUnit i).2) (ha : u.admits t.tag t.pa = false) :
    s.carryOut i t fs = (u.denied t, { t with data := [], refused := true }) := by
  subst hu
  simp only [State.carryOut, hi, ha, if_true, Bool.not_false]

/-- An access that its port admits, of an epoch that is not retired. -/
theorem State.carryOut_admitted (hi : i < 24) (hu : u = s.progress (portUnit i).1 (portUnit i).2) (ha : u.admits t.tag t.pa = true)
    (hr : t.tag < 16 → u.retiredEpoch t.tag t.pa = false) :
    (t.op = .write → s.carryOut i t fs = ({ u with mem := u.mem.store t.pa t.data }, t)) ∧
    (t.op = .read → (u.mem.port i).avail = true → (∀ w ∈ wordsOf t.pa t.len, u.verdict w fs = .clean) →
      s.carryOut i t fs = (u, { t with
        data := u.mem.cells.read t.pa t.len, poisoned := (wordsOf t.pa t.len).any u.mem.poisoned })) := by
  subst hu
  have fresh : ¬(decide (t.tag < 16) && (s.progress (portUnit i).1 (portUnit i).2).retiredEpoch t.tag t.pa) = true := by
    simpa only [Bool.and_eq_true, decide_eq_true_eq, not_and, Bool.not_eq_true] using hr
  refine ⟨fun hop => ?_, fun hop hav hclean => ?_⟩
  · simp only [State.carryOut, hi, if_true, ha, Bool.not_true, Bool.false_eq_true, if_false, fresh, hop]
  · have dram : ¬i ≥ 24 := by omega
    simp only [State.carryOut, hi, if_true, ha, Bool.not_true, Bool.false_eq_true, if_false, fresh, hop, dram, hav,
      State.foldl_decodeWord_clean hclean]

end

end Sys2Proof.Machine

section
open Sys2Proof Sys2Proof.Machine

/-- Settles O34: the queues of the bulk tier, the crossing of a stacked port, the access itself, and the words it decodes. -/
theorem memoryPortAccessCompletes : Obligations.MemoryPortAccessCompletes := by
  refine ⟨fun s i idx fs t x hlo hi ht => ⟨fun hm => ?_, fun hm hd hx => ?_⟩,
    fun s u i idx fs t f x hi hlen hc hl hd he he' ht hm hf hu hx hxc hxl hxlit => ?_,
    fun s u i fs t hi hu => ⟨fun ha => State.carryOut_denied hi hu ha, fun ha hr => State.carryOut_admitted hi hu ha hr⟩,
    fun s i w n fs hi hp hb hw hword => ⟨State.decodeWord_clean, fun hv => ?_, fun hv => ?_⟩,
    fun s i w fs hw => ?_⟩
  · change execMemoryPortAccess i idx fs s = _
    simp only [execMemoryPortAccess, Nat.not_lt.mpr hlo, if_false, State.takes_none ht hm]
  · subst hx
    change execMemoryPortAccess i idx fs s = _
    simp only [execMemoryPortAccess, Nat.not_lt.mpr hlo, if_false, State.takes_some ht hm, hi, if_true, hd, Bool.not_true,
      Bool.false_eq_true]
    rfl
  · have there : i < u.mem.cross.length := by rw [hu]; exact hlen
    have empty : u.crossing i = {} := by rw [hu]; exact hc
    have up : u.dramUp i f.txn = true := by rw [hu, hf]; exact hd
    have dequeued : s.dequeue i idx = u := hu.symm
    have carried : u.carryOut i f.txn fs = x := by rw [hf, hx]
    have there' : i < x.1.mem.cross.length := by rw [hxl]; exact hlen
    refine congrArg Host.Outcome.next ?_
    rw [if_pos hi, State.toPhy_eq (State.takes_some ht hm) hc hl hf he, dequeued, State.atPhy_eq there empty up he', carried,
      State.fromPhy_eq there' hxc hxlit]
  · have keeps := s.wordCorrected_keeps i w (if i < 16 then 1 else n)
    have made : s.decodeWord i w fs = s.wordCorrected i w (if i < 16 then 1 else n) := by
      simp only [State.decodeWord, hw, hv, Bool.false_eq_true, if_false]
    rw [made, keeps.cells, keeps.port i]
    exact ⟨MemSys.onPort_cells _ _ _, by rw [MemSys.port_onPort hi hp hb]⟩
  · have keeps := s.wordLost_keeps i w
    have made : s.decodeWord i w fs = s.wordLost i w := by
      simp only [State.decodeWord, hw, hv, Bool.false_eq_true, if_false]
    rw [hword] at keeps
    rw [made, keeps.cells, keeps.port i]
    refine ⟨by simp, ?_, ?_⟩
    · obtain ⟨hports, hchans⟩ := s.mem.poisonWord_ports w
      have same : (s.mem.poisonWord w).port i = s.mem.port i := by rw [MemSys.port, MemSys.port, hports, hchans]
      rw [MemSys.port_onPort hi (by rw [hports, hp]) (by rw [hchans, hb]), same]
    · refine MemSys.poisoned_of_mem ?_
      rw [keeps.poison, MemSys.onPort_poison]
      exact MemSys.mem_poisonWord _ _
  · simp only [State.decodeWord, hw, if_true]
end

/-! SUPPORT. Accesses of BAR0 and BAR2 and configuration requests (R220, R222, R488). -/

namespace Sys2Proof.Machine

section
variable {s : State} {p off len : Nat} {data : List Byte}

/-- An access of the window that lies in it. -/
theorem exec_bar2Write_eq (hp : p < 16) (hfit : off + data.length ≤ 2 ^ (s.host.bar2Log2.getD p 36)) (ho : s.windowOpen p = true) :
    exec (.bar2Write p off data) s = .next (match s.writeVa p none 0 (s.bar2Va p off) data with
      | .ok t => t
      | .error f => s.note p f) := by
  refine congrArg Host.Outcome.next (if_neg ?_)
  simp only [ho, Nat.not_le.mpr hp, Nat.not_lt.mpr hfit, decide_false, Bool.or_self, Bool.not_true,
    Bool.false_eq_true, not_false_iff]

theorem exec_bar2Write_closed (ho : s.windowOpen p = false) : exec (.bar2Write p off data) s = .next s :=
  congrArg Host.Outcome.next (if_pos (by simp [ho]))

theorem bar2_fits (hf : s.hasFn p = true) (hfit : off + len ≤ 2 ^ (s.host.bar2Log2.getD p 36)) :
    ¬(!s.hasFn p || decide (off + len > 2 ^ (s.host.bar2Log2.getD p 36))) = true := by
  simp only [hf, Nat.not_lt.mpr hfit, decide_false, Bool.or_self, Bool.not_true, Bool.false_eq_true, not_false_iff]

/-- A read of a window that is closed answers with ones. -/
theorem exec_bar2Read_closed (hf : s.hasFn p = true) (hfit : off + len ≤ 2 ^ (s.host.bar2Log2.getD p 36)) (ho : s.windowOpen p = false) :
    exec (.bar2Read p off len) s = .next { s with host := { s.host with bar2Read := some (List.replicate len 0xFF#8, false) } } := by
  refine congrArg Host.Outcome.next ((if_neg (bar2_fits hf hfit)).trans (if_pos ?_))
  rw [ho]
  rfl

/-- A read of a window that is open. -/
theorem exec_bar2Read_open (hf : s.hasFn p = true) (hfit : off + len ≤ 2 ^ (s.host.bar2Log2.getD p 36)) (ho : s.windowOpen p = true) :
    exec (.bar2Read p off len) s = .next (match s.readVa p none 0 (s.bar2Va p off) len with
      | .ok bs => { s with host := { s.host with bar2Read := some (bs, false) } }
      | .error (.poison a) => { s.note p (.poison a) with
          host := { (s.note p (.poison a)).host with bar2Read := some (s.peekVa p (s.bar2Va p off) len, true) } }
      | .error f => { s.note p f with
          host := { (s.note p f).host with bar2Read := some (List.replicate len 0xFF#8, false) } }) := by
  refine congrArg Host.Outcome.next ((if_neg (bar2_fits hf hfit)).trans ((if_neg ?_).trans rfl))
  simp [ho]

theorem State.hasFn_iff : s.hasFn p = true ↔ p = 0 ∨ p < 16 ∧ p ≤ s.host.numVfs := by
  simp [State.hasFn]

end

section
variable {s t : State} {fn : Nat} {o : CfgReg} {v : Nat}

/-- Configuration requests that an endpoint serves. -/
theorem exec_configurationRequest_read (hu : s.host.up = true) (hf : s.hasFn fn = true) (hs : s.boot.served = true) :
    exec (.configurationRequest fn (.read o)) s =
      .next { s with host := { s.host with cfgAnswer := some (.value (s.readCfg fn o)) } } :=
  congrArg Host.Outcome.next ((if_neg (by simp [hu, hf])).trans (if_neg (by simp [hs])))

theorem exec_configurationRequest_write (hu : s.host.up = true) (hf : s.hasFn fn = true) (hs : s.boot.served = true)
    (hw : s.writeCfg fn o v = t) : exec (.configurationRequest fn (.write o v)) s =
      .next { t with host := { t.host with cfgAnswer := some .done } } := by
  subst hw
  exact congrArg Host.Outcome.next ((if_neg (by simp [hu, hf])).trans (if_neg (by simp [hs])))

/-- A window size that the endpoint offers is taken. -/
theorem State.writeCfg_rebar {k : Nat} (hk : barSize v = some k) :
    s.writeCfg 0 .rebar v = { s with host := { s.host with bar2Log2 := updAt s.host.bar2Log2 0 (fun _ => k) } } := by
  unfold State.writeCfg
  rw [if_neg (by decide)]
  simp only [hk]

end

end Sys2Proof.Machine

section
open Sys2Proof Sys2Proof.Machine

/-- Settles O37: the branches of each access, by the window and by whether the endpoint serves. -/
theorem windowCommandsComplete : Obligations.WindowCommandsComplete := by
  refine ⟨fun s fn off len hf hbad => ?_, fun s t p off data hp hfit ho hw => ?_, fun s p off data ho => exec_bar2Write_closed ho,
    fun s p off len hf hfit => ⟨fun ho => exec_bar2Read_closed hf hfit ho, fun bs ho hr => ?_, fun f ho hr hne => ?_⟩,
    fun s p => ?_, fun s p => State.hasFn_iff, fun s fn r hu hf => ⟨fun hs => ?_, fun hs => ⟨fun o hr => ?_, fun v hr hfn hv => ?_,
      fun v k hr hfn hk => ?_, fun o v hr hfn ho => ?_⟩⟩⟩
  · refine congrArg Host.Outcome.next (if_pos ?_)
    simp only [hf, Bool.true_and, Bool.not_eq_true', Bool.and_eq_false_iff, Bool.or_eq_false_iff, beq_eq_false_iff_ne]
    exact hbad
  · rw [exec_bar2Write_eq hp hfit ho, hw]
  · rw [exec_bar2Read_open hf hfit ho, hr]
  · rw [exec_bar2Read_open hf hfit ho, hr]
    cases f with
    | poison a => exact absurd rfl (hne a)
    | _ => rfl
  · have seals : ((s.part p).sec.secMode == 2) = decide ((s.part p).sec.secMode = 2) := by
      rw [Bool.eq_iff_iff, beq_iff_eq, decide_eq_true_eq]
    simp only [State.windowOpen, State.isSealed, Bool.decide_eq_true, seals]
  · refine congrArg Host.Outcome.next ((if_neg ?_).trans (if_pos ?_))
    · simp [hu, hf]
    · simp [hs]
  · subst hr
    exact exec_configurationRequest_read hu hf hs
  · subst hr hfn
    have written : s.writeCfg 0 .numVfs v = { s with host := { s.host with numVfs := bitsOf v 15 0 } } := if_pos hv
    exact exec_configurationRequest_write hu hf hs written
  · subst hr hfn
    exact exec_configurationRequest_write hu hf hs (State.writeCfg_rebar hk)
  · subst hr
    have ignored : s.writeCfg fn o v = s := if_pos (by simp [hfn, ho])
    exact exec_configurationRequest_write hu hf hs ignored
end

/-! SUPPORT. What the named updates leave of the partitions and of their rings, and where a register page answers. -/

namespace Sys2Proof.Machine

section
variable {s t : State}

theorem State.part_congr (h : t.parts = s.parts) (x : Nat) : t.part x = s.part x := by rw [State.part, State.part, h]

theorem State.sq_congr (h : t.parts = s.parts) (x y : Nat) : t.sq x y = s.sq x y := by
  rw [State.sq, State.sq, State.part_congr h]

theorem State.cq_congr (h : t.parts = s.parts) (x y : Nat) : t.cq x y = s.cq x y := by
  rw [State.cq, State.cq, State.part_congr h]

theorem State.hasFn_congr (h : t.host = s.host) (x : Nat) : t.hasFn x = s.hasFn x := by rw [State.hasFn, State.hasFn, h]

end

section
variable (s : State)

@[simp] theorem State.part_wakeDeep (x : Nat) : s.wakeDeep.part x = s.part x := State.part_congr s.wakeDeep_parts x

@[simp] theorem State.sq_wakeDeep (x y : Nat) : s.wakeDeep.sq x y = s.sq x y := State.sq_congr s.wakeDeep_parts x y

@[simp] theorem State.cq_wakeDeep (x y : Nat) : s.wakeDeep.cq x y = s.cq x y := State.cq_congr s.wakeDeep_parts x y

theorem State.hostWriteAs_eq (p addr : Nat) (bs : List Byte) : s.hostWriteAs p addr bs =
    { s with hostMem := if s.hasFn p && s.host.up then s.hostMem.write addr bs else s.hostMem } := by
  unfold State.hostWriteAs State.hostWrite
  cases s.hasFn p <;> cases s.host.up <;> rfl

@[simp] theorem State.parts_hostWriteAs (p addr : Nat) (bs : List Byte) : (s.hostWriteAs p addr bs).parts = s.parts := by
  rw [s.hostWriteAs_eq]

@[simp] theorem State.part_hostWriteAs (p addr : Nat) (bs : List Byte) (x : Nat) : (s.hostWriteAs p addr bs).part x = s.part x := by
  rw [s.hostWriteAs_eq]; rfl

@[simp] theorem State.sq_hostWriteAs (p addr : Nat) (bs : List Byte) (x y : Nat) : (s.hostWriteAs p addr bs).sq x y = s.sq x y := by
  rw [s.hostWriteAs_eq]; rfl

@[simp] theorem State.cq_hostWriteAs (p addr : Nat) (bs : List Byte) (x y : Nat) : (s.hostWriteAs p addr bs).cq x y = s.cq x y := by
  rw [s.hostWriteAs_eq]; rfl

@[simp] theorem State.mem_hostWriteAs (p addr : Nat) (bs : List Byte) : (s.hostWriteAs p addr bs).mem = s.mem := by
  rw [s.hostWriteAs_eq]

@[simp] theorem State.sq_noteQuiet (p x y : Nat) : (s.noteQuiet p).sq x y = s.sq x y := by
  simp only [State.noteQuiet, State.onHost, State.sq, State.part_onPart]
  split <;> rfl

@[simp] theorem State.cq_noteQuiet (p x y : Nat) : (s.noteQuiet p).cq x y = s.cq x y := by
  simp only [State.noteQuiet, State.onHost, State.cq, State.part_onPart]
  split <;> rfl

@[simp] theorem State.mem_noteQuiet (p : Nat) : (s.noteQuiet p).mem = s.mem := rfl

@[simp] theorem State.hostMem_noteQuiet (p : Nat) : (s.noteQuiet p).hostMem = s.hostMem := rfl

@[simp] theorem State.hasFn_onSq (p q : Nat) (f : Sq → Sq) (x : Nat) : (s.onSq p q f).hasFn x = s.hasFn x := rfl

theorem State.length_parts_onPart (p : Nat) (f : Part → Part) : (s.onPart p f).parts.length = s.parts.length := List.length_modify _ _ _

/-- What a change of a submission queue leaves of its partition. -/
theorem State.host_onSq (p q : Nat) (f : Sq → Sq) (x : Nat) : ((s.onSq p q f).part x).host =
    { (s.part x).host with sqs := ((s.onSq p q f).part x).host.sqs } := by
  simp only [State.onSq, State.onHost, State.part_onPart]
  split <;> rfl

end

/-- A submission queue that is there stays there. -/
theorem State.there_onSq {s : State} {p q : Nat} (h : p < s.parts.length ∧ q < (s.part p).host.sqs.length) (x : Nat) (f : Sq → Sq) :
    p < (s.onSq p x f).parts.length ∧ q < ((s.onSq p x f).part p).host.sqs.length := by
  have hp : p < (s.onSq p x f).parts.length := by simpa [State.onSq, State.onHost, State.onPart, updAt] using h.1
  refine ⟨hp, ?_⟩
  simpa [State.onSq, State.onHost, State.part_onPart, h.1, updAt] using h.2

/-- Reading the queues after one that is there is changed. -/
theorem State.sq_onSq_there {s : State} {p q : Nat} (h : p < s.parts.length ∧ q < (s.part p).host.sqs.length) (f : Sq → Sq) (x y : Nat) :
    (s.onSq p q f).sq x y = if x = p ∧ y = q then f (s.sq p q) else s.sq x y := by
  rw [State.sq_onSq]
  by_cases hxy : x = p ∧ y = q
  · obtain ⟨rfl, rfl⟩ := hxy
    simp only [h.1, h.2, and_self, if_true]
  · rw [if_neg hxy, if_neg fun k => hxy ⟨k.1, k.2.2.1⟩]

/-- Where a partition's register page answers. -/
theorem State.regsLive_of {s : State} {p : Nat} (hb : s.boot.stepEight = true) (hp : p < 16) (hr : (s.part p).sec.resetting = false) :
    s.regsLive p = true := by
  simp [State.regsLive, hb, hp, hr]

/-! ### The module's state and events to it -/

section
variable (s : State)

/-- A move of the module's state changes the start-up block, the own line and the events of the physical function. -/
theorem State.setModule_eq (st : ModSt) : ∃ b own ps,
    s.setModule st = { s with boot := b, pair := { s.pair with own := own }, parts := ps } ∧ b.st = st := by
  unfold State.setModule
  split
  · next h => exact ⟨s.boot, s.pair.own, s.parts, rfl, h⟩
  · exact ⟨_, _, _, rfl, rfl⟩

/-- Events to the live partitions change the partitions alone. -/
theorem State.raiseLive_eq (code : Nat) (data : List Byte) : ∃ ps, s.raiseLive code data = { s with parts := ps } :=
  State.foldl_raise _ _ _ _

theorem State.raiseCurtain_eq (code : Nat) : ∃ ps, s.raiseCurtain code = { s with parts := ps } := State.foldl_raise _ _ _ _

end

end Sys2Proof.Machine

/-! SUPPORT. The states of a submission queue and of its completion queue (R225, R244). -/

namespace Sys2Proof.Machine

section
variable {s : State} {p q v : Nat}

/-- A configuration in its ranges with ENABLE, on a queue that is disabled. -/
theorem State.writeSqCfg_enables (hd : (s.sq p q).st = .disabled) (h31 : v.testBit 31 = true) (h30 : v.testBit 30 = false)
    (hlo : 6 ≤ bitsOf v 20 16) (hhi : bitsOf v 20 16 ≤ 16) (hw : bitsOf v 3 0 ≠ 0) (hp : p < s.parts.length)
    (hq : q < (s.part p).host.sqs.length) :
    s.writeSqCfg p q v = ((s.onSq p q (fun r => r.configure v)).enableSq p q).pauseSq p q false := by
  have idle : (s.sq p q).idle = true := by simp [Sq.idle, hd]
  have still : ((s.onSq p q (fun r => r.configure v)).sq p q).idle = true := by
    simp [State.sq_onSq, hp, hq, Sq.configure, Sq.idle, hd]
  have ranges : ¬(decide (bitsOf v 20 16 < 6) || decide (bitsOf v 20 16 > 16) || decide (bitsOf v 3 0 = 0)) = true := by
    simp only [Bool.or_eq_true, decide_eq_true_eq]; omega
  simp only [State.writeSqCfg, ranges, if_false, idle, if_true, still, bitOf, h31, h30, Bool.not_true, Bool.false_eq_true]

/-- A queue that is configured well, with its doorbell page and its completion queue there, is enabled afresh. -/
theorem State.enableSq_valid (hlo : 6 ≤ (s.sq p q).sizeLog2) (hhi : (s.sq p q).sizeLog2 ≤ 16) (hb : (s.sq p q).base ≠ 0)
    (hdb : (s.part p).host.dbValid = true) (hc : (s.cq p (s.sq p q).cq).st = .enabled) : s.enableSq p q =
    (s.onSq p q (fun r => { r with
      enable := true, st := .enabled, errCode := 0, head := 0, tail := 0
      lastNum := none, lastStatus := none, lastSeal := none })).hostWriteAs p ((s.part p).host.dbBase + 0x400 + 4 * q) (zeros 4) :=
  if_pos (by simp [hlo, hhi, hb, hdb, hc])

/-- One that lacks one of them keeps its state, with the cause. -/
theorem State.enableSq_invalid (h : (s.sq p q).base = 0 ∨ (s.part p).host.dbValid = false ∨ (s.cq p (s.sq p q).cq).st ≠ .enabled) :
    s.enableSq p q = s.onSq p q (fun r => { r with enable := true, errCode := 1 }) := by
  refine if_neg ?_
  rcases h with h | h | h <;> simp [h]

/-- Pausing a queue that is there, and resuming it. -/
theorem State.sq_pauseSq (h : p < s.parts.length ∧ q < (s.part p).host.sqs.length) (on : Bool) (x y : Nat) :
    (s.pauseSq p q on).sq x y = if x = p ∧ y = q then { s.sq p q with
      pause := on
      st := if on && (s.sq p q).st == .enabled then .paused else if !on && (s.sq p q).st == .paused then .enabled else (s.sq p q).st
      tail := if !on && (s.sq p q).st == .paused then (s.sq p q).head else (s.sq p q).tail } else s.sq x y := by
  rw [State.pauseSq, State.sq_noteQuiet, State.sq_onSq_there h]

theorem State.cq_pauseSq (on : Bool) (x y : Nat) : (s.pauseSq p q on).cq x y = s.cq x y := by
  rw [State.pauseSq, State.cq_noteQuiet, State.cq_onSq]

theorem State.mem_pauseSq (on : Bool) : (s.pauseSq p q on).mem = s.mem := rfl

theorem State.hostMem_pauseSq (on : Bool) : (s.pauseSq p q on).hostMem = s.hostMem := rfl

/-- What the enable of a valid queue that is there leaves. -/
theorem State.enabled_spec (h : p < s.parts.length ∧ q < (s.part p).host.sqs.length) (hlo : 6 ≤ (s.sq p q).sizeLog2)
    (hhi : (s.sq p q).sizeLog2 ≤ 16) (hb : (s.sq p q).base ≠ 0) (hdb : (s.part p).host.dbValid = true)
    (hc : (s.cq p (s.sq p q).cq).st = .enabled) :
    ((s.enableSq p q).pauseSq p q false).sq p q = { s.sq p q with
      enable := true, st := .enabled, errCode := 0, head := 0, tail := 0, lastNum := none, lastStatus := none, lastSeal := none
      pause := false } ∧
    ((s.enableSq p q).pauseSq p q false).hostMem =
      (if s.hasFn p && s.host.up then s.hostMem.write ((s.part p).host.dbBase + 0x400 + 4 * q) (zeros 4) else s.hostMem) ∧
    (∀ x y, (x ≠ p ∨ y ≠ q) → ((s.enableSq p q).pauseSq p q false).sq x y = s.sq x y) ∧
    (∀ x y, ((s.enableSq p q).pauseSq p q false).cq x y = s.cq x y) ∧ ((s.enableSq p q).pauseSq p q false).mem = s.mem := by
  rw [State.enableSq_valid hlo hhi hb hdb hc]
  have there := fun f => State.there_onSq h q f
  refine ⟨?_, ?_, fun x y hxy => ?_, fun x y => ?_, ?_⟩
  · simp [State.sq_pauseSq, there, State.sq_onSq_there h]
  · simp [State.hostMem_pauseSq, State.hostWriteAs_eq]
  · have ne : ¬(x = p ∧ y = q) := fun e => hxy.elim (· e.1) (· e.2)
    simp [State.sq_pauseSq, there, State.sq_onSq_there h, ne]
  · simp [State.cq_pauseSq]
  · simp [State.mem_pauseSq]

/-- What the enable of a queue that is not valid leaves. -/
theorem State.refused_spec (h : p < s.parts.length ∧ q < (s.part p).host.sqs.length)
    (hbad : (s.sq p q).base = 0 ∨ (s.part p).host.dbValid = false ∨ (s.cq p (s.sq p q).cq).st ≠ .enabled)
    (hd : (s.sq p q).st = .disabled) :
    ((s.enableSq p q).pauseSq p q false).sq p q = { s.sq p q with enable := true, errCode := 1, pause := false } ∧
    ((s.enableSq p q).pauseSq p q false).hostMem = s.hostMem ∧
    (∀ x y, (x ≠ p ∨ y ≠ q) → ((s.enableSq p q).pauseSq p q false).sq x y = s.sq x y) ∧
    (∀ x y, ((s.enableSq p q).pauseSq p q false).cq x y = s.cq x y) ∧ ((s.enableSq p q).pauseSq p q false).mem = s.mem := by
  rw [State.enableSq_invalid hbad]
  have there := fun f => State.there_onSq h q f
  refine ⟨?_, ?_, fun x y hxy => ?_, fun x y => ?_, ?_⟩
  · simp [State.sq_pauseSq, there, State.sq_onSq_there h, hd]
  · simp [State.hostMem_pauseSq]
  · have ne : ¬(x = p ∧ y = q) := fun e => hxy.elim (· e.1) (· e.2)
    simp [State.sq_pauseSq, there, State.sq_onSq_there h, ne]
  · simp [State.cq_pauseSq]
  · simp [State.mem_pauseSq]

end

end Sys2Proof.Machine

section
open Sys2Proof Sys2Proof.Machine

/-- Settles O38: the enable by what it finds, pause and resume, the disable of each kind of ring, and the end of the drain. -/
theorem ringCommandsComplete : Obligations.RingCommandsComplete := by
  refine ⟨fun s p q v r hboot hp hr hq hd h31 h30 hlo hhi hw hcfg hpl hql => ?_, fun s w p q hboot hp hr hww => ?_,
    fun s p q hd hf => ?_⟩
  · subst hcfg
    have there : p < s.wakeDeep.parts.length ∧ q < (s.wakeDeep.part p).host.sqs.length := by simpa using ⟨hpl, hql⟩
    have enabled := State.writeSqCfg_enables (s := s.wakeDeep) (p := p) (by simpa using hd) h31 h30 hlo hhi hw there.1 there.2
    have runs : exec (.ringEnable p (.sq q) v) s =
        .next (((s.wakeDeep.onSq p q (fun r => r.configure v.toNat)).enableSq p q).pauseSq p q false) := by
      refine congrArg Host.Outcome.next ((if_neg ?_).trans ((if_pos ?_).trans enabled))
      · simp [State.regsLive_of hboot hp hr, bitOf, h31]
      · simp [hq, Sq.idle, hd]
    have made := State.sq_onSq_there there (fun r => r.configure v.toNat)
    have now : (s.wakeDeep.onSq p q (fun r => r.configure v.toNat)).sq p q = (s.sq p q).configure v.toNat := by simp [made]
    have others : ∀ x y, (x ≠ p ∨ y ≠ q) → (s.wakeDeep.onSq p q (fun r => r.configure v.toNat)).sq x y = s.sq x y := by
      intro x y h
      rw [made, if_neg (fun e => h.elim (· e.1) (· e.2)), State.sq_wakeDeep]
    have there' := State.there_onSq there q (fun r => r.configure v.toNat)
    refine ⟨fun hb hdb hc => ⟨_, runs, ?_⟩, fun hbad => ⟨_, runs, ?_⟩⟩
    · obtain ⟨hsq, hmem, hothers, hcq, hdev⟩ := State.enabled_spec there' (by rw [now]; exact hlo) (by rw [now]; exact hhi)
        (by rw [now]; exact hb) (by rw [State.host_onSq]; simpa using hdb) (by rw [now, State.cq_onSq, State.cq_wakeDeep]; exact hc)
      refine ⟨by rw [hsq, now], fun hu hf => ?_, fun x y h => (hothers x y h).trans (others x y h), fun x y => ?_, ?_⟩
      · rw [hmem, State.host_onSq]
        have fn : (s.wakeDeep.onSq p q (fun r => r.configure v.toNat)).hasFn p = true := by simpa [State.hasFn] using hf
        simp [fn, hu]
      · rw [hcq, State.cq_onSq, State.cq_wakeDeep]
      · rw [hdev]; simp
    · obtain ⟨hsq, hmem, hothers, hcq, hdev⟩ := State.refused_spec there'
        (by rw [now, State.cq_onSq, State.cq_wakeDeep, State.host_onSq, State.part_wakeDeep]; exact hbad)
        (by rw [now]; exact hd)
      refine ⟨by rw [hsq, now], ?_, fun x y h => (hothers x y h).trans (others x y h), fun x y => ?_, ?_⟩
      · rw [hmem]; simp
      · rw [hcq, State.cq_onSq, State.cq_wakeDeep]
      · rw [hdev]; simp
  · have live := State.regsLive_of hboot hp hr
    refine ⟨?_, fun hst hpl hql => ?_, fun hbusy hst => ?_, fun hbusy => ?_, fun c hx => ?_, fun c hx => ?_, ?_⟩
    · subst hww
      exact congrArg Host.Outcome.next (if_pos live)
    · refine ⟨_, congrArg Host.Outcome.next (if_pos live), ?_, ?_, ?_⟩ <;>
        simp [State.pauseSq, State.sq_onSq, hpl, hql, hst]
    · subst hww
      refine congrArg Host.Outcome.next ((if_neg (by simp [live])).trans ?_)
      have busy : s.wakeDeep.sqBusy p q = true := by rwa [State.sqBusy, State.part_wakeDeep]
      simp only [State.disableSq, busy, if_true]
      rfl
    · subst hww
      refine congrArg Host.Outcome.next ((if_neg (by simp [live])).trans ?_)
      have busy : s.wakeDeep.sqBusy p q = false := by rwa [State.sqBusy, State.part_wakeDeep]
      simp only [State.disableSq, busy, Bool.false_eq_true, if_false]
      rfl
    · subst hww
      refine congrArg Host.Outcome.next ((if_neg (by simp [live])).trans (if_pos ?_))
      simpa [Sq.idle] using hx
    · subst hww
      refine congrArg Host.Outcome.next ((if_neg (by simp [live])).trans (if_neg ?_))
      simpa [Sq.idle] using hx
    · subst hww
      exact congrArg Host.Outcome.next (if_neg (by simp [live]))
  · refine congrArg Host.Outcome.next (if_pos ?_)
    simpa [hd, State.sqBusy] using hf
end

/-! SUPPORT. Doorbell reads and dozes (R215, R230, R232, R233), and the fetch of descriptors (R226 to R228). -/

namespace Sys2Proof.Machine

/-! ### Tails -/

/-- What a doorbell page's word does to the queue that it is for. -/
def Sq.takeTail (r : Sq) (v : Nat) : Sq :=
  if r.st.live then if 2 ^ r.sizeLog2 ≤ v then { r with st := .error, errCode := 0x02 } else { r with tail := v } else r

/-- The step of `takeTails` for one queue. -/
def State.takeTail (p : Nat) (bs : List Byte) (t : State) (q : Nat) : State :=
  if (t.sq p q).st.live then
    let v := fieldAt bs (0xC0 + 4 * q) 4
    if v ≥ 2 ^ (t.sq p q).sizeLog2 then t.sqError p q 0x02 else t.onSq p q (fun r => { r with tail := v })
  else t

section
variable {s : State} {p : Nat} {bs : List Byte}

theorem State.takeTails_eq : s.takeTails p bs = (List.range 64).foldl (State.takeTail p bs) s := rfl

theorem State.sq_takeTail (q y : Nat) : (State.takeTail p bs s q).sq p y =
    if y = q then (s.sq p q).takeTail (fieldAt bs (0xC0 + 4 * q) 4) else s.sq p y := by
  unfold State.takeTail Sq.takeTail
  by_cases hl : (s.sq p q).st.live = true
  · obtain ⟨hp, hq⟩ := State.sq_live_there hl
    simp only [hl, if_true, ge_iff_le]
    split
    · simp [State.sq_sqError, hl]
    · simp [State.sq_onSq_there ⟨hp, hq⟩]
  · simp only [hl, if_false, Bool.false_eq_true]
    split
    · next h => rw [h]
    · rfl

/-- Each queue takes its own word, once. -/
theorem State.sq_foldl_takeTail {l : List Nat} (hl : l.Nodup) (y : Nat) : (l.foldl (State.takeTail p bs) s).sq p y =
    if y ∈ l then (s.sq p y).takeTail (fieldAt bs (0xC0 + 4 * y) 4) else s.sq p y := by
  induction l generalizing s with
  | nil => simp
  | cons q l ih =>
    obtain ⟨hq, hl⟩ := List.nodup_cons.mp hl
    rw [List.foldl_cons, ih hl, State.sq_takeTail]
    by_cases h : y = q
    · subst h
      simp [hq]
    · simp [h]

theorem State.sq_takeTails {q : Nat} (hq : q < 64) :
    (s.takeTails p bs).sq p q = (s.sq p q).takeTail (fieldAt bs (0xC0 + 4 * q) 4) := by
  rw [State.takeTails_eq, State.sq_foldl_takeTail List.nodup_range, if_pos (List.mem_range.mpr hq)]

end

/-- A doze sequence that kept nothing back settles by what has come meanwhile. -/
theorem State.settleDoze_entering {s t : State} {p : Nat} (hd : (s.part p).host.doze = .entering) (hl : (s.part p).host.late = [])
    (ht : t = (s.onHost p (fun h => { h with late := [] })).onHost p (fun x => { x with doze := .dozing, wakePend := false })) :
    s.settleDoze p = if (s.part p).host.wakePend then t.endDoze p
      else if (List.range 64).any (fun q => t.sqReady p q) then
        (t.onHost p (fun x => { x with doze := .awake, eligibleSince := none })).postPresence p
      else t := by
  subst ht
  have late : s.writeLate p = s.onHost p (fun h => { h with late := [] }) := by rw [State.writeLate, hl]; rfl
  simp only [State.settleDoze, hd, late, hl, bne_self_eq_false, Bool.false_eq_true, if_false, List.isEmpty_nil, Bool.not_true, Bool.or_false]

/-! ### The order of fetches -/

/-- A least value is at most each of the values. -/
theorem foldl_min_le {l : List Nat} {f : Nat → Nat} (i : Nat) : l.foldl (fun a q => Nat.min a (f q)) i ≤ i ∧
    ∀ x ∈ l, l.foldl (fun a q => Nat.min a (f q)) i ≤ f x := by
  induction l generalizing i with
  | nil => exact ⟨Nat.le_refl _, fun x hx => nomatch hx⟩
  | cons q l ih =>
    obtain ⟨hi, hl⟩ := ih (Nat.min i (f q))
    refine ⟨Nat.le_trans hi (Nat.min_le_left _ _), fun x hx => ?_⟩
    rcases List.mem_cons.mp hx with rfl | hx
    · exact Nat.le_trans hi (Nat.min_le_right _ _)
    · exact hl x hx

section
variable {s : State} {p q : Nat}

/-- The queue that the order serves may be fetched from and is of the least class of those. -/
theorem State.nextSq_spec {left : Nat} (h : s.nextSq p = some (q, left)) :
    s.mayFetch p q = true ∧ ∀ x, x < 64 → s.mayFetch p x = true → (s.sq p q).cls ≤ (s.sq p x).cls := by
  unfold State.nextSq at h
  extract_lets cand cls same t at h
  have chosen : q ∈ same := by
    split at h
    · next hc =>
      cases h
      simp only [Bool.and_eq_true, List.contains_iff_mem] at hc
      exact hc.2
    · split at h
      · next x hx =>
        cases h
        split at hx
        · next y hy => cases hx; exact List.mem_of_find?_eq_some hy
        · exact List.mem_of_mem_head? hx
      · cases h
  obtain ⟨hc, hcls⟩ := List.mem_filter.mp chosen
  refine ⟨(List.mem_filter.mp hc).2, fun x hx hm => ?_⟩
  rw [eq_of_beq hcls]
  exact (foldl_min_le 3).2 x (List.mem_filter.mpr ⟨List.mem_range.mpr hx, hm⟩)

/-- What a queue that may be fetched from has. -/
theorem State.mayFetch_spec (h : s.mayFetch p q = true) : s.hasFn p = true ∧
    (s.sq p q).st = .enabled ∧ 0 < (s.cq p (s.sq p q).cq).free ∧ (s.sq p q).tail ≠ (s.sq p q).head ∧
    ((s.part p).sec.st = .admitted ∨ (s.part p).sec.st = .running ∨
      (p = 0 ∧ q = 0 ∧ s.boot.st ∈ [ModSt.ready, .degraded, .curtain, .safe])) := by
  simp only [State.mayFetch, State.sqReady, Sq.hasPending, Bool.and_eq_true, beq_iff_eq, bne_iff_ne, decide_eq_true_eq] at h
  obtain ⟨⟨⟨⟨⟨⟨⟨hst, -⟩, hpend⟩, -⟩, hfree⟩, -⟩, hfn⟩, hmay⟩ := h
  refine ⟨hfn, hst, hfree, hpend, ?_⟩
  split at hmay
  · next h0 => exact .inr (.inr ⟨h0.1, h0.2, by simpa [or_assoc] using hmay⟩)
  · rcases (by simpa using hmay) with h | h
    · exact .inl h
    · exact .inr (.inl h)

/-- A change that keeps the doorbell page's place. -/
theorem State.dbBase_onPart {f : Part → Part} (h : ∀ x, (f x).host.dbBase = x.host.dbBase) (y : Nat) :
    ((s.onPart p f).part y).host.dbBase = (s.part y).host.dbBase := by
  rw [State.part_onPart]
  split
  · exact h _
  · rfl

/-- What the fetch of a descriptor leaves. -/
theorem State.fetched_spec (left : Nat) (bs : List Byte) (tagOnly : Bool) (hp : p < s.parts.length) (hq : q < (s.part p).host.sqs.length)
    (hc : (s.sq p q).cq < (s.part p).host.cqs.length) :
    ((s.fetched p q left bs tagOnly).part p).fetched = (s.part p).fetched ++ [{
      num := (s.part p).host.nextNum, bytes := bs, sq := q, slot := (s.sq p q).head, cq := (s.sq p q).cq
      pred := (s.sq p q).lastNum, predStatus := (s.sq p q).lastStatus }] ∧
    ((s.fetched p q left bs tagOnly).sq p q).head = ((s.sq p q).head + 1) % 2 ^ (s.sq p q).sizeLog2 ∧
    ((s.fetched p q left bs tagOnly).cq p (s.sq p q).cq).reserved = (s.cq p (s.sq p q).cq).reserved + 1 ∧
    ((s.fetched p q left bs tagOnly).hostMem = if s.hasFn p && s.host.up then
      s.hostMem.write ((s.part p).host.dbBase + 0x400 + 4 * q) (toLe 4 (((s.sq p q).head + 1) % 2 ^ (s.sq p q).sizeLog2))
      else s.hostMem) ∧
    (∀ x, x ≠ p → (s.fetched p q left bs tagOnly).part x = s.part x) ∧ (s.fetched p q left bs tagOnly).mem = s.mem := by
  have length : ∀ (t : State) (f : Part → Part), (t.onPart p f).parts.length = t.parts.length := fun t f => List.length_modify f t.parts p
  refine ⟨?_, ?_, ?_, ?_, fun x hx => ?_, ?_⟩
  · simp [State.fetched, State.noteQuiet, State.onSq, State.onCq, State.onHost, State.part_onPart, length, hp]
  · simp only [State.fetched, State.sq, State.part_hostWriteAs, State.noteQuiet, State.onSq, State.onCq, State.onHost, State.part_onPart,
      length, hp, and_self, if_true, getD_updAt, hq]
  · simp only [State.fetched, State.cq, State.part_hostWriteAs, State.noteQuiet, State.onSq, State.onCq, State.onHost, State.part_onPart,
      length, hp, and_self, if_true, getD_updAt]
    rw [if_pos ⟨trivial, hc⟩]
  · unfold State.fetched
    extract_lets r num d head s1 s2 s3 s4
    have base1 : (s1.part p).host.dbBase = (s.part p).host.dbBase := State.dbBase_onPart (h := fun _ => by exact rfl) p
    have base2 : (s2.part p).host.dbBase = (s1.part p).host.dbBase := State.dbBase_onPart (h := fun _ => by exact rfl) p
    have base3 : (s3.part p).host.dbBase = (s2.part p).host.dbBase := State.dbBase_onPart (h := fun _ => by exact rfl) p
    have base4 : (s4.part p).host.dbBase = (s3.part p).host.dbBase := State.dbBase_onPart (h := fun _ => by exact rfl) p
    have base := base4.trans (base3.trans (base2.trans base1))
    have host : (s4.noteQuiet p).host = s.host := by
      simp only [State.noteQuiet, State.onHost_host, s4, State.onPart_host, s3, s2, State.onCq_host, s1, State.onSq_host]
    have mem : (s4.noteQuiet p).hostMem = s.hostMem := by
      simp only [State.noteQuiet, State.onHost_hostMem, s4, State.onPart_hostMem, s3, s2, State.onCq_hostMem, s1, State.onSq_hostMem]
    rw [State.hostWriteAs_eq, base, State.hasFn_congr host, host, mem]
  · simp [State.fetched, State.noteQuiet, State.onSq, State.onCq, State.onHost, State.part_onPart, hx]
  · simp [State.fetched]

end

end Sys2Proof.Machine

section
open Sys2Proof Sys2Proof.Machine

/-- Settles O39: each trigger's branch, what ends a doze, and the tails word by word. -/
theorem doorbellCommandsComplete : Obligations.DoorbellCommandsComplete := by
  refine ⟨fun s w p hb hp hr hw => ?_, fun s p hdb hf => ?_, fun s p hd hus hdue => ?_, fun s p hus => ?_, fun s p bs ho => ?_,
    fun s p f ho hf => ?_, fun s p q f hready hf => ?_, fun s p a hd ho hdb hf he hdue hq => ?_, fun s t p hd hl ht => ?_,
    fun s p q bs hq => ?_⟩
  · subst hw
    refine congrArg Host.Outcome.next ((if_pos (State.regsLive_of hb hp hr)).trans ?_)
    rw [State.nudge, State.part_wakeDeep] <;> rfl
  · simp [State.doorbell, hf]
  · exact congrArg Host.Outcome.next (if_pos (by simp [hd, hus, hdue]))
  · exact congrArg Host.Outcome.next (if_neg (by simp [hus]))
  · exact congrArg Host.Outcome.next (if_pos ho)
  · simp only [List.mem_cons, List.not_mem_nil, or_false] at hf
    rcases hf with rfl | rfl | rfl
    · exact congrArg Host.Outcome.next (if_pos ho)
    · exact congrArg Host.Outcome.next (if_pos ho)
    · exact congrArg Host.Outcome.next (if_pos ho)
  · simp only [List.mem_cons, List.not_mem_nil, or_false] at hf
    rcases hf with rfl | rfl | rfl
    · exact congrArg Host.Outcome.next (if_pos hready)
    · exact congrArg Host.Outcome.next (if_pos hready)
    · exact congrArg Host.Outcome.next (if_pos hready)
  · exact congrArg Host.Outcome.next (if_neg (by simp [hd, ho, hdb, hf, he, hdue, hq]))
  · rw [State.settleDoze_entering hd hl ht]
    refine ⟨fun h => if_pos h, fun h hr => ?_, fun h hr => ?_⟩
    · rw [h, if_neg (by decide), if_pos]
      simpa [List.any_eq_true] using hr
    · rw [h, if_neg (by decide), if_neg]
      simpa [List.any_eq_false] using hr
  · rw [State.sq_takeTails hq]
    refine ⟨fun hl hlt => ?_, fun hl hle => ?_, fun hl => ?_⟩
    · simp [Sq.takeTail, hl, Nat.not_le.mpr hlt]
    · simp [Sq.takeTail, hl, hle]
    · simp [Sq.takeTail, hl]

/-- Settles O40: the fetch itself, the order of the queues, and what a queue must have. -/
theorem descriptorFetchCompletes : Obligations.DescriptorFetchCompletes := by
  refine ⟨fun s p q left bs hn hs hlen hp hq hc => ?_, fun s p q left h => State.nextSq_spec h,
    fun s p q h => (State.mayFetch_spec h).2⟩
  have run : exec (.descriptorFetch p (.data bs)) s = .next (s.fetched p q left bs false) := by
    change execDescriptorFetch p (.data bs) s = _
    simp only [execDescriptorFetch, hn, hs, List.take_of_length_le (Nat.le_of_eq hlen), hlen, Nat.sub_self, zeros, List.replicate_zero, List.append_nil]
  obtain ⟨hfn, -⟩ := State.mayFetch_spec (State.nextSq_spec hn).1
  obtain ⟨hfetched, hhead, hres, hmem, hothers, hdev⟩ := State.fetched_spec left bs false hp hq hc
  exact ⟨_, _, run, hfetched, rfl, rfl, rfl, rfl, rfl, rfl, hhead, hres, fun hu => by rw [hmem]; simp [hfn, hu], hothers, hdev⟩
end

/-! SUPPORT. Where a register write goes (R13, R219, R246, R461, R582, R586). -/

namespace Sys2Proof.Machine

section
variable {s : State} {p off : Nat} {v : Word}

/-- A write to the global page after start-up step 8. -/
theorem exec_registerWrite_global (hb : s.boot.stepEight = true) (ho : off < 0x10000) (h4 : off % 4 = 0) :
    exec (.registerWrite 0 off v) s = .next (s.wakeDeep.writeGlobal off v.toNat) :=
  congrArg Host.Outcome.next ((if_neg (by simp [hb, h4])).trans ((if_pos rfl).trans (if_pos ho)))

/-- A virtual function's write to its page. -/
theorem exec_registerWrite_page (hb : s.boot.stepEight = true) (hf : s.hasFn p = true) (hp : 0 < p) (ho : off < 0x10000) (h4 : off % 4 = 0) :
    exec (.registerWrite p off v) s = .next (s.wakeDeep.writePage p off v.toNat true) := by
  have fn : s.wakeDeep.hasFn p = true := by rw [State.hasFn_congr s.wakeDeep_host, hf]
  exact congrArg Host.Outcome.next ((if_neg (by simp [hb, h4])).trans ((if_neg (by omega)).trans (if_pos (by simp [fn, ho]))))

theorem elemAt_of {base size n i o : Nat} (hi : i < n) (ho : o < size) : elemAt (base + size * i + o) base size n = some (i, o) := by
  have lt : base + size * i + o < base + size * n := by
    have := Nat.mul_le_mul_left size (Nat.succ_le_of_lt hi)
    rw [Nat.mul_succ] at this
    omega
  have sub : base + size * i + o - base = o + size * i := by omega
  simp only [elemAt, sub, Nat.add_mul_div_left o i (Nat.zero_lt_of_lt ho), Nat.add_mul_mod_self_left, Nat.div_eq_of_lt ho, Nat.mod_eq_of_lt ho,
    Nat.zero_add]
  exact if_pos (by simp; omega)

/-- Past the partition's other registers a page holds those of its queues. -/
theorem State.writePage_sq {q o v : Nat} {virt : Bool} (hr : (s.part p).sec.resetting = false) (hq : q < 64) (ho : o < 0x20) :
    s.writePage p (0x1000 + 0x20 * q + o) v virt = s.writeSq p q o v := by
  have past : ∀ n, n ≤ 0x1000 → ¬0x1000 + 0x20 * q + o < n := by omega
  have fixed : 0x1000 + 0x20 * q + o ≠ 0x300 := by omega
  simp only [State.writePage, fixed, if_false, hr, Bool.false_eq_true, past 0x200 (by omega), past 0x500 (by omega), past 0x1000 (Nat.le_refl _),
    elemAt_of hq ho]

theorem State.writePage_cq {c o v : Nat} {virt : Bool} (hr : (s.part p).sec.resetting = false) (hc : c < 16) (ho : o < 0x20) :
    s.writePage p (0x1800 + 0x20 * c + o) v virt = s.writeCq p c o v := by
  have past : ∀ n, n ≤ 0x1000 → ¬0x1800 + 0x20 * c + o < n := by omega
  have fixed : 0x1800 + 0x20 * c + o ≠ 0x300 := by omega
  have sq : elemAt (0x1800 + 0x20 * c + o) 0x1000 0x20 64 = none := if_neg (by simp; omega)
  simp only [State.writePage, fixed, if_false, hr, Bool.false_eq_true, past 0x200 (by omega), past 0x500 (by omega), past 0x1000 (Nat.le_refl _),
    sq, elemAt_of hc ho]

/-- The page's registers before those of its queues. -/
theorem State.writePage_ring {v : Nat} {virt : Bool} (hr : (s.part p).sec.resetting = false) (ho : off < 0x200) :
    s.writePage p off v virt = s.writeRing p off v := by
  rw [State.writePage, if_neg (by omega), if_neg (ne_true_of_eq_false hr), if_pos ho]

theorem State.writePage_hlt {v : Nat} {virt : Bool} (hr : (s.part p).sec.resetting = false) (hlo : 0x500 ≤ off) (hhi : off < 0x1000) :
    s.writePage p off v virt = s.writePartHlt p off v := by
  rw [State.writePage, if_neg (by omega), if_neg (ne_true_of_eq_false hr), if_neg (by omega), if_neg (by omega), if_pos hhi]

/-- A partition that is being reset heeds no write but that of the fixed rate, which a virtual function does not make. -/
theorem State.writePage_resetting {v : Nat} (hr : (s.part p).sec.resetting = true) : s.writePage p off v true = s := by
  by_cases h : off = 0x300
  · rw [State.writePage, if_pos h, State.writeFixed]
    exact if_pos rfl
  · rw [State.writePage, if_neg h, if_pos hr]

end

end Sys2Proof.Machine

section
open Sys2Proof Sys2Proof.Machine

/-- Settles O43: where each write goes, and the range of each setting. -/
theorem registerWritesComplete : Obligations.RegisterWritesComplete := by
  refine ⟨fun s fn off v hb => ?_, fun s w v hb hw => ?_, fun s w p v hb hw hf hp hp0 => ?_, fun s w p off v hb hw hp ho h4 hfz => ?_⟩
  · exact congrArg Host.Outcome.next (if_pos (by simp [hb]))
  · subst hw
    have global : ∀ {off : Nat}, off < 0x10000 → off % 4 = 0 →
        exec (.registerWrite 0 off v) s = .next (s.wakeDeep.writeGlobal off v.toNat) := exec_registerWrite_global hb
    have ok : ∀ {a b n : Nat}, a ≤ n → n ≤ b → (decide (a ≤ n) && decide (n ≤ b)) = true := fun h k => by simp [h, k]
    have bad : ∀ {a b n : Nat}, n < a ∨ b < n → ¬(decide (a ≤ n) && decide (n ≤ b)) = true := fun h => by simp; omega
    refine ⟨fun hlo hhi => ⟨?_, ?_, ?_⟩, fun h => ⟨?_, ?_, ?_⟩, fun h => ?_, fun hlo hhi => ?_, fun h => ?_, fun hlo hhi => ?_, fun h => ?_,
      ?_, fun off hoff => ?_⟩
    · exact (global (by decide) (by decide)).trans (congrArg Host.Outcome.next (if_pos (ok hlo hhi)))
    · exact (global (by decide) (by decide)).trans (congrArg Host.Outcome.next (if_pos (ok hlo hhi)))
    · exact (global (by decide) (by decide)).trans (congrArg Host.Outcome.next (if_pos (ok hlo hhi)))
    · exact (global (by decide) (by decide)).trans (congrArg Host.Outcome.next (if_neg (bad h)))
    · exact (global (by decide) (by decide)).trans (congrArg Host.Outcome.next (if_neg (bad h)))
    · exact (global (by decide) (by decide)).trans (congrArg Host.Outcome.next (if_neg (bad h)))
    · exact (global (by decide) (by decide)).trans (congrArg Host.Outcome.next (if_pos (decide_eq_true h)))
    · rw [← s.wakeDeep_now]
      exact (global (by decide) (by decide)).trans (congrArg Host.Outcome.next (if_pos (ok hlo hhi)))
    · exact (global (by decide) (by decide)).trans (congrArg Host.Outcome.next (if_neg (bad (by omega))))
    · exact (global (by decide) (by decide)).trans (congrArg Host.Outcome.next (if_pos (ok hlo hhi)))
    · exact (global (by decide) (by decide)).trans (congrArg Host.Outcome.next (if_pos (decide_eq_true h)))
    · exact global (by decide) (by decide)
    · simp only [List.mem_cons, List.not_mem_nil, or_false] at hoff
      rcases hoff with rfl | rfl | rfl | rfl | rfl | rfl | rfl | rfl | rfl | rfl <;> exact global (by decide) (by decide)
  · subst hw
    have page : ∀ {off : Nat}, off < 0x10000 → off % 4 = 0 →
        exec (.registerWrite p off v) s = .next (s.wakeDeep.writePage p off v.toNat true) := exec_registerWrite_page hb hf hp0
    refine ⟨page (by decide) (by decide), fun hr off ho h4 => ?_, fun hr => ?_⟩
    · rw [page ho h4, State.writePage_resetting (by simpa using hr)]
    · have still : (s.wakeDeep.part p).sec.resetting = false := by simpa using hr
      refine ⟨?_, ?_, fun q hq => ?_, fun q hq => ?_, fun c hc => ?_, ?_⟩
      · rw [page (by decide) (by decide), State.writePage_ring still (by decide)]
        rfl
      · rw [page (by decide) (by decide), State.writePage_hlt still (by decide) (by decide)]
        rfl
      · rw [show 0x1000 + 32 * q = 0x1000 + 0x20 * q + 0 from rfl, page (by omega) (by omega), State.writePage_sq still hq (by decide)]
        simp only [State.writeSq, Sq.idle, beq_iff_eq, setHalf]
        rfl
      · rw [page (by omega) (by omega), State.writePage_sq still hq (by decide)]
        rfl
      · rw [page (by omega) (by omega), State.writePage_cq still hc (by decide)]
        rfl
      · rw [page (by decide) (by decide), State.writePage_ring still (by decide)]
        rfl
  · subst hw
    have frozen : (s.wakeDeep.part p).sec.frozen = true := by simpa using hfz
    refine congrArg Host.Outcome.next ((if_neg (by simp [hb]; omega)).trans ((if_pos rfl).trans ((if_neg (by omega)).trans ?_)))
    rw [elemAt_of hp ho]
    exact if_pos frozen
end

/-! SUPPORT. Hangs and requested resets (R500 to R506). -/

namespace Sys2Proof.Machine

theorem State.unit_wakeDeep (s : State) (kind unit : Nat) : s.wakeDeep.unit kind unit = s.unit kind unit := by
  rw [State.unit, State.unit, s.wakeDeep_health]

/-- A change of a tile that leaves its state. -/
theorem State.tile_st_onTile {s : State} {f : Tile → Tile} (h : ∀ y, (f y).st = y.st) (t x : Nat) :
    ((s.onTile t f).tile x).st = (s.tile x).st := by
  simp only [State.tile, State.onTile, getD_updAt]
  split
  · exact h _
  · rfl

theorem State.settleTile_tile_st (s : State) (t x : Nat) : ((s.settleTile t).tile x).st = (s.tile x).st := by
  unfold State.settleTile
  extract_lets y dt d pace beats work
  split
  · rfl
  · exact State.tile_st_onTile (s := s.tick.tick.tick) (h := fun _ => by exact rfl) t x

/-- Charging a tile's item leaves its state. -/
theorem State.chargeItem_tile_st (s : State) (t x : Nat) : ((s.chargeItem t).tile x).st = (s.tile x).st := by
  unfold State.chargeItem
  extract_lets u y
  have settled : (u.tile x).st = (s.tile x).st := s.settleTile_tile_st t x
  split
  · exact settled
  · next p num rest hitems =>
    exact (State.tile_st_onTile (s := u.onPart p _) (h := fun _ => by exact rfl) t x).trans settled

theorem State.length_tiles_chargeItem (s : State) (t : Nat) : (s.chargeItem t).fabric.tiles.length = s.fabric.tiles.length := by
  have settled : (s.settleTile t).fabric.tiles.length = s.fabric.tiles.length := by
    unfold State.settleTile
    extract_lets y dt d pace beats work
    split
    · rfl
    · exact List.length_modify _ _ _
  unfold State.chargeItem
  extract_lets u y
  split
  · exact settled
  · exact (List.length_modify _ _ _).trans settled

section
variable {s : State} {kind unit : Nat} {v : Word}

/-- A reset requested of a unit that is there. -/
theorem exec_hltResetWrite_eq (hb : s.boot.stepEight = true) (h31 : v.toNat.testBit 31 = true) (hk : kind = bitsOf v.toNat 10 8)
    (hun : unit = bitsOf v.toNat 5 0) (hlt : unit < unitCount kind) : exec (.hltResetWrite v) s = .next
      (if (s.unit kind unit).fenced then
        (if v.toNat.testBit 30 && kind != 0 then s.wakeDeep.requestReset kind unit 3 [] false true else s.wakeDeep)
      else s.wakeDeep.requestReset kind unit 3 [] false false) := by
  subst hk hun
  refine congrArg Host.Outcome.next ((if_pos hb).trans ((if_neg ?_).trans ?_))
  · simp only [bitOf, h31, Bool.not_true, Bool.false_or, decide_eq_true_eq, ge_iff_le]
    exact Nat.not_le.mpr hlt
  · rw [State.unit_wakeDeep]
    rfl

/-- A unit that its watchdog's window has passed by does not move. -/
theorem State.not_moving (h : (s.unit kind unit).seenAt + s.health.windowMs * 1000000 ≤ s.now) : s.moving kind unit = false :=
  decide_eq_false (Nat.not_lt.mpr h)

end

end Sys2Proof.Machine

section
open Sys2Proof Sys2Proof.Machine

/-- Settles O45: the watchdog's blame, a dump's end, the write of HLT.RESET, and what a requested reset leaves. -/
theorem hangCommandsComplete : Obligations.HangCommandsComplete := by
  refine ⟨fun s h f hu hf hfe hseen hwork hex hrec hfen => ?_, fun s u f w b steps ws => ⟨?_, if_pos rfl, fun hm => ?_, ?_, fun hne hm => ?_⟩,
    fun s kind unit r hu hrec htiles => ?_, fun s w v kind unit hb hw h31 hk hun hlt => ⟨fun hfen => ?_, fun hfen h30 h0 => ?_, fun hfen h => ?_⟩,
    fun s t source hang c b hrec ht hst => ?_, fun s kind unit source hang c b hrec => if_pos hrec⟩
  · change execProgressWatchdogExpiry h s = _
    unfold execProgressWatchdogExpiry
    extract_lets f' u
    have same : f' = f := hfe.symm
    clear_value f'
    subst same
    refine congrArg Host.Outcome.next ((if_neg ?_).trans (if_neg ?_))
    · simp [Nat.not_le.mpr hu, Nat.not_le.mpr hf, State.not_moving hseen, hwork, hex, u, hfen]
    · simp [u, hrec]
  · cases steps <;> rfl
  · exact if_pos (by simp [hm])
  · exact if_pos (by simp)
  · exact if_neg (by simpa [hm] using hne)
  · refine congrArg Host.Outcome.next (if_neg ?_)
    simp [hrec, htiles, Nat.not_le.mpr hu]
  · subst hw
    rw [exec_hltResetWrite_eq hb h31 hk hun hlt, if_neg (ne_true_of_eq_false hfen)]
  · subst hw
    rw [exec_hltResetWrite_eq hb h31 hk hun hlt, if_pos hfen, if_pos (by simp [h30, h0])]
  · subst hw
    rw [exec_hltResetWrite_eq hb h31 hk hun hlt, if_pos hfen, if_neg]
    rcases h with h | h <;> simp [h]
  · rw [State.requestReset, if_neg (not_not_intro hrec)]
    extract_lets u
    have there : t < (u.chargeItem t).fabric.tiles.length := by rw [State.length_tiles_chargeItem]; exact ht
    have still : ((u.chargeItem t).tile t).st ≠ .fenced := by rw [State.chargeItem_tile_st]; exact hst
    rw [if_pos rfl]
    simp only [State.tile, State.onTile, getD_updAt, there, and_self, if_true]
    exact if_neg still
end

/-! SUPPORT. Scores, expulsion and the background tasks (R518 to R520, R566 to R569). -/

namespace Sys2Proof.Machine

section
variable {s : State}

/-- A unit's score starts from 1,000 and only falls. -/
theorem State.unitScore_le (kind unit : Nat) : s.unitScore kind unit ≤ 1000 := by
  unfold State.unitScore
  extract_lets u e
  split <;> omega

theorem State.rescore_units : s.rescore.health.units =
    s.health.units.zipIdx.map (fun (u : Unit × Nat) => { u.1 with score := s.unitScore (unitAt u.2).1 (unitAt u.2).2 }) := rfl

/-- The clearing of an expulsion writes the threshold that stands, with the bit that clears. -/
theorem State.writeExpel_clear {n : Nat} (hn : n ≤ 1000) (hs : s.health.expelThresh = n) : s.writeExpel (2 ^ 30 + n) =
    if s.expelWhy.isNone then { s with health := { s.health with expelled := false, expelCause := 0 } } else s.checkExpel := by
  have low : bitsOf (2 ^ 30 + n) 9 0 = n := by simp only [bitsOf, Nat.shiftRight_zero]; omega
  have clears : bitOf (2 ^ 30 + n) 30 = true := by
    rw [bitOf, Nat.testBit_two_pow_add_eq, Nat.testBit_lt_two_pow (by omega)]; rfl
  have same : ({ s with health := { s.health with expelThresh := n } } : State) = s := by subst hs; rfl
  simp only [State.writeExpel, low, Nat.not_lt.mpr hn, if_false, same, clears, Bool.true_and]
  subst hs
  rfl

theorem exec_expelClear_eq (hb : s.boot.stepEight = true) (hn : s.health.expelThresh ≤ 1000) : exec .expelClear s = .next
    (if s.wakeDeep.expelWhy.isNone then { s.wakeDeep with health := { s.wakeDeep.health with expelled := false, expelCause := 0 } }
      else s.wakeDeep.checkExpel) :=
  congrArg Host.Outcome.next ((if_pos hb).trans (State.writeExpel_clear hn (by rw [State.wakeDeep_health])))

/-- A module that is expelled and has a cause stays so. -/
theorem State.checkExpel_expelled {c : Nat} (hc : s.expelWhy = some c) (he : s.health.expelled = true) :
    s.checkExpel.health.expelled = true := by
  unfold State.checkExpel
  split
  case h_5 => exact he
  all_goals rw [hc]; exact (congrArg (fun t : State => t.health.expelled) (if_pos he)).trans he

end

end Sys2Proof.Machine

section
open Sys2Proof Sys2Proof.Machine

/-- Settles O48: the clearing of an expulsion by its cause, the tasks by what defers them, and the bound of a score. -/
theorem healthCommandsComplete : Obligations.HealthCommandsComplete := by
  refine ⟨fun s => rfl, fun s => ⟨rfl, rfl, rfl, rfl, rfl⟩, fun s w hb hn hw hwhy => ?_, fun s c hb hn hwhy he => ?_, fun s ms h => ?_,
    fun s d ms hd hop hst => ?_, fun s us h => ?_, fun s u hu => ?_⟩
  · subst hw
    rw [exec_expelClear_eq hb hn, hwhy]
    rfl
  · refine ⟨_, exec_expelClear_eq hb hn, ?_⟩
    rw [hwhy, if_neg (by simp)]
    exact State.checkExpel_expelled hwhy (by rw [State.wakeDeep_health, he])
  · refine congrArg Host.Outcome.next ((if_neg ?_).trans ?_)
    · simp [State.staging, h]
    · simp only [State.wearDue, decide_eq_true_eq]
  · refine congrArg Host.Outcome.next (if_pos ?_)
    exact List.any_eq_true.mpr ⟨d, hd, by simp [isOp_of hop, hst]⟩
  · refine congrArg Host.Outcome.next ((if_neg ?_).trans ?_)
    · rcases h with h | h
      · have quiet : s.dumping = false := by simpa [State.dumping] using h
        simp [quiet]
      · simp [State.sweepDue, h]
    · simp only [State.sweepDue, decide_eq_true_eq]
  · rw [State.rescore_units] at hu
    obtain ⟨x, -, rfl⟩ := List.mem_map.mp hu
    exact State.unitScore_le _ _
end

/-! SUPPORT. The cycles of an act: start, comparison and deadline (R525 to R534). -/

namespace Sys2Proof.Machine

section
variable {s : State} {p n k : Nat} {c : Cyclic}

/-- A cycle that is due, of an act that runs here. -/
theorem exec_cycleStart_due (hc : (s.act p n).cyc = some c) (hst : (s.act p n).st = .scheduled) (hdue : c.start c.next ≤ s.now)
    (hleft : c.left ≠ some 0) (hper : c.periodUs ≠ 0) (hact : c.paired = true → s.pair.role = .active) (hload : c.loading = false) :
    exec (.cycleStart p n) s = .next
      (if c.running.isSome then (((s.onCyc p n (fun x => { x.counted with last := 4 })).countLate p n 2 c.next).endCycle p n)
      else if c.next < c.unskipped s then
        (((((List.range (c.unskipped s - c.next)).map (fun i => c.next + i)).foldl
          (fun (t : State) k => (t.onCyc p n (fun x => { x.counted with last := 4 })).countLate p n 2 k) s).publishHeld p n
            (c.unskipped s - 1)).endCycle p n)
      else ((((s.snapshot p c).startLanes p n c).onAct p n (fun x => { x with cycles := x.cycles + 1 })).onCyc p n
        (fun x => { x.counted with running := some c.next, owed := some c.next, late := false, retried := false,
                                   holding := false }))) := by
  have due : ¬((s.act p n).st != .scheduled || decide (s.now < c.start c.next) || c.left == some 0 || decide (c.periodUs = 0)) = true := by
    simp [hst, Nat.not_lt.mpr hdue, hleft, hper]
  have here : ¬(c.paired && s.pair.role != .active) = true := by
    cases hp : c.paired
    · simp
    · simp [hact hp]
  change execCycleStart p n s = _
  simp only [execCycleStart, hc, due, here, hload, Bool.false_eq_true, if_false]

/-- A publication that is owed when its time has come, of an act that is not paired. -/
theorem exec_cycleDeadline_due (hc : (s.act p n).cyc = some c) (ho : c.owed = some k) (hdue : c.deadline k ≤ s.now)
    (hp : c.paired = false) : exec (.cycleDeadline p n) s = .next
      ((if c.running.isSome || (if c.retried then 3 else 2) = 2 then
        ((s.publishHeld p n k).onCyc p n (fun x => { x with owed := none, last := if c.retried then 3 else 2, late := true })).countLate p n 1 k
      else (s.publishHeld p n k).onCyc p n (fun x => { x with owed := none, last := if c.retried then 3 else 2, late := true })).endCycle
        p n) := by
  change execCycleDeadline p n s = _
  simp only [execCycleDeadline, hc, ho, Nat.not_lt.mpr hdue, if_false, hp, Bool.false_and, Bool.false_eq_true]

/-- Lanes that have run, of a cycle that runs. -/
theorem exec_laneComplete_matched {dig : List Byte} (hc : (s.act p n).cyc = some c) (hk : c.running = some k) (hd : s.actDescs p n = [])
    (hm : s.matched p n c = some dig) : exec (.laneComplete p n) s = .next (s.laneMatch p n k c dig) := by
  change execLaneComplete p n s = _
  simp only [execLaneComplete, hc, hk, hd, List.isEmpty_nil, Bool.not_true, Bool.false_eq_true, if_false, hm]

theorem exec_laneComplete_differ (hc : (s.act p n).cyc = some c) (hk : c.running = some k) (hd : s.actDescs p n = [])
    (hm : s.matched p n c = none) : exec (.laneComplete p n) s = .next (s.laneMismatch p n k c) := by
  change execLaneComplete p n s = _
  simp only [execLaneComplete, hc, hk, hd, List.isEmpty_nil, Bool.not_true, Bool.false_eq_true, if_false, hm]

end

end Sys2Proof.Machine

section
open Sys2Proof Sys2Proof.Machine

/-- Settles O49: the three courses of a start, the comparison, and the two outcomes at the deadline. -/
theorem cycleCommandsComplete : Obligations.CycleCommandsComplete := by
  refine ⟨fun s p n c hc hst hdue hleft hper hact hload => ⟨fun k hk => ?_, fun hk hlt => ?_, fun hk hle => ?_⟩,
    fun s p n k c hc hk hd => ⟨fun dig hm => exec_laneComplete_matched hc hk hd hm, fun hm => exec_laneComplete_differ hc hk hd hm⟩,
    fun s p n k c hc ho hdue hp hr hk => ?_,
    fun s p n k c hc ho hdue hp hr => ?_, fun s c h => ?_, fun c k => ⟨rfl, rfl⟩⟩
  · rw [exec_cycleStart_due hc hst hdue hleft hper hact hload, hk]
    rfl
  · rw [exec_cycleStart_due hc hst hdue hleft hper hact hload, hk, if_neg (by simp), if_pos hlt]
  · rw [exec_cycleStart_due hc hst hdue hleft hper hact hload, hk, if_neg (by simp), if_neg (Nat.not_lt.mpr hle)]
  · rw [exec_cycleDeadline_due hc ho hdue hp, hr, hk]
    rfl
  · rw [exec_cycleDeadline_due hc ho hdue hp, hr]
    exact congrArg (fun t : State => Host.Outcome.next (t.endCycle p n)) (if_pos (by simp))
  · unfold Cyclic.unskipped
    cases ha : s.host.stepAt with
    | none => exact Nat.zero_max _
    | some a => simp [Nat.not_le.mpr (h a ha)]
end

/-! SUPPORT. The resolution of precedence, the selection of states and the steps of a domain (R26 to R30, R143, R148 to R154). -/

namespace Sys2Proof.Machine

section
variable {s : State} {p k : Nat} {cadence : Option Nat}

/-- A resolution shows the powers reported. -/
theorem State.resolveLevels_measures (h : s.boot.st.live = true) : s.resolveLevels.power.busDv = satTo 16 s.power.report.busDv ∧
    s.resolveLevels.power.powerDw = satTo 16 s.power.report.inputDw ∧
    s.resolveLevels.power.nodeDv = satTo 16 s.power.report.nodeDv ∧ s.resolveLevels.power.switchOn = s.power.switchOn := by
  have resolved := (State.resolveLevels_live s h).1
  unfold State.Resolved at resolved
  rw [resolved]
  exact ⟨rfl, rfl, rfl, rfl⟩

/-- The guards of a selection pass. -/
theorem exec_stateSelection_eq (hp : p < 16) (hd : (s.part p).host.doze = .dozing) (hs : s.sec.steward = true)
    (he : s.thermal.emergency = false) (ho : s.power.shutdown = false) (hl : s.boot.st.live = true) :
    exec (.stateSelection p cadence) s = .next
      (if s.moduleMay .deep p cadence then ((List.range 16).foldl (fun (t : State) k => t.wantDom .deep k)
        (s.withDoms.foldl (fun (t : State) q => t.planWake q .deep (if q = p then cadence else none)) s)).resolveLevels
      else if s.moduleMay .dark p cadence then ((List.range 16).foldl (fun (t : State) k => t.wantDom .dark k)
        (s.withDoms.foldl (fun (t : State) q => t.planWake q .dark (if q = p then cadence else none)) s)).resolveLevels
      else ((s.domsOf p).foldl (fun (t : State) k => t.wantDom (s.ownChoice p cadence) k)
        (s.planWake p (s.ownChoice p cadence) cadence)).resolveLevels) := by
  refine congrArg Host.Outcome.next (if_neg ?_)
  simp [Nat.not_le.mpr hp, hd, hs, he, ho, hl]

end

end Sys2Proof.Machine

section
open Sys2Proof Sys2Proof.Machine

/-- Settles O28: the resolution's own facts, and each command by the guards that it passes. -/
theorem powerStateCommandsComplete : Obligations.PowerStateCommandsComplete := by
  refine ⟨fun s r h => ?_, fun s r h => ?_, fun s t u p a hf hp hfirst hdue hrest ht hu => ?_,
    fun s p cadence hp hd hs he ho hl hdeep hdark => ?_, fun s p cadence st hp hd hs he ho hl hst => ?_,
    fun s k why hk hw he ho hl ha => ?_, fun s k hk hne ht hv he ho => ?_, fun s t k hk ht => ?_⟩
  · exact congrArg Host.Outcome.next (if_neg (ne_true_of_eq_false h))
  · let t : State := { s with power := { s.power.backOff r.busDv r.nodeDv with report := r } }
    have live : t.boot.st.live = true := h
    obtain ⟨-, room⟩ := State.resolveLevels_live t live
    obtain ⟨hbus, hpow, hnode, hon⟩ := State.resolveLevels_measures live
    exact ⟨t.resolveLevels, congrArg Host.Outcome.next (if_pos live), room, State.resolveLevels_report t, State.resolveLevels_mem t,
      State.resolveLevels_boot t, State.resolveLevels_host t, hbus, hpow, hnode, hon⟩
  · subst ht hu
    change execFixedRateResume p s = _
    simp only [execFixedRateResume, hf, hfirst]
    exact congrArg Host.Outcome.next (if_pos (by simp [hp, hdue, hrest]))
  · rw [exec_stateSelection_eq hp hd hs he ho hl, if_neg (ne_true_of_eq_false hdeep), if_neg (ne_true_of_eq_false hdark)]
  · rw [exec_stateSelection_eq hp hd hs he ho hl]
    rcases hst with ⟨hdeep, rfl⟩ | ⟨hdeep, hdark, rfl⟩
    · rw [if_pos hdeep]
    · rw [if_neg (ne_true_of_eq_false hdeep), if_pos hdark]
  · refine congrArg Host.Outcome.next ((if_neg ?_).trans (if_neg (ne_true_of_eq_false ha)))
    simp [Nat.not_le.mpr hk, hw, he, ho, hl]
  · change execDomainStateReached k s = _
    simp only [execDomainStateReached]
    have there : (match (s.dom k).target with
      | .run | .hold => decide (220 ≤ (s.dom k).volt)
      | .rest => (s.dom k).volt == 220
      | .dark | .deep => true) = true := by
      simp only [List.mem_cons, List.not_mem_nil, or_false] at ht
      rcases ht with h | h <;> rw [h] <;> exact decide_eq_true hv
    refine congrArg Host.Outcome.next ((if_neg ?_).trans (if_neg ?_))
    · simp only [Bool.or_eq_true, decide_eq_true_eq, Bool.not_eq_true', not_or, Nat.not_le, Bool.not_eq_false]
      exact ⟨⟨hk, hne⟩, there⟩
    · simp [he, ho]
  · subst ht
    change execVoltageStep k s = _
    unfold execVoltageStep
    refine congrArg (fun f => Host.Outcome.next ((s.settleDom k).onDom k f)) (funext fun d => ?_)
    split
    · rfl
    · split
      · rfl
      · split <;> rfl
end

/-! SUPPORT. The states of a link port and the frames that it takes (R369 to R377, R389). -/

namespace Sys2Proof.Machine

section
variable {s : State} {n typ v : Nat} {b : List Byte} {f : Frame} {states : List LinkSt} {k : Frame → State → State}

/-- A write of a port's configuration that names a width, on a port that is not fenced. -/
theorem State.writePortCfg_eq (hw : bitsOf v 29 28 ≠ 3) (hf : (s.unit 2 n).fenced = false) : s.writePortCfg n v =
    (let t := s.onLp n (fun p => { p with rate106 := v.testBit 30, widthMin := bitsOf v 29 28, enable := v.testBit 31 })
     if v.testBit 31 then t.tryTrain n else t.linkOff n) := by
  simp only [State.writePortCfg, hw, if_false, hf, Bool.not_false, Bool.and_true, bitOf]

/-- A port that takes a frame of the type in one of the states. -/
theorem State.takeFrame_eq (hn : n < 8) (hc : s.clocked 2 n = true) (he : (s.lp n).enable = true) (hf : Frame.ofBytes b = some f)
    (ht : f.typ = typ) (hst : (s.lp n).st ∈ states) (hoff : (s.lp n).st ≠ .off) (hfail : (s.lp n).st ≠ .failed) :
    s.takeFrame n typ b states k = k f (if typ = 1 then s.progress 2 n else s) := by
  have guard : ¬(decide (n ≥ 8) || !s.clocked 2 n || !(s.lp n).enable || (s.lp n).st == .off || (s.lp n).st == .failed) = true := by
    simp [Nat.not_le.mpr hn, hc, he, hoff, hfail]
  have mine : (decide (f.typ = typ) && states.contains (s.lp n).st) = true := by simp [ht, hst]
  simp only [State.takeFrame, guard, hf, mine, if_true, Bool.false_eq_true, if_false]

/-- A frame that does not read is counted, whatever type it was to have. -/
theorem State.takeFrame_bad (hn : n < 8) (hc : s.clocked 2 n = true) (he : (s.lp n).enable = true) (hf : Frame.ofBytes b = none)
    (hoff : (s.lp n).st ≠ .off) (hfail : (s.lp n).st ≠ .failed) :
    s.takeFrame n typ b states k = s.onLp n (fun p => { p with crcErr := satTo 16 (p.crcErr + 1) }) := by
  have guard : ¬(decide (n ≥ 8) || !s.clocked 2 n || !(s.lp n).enable || (s.lp n).st == .off || (s.lp n).st == .failed) = true := by
    simp [Nat.not_le.mpr hn, hc, he, hoff, hfail]
  simp only [State.takeFrame, guard, hf, Bool.false_eq_true, if_false]

/-- Bytes of the wrong length, or whose CRC differs, are no frame. -/
theorem Frame.ofBytes_none (h : b.length ≠ 528 ∨ crc32.bytes (b.take 524) ≠ b.drop 524) : Frame.ofBytes b = none := by
  have bad : (b.length == 528 && crc32.bytes (b.take 524) == b.drop 524) = false := by
    simpa only [Bool.and_eq_false_iff, beq_eq_false_iff_ne] using h
  simp only [Frame.ofBytes, bad, Bool.false_and, Bool.false_eq_true, if_false]

end

end Sys2Proof.Machine

section
open Sys2Proof Sys2Proof.Machine

/-- Settles O24: each command of a port in the state that it needs, and a bad frame under any type. -/
theorem linkCommandsComplete : Obligations.LinkCommandsComplete := by
  refine ⟨fun s w n v hb hn hw hww hf => ⟨fun h31 => ?_, fun h31 => ?_⟩, fun s t n lanes slow hn hc hst hhello hwidth ht => ?_,
    fun s n hn hst hdue => ?_, fun s n why hn hc hst hstuck => ?_, fun s n hn hst hdue => ?_,
    fun s n b f hn hc he hst hf => ⟨fun ht => ?_, fun ht => ?_, fun ht => ?_⟩, fun s n b f hn hc he hst hf ht => ?_,
    fun s n d l hn hc hst hk hdue => ?_, fun s n d l hk => ?_, fun s w v hb hw hs ho => ?_, fun s w v hb hw h => ?_,
    fun s n b c hn hc he hst hbad hmem => ?_⟩
  · subst hww
    refine congrArg Host.Outcome.next ((if_pos (by simp [hb, hn, bitOf, h31])).trans ?_)
    rw [State.writePortCfg_eq hw hf, h31]
    rfl
  · subst hww
    refine congrArg Host.Outcome.next ((if_pos (by simp [hb, hn, bitOf, h31])).trans ?_)
    rw [State.writePortCfg_eq hw hf, h31]
    rfl
  · subst ht
    refine congrArg Host.Outcome.next (if_pos ?_)
    simp [hn, hc, hst, hhello, hwidth]
  · exact congrArg Host.Outcome.next (if_pos (by simp [hn, hst, hdue]))
  · refine congrArg Host.Outcome.next (if_pos ?_)
    cases why <;> simp [hn, hc, hst, hstuck]
  · exact congrArg Host.Outcome.next (if_pos (by simp [hn, hst, hdue]))
  · exact congrArg Host.Outcome.next (State.takeFrame_eq hn hc he hf ht (by simp [hst]) (by simp [hst]) (by simp [hst]))
  · exact congrArg Host.Outcome.next (State.takeFrame_eq hn hc he hf ht (by simp [hst]) (by simp [hst]) (by simp [hst]))
  · exact congrArg Host.Outcome.next (State.takeFrame_eq hn hc he hf ht (by simp [hst]) (by simp [hst]) (by simp [hst]))
  · refine congrArg Host.Outcome.next ((State.takeFrame_eq hn hc he hf ht (by simp [hst]) (by simp [hst]) (by simp [hst])).trans ?_)
    exact if_pos (by simp [hst])
  · change execReplayTimer n s = _
    simp only [execReplayTimer, hk]
    exact congrArg Host.Outcome.next (if_pos (by simp [hn, hc, hst, hdue]))
  · change execCreditReturn n s = _
    simp only [execCreditReturn, hk]
  · subst hw
    have unsealed : s.sec.sealed = false := by simpa using hs
    exact congrArg Host.Outcome.next ((if_pos hb).trans (if_neg (by simp [unsealed, ho])))
  · subst hw
    refine congrArg Host.Outcome.next ((if_pos hb).trans (if_pos ?_))
    simpa using h
  · have noFrame := Frame.ofBytes_none hbad
    have up : (s.lp n).st ≠ .off ∧ (s.lp n).st ≠ .failed := by
      simp only [List.mem_cons, List.not_mem_nil, or_false] at hst
      rcases hst with h | h | h <;> simp [h]
    simp only [List.mem_cons, List.not_mem_nil, or_false] at hmem
    rcases hmem with rfl | rfl | rfl | rfl <;>
      exact congrArg Host.Outcome.next (State.takeFrame_bad hn hc he noFrame up.1 up.2)
end

/-! SUPPORT. Stream channels and field ports (R281, R396 to R409). -/

namespace Sys2Proof.Machine

section
variable {s : State} {p n c : Nat} {d : Desc} {f : List Byte}

/-- A descriptor on an open channel that is its partition's. -/
theorem State.mediaCheck_none (hop : d.op ≠ 0x70) (hc : (s.part p).sec.channels.getLsbD d.chan = true) (ho : (s.chan d.chan).isOpen = true) :
    s.mediaCheck p d = none := by
  simp [State.mediaCheck, hc, ho, hop]

/-- A frame that a field port takes while no precision time runs. -/
theorem exec_fieldFrameReceive_eq (hn : n < 2) (hc : s.clocked 3 n = true) (he : (s.fp n).enable = true) (hu : (s.fp n).up = true)
    (hp : s.field.ptpEnable = false) : exec (.fieldFrameReceive n f) s = .next
      (if s.ingressBytes n + f.length > 0x200000 then
        { s with field := { s.field with ports := updAt s.field.ports n (fun p => { p with bufFull := satTo 16 (p.bufFull + 1) }) } }
      else { s with field := { s.field with ports := updAt s.field.ports n (fun p => { p with ingress := p.ingress ++ [(s.now, f)] }) } }) := by
  have guard : ¬(decide (n ≥ 2) || !s.clocked 3 n || !(s.fp n).enable || !(s.fp n).up) = true := by
    simp [Nat.not_le.mpr hn, hc, he, hu]
  change execFieldFrameReceive n f s = _
  simp only [execFieldFrameReceive, guard, hp, Bool.false_and, Bool.false_eq_true, if_false]

/-- A field port that loses its link. -/
theorem State.fieldLink_down {fec : Nat} (hn : n < 2) (hu : (s.fp n).up = true) : ∃ ps, s.fieldLink n false fec = { s with
    field := { s.field with ports := updAt s.field.ports n (fun p => { p with up := false, fecUse := 0, txq := [] }) }, parts := ps } := by
  have guard : ¬(decide (n ≥ 2) || (s.fp n).up == false || (false && !s.clocked 3 n) ||
      (false && (!(s.fp n).enable || (s.unit 3 n).fenced))) = true := by
    simp [Nat.not_le.mpr hn, hu]
  simp only [State.fieldLink, guard, Bool.false_eq_true, if_false]
  exact State.foldl_raise _ _ _ _

end

end Sys2Proof.Machine

section
open Sys2Proof Sys2Proof.Machine

/-- Settles O22: the courses of the channels' commands, the ports, the protocol engine and the channels' timers. -/
theorem streamCommandsComplete : Obligations.StreamCommandsComplete := by
  refine ⟨fun s u w r d b h hop hc hu hw hb => ?_, fun s u w r d h hop hch ho hu hw => ?_,
    fun s u w r d a b data h hop hch ho hf ha hbad hu hw hb hd => ?_, fun s n f hn hc he hu hp hfit => ?_,
    fun s n f hn hc he hu hp hfull => ?_, fun s n fec hn hu => ?_, fun s c hc => ?_, fun s c hr hne hdue => ?_,
    fun s c ho hr hdue => ?_, fun s c hr hlim hst hdue => ?_⟩
  · subst hw
    refine h.exec_run (i := .streamOpen r) rfl (isOp_of hop) hc hu.symm ?_
    simp only [hb]
    rfl
  · subst hw
    exact h.exec_run (i := .streamClose r) rfl (isOp_of hop) (State.mediaCheck_none (by simp [hop]) hch ho) hu.symm rfl
  · subst hw
    refine h.exec_run (i := .resultFrame r) rfl (isOp_of hop) ?_ hu.symm ?_
    · simp [State.mediaCheck_none (by simp [hop]) hch ho, hf, ha, hbad]
    · simp only [hb, hd, bind, Except.bind]
  · rw [exec_fieldFrameReceive_eq hn hc he hu hp, if_neg (Nat.not_lt.mpr hfit)]
  · rw [exec_fieldFrameReceive_eq hn hc he hu hp, if_pos hfull]
  · obtain ⟨ps, h⟩ := State.fieldLink_down (s := s) (fec := fec) hn hu
    exact ⟨_, congrArg Host.Outcome.next h, rfl, rfl, rfl⟩
  · change execProtocolEngineSlice s = _
    simp only [execProtocolEngineSlice, hc]
  · exact congrArg Host.Outcome.next (if_pos (by simp [hr, hne, hdue]))
  · change execRtcpReport c s = _
    have guard : ¬(!((s.chan c).isOpen && (s.chan c).useRtcp) || decide (s.now < (s.chan c).reportAt + 5000000000)) = true := by
      simp [ho, hr, hdue]
    have time : (if (s.chan c).rtcp.self.isSome || decide ((s.chan c).kind = 2) then s else s.tick).now = s.now := by split <;> rfl
    simp only [execRtcpReport, guard, if_false, time, Bool.false_eq_true] <;> rfl
  · exact congrArg Host.Outcome.next (if_pos (by simp [hr, hlim, hst, hdue]))
end

/-! SUPPORT. Codec contexts, the carousel and the ends of pictures and access units (R414 to R437). -/

namespace Sys2Proof.Machine

section
variable {s : State} {n : Nat} {i : CodecItem} {x : VidCtx}

/-- An item that has parts left gives up its core. -/
theorem State.partDone_more {errors : Nat} (h : x.parts.2 + 1 < s.partsOf i.chan x) : s.partDone n i x errors =
    ((s.freeCore n i errors).onCtx i.chan (fun y => { y with parts := (y.parts.1, y.parts.2 + 1) }), false) := by
  simp only [State.partDone, decide_eq_false (Nat.not_le.mpr h), Bool.false_eq_true, if_false]

/-- An item's last part. -/
theorem State.partDone_last {errors : Nat} (h : s.partsOf i.chan x ≤ x.parts.2 + 1) : s.partDone n i x errors =
    ((s.freeCore n i errors).onCtx i.chan (fun y => { y with parts := (0, 0) }), true) := by
  simp only [State.partDone, decide_eq_true h, if_true]

end

end Sys2Proof.Machine

section
open Sys2Proof Sys2Proof.Machine

/-- Settles O23: commands join their context, cores take and give up items, pictures and units end, pools and the carousel. -/
theorem videoCommandsComplete : Obligations.VideoCommandsComplete := by
  refine ⟨fun s t u r d b h hop ht hm hk hb hbad hctx hpeek hu => ?_, fun s r d a x k hd hop hst ht hdue hx hk => ?_,
    fun s t u r d b l fs h hop ht hm hk hb hbad hctx hlist hpeek hu hl hfs => ?_,
    fun s u w t r d b x v o at_ h hop hc hu hw hb hx hv hat hr => ?_, fun s n i hn hc hi hf hr hp => ?_,
    fun s n i x hpre hlive hbusy hlong => ?_, fun s n i x us hi he hc hx hus hmore => ?_,
    fun s t u n i x us r b hi he hc hx hus hlast hr hb ht hu => ?_, fun s n i x hi he hc hx hmore => ?_,
    fun s t n i x f key kind hi he hc hx hlast hn ht => ?_, fun s c x hx => ?_, fun s c x a hx ha hs hdue => ?_,
    fun s v hb hd hlo hhi => ?_⟩
  · subst ht hu hpeek
    refine h.exec_start (i := .decode r) rfl (isOp_of hop) ?_
    simp [hm, hk, hb, hbad, hctx]
  · change execDecodeTimeReached r s = _
    have due : (isOp 0x72 d && d.startedAt.isSome && d.fld 32 8 != 0 && decide (s.now ≥ d.fld 32 8)) = true := by
      simp [isOp_of hop, hst, ht, hdue]
    have found : (s.ctx? d.chan).bind (fun y => y.cmds.find? (fun k => k.num == d.num)) = some k := by rw [hx]; exact hk
    simp only [execDecodeTimeReached, hd, due, if_true, found]
  · subst ht hu hpeek hl hfs
    refine h.exec_start (i := .encode r) rfl (isOp_of hop) ?_
    simp [hm, hk, hb, hbad, hctx, hlist]
  · subst hw hat
    refine h.exec_run (i := .scale r) rfl (isOp_of hop) hc hu.symm ?_
    have values : (u.atWork r.part d).scaled r.part x ⟨b⟩ ((u.atWork r.part d).picRecord d.chan x ((ScaleBlock.mk b).fld 0 4)) = .ok v := hv
    simp only [hb, bind, Except.bind, hx, values]
    exact hr
  · have guard : ¬(decide (n ≥ 8) || !s.clocked 1 n || (s.video.cores.getD n {}).item.isSome || (s.unit 1 n).fenced ||
        (s.unit 1 n).recov != .idle) = true := by
      simp only [hc, hi, hf, hr]
      simp [Nat.not_le.mpr hn]
    change execCodecCoreDispatch n s = _
    simp only [execCodecCoreDispatch, guard, Bool.false_eq_true, if_false, hp]
  · change execCodecPreempt s = _
    unfold execCodecPreempt
    extract_lets lives live
    have best : live = some i := hlive
    simp only [hpre, best, hlong]
    refine congrArg Host.Outcome.next (if_neg ?_)
    simp only [List.any_eq_true, List.mem_range, Bool.and_eq_true, not_exists, not_and]
    rintro m hm ⟨⟨hfree, -⟩, -⟩
    exact absurd (hbusy m hm) (by rw [Option.isNone_iff_eq_none.mp hfree]; decide)
  · change execPictureDone n s = _
    simp only [execPictureDone, hi, he, hc, hx, Bool.not_true, Bool.or_self, hus, Nat.not_le.mpr hmore, if_false,
      State.partDone_more hmore, Bool.not_false, if_true]
  · subst ht hu hr hb
    change execPictureDone n s = _
    simp only [execPictureDone, hi, he, hc, hx, Bool.not_true, Bool.or_self, hus, hlast, if_true, State.partDone_last hlast,
      Bool.false_eq_true, if_false]
  · change execEncodeUnitDone n s = _
    simp only [execEncodeUnitDone, hi, he, hc, hx, Bool.and_self, State.partDone_more hmore, Bool.not_false, if_true]
  · subst ht
    change execEncodeUnitDone n s = _
    simp only [execEncodeUnitDone, hi, he, hc, hx, Bool.and_self, State.partDone_last hlast, Bool.not_true, Bool.false_eq_true,
      if_false, hn]
  · change execReadIdxPoll c s = _
    simp only [execReadIdxPoll, hx]
  · change execPoolWait c s = _
    simp only [execPoolWait, hx, ha]
    exact congrArg Host.Outcome.next (if_pos (by simp [hs, hdue]))
  · refine congrArg Host.Outcome.next ((if_pos hb).trans ?_)
    rw [State.wakeDeep_awake s hd]
    exact if_neg (by simp [Nat.not_lt.mpr hlo, Nat.not_lt.mpr hhi])
end

/-! SUPPORT. Precision time and PTM (R217, R395); rate pages and descriptor timeouts (R113 to R117, R253). -/

namespace Sys2Proof.Machine

/-- A write of the PTP control register is of the field block, and of the events that its new state raises. -/
theorem State.writePtpCtrl_spec {s : State} {v : Nat} (h : bitsOf v 17 16 ≠ 3) :
    (s.writePtpCtrl v).field.ptpEnable = v.testBit 31 ∧ (s.writePtpCtrl v).field.transport = bitsOf v 17 16 ∧
      (s.writePtpCtrl v).field.ptpPort = bitsOf v 12 12 ∧ (s.writePtpCtrl v).field.delay = v.testBit 11 ∧
      (s.writePtpCtrl v).field.domain = bitsOf v 7 0 ∧
      s.writePtpCtrl v = { s with field := (s.writePtpCtrl v).field, parts := (s.writePtpCtrl v).parts } ∧
      (s.writePtpCtrl v).field.ports = s.field.ports ∧ (s.writePtpCtrl v).field.chans = s.field.chans ∧
      (s.writePtpCtrl v).field.crcs = s.field.crcs := by
  rw [State.writePtpCtrl, if_neg h]
  obtain ⟨ps, hps⟩ := s.onPtp_eq (fun f =>
    let fresh := f.ptpEnable != bitOf v 31 || f.ptpPort != bitsOf v 12 12 || f.domain != bitsOf v 7 0 ||
      f.transport != bitsOf v 17 16 || f.delay != bitOf v 11
    { f with ptpEnable := bitOf v 31, transport := bitsOf v 17 16, ptpPort := bitsOf v 12 12, delay := bitOf v 11,
             domain := bitsOf v 7 0, ptp := if fresh then {} else f.ptp, offsets := if fresh then [] else f.offsets,
             holdover := !fresh && f.holdover })
  rw [hps]
  exact ⟨rfl, rfl, rfl, rfl, rfl, rfl, rfl, rfl, rfl⟩

end Sys2Proof.Machine

section
open Sys2Proof Sys2Proof.Machine

/-- Settles O25: holdover by the age of the last Announce, and the two control writes in their ranges. -/
theorem timeCommandsComplete : Obligations.TimeCommandsComplete := by
  refine ⟨fun s he hh hm hdue => ?_, fun s f => s.onPtp_eq f, fun s w v hb hv hw => ?_, fun s w v hb hw hlo hhi => ?_⟩
  · exact congrArg Host.Outcome.next (if_pos (by simp [he, hh, hm, hdue]))
  · subst hw
    exact ⟨_, congrArg Host.Outcome.next (if_pos hb), State.writePtpCtrl_spec hv⟩
  · subst hw
    refine congrArg Host.Outcome.next ((if_pos hb).trans (if_neg ?_))
    simp only [Bool.or_eq_true, decide_eq_true_eq]
    omega

/-- Settles O31: the writes of a rate page's control, a sample that is due, and the limits of a descriptor. -/
theorem rateCommandsComplete : Obligations.RateCommandsComplete := by
  refine ⟨fun s w v hb h31 hlo hhi hw hs hoff => ?_, fun s w v hb h31 hw => ?_, fun s p v hb hp hr => ?_, fun s v hb h31 hbad => ?_,
    fun s page a he hs hn hdue => ?_, fun s r d hd ho => ?_, fun s p d he ht => ?_⟩
  · subst hw
    refine congrArg Host.Outcome.next ((if_pos (by simp [hb])).trans ?_)
    have on : bitOf v.toNat 31 = true := h31
    have range : (decide (bitsOf v.toNat 16 0 < 10) || decide (bitsOf v.toNat 16 0 > 100000)) = false := by
      simp only [Bool.or_eq_false_iff, decide_eq_false_iff_not]; omega
    simp only [State.writeRateCtrl, on, range, Bool.and_false, Bool.false_eq_true, if_false, hs, if_true, State.onRate, Bool.not_true, hoff]
  · subst hw
    refine congrArg Host.Outcome.next ((if_pos (by simp [hb])).trans ?_)
    simp only [State.writeRateCtrl, bitOf, h31, Bool.false_and, Bool.false_eq_true, if_false, State.onRate, Bool.not_false, if_true]
  · exact congrArg Host.Outcome.next (if_pos (by simp [hb, hp, hr]))
  · refine congrArg Host.Outcome.next ((if_pos (by simp [hb])).trans (if_pos ?_))
    simp only [bitOf, h31, Bool.true_and, Bool.or_eq_true, decide_eq_true_eq]
    exact hbad
  · exact congrArg Host.Outcome.next (if_pos (by simp [he, hs, hn, hdue]))
  · change execDescriptorTimeout r s = _
    simp only [execDescriptorTimeout, hd, ho, if_true]
  · simp [State.limitOf, he, ht, or_assoc]
end

/-! SUPPORT. Scrub and recalibration (R205, R206, R208); translation caches and the table root (R201, R209, R604). -/

namespace Sys2Proof.Machine

/-- A write of the low word of a partition's root. -/
theorem State.writePtRootLo_eq {s : State} {p v : Nat} (hst : (s.part p).sec.st ≠ .running) : ∃ f : Part → Part,
    s.writePtRootLo p v = s.onPart p f ∧ (f (s.part p)).mem.enable = v.testBit 0 ∧
      (f (s.part p)).mem.root = (s.part p).mem.root / 2 ^ 32 * 2 ^ 32 + v / 4096 % 2 ^ 20 * 4096 ∧
      (f (s.part p)).mem.xlat = if v.testBit 0 = (s.part p).mem.enable then (s.part p).mem.xlat else [] := by
  have bits : bitsOf v 31 12 = v / 4096 % 2 ^ 20 := by simp [bitsOf, Nat.shiftRight_eq_div_pow]
  by_cases h : v.testBit 0 = (s.part p).mem.enable
  · have keeps : ¬(bitOf v 0 != (s.part p).mem.enable) = true := by simpa only [bitOf, bne_iff_ne, ne_eq, Decidable.not_not] using h
    rw [State.writePtRootLo, if_neg hst]
    simp only [keeps, if_false, Bool.false_eq_true]
    exact ⟨_, rfl, rfl, by rw [bits], (if_pos h).symm⟩
  · have drops : (bitOf v 0 != (s.part p).mem.enable) = true := by simpa only [bitOf, bne_iff_ne, ne_eq, Decidable.not_not] using h
    rw [State.writePtRootLo, if_neg hst]
    simp only [drops, if_true, State.dropXlat, State.onPart, updAt, List.modify_modify_eq]
    exact ⟨_, rfl, rfl, by rw [← bits]; rfl, (if_neg h).symm⟩

end Sys2Proof.Machine

section
open Sys2Proof Sys2Proof.Machine

/-- Settles O35: a step on an idle channel, the forced slices by the lag, and a recalibration by what makes it due. -/
theorem scrubCommandsComplete : Obligations.ScrubCommandsComplete := by
  refine ⟨fun s i ch pa fs hu hi hpa => ?_, fun s i ch us hu hs hwin => ⟨fun hlag hf => ?_, fun hlag => ?_⟩,
    fun s i ch moved hu hc hdue => ?_, fun s i ch t hu hs hd hlate hlast => ?_⟩
  · change execScrubStep i ch fs s = _
    simp only [execScrubStep, hu, hi, hpa, Bool.not_true, Bool.false_and, Bool.or_self, Bool.false_eq_true, if_false]
  · change execScrubForcedSlice i ch us s = _
    have guard : ¬(!s.chanUp i ch || !s.slotOpen 0x11 || decide ((s.channel i ch).forcedIn s.now + us > 200)) = true := by
      simp [hu, hs, Nat.not_lt.mpr hwin]
    simp only [execScrubForcedSlice, guard, Bool.false_eq_true, if_false, gt_iff_lt, hlag, if_true, hf, Bool.not_false, Bool.and_self]
  · change execScrubForcedSlice i ch us s = _
    have guard : ¬(!s.chanUp i ch || !s.slotOpen 0x11 || decide ((s.channel i ch).forcedIn s.now + us > 200)) = true := by
      simp [hu, hs, Nat.not_lt.mpr hwin]
    have early : ¬6 * 3600000000000 < s.mem.lagNs s.now i (s.channel i ch) := by omega
    simp only [execScrubForcedSlice, guard, if_false, gt_iff_lt, early, hlag, if_true, Bool.false_and, Bool.false_eq_true]
  · have due : ((s.channel i ch).recalDue.isSome || decide (s.now ≥ (s.channel i ch).lastRecal + s.mem.recalS * 1000000000) ||
        s.moved10 i ch moved || (s.channel i ch).cold) = true := by
      rcases hdue with h | ⟨hi, h⟩ | ⟨hi, h⟩
      · simp [h]
      · simp [State.moved10, Nat.not_lt.mpr hi, h]
      · simp [State.moved10, hi, h]
    change execRecalDue i ch moved s = _
    refine congrArg Host.Outcome.next ((if_neg (by rw [due, hu]; decide)).trans ?_)
    rw [hc, Bool.or_false]
  · change execRecalForcedSlice i ch s = _
    have last : (match (s.channel i ch).lastSlice with | some u => decide (s.now < u + 100000000) | none => false) = false := by
      cases hl : (s.channel i ch).lastSlice with
      | none => rfl
      | some u => exact decide_eq_false (Nat.not_lt.mpr (hlast u hl))
    simp only [execRecalForcedSlice, hd]
    refine congrArg Host.Outcome.next ((if_neg fun h => ?_).trans ?_)
    · rw [hu, hs, decide_eq_false (Nat.not_le.mpr hlate)] at h
      exact Bool.false_ne_true (last.symm.trans h)
    · cases (s.channel i ch).recalForced <;> rfl

/-- Settles O36: what an invalidation and a write of the root leave of the partition's cache, and the walk without tables. -/
theorem translationCommandsComplete : Obligations.TranslationCommandsComplete := by
  refine ⟨fun s p hb hp hr => ?_, fun s u p v hb hp hu hlen hr hst => ?_, fun s p v hb hp hr hst => ?_, fun s p va t w he hva => ⟨?_, ?_⟩⟩
  · refine ⟨_, congrArg Host.Outcome.next (if_pos (State.regsLive_of hb hp hr)), fun hlen => ?_, fun q hq => ?_, rfl, rfl⟩
    · simp [State.part_onPart, State.dropXlat, State.length_parts_onPart, hlen]
    · simp [State.part_onPart, State.dropXlat, hq]
  · subst hu
    obtain ⟨f, hf, henable, hroot, hxlat⟩ := State.writePtRootLo_eq (v := v.toNat) hst
    have own : (s.wakeDeep.onPart p f).part p = f (s.wakeDeep.part p) := by rw [State.part_onPart, if_pos ⟨rfl, hlen⟩]
    refine ⟨_, congrArg Host.Outcome.next ((if_pos (State.regsLive_of hb hp hr)).trans hf), ?_⟩
    rw [own, henable, hroot, hxlat]
    exact ⟨rfl, rfl, fun h => if_neg h, fun h => if_pos h, fun q hq => by rw [State.part_onPart, if_neg fun h => hq h.1], rfl, rfl⟩
  · exact congrArg Host.Outcome.next ((if_pos (State.regsLive_of hb hp hr)).trans (if_pos hst))
  · have low : ¬va ≥ 2 ^ 40 := Nat.not_le.mpr hva
    have off : (s.parts.getD p {}).mem.enable = false := he
    simp only [State.translate, off, Bool.not_false, if_true, Option.isSome_none, Bool.false_eq_true, if_false, low]
  · have off : (s.parts.getD p {}).mem.enable = false := he
    simp only [State.translate, off, Bool.not_false, if_true, Option.isSome_some]
end

/-! SUPPORT. Power entry, the curtain protocol and orderly shutdown (R129, R131 to R135, R142). -/

namespace Sys2Proof.Machine

section
variable {s : State}

/-- Closing the open records of the power-quality log is of power and of the physical function's events. -/
theorem State.closeAllPq_eq (s : State) : ∃ w ps, s.closeAllPq = { s with power := w, parts := ps } ∧ w.shutdown = s.power.shutdown := by
  suffices h : ∀ (l : List PqRec) (t : State), ∃ w ps, l.foldl (fun (t : State) r => t.closePq { r with duration := s.now - r.start }) t =
      { t with power := w, parts := ps } ∧ w.shutdown = t.power.shutdown from h s.power.pqOpen s
  intro l
  induction l with
  | nil => exact fun t => ⟨_, _, rfl, rfl⟩
  | cons r l ih =>
    intro t
    obtain ⟨w, ps, h, hw⟩ := ih (t.closePq { r with duration := s.now - r.start })
    exact ⟨w, ps, h, hw⟩

/-- The warning of an orderly shutdown changes nothing but event queues. -/
theorem State.warnShutdown_eq (s : State) :
    ∃ ps, (if s.boot.st = .curtain then s.raiseCurtain 0x24 else s.raiseLive 0x24 []) = { s with parts := ps } := by
  split
  · exact s.raiseCurtain_eq 0x24
  · exact s.raiseLive_eq 0x24 []

/-- An orderly shutdown of a module that runs and whose host link is down. -/
theorem State.orderlyShutdown_runs (hst : s.boot.st ∈ [ModSt.ready, .degraded, .curtain, .safe]) (hu : s.host.up = false) :
    s.orderlyShutdown.power.shutdown = true ∧ s.orderlyShutdown.boot = s.boot := by
  cases hsd : s.power.shutdown with
  | true =>
    have still : s.orderlyShutdown = s := by
      simp only [List.mem_cons, List.not_mem_nil, or_false] at hst
      rcases hst with h | h | h | h <;> simp only [State.orderlyShutdown, h, hsd, if_true]
    rw [still]
    exact ⟨hsd, rfl⟩
  | false =>
    obtain ⟨ps, warned⟩ := s.warnShutdown_eq
    let t : State := { s with
      power := { s.power.mark (fun r => { r with shutdown := true }) with shutdown := true }, parts := ps.map Part.stopped }
    have run : s.orderlyShutdown = t.closeAllPq.resolveLevels := by
      have opened : s.orderlyShutdown = if s.power.shutdown then s else
          (fun (w : State) => (if w.host.up then w.linkDown else w).resolveLevels) ((fun (w : State) =>
            State.closeAllPq { w with
              power := { w.power.mark (fun r => { r with shutdown := true }) with shutdown := true }
              parts := w.parts.map Part.stopped })
            (if s.boot.st = .curtain then s.raiseCurtain 0x24 else s.raiseLive 0x24 [])) := by
        simp only [List.mem_cons, List.not_mem_nil, or_false] at hst
        rcases hst with h | h | h | h <;> simp only [State.orderlyShutdown, h]
      rw [opened, hsd, warned]
      obtain ⟨w, qs, hc, -⟩ := t.closeAllPq_eq
      have hup : t.closeAllPq.host.up = false := by
        rw [hc]
        exact hu
      exact congrArg State.resolveLevels (if_neg (ne_true_of_eq_false hup))
    obtain ⟨w, qs, hc, hw⟩ := t.closeAllPq_eq
    rw [run, State.resolveLevels_shutdown, State.resolveLevels_boot, hc]
    exact ⟨hw, rfl⟩

end

end Sys2Proof.Machine

section
open Sys2Proof Sys2Proof.Machine

/-- Settles O26: each command at its threshold, and what it leaves of the module's state. -/
theorem powerEntryCommandsComplete : Obligations.PowerEntryCommandsComplete := by
  refine ⟨fun s t dv us hst hsd hdv hus ht => ?_, fun s t dv ms hst hon hsd hov hdv hms ht => ?_, fun s dv ms nodeDv h => ?_,
    fun s hst hu => State.orderlyShutdown_runs hst hu, fun s hsd hst hd hr => ?_, fun s dv ms hst hdv hms => ?_, fun s us hus => ?_,
    fun s dv nodeDv ms hon hdv => ?_, fun s dv nodeDv ms hdv => ?_, fun s dv ms nodeDv hon hp hsd hoff hpre hdv hnode hms => ?_⟩
  · obtain ⟨b, own, ps, hset, -⟩ := s.setModule_eq .curtain
    have mem : t.mem = s.mem := by rw [ht, hset]
    obtain ⟨ps1, h1⟩ := t.raiseLive_eq 0x21 []
    obtain ⟨ps2, h2⟩ := (t.raiseLive 0x21 []).raiseLive_eq 0x23 []
    have course : ¬(s.power.shutdown || !(decide (dv < 2600) || s.power.overvolt) || decide (us ≤ 2000)) = true := by
      rcases hdv with h | h <;> simp [hsd, h, Nat.not_le.mpr hus]
    have run : exec (.curtainEnter dv us) s = .next ((t.raiseLive 0x21 []).raiseLive 0x23 []).resolveLevels := by
      change execCurtainEnter dv us s = _
      rcases hst with h | h <;> simp only [execCurtainEnter, h, course, Bool.false_eq_true, if_false, ht]
    refine ⟨_, run, rfl, ?_, ?_⟩
    · rw [State.resolveLevels_boot, h2, h1]
    · rw [State.resolveLevels_mem, h2, h1]
      exact mem
  · obtain ⟨b, own, ps, hset, hb⟩ := s.setModule_eq s.calm
    obtain ⟨qs, hraise⟩ := State.raiseCurtain_eq (s := { t with power := { t.power with curtainOn := false } }) 0x22
    have run : exec (.curtainExit dv ms) s =
        .next (State.raiseCurtain { t with power := { t.power with curtainOn := false } } 0x22).resolveLevels := by
      refine congrArg Host.Outcome.next ((if_pos (by simp [hon, hsd, hov, hdv, hms])).trans ?_)
      rw [ht, if_pos hst]
    refine ⟨_, run, rfl, ?_⟩
    rw [State.resolveLevels_boot, hraise]
    change t.boot.st = _ ∨ t.boot.st = _
    rw [ht, hset]
    change b.st = _ ∨ b.st = _
    rw [hb]
    unfold State.calm
    split
    · exact .inr rfl
    · exact .inl rfl
  · refine congrArg Host.Outcome.next (if_pos ?_)
    simpa using h
  · refine ⟨_, congrArg Host.Outcome.next (if_pos ?_), rfl, rfl⟩
    simp [hsd, hst, State.coreOff, State.allDoms]
    exact ⟨hd, List.drop_one ▸ hr⟩
  · exact congrArg Host.Outcome.next (if_pos (by simp [hst, hdv, hms]))
  · exact congrArg Host.Outcome.next (if_neg (Nat.not_lt.mpr hus))
  · exact congrArg Host.Outcome.next (if_pos (by simpa [hon] using hdv))
  · refine congrArg Host.Outcome.next (if_neg ?_)
    simp only [Bool.and_eq_true, Bool.or_eq_true, decide_eq_true_eq]
    omega
  · exact congrArg Host.Outcome.next (if_pos (by simp [hon, hp, hsd, hoff, hpre, hdv, hnode, hms]))
end

/-! SUPPORT. The power-quality log, rail faults and the shed line (R137, R138, R141, R146 to R148). -/

namespace Sys2Proof.Machine

section
variable {s : State}

/-- A record of the log closes where its condition has been absent for 1 ms. -/
theorem exec_pqRecordClose {m : PqMeasure} {r : PqRec} (hfind : s.power.pqOpen.find? (fun r => r.kind.family == m.kind.family) = some r)
    (habs : 1000000 ≤ m.absent) : exec (.pqRecordClose m) s = .next (s.closePq { r.extend m with duration := m.lasted }) := by
  change execPqRecordClose m s = _
  simp only [execPqRecordClose, hfind, Nat.not_lt.mpr habs, if_false]

/-- A resolution keeps the budget of the shed line. -/
theorem State.resolveLevels_shedBudget : s.resolveLevels.power.shedBudget = s.power.shedBudget := by
  rw [s.resolveLevels_eq]
  rfl

end

end Sys2Proof.Machine

section
open Sys2Proof Sys2Proof.Machine

/-- Settles O27: a record opens, closes into the ring, a rail fault, and both edges of the shed line. -/
theorem powerEventCommandsComplete : Obligations.PowerEventCommandsComplete := by
  refine ⟨fun s m hst hop hnone => ?_, fun s m r x hfind habs hlen hx => ?_, fun s m r hfind habs hlen => ?_,
    fun s us k hus hst hk hf => ?_, fun s us n hus hst => ?_, fun s t u hshed hst ht hu => ?_,
    fun s hshed => congrArg Host.Outcome.next (if_pos hshed)⟩
  · exact congrArg Host.Outcome.next ((if_neg (by simp [hst, hop])).trans (if_neg (ne_true_of_eq_false hnone)))
  · subst hx
    rw [exec_pqRecordClose hfind habs]
    have short : ¬ (s.power.pqRing ++ [{ r.extend m with duration := m.lasted }]).length > 1024 := by
      rw [List.length_append, List.length_singleton]
      omega
    simp only [State.closePq, short, if_false]
    rfl
  · refine ⟨_, exec_pqRecordClose hfind habs, ?_⟩
    have full : (s.power.pqRing ++ [{ r.extend m with duration := m.lasted }]).length > 1024 := by
      rw [List.length_append, List.length_singleton]
      omega
    refine (if_pos full).trans (List.drop_append_of_le_length ?_)
    omega
  · exact congrArg Host.Outcome.next ((if_neg (by simp [hst, hus])).trans (if_pos (by simp [hk, hf])))
  · exact congrArg Host.Outcome.next (if_neg (by simp [hst, hus]))
  · have budget : t.power.shedBudget = s.power.shedBudget := by
      rw [ht, State.resolveLevels_shedBudget]
      rfl
    refine ⟨?_, ?_, ?_, ?_⟩
    · refine congrArg Host.Outcome.next ((if_neg (by simp [hshed, hst])).trans ?_)
      rw [← ht]
      simp only [budget]
      rw [hu]
      rfl
    · rw [hu, ht]
      exact State.resolveLevels_host _
    · rw [hu, ht]
      exact State.resolveLevels_boot _
    · rw [hu, ht]
      exact State.resolveLevels_shed _
end

/-! SUPPORT. Sensors, hot spots and the way back from an emergency (R159 to R171, R196). -/

namespace Sys2Proof.Machine

section
variable {s t u : State}

/-- A change of a hot spot is a change of the temperature records alone. -/
theorem State.onSpot_eq (s : State) (i : Nat) (f : HotSpot → HotSpot) :
    ∃ l m, s.onSpot i f = { s with thermal := { s.thermal with tiles := l, stackSpots := m } } := by
  unfold State.onSpot
  split
  · exact ⟨_, _, rfl⟩
  · exact ⟨_, _, rfl⟩

/-- A health record about a hot spot changes the log, its event and the count of free values. -/
theorem State.logSpot_eq (s : State) (kind i : Nat) : ∃ h ps n, s.logSpot kind i = { s with health := h, parts := ps, fresh := n } := by
  unfold State.logSpot
  split
  · exact ⟨_, _, _, rfl⟩
  · exact ⟨_, _, _, rfl⟩

/-- What the trips of the temperature records keep: the flow, the inlet, whether a prediction stands, memory, the module's state and the
host link. -/
def State.TripsFrom (s t : State) : Prop :=
  t.thermal.predicted = s.thermal.predicted ∧ t.thermal.flow = s.thermal.flow ∧ t.thermal.inlet = s.thermal.inlet ∧ t.mem = s.mem ∧
    t.boot = s.boot ∧ t.host = s.host

namespace State.TripsFrom

theorem refl (s : State) : s.TripsFrom s := ⟨rfl, rfl, rfl, rfl, rfl, rfl⟩

theorem trans (h : s.TripsFrom t) (k : t.TripsFrom u) : s.TripsFrom u := by
  obtain ⟨h1, h2, h3, h4, h5, h6⟩ := h
  obtain ⟨k1, k2, k3, k4, k5, k6⟩ := k
  exact ⟨k1.trans h1, k2.trans h2, k3.trans h3, k4.trans h4, k5.trans h5, k6.trans h6⟩

theorem ite {c : Prop} [Decidable c] (ht : s.TripsFrom t) (hu : s.TripsFrom u) : s.TripsFrom (if c then t else u) := by
  split <;> assumption

theorem fold {α : Type} {f : State → α → State} (hf : ∀ t a, State.TripsFrom t (f t a)) :
    ∀ (l : List α) (s : State), s.TripsFrom (l.foldl f s)
  | [], s => refl s
  | a :: l, s => (hf s a).trans (fold hf l (f s a))

theorem onSpot (s : State) (i : Nat) (f : HotSpot → HotSpot) : s.TripsFrom (s.onSpot i f) := by
  obtain ⟨l, m, h⟩ := s.onSpot_eq i f
  rw [h]
  exact refl s

theorem logSpot (s : State) (kind i : Nat) : s.TripsFrom (s.logSpot kind i) := by
  obtain ⟨h, ps, n, e⟩ := s.logSpot_eq kind i
  rw [e]
  exact refl s

theorem onDom (s : State) (k : Nat) (f : Domain → Domain) : s.TripsFrom (s.onDom k f) := refl s

theorem resolveLevels (s : State) : s.TripsFrom s.resolveLevels := by
  rw [s.resolveLevels_eq]
  exact refl s

theorem tripEvent (s : State) (node : Nat) : s.TripsFrom (s.tripEvent node) :=
  trans (t := ({ s with thermal := { s.thermal with evTripped := true } } : State).raise 0 0x36 (toLe 1 node)) (refl s) (logSpot _ 5 node)

theorem checkBudget (s : State) (t : Nat) : s.TripsFrom (s.checkBudget t) :=
  ite ((onSpot s t _).trans (refl _)) (onSpot s t _)

theorem tileTrip (s : State) (t : Nat) : s.TripsFrom (s.tileTrip t) := by
  have cooled : s.TripsFrom (if (s.thermal.tiles.getD t {}).ctl < 1000 then s.onSpot t (fun x => { x with tripped := false }) else s) :=
    ite (onSpot s t _) (refl s)
  refine ite ?_ (ite ((cooled.trans (onDom _ _ _)).trans (resolveLevels _)) cooled)
  exact (((onSpot s t _).trans (onDom _ _ _)).trans (resolveLevels _)).trans (tripEvent _ t)

theorem tileValue (s : State) (t : Nat) : s.TripsFrom (s.tileValue t) :=
  ((onSpot s t _).trans (ite (checkBudget _ t) (refl _))).trans (tileTrip _ t)

theorem stackValue (s : State) (k : Nat) : s.TripsFrom (s.stackValue k) := onSpot s _ _

theorem auxValue (s : State) (i : Nat) : s.TripsFrom (s.auxValue i) := by
  have noted (f : AuxSpot → AuxSpot) : s.TripsFrom (s.onAux i f) := refl s
  have told (t : State) (any : Bool) : t.TripsFrom
      ((List.range 16).foldl (fun (t : State) k => t.onDom k (fun d => { d with auxTrip := any })) t).resolveLevels :=
    (fold (fun t k => onDom t k _) _ _).trans (resolveLevels _)
  exact ite (ite (((noted _).trans (told _ _)).trans (tripEvent _ _)) ((noted _).trans (told _ _))) (noted _)

end State.TripsFrom

/-- The model's update leaves a prediction, and keeps what its trips keep. -/
theorem State.predict_keeps (s : State) : s.predict.thermal.predicted = true ∧ s.predict.thermal.flow = s.thermal.flow ∧
    s.predict.thermal.inlet = s.thermal.inlet ∧ s.predict.mem = s.mem ∧ s.predict.boot = s.boot ∧ s.predict.host = s.host := by
  unfold State.predict
  extract_lets f bad w t t1 t2
  have h : t.TripsFrom ((List.range 10).filter (fun i => (t2.thermal.aux.getD i {}).failed) |>.foldl
      (fun (a : State) i => a.auxValue i) t2) :=
    ((State.TripsFrom.fold State.TripsFrom.tileValue _ t).trans (State.TripsFrom.fold State.TripsFrom.stackValue _ t1)).trans
      (State.TripsFrom.fold State.TripsFrom.auxValue _ t2)
  exact h

/-- Waking the module's domains is of power, of the partitions and of what a resolution notes. -/
theorem State.wakeModule_keeps (s : State) : s.wakeModule.thermal.emergency = s.thermal.emergency ∧
    s.wakeModule.thermal.cause = s.thermal.cause ∧ s.wakeModule.thermal.clearAt = s.thermal.clearAt ∧ s.wakeModule.boot = s.boot ∧
    s.wakeModule.mem = s.mem := by
  have wanted : s.wantRun = { s with power := s.wantRun.power } := by
    suffices h : ∀ (l : List Nat) (t : State), ∃ w, l.foldl (fun (t : State) k =>
        if (s.domOwner k).isSome then t.onDom k (fun d => { d with wantSt := .run, clamp := 0 }) else t) t = { t with power := w } by
      obtain ⟨w, h⟩ := h (List.range 16) s
      unfold State.wantRun
      rw [h]
    intro l
    induction l with
    | nil => exact fun t => ⟨_, rfl⟩
    | cons k l ih =>
      intro t
      rw [List.foldl_cons]
      split
      · obtain ⟨w, h⟩ := ih (t.onDom k (fun d => { d with wantSt := .run, clamp := 0 }))
        exact ⟨w, h⟩
      · exact ih t
  unfold State.wakeModule
  rw [State.resolveLevels_eq, wanted]
  exact ⟨rfl, rfl, rfl, rfl, rfl⟩

end

end Sys2Proof.Machine

section
open Sys2Proof Sys2Proof.Machine

/-- Settles O29: each sample, suspicion and return, with the records of a hot spot. -/
theorem sensorCommandsComplete : Obligations.SensorCommandsComplete := by
  refine ⟨fun s x hx hf => ?_, fun s v hv => ?_, fun s k n v hk => ?_, fun s t n v ht => ?_, fun h now n w v l hn hs => ?_,
    fun h now n w v l hn hs => ?_, fun now w l => rfl, fun now w l v hv => ?_, fun s i a hi hd ha hfar => ?_,
    fun s i a hi hsusp hfail hagree ha => ?_, fun s k a hhot ha hsd hst => ?_, fun s k a href hcool ha => ?_⟩
  · change Host.Outcome.next (State.noteCalm (s.inletSample (some x))) = _
    simp [State.inletSample, hx, hf]
  · have failed : s.inletSample v = { s with thermal := { s.thermal with inletFailed := true } } := by
      cases v with
      | none => rfl
      | some x => simp [State.inletSample, hv x rfl]
    exact congrArg (fun t => Host.Outcome.next (State.noteCalm t)) failed
  · exact congrArg (fun t => Host.Outcome.next (State.noteCalm t)) (if_neg (Nat.not_le.mpr hk))
  · exact congrArg (fun t => Host.Outcome.next (State.noteCalm t)) (if_neg (Nat.not_le.mpr ht))
  · unfold HotSpot.take
    rw [hs]
    by_cases h0 : n = 0
    · simp only [h0, if_true]
      exact ⟨⟨rfl, Bool.or_false _⟩, rfl⟩
    · simp only [h0, if_false]
      exact ⟨⟨rfl, Bool.or_false _⟩, rfl⟩
  · unfold HotSpot.take
    rw [hs]
    by_cases h0 : n = 0
    · simp only [h0, if_true]
      exact ⟨rfl, Bool.or_true _⟩
    · simp only [h0, if_false]
      exact ⟨rfl, Bool.or_true _⟩
  · change (!inRange v || _) = true
    rw [hv]
    rfl
  · let n := (s.thermal.spot i).worse
    let f : HotSpot → HotSpot := fun x =>
      HotSpot.valued { x with susp0 := x.susp0 || n == 0, susp1 := x.susp1 || n == 1, diffSince := none, farNoted := false }
    have run : exec (.sensorSuspect i) s = .next ((State.raise { s.onSpot i f with
        thermal := { (s.onSpot i f).thermal with evSuspected := true } } 0 0x35 (toLe 1 i ++ toLe 1 n)).logSpot 3 i) := by
      change execSensorSuspect i s = _
      have late : ¬(decide (i ≥ 70) || decide (s.now ≤ a + 100000000)) = true := by
        simp only [Bool.or_eq_true, decide_eq_true_eq]
        omega
      simp only [execSensorSuspect, hd, late, hfar, Bool.false_eq_true, if_false]
      rfl
    obtain ⟨l, m, hspot⟩ := s.onSpot_eq i f
    obtain ⟨hl, ps, k, hlog⟩ := (State.raise { s.onSpot i f with
      thermal := { (s.onSpot i f).thermal with evSuspected := true } } 0 0x35 (toLe 1 i ++ toLe 1 n)).logSpot_eq 3 i
    refine ⟨_, run, ?_⟩
    rw [hlog, hspot]
    exact ⟨rfl, rfl, rfl, rfl, rfl, rfl⟩
  · change execSensorRestore i 0 s = _
    have due : ¬(decide (i ≥ 70) || !((s.thermal.spot i).susp0 && !(s.thermal.spot i).fail0) || decide (s.now < a + 10000000000)) = true := by
      simp only [hsusp, hfail, Bool.not_false, Bool.and_true, Bool.not_true, Bool.or_false, Bool.or_eq_true, decide_eq_true_eq]
      omega
    simp only [execSensorRestore, hagree, if_true, due]
    rfl
  · change execStackOvertempShutdown k s = _
    simp only [execStackOvertempShutdown, hhot]
    exact congrArg Host.Outcome.next (if_pos (by simp [ha, hsd, hst]))
  · change execRefreshRestore k s = _
    simp only [execRefreshRestore, hcool]
    refine congrArg Host.Outcome.next (if_pos ?_)
    rw [href]
    simpa using ha

/-- Settles O30: the predictor's update with its frame, the flow's warning and limit, and the way back. -/
theorem flowCommandsComplete : Obligations.FlowCommandsComplete := by
  refine ⟨fun s hst => congrArg Host.Outcome.next (if_neg hst), State.predict_keeps, fun s hm => ?_, fun s a hlow ha hw => ?_,
    fun s a hlim hfree ha => ?_, fun s a hem hst hc hr hsd hcalm ha => ?_, fun s h => congrArg Host.Outcome.next (if_pos h),
    fun s c code hc hav hst => ?_⟩
  · unfold State.takeAllowance
    simp only [hm, Bool.false_and, Bool.false_eq_true, if_false, Bool.not_false, if_true]
    rfl
  · have warns : execFlowWarn s = .next (if decide (s.now ≥ a + 1000000000) && !s.thermal.flowWarn then s.warnFlow else s) := by
      simp only [execFlowWarn, hlow]
    exact warns.trans (congrArg Host.Outcome.next (if_pos (by simp [ha, hw])))
  · have ends : execFlowLimitExit s = .next (if s.thermal.flowLimit && decide (s.now ≥ a + 1000000000) then
        State.allowEvent { s with thermal := { s.thermal with flowLimit := false } } 0x32 else s) := by
      simp only [execFlowLimitExit, hfree]
    exact ends.trans (congrArg Host.Outcome.next (if_pos (by simp [ha, hlim])))
  · have due : (s.thermal.emergency && decide (s.boot.st = .safe) && !s.thermal.rearmHold && !s.power.shutdown &&
        (match s.thermal.calmSince with | some t => decide (t + 10000000000 ≤ s.now) | none => false)) = true := by
      simp [hem, hst, hr, hsd, hcalm, ha]
    let t : State := { s with
      thermal := { s.thermal with emergency := false, cause := 0, clearAt := some s.now, keepSuspended := !s.sec.steward }
      health := { s.health with units := s.health.units.map (fun (u : Machine.Unit) =>
        if u.recov == Recov.recovering then { u with resetAt := s.now } else u) } }
    obtain ⟨b, own, ps, hset, hb⟩ := t.setModule_eq t.calm
    obtain ⟨he, hcause, hat, hboot, hmem⟩ := (t.setModule t.calm).wakeModule_keeps
    obtain ⟨qs, hraise⟩ := (t.setModule t.calm).wakeModule.raiseLive_eq 0x34 []
    refine ⟨_, congrArg Host.Outcome.next ((if_pos due).trans (congrArg (fun u : State => u.wakeModule.raiseLive 0x34 []) (if_pos hc))), ?_⟩
    change (((t.setModule t.calm).wakeModule).raiseLive 0x34 []).thermal.emergency = _ ∧ _
    rw [hraise]
    refine ⟨?_, ?_, ?_, ?_, ?_⟩
    · exact he.trans (by rw [hset])
    · exact hcause.trans (by rw [hset])
    · exact hat.trans (by rw [hset])
    · change (t.setModule t.calm).wakeModule.boot.st ∈ _
      rw [hboot, hset]
      change b.st ∈ _
      rw [hb]
      unfold State.calm
      split <;> simp
    · exact hmem.trans (by rw [hset])
  · have within : ¬(decide (c ≥ 8) || !(s.mem.port (16 + c)).avail || decide (s.boot.st = .off)) = true := by
      simp [hc, hav, hst]
    exact ⟨congrArg Host.Outcome.next (if_neg within), congrArg Host.Outcome.next (if_neg within)⟩
end

/-! SUPPORT. Event and completion records, messages, and the host link (R216, R217, R235, R239 to R243, R488). -/

namespace Sys2Proof.Machine

/-- A field that lies past the first part of a record is one of the rest. -/
theorem fieldAt_append_right {a : List Byte} {off : Nat} (h : a.length ≤ off) (b : List Byte) (len : Nat) :
    fieldAt (a ++ b) off len = fieldAt b (off - a.length) len := congrArg leNat (sliceOf_append_right h b len)

/-- The first field of a record. -/
theorem fieldAt_append_left {a : List Byte} {len : Nat} (h : a.length = len) (b : List Byte) : fieldAt (a ++ b) 0 len = leNat a :=
  congrArg leNat (sliceOf_append_left h b)

/-- A number written as the first field of a record reads back. -/
theorem fieldAt_toLe (len n : Nat) (b : List Byte) : fieldAt (toLe len n ++ b) 0 len = n % 256 ^ len :=
  (fieldAt_append_left (length_toLe len n) b).trans (leNat_toLe_eq_mod len n)

/-- The fields of an event record, in order (R240). -/
theorem eventRecord_fields (x : Event) (lost phase : Bool) (seq : Nat) : (eventRecord x lost phase seq).length = 32 ∧
    fieldAt (eventRecord x lost phase seq) 0 1 = x.code % 256 ∧
    fieldAt (eventRecord x lost phase seq) 4 4 = seq % 2 ^ 32 ∧
    fieldAt (eventRecord x lost phase seq) 8 8 = x.time % 2 ^ 64 ∧
    fieldAt (eventRecord x lost phase seq) 1 1 = x.subject % 16 + 64 * b2n lost + 128 * b2n phase := by
  have flags : (x.subject % 16 + 64 * b2n lost + 128 * b2n phase) % 256 = x.subject % 16 + 64 * b2n lost + 128 * b2n phase := by
    cases lost <;> cases phase <;> simp [b2n] <;> omega
  simp only [eventRecord, List.append_assoc]
  refine ⟨by simp, fieldAt_toLe 1 _ _, ?_, ?_, ?_⟩
  · rw [fieldAt_append_right (by simp), fieldAt_append_right (by simp), fieldAt_append_right (by simp)]
    exact fieldAt_toLe 4 _ _
  · rw [fieldAt_append_right (by simp), fieldAt_append_right (by simp), fieldAt_append_right (by simp), fieldAt_append_right (by simp)]
    exact fieldAt_toLe 8 _ _
  · rw [fieldAt_append_right (by simp)]
    exact (fieldAt_toLe 1 _ _).trans flags

/-- The fields of a completion record, in order (R235). -/
theorem cqRecord_fields (d : Desc) (st cflags result beats : Nat) (phase : Bool) (hsq : d.sq < 64) :
    (cqRecord d st cflags result beats phase).length = 16 ∧
    fieldAt (cqRecord d st cflags result beats phase) 0 4 = d.tag % 2 ^ 32 ∧
    fieldAt (cqRecord d st cflags result beats phase) 4 1 = st % 256 ∧
    fieldAt (cqRecord d st cflags result beats phase) 6 1 = d.sq + 128 * b2n phase ∧
    fieldAt (cqRecord d st cflags result beats phase) 8 4 = result % 2 ^ 32 := by
  have ring : (d.sq + 128 * b2n phase) % 256 = d.sq + 128 * b2n phase := by
    cases phase <;> simp [b2n] <;> omega
  simp only [cqRecord, List.append_assoc]
  refine ⟨by simp, fieldAt_toLe 4 _ _, ?_, ?_, ?_⟩
  · rw [fieldAt_append_right (by simp)]
    exact fieldAt_toLe 1 _ _
  · rw [fieldAt_append_right (by simp), fieldAt_append_right (by simp), fieldAt_append_right (by simp)]
    exact (fieldAt_toLe 1 _ _).trans ring
  · rw [fieldAt_append_right (by simp), fieldAt_append_right (by simp), fieldAt_append_right (by simp),
      fieldAt_append_right (by simp), fieldAt_append_right (by simp)]
    exact fieldAt_toLe 4 _ _

/-- An element is changed by what a function makes of it. -/
theorem updAt_congr {α : Type} {l : List α} {i : Nat} {f g : α → α} {d : α} (h : f (l.getD i d) = g (l.getD i d)) :
    updAt l i f = updAt l i g := by
  refine List.ext_getElem? fun j => ?_
  rw [updAt, updAt, List.getElem?_modify, List.getElem?_modify]
  split
  · next e =>
    subst e
    by_cases hl : i < l.length
    · simpa [List.getD, hl] using h
    · simp [hl]
  · rfl

section
variable {s t u : State}

/-- An event ring is changed by what a function makes of it. -/
theorem State.onEvt_congr {p : Nat} {f g : EvtRing → EvtRing} (h : f (s.part p).host.evt = g (s.part p).host.evt) :
    s.onEvt p f = s.onEvt p g := by
  refine congrArg (fun l : List Part => ({ s with parts := l } : State)) (updAt_congr (d := ({} : Part)) ?_)
  change ({ s.part p with host := { (s.part p).host with evt := f (s.part p).host.evt } } : Part) = _
  rw [h]
  rfl

theorem State.part_hostWrite (addr : Nat) (bs : List Byte) (x : Nat) : (s.hostWrite addr bs).part x = s.part x := by
  unfold State.hostWrite
  split <;> rfl

/-- The time between two messages of a ring is over. -/
theorem gapOver_of {last : Option Nat} {now modUs : Nat} (h : ∀ a, last = some a → a + modUs * 1000 ≤ now) : gapOver now last modUs = true := by
  cases last with
  | none => rfl
  | some a => exact decide_eq_true (h a rfl)

/-- A function that is there writes host memory as itself. -/
theorem State.hostWriteAs_there {p : Nat} (h : s.hasFn p = true) (addr : Nat) (bs : List Byte) : s.hostWriteAs p addr bs = s.hostWrite addr bs :=
  if_pos h

/-- A partition that is not sealed writes a unit in clear. -/
theorem State.putUnit_clear {p : Nat} (h : s.isSealed p = false) (kind num unit : Nat) (clear : Option Nat) (addr sealAt : Nat) (bs : List Byte) :
    s.putUnit p kind num unit clear addr sealAt bs = s.hostWriteAs p addr bs := if_neg (ne_true_of_eq_false h)

/-- What the failure of rings keeps (R216): everything but the partitions, of which every descriptor stays fetched. -/
def State.RingsOf (s t : State) : Prop := (∃ ps, t = { s with parts := ps }) ∧ ∀ x, (t.part x).fetched = (s.part x).fetched

namespace State.RingsOf

theorem refl (s : State) : s.RingsOf s := ⟨⟨_, rfl⟩, fun _ => rfl⟩

theorem trans (h : s.RingsOf t) (k : t.RingsOf u) : s.RingsOf u := by
  obtain ⟨⟨ps, rfl⟩, h⟩ := h
  obtain ⟨⟨qs, rfl⟩, k⟩ := k
  exact ⟨⟨qs, rfl⟩, fun x => (k x).trans (h x)⟩

theorem ite {c : Prop} [Decidable c] (ht : s.RingsOf t) (hu : s.RingsOf u) : s.RingsOf (if c then t else u) := by
  split <;> assumption

theorem fold {α : Type} {f : State → α → State} (hf : ∀ t a, State.RingsOf t (f t a)) : ∀ (l : List α) (s : State), s.RingsOf (l.foldl f s)
  | [], s => refl s
  | a :: l, s => (hf s a).trans (fold hf l (f s a))

theorem onHost (s : State) (p : Nat) (f : PartHost → PartHost) : s.RingsOf (s.onHost p f) := by
  refine ⟨⟨_, rfl⟩, fun x => ?_⟩
  rw [State.onHost, State.part_onPart]
  split <;> rfl

theorem raiseAt (s : State) (p code subject time : Nat) (data : List Byte) : s.RingsOf (s.raiseAt p code subject time data) :=
  onHost s p (fun h => { h with evt := h.evt.add { code := code, subject := subject, time := time, data := data } })

theorem raiseBoth (s : State) (p code : Nat) (data : List Byte) : s.RingsOf (s.raiseBoth p code data) :=
  ite (raiseAt s _ _ _ _ _) ((raiseAt s _ _ _ _ _).trans (raiseAt _ _ _ _ _ _))

theorem sqError (s : State) (p q cause : Nat) : s.RingsOf (s.sqError p q cause) :=
  ite ((onHost s _ _).trans (raiseBoth _ _ _ _)) (refl s)

theorem cqError (s : State) (p c cause : Nat) : s.RingsOf (s.cqError p c cause) :=
  ite (((onHost s _ _).trans (raiseBoth _ _ _ _)).trans (fold (fun t q => ite (sqError t p q 6) (refl t)) _ _)) (refl s)

theorem evtError (s : State) (p cause : Nat) : s.RingsOf (s.evtError p cause) :=
  ite ((onHost s _ _).trans (raiseAt _ _ _ _ _ _)) (refl s)

theorem allRingsError (s : State) (p cause : Nat) : s.RingsOf (s.allRingsError p cause) :=
  ((fold (fun t q => sqError t p q cause) _ s).trans (fold (fun t c => cqError t p c cause) _ _)).trans (evtError _ p cause)

end State.RingsOf

/-- With the link down a write to host memory changes nothing. -/
theorem State.hostWriteAs_down (h : s.host.up = false) (p addr : Nat) (bs : List Byte) : s.hostWriteAs p addr bs = s := by
  rw [State.hostWriteAs_eq, h, Bool.and_false]
  rfl

namespace State.RingsOf

theorem up (h : s.RingsOf t) : t.host.up = s.host.up := by
  obtain ⟨⟨ps, rfl⟩, -⟩ := h
  rfl

theorem onSec (s : State) (p : Nat) (f : PartSec → PartSec) : s.RingsOf (s.onSec p f) := by
  refine ⟨⟨_, rfl⟩, fun x => ?_⟩
  rw [State.onSec, State.part_onPart]
  split <;> rfl

theorem putUnit (h : s.host.up = false) (p kind num unit : Nat) (clear : Option Nat) (addr sealAt : Nat) (bs : List Byte) :
    s.RingsOf (s.putUnit p kind num unit clear addr sealAt bs) := by
  simp only [State.putUnit, State.hostWriteAs_down h]
  exact ite (onSec s _ _) (refl s)

theorem writeRecord (h : s.host.up = false) (p : Nat) (d : Desc) (st cflags result beats : Nat) :
    s.RingsOf (s.writeRecord p d st cflags result beats) := by
  refine ite ((ite ?_ (putUnit h _ _ _ _ _ _ _ _)).trans (onHost _ _ _)) (refl s)
  have put := putUnit h p 2 d.cq (s.cq p d.cq).slot (some 6) ((s.cq p d.cq).base + 16 * (s.cq p d.cq).slot)
    ((s.cq p d.cq).base + pageUp (16 * 2 ^ (s.cq p d.cq).sizeLog2) + 32 * (s.cq p d.cq).slot)
    (overlay (cqRecord d st cflags result beats (s.cq p d.cq).phase) 6
      [(cqRecord d st cflags result beats (s.cq p d.cq).phase).getD 6 0#8 ^^^ 0x80#8])
  rw [State.hostWriteAs_down (put.up.trans h)]
  exact put

theorem recordOut (h : s.host.up = false) (p : Nat) (r : LateRec) : s.RingsOf (s.recordOut p r) :=
  trans (t := s.onCq p r.desc.cq (fun c => { c with reserved := c.reserved - 1 })) (onHost s _ _)
    (writeRecord (s := s.onCq p r.desc.cq (fun c => { c with reserved := c.reserved - 1 })) h _ _ _ _ _ _)

theorem writeLate (h : s.host.up = false) (p : Nat) : s.RingsOf (s.writeLate p) := by
  suffices hall : ∀ (l : List LateRec) (t : State), t.host.up = false → t.RingsOf (l.foldl (fun (t : State) r => t.recordOut p r) t) from
    (onHost s _ _).trans (hall _ _ h)
  intro l
  induction l with
  | nil => exact fun t _ => refl t
  | cons r l ih =>
    intro t ht
    have one := recordOut ht p r
    exact one.trans (ih _ (one.up.trans ht))

end State.RingsOf

/-- No command under way reads host memory. -/
def State.NoHostReads (s : State) : Prop := ∀ p, ∀ d ∈ (s.part p).fetched, d.startedAt.isSome = true → readsHost d = false

/-- Where no command of the partition reads host memory, none fails with the link. -/
theorem State.failHostReads_none {p : Nat} (h : (s.part p).fetched.filter (fun d => d.startedAt.isSome && readsHost d) = []) :
    s.failHostReads p = s := by
  unfold State.failHostReads
  rw [h, List.foldl_nil]

theorem State.RingsOf.noHostReads (h : s.RingsOf t) (hn : s.NoHostReads) : t.NoHostReads := fun p d hd => hn p d (h.2 p ▸ hd)

/-- A command whose writes are discarded from now on reads what it read. -/
theorem State.NoHostReads.lose (hn : s.NoHostReads) (p : Nat) :
    (s.onPart p (fun q => { q with fetched := q.fetched.map (fun d => { d with lost := true }) })).NoHostReads := by
  intro x d hd hs
  rw [State.part_onPart] at hd
  split at hd
  · obtain ⟨e, he, rfl⟩ := List.mem_map.mp hd
    exact hn x e he hs
  · exact hn x d hd hs

/-- A partition's part of a link that is down, where no command reads host memory: only partitions change, and none starts to. -/
theorem State.dropLink_eq (h : s.host.up = false) (hn : s.NoHostReads) (p : Nat) :
    (∃ ps, s.dropLink p = { s with parts := ps }) ∧ (s.dropLink p).NoHostReads := by
  have failed := (State.RingsOf.allRingsError s p 7).trans
    (State.RingsOf.writeLate ((State.RingsOf.allRingsError s p 7).up.trans h) p)
  have still := failed.noHostReads hn
  unfold State.dropLink
  generalize (s.allRingsError p 7).writeLate p = w at failed still
  have nothing : (w.part p).fetched.filter (fun d => d.startedAt.isSome && readsHost d) = [] := by
    refine List.filter_eq_nil_iff.mpr fun d hd => ?_
    cases hs : d.startedAt.isSome with
    | false => simp
    | true => simp [still p d hd hs]
  simp only [State.failHostReads_none nothing]
  obtain ⟨⟨ps, rfl⟩, -⟩ := failed
  exact ⟨⟨_, rfl⟩, ((State.RingsOf.onHost _ p _).noHostReads still).lose p⟩

/-- The loss of the link, where no command reads host memory: only partitions and configuration space change. -/
theorem State.linkDown_eq (hn : s.NoHostReads) : ∃ ps, s.linkDown = State.resetConfig { s with
    host := { s.host with up := false }, parts := ps } := by
  suffices h : ∀ (l : List Nat) (t : State), t.host.up = false → t.NoHostReads →
      ∃ ps, l.foldl (fun (t : State) p => t.dropLink p) t = { t with parts := ps } by
    obtain ⟨ps, h⟩ := h (List.range 16) { s with host := { s.host with up := false } } rfl hn
    exact ⟨ps, congrArg State.resetConfig h⟩
  intro l
  induction l with
  | nil => exact fun t _ _ => ⟨_, rfl⟩
  | cons p l ih =>
    intro t ht htn
    obtain ⟨⟨ps, hps⟩, hnext⟩ := State.dropLink_eq ht htn p
    obtain ⟨qs, hqs⟩ := ih (t.dropLink p) (by rw [hps]; exact ht) hnext
    rw [List.foldl_cons, hqs, hps]
    exact ⟨qs, rfl⟩

end

end Sys2Proof.Machine

section
open Sys2Proof Sys2Proof.Machine

/-- Settles O41: the event record, the fields of both records, and a vector that is due. -/
theorem eventCommandsComplete : Obligations.EventCommandsComplete := by
  refine ⟨fun s t p x xs r hr hq hst hsplit hfree hseal hfn ht => ?_, eventRecord_fields,
    fun d st cflags result beats phase hsq => cqRecord_fields d st cflags result beats phase hsq,
    fun s p c hdue => ⟨fun hheld hgap => ?_, fun hheld => ?_⟩,
    fun s p hdue hheld hgap => ?_, fun s p v hfn => if_pos hfn, fun s p v => ?_⟩
  · subst hr ht
    change execEventRecordWrite p s = _
    have free : ¬((s.part p).host.evt.st != .enabled || decide (ringFree (s.part p).host.evt.sizeLog2 (s.part p).host.evt.slot
        (s.part p).host.evt.accepted = 0)) = true := by
      simp [hst, Nat.ne_of_gt hfree]
    simp only [execEventRecordWrite, hq, free, hsplit, Bool.false_eq_true, if_false, State.putUnit_clear hseal,
      State.hostWriteAs_there hfn]
    refine congrArg (fun t : State => Host.Outcome.next (t.postPresence p)) (State.onEvt_congr ?_)
    rw [State.part_hostWrite]
  · exact congrArg Host.Outcome.next ((if_neg (by simp [hdue])).trans ((if_neg (ne_true_of_eq_false hheld)).trans (if_pos (gapOver_of hgap))))
  · exact congrArg Host.Outcome.next ((if_neg (by simp [hdue])).trans (if_pos hheld))
  · exact congrArg Host.Outcome.next ((if_neg (by simp [hdue])).trans ((if_neg (ne_true_of_eq_false hheld)).trans (if_pos (gapOver_of hgap))))
  · simp only [State.vectorHeld, Bool.or_eq_true, Bool.not_eq_true', or_assoc]

/-- Settles O42: loss, return and retrain of the link, PERST#, and a PTM dialog. -/
theorem hostLinkCommandsComplete : Obligations.HostLinkCommandsComplete := by
  refine ⟨fun s hup => congrArg Host.Outcome.next (if_pos hup), fun s hn => ?_, fun s speed width flit hup hne => ?_,
    fun s hup => congrArg Host.Outcome.next (if_pos hup), fun s hup => ?_, fun s => rfl, fun s speed width flit hup hperst hg hheld => ?_,
    fun s o hen hptp hdue => ?_, fun s o t h => ?_⟩
  · obtain ⟨ps, h⟩ := State.linkDown_eq hn
    rw [h]
    exact ⟨rfl, rfl, rfl, rfl, rfl⟩
  · exact congrArg Host.Outcome.next (if_pos (by simpa [hup] using hne))
  · exact ⟨_, congrArg Host.Outcome.next (if_neg (ne_true_of_eq_false hup)), rfl, rfl, rfl⟩
  · have same : ({ s.boot with held := [] } : Boot) = s.boot := by rw [← hheld]
    have course : ¬(s.host.up || s.host.perst || !s.boot.guardUp) = true := by simp [hup, hperst, hg]
    refine congrArg Host.Outcome.next ((if_neg course).trans ?_)
    simp only [hheld, List.foldl_nil, same]
  · have run : execPtmDialog o s = .next (State.steer { s with
        host := { s.host with ptmAt := some s.now, ptmOffsets := (o :: s.host.ptmOffsets).take 8 } } o) := by
      refine congrArg Host.Outcome.next (if_neg ?_)
      cases ha : s.host.ptmAt with
      | none => simp [hen, hptp]
      | some a => simp [hen, hptp, hdue a ha]
    exact run
  · cases h
    have steers (u : State) : u.now ≤ (u.steer o).now := by
      unfold State.steer
      split
      · exact Nat.le_add_right _ _
      · exact Nat.le_refl _
    have later {c : Prop} [Decidable c] {u : State} (hu : s.now ≤ u.now) : s.now ≤ (if c then s else u).now := by
      split
      · exact Nat.le_refl _
      · exact hu
    exact later (steers { s with host := { s.host with ptmAt := some s.now, ptmOffsets := (o :: s.host.ptmOffsets).take 8 } })
end

/-! SUPPORT. Recoveries, lost clocks and continuous self-test (R499, R509, R510, R515 to R517). -/

namespace Sys2Proof.Machine

section
variable {s : State}

/-- A tile's domain is in the state the test of a tile needs, whether or not its scratchpad is saved. -/
theorem exec_strikerRoundStart {t : Nat} (ht : s.testable t = true)
    (hw : s.health.striker = true ∨ s.thermal.keepWarm = true ∨ (s.unit 0 t).queued = true) :
    exec (.strikerRoundStart t) s = .next ((if (s.tile t).st == .idle then s else
      s.spoilPa (s.testArea t).1 (s.testArea t).2).onUnit 0 t (fun u => { u with
        striking := true, queued := false
        saved := if (s.tile t).st == .idle then some (s.mem.cells.read (s.testArea t).1 (s.testArea t).2) else none })) :=
  congrArg Host.Outcome.next (if_pos (by simpa [ht, or_assoc] using hw))

/-- A round that ends puts back the scratchpad that it saved. -/
theorem State.endRound_mem {t : Nat} {bs : List Byte} (h : (s.unit 0 t).saved = some bs) :
    (s.endRound t).mem = { s.mem with cells := s.mem.cells.write (winBase + t * 0x1000000 + 0x3C0000) bs } := by
  simp only [State.endRound, State.untest, h]
  rfl

/-- The tested unit behind a memory port. -/
theorem portUnit_eq (i : Nat) : portUnit i = (if i < 16 then 4 else 5, if i < 16 then i else i - 16) := by
  unfold portUnit
  split <;> rfl

/-- A slice that is due on a free port of a unit that runs: the test is noted, and passes or fails. -/
theorem exec_memoryTestSlice {i slice : Nat} (hi : i < 24) (hav : (s.mem.port i).avail = true)
    (hrec : (s.unit (portUnit i).1 (portUnit i).2).recov = .idle) (hfree : s.sliceFree i slice = true)
    (hgap : ∀ a, (s.unit (portUnit i).1 (portUnit i).2).testedAt = some a → a + 3600000000000 ≤ s.now) (pass : Bool) :
    exec (.memoryTestSlice i slice pass) s = .next (if pass then
        (s.onUnit (portUnit i).1 (portUnit i).2 (fun x => { x with testedAt := some s.now })).roundPassed (portUnit i).1 (portUnit i).2
      else (s.onUnit (portUnit i).1 (portUnit i).2 (fun x => { x with testedAt := some s.now })).roundFailed
        (portUnit i).1 (portUnit i).2 7 0) := by
  rw [portUnit_eq] at hrec hgap ⊢
  refine congrArg Host.Outcome.next ((if_neg ?_).trans rfl)
  cases ha : (s.unit (if i < 16 then 4 else 5) (if i < 16 then i else i - 16)).testedAt with
  | none => simp [hi, hav, hrec, hfree]
  | some a => simp [hi, hav, hrec, hfree, hgap a ha]

end

end Sys2Proof.Machine

section
open Sys2Proof Sys2Proof.Machine

/-- Settles O46: a recovery that ends or is overdue, and each action of a lost clock. -/
theorem recoveryCommandsComplete : Obligations.RecoveryCommandsComplete := by
  refine ⟨fun s kind unit r hu hrec hdom => ?_, fun s u t ht hrec hf hlate hu => ?_,
    fun s n hn => congrArg Host.Outcome.next (if_neg (Nat.not_le.mpr hn)), fun s => ⟨rfl, rfl, rfl, fun hup => ?_⟩⟩
  · have due : ¬(decide (unit ≥ unitCount kind) || (s.unit kind unit).recov != .recovering ||
        (kind == 0 && (s.dom (domOfTile unit)).st != .run)) = true := by
      simpa [hrec, hu] using hdom
    exact congrArg Host.Outcome.next ((if_neg due).trans rfl)
  · have due : ¬(decide (t ≥ unitCount 0) || (s.unit 0 t).recov != .recovering ||
        decide (s.now < (s.unit 0 t).resetAt + 2 * (recoveryNs 0 t + (s.dom (domOfTile t)).st.wakeNs))) = true := by
      simp [hrec, unitCount, ht, hlate]
    subst hu
    refine congrArg Host.Outcome.next ((if_neg due).trans ?_)
    simp only [hf, Bool.false_eq_true, if_false, if_true]
    rfl
  · exact if_neg (ne_true_of_eq_false hup)

/-- Settles O47: a round that starts, passes and fails, a tile that is overdue, and a slice of the memory test. -/
theorem selfTestCommandsComplete : Obligations.SelfTestCommandsComplete := by
  refine ⟨fun s t ht hw => ⟨fun hidle => ?_, fun hidle => ?_⟩, fun s t failed ht hs => ⟨fun hpass => ?_, fun hfail => ?_⟩,
    fun s t bs h => State.endRound_mem h, fun s t ht hov hlate => ?_, fun s i slice hi hav hrec hfree hgap => ⟨_, rfl, ?_, ?_⟩⟩
  · rw [exec_strikerRoundStart ht hw]
    simp only [State.testArea, hidle, beq_self_eq_true, if_true]
  · rw [exec_strikerRoundStart ht hw]
    simp only [State.testArea, hidle, beq_eq_false_iff_ne.mpr hidle, Bool.false_eq_true, if_false]
  · exact congrArg Host.Outcome.next ((if_neg (by simp [ht, hs])).trans (if_pos hpass))
  · exact congrArg Host.Outcome.next ((if_neg (by simp [ht, hs])).trans (if_neg hfail))
  · exact congrArg Host.Outcome.next (if_neg (by simp [ht, hov, hlate]))
  · exact exec_memoryTestSlice hi hav hrec hfree hgap true
  · exact exec_memoryTestSlice hi hav hrec hfree hgap false
end

/-! SUPPORT. Security messages and the steward's mailbox (R451, R455 to R458). -/

namespace Sys2Proof.Machine

section
variable {s : State} {p : Nat}

/-- A request that is served and names a function that is there. -/
theorem exec_spdmRequest (hd : s.doeServed = true) (hf : s.hasFn p = true) (m : SpdmMsg) : exec (.spdmRequest p m) s = .next (s.spdm p m) :=
  congrArg Host.Outcome.next (if_pos (by rw [hd, hf]; rfl))

/-- A request of the mailbox while the steward runs. -/
theorem mailbox_served (h : s.sec.steward = true) (t : State) : (Host.Outcome.next (if s.sec.steward then t else s) :
    Host.Outcome State Fault Refusal) = .next t := congrArg Host.Outcome.next (if_pos h)

/-- The guard's answer counts the request, or its refusal. -/
theorem State.answerMail_counts (op seq : Nat) (ok : Bool) :
    (s.answerMail op seq ok).sec.requests = (if ok then satTo 16 (s.sec.requests + 1) else s.sec.requests) ∧
    (s.answerMail op seq ok).sec.refused = (if ok then s.sec.refused else satTo 16 (s.sec.refused + 1)) ∧
    (s.answerMail op seq ok).sec.mail.head? = some { op := op, status := if ok then 0 else 1, seq := seq } := ⟨rfl, rfl, rfl⟩

end

end Sys2Proof.Machine

section
open Sys2Proof Sys2Proof.Machine

/-- Settles O5: each message from the state in which it is served. -/
theorem trustMessagesComplete : Obligations.TrustMessagesComplete := by
  refine ⟨fun s p hd hf hs hh => ?_, fun s p hd hf hh => ?_, fun s p hd hf hs => ⟨?_, ?_, ?_⟩, fun s p i hd hf hm => ?_,
    fun s p m hd hp hf hm hs => ?_, fun s p hp hs ha => ?_, fun s p hd ht hst => ?_, fun s p hd ht hst => ?_, fun s p hd ht => ⟨?_, ?_⟩,
    fun s p hd ht => ?_, fun s p hd hf hs => ?_, fun s p hp ht => ?_, fun s p w hw => ?_, fun s h8 hdeep => ?_⟩
  · rw [exec_spdmRequest hd hf]
    exact congrArg Host.Outcome.next (if_neg (by simp [hs, hh]))
  · rw [exec_spdmRequest hd hf]
    exact congrArg Host.Outcome.next ((if_neg (by simp [hh])).trans (if_pos rfl))
  · rw [exec_spdmRequest hd hf]
    exact congrArg Host.Outcome.next (if_neg (by simp [hs]))
  · rw [exec_spdmRequest hd hf]
    exact congrArg Host.Outcome.next (if_neg (by simp [hs]))
  · rw [exec_spdmRequest hd hf]
    exact congrArg Host.Outcome.next (if_neg (by simp [hs]))
  · rw [exec_spdmRequest hd hf]
    simp only [State.spdm, State.getMeasurements, hm]
  · rw [exec_spdmRequest hd hf]
    simp [State.spdm, State.getMeasurements, hm, hs, Nat.one_le_iff_ne_zero.mp hp]
  · exact congrArg Host.Outcome.next (if_pos (by simp [hp, hs, ha]))
  · exact congrArg Host.Outcome.next ((if_neg (by simp [hd])).trans (if_pos (by simp [ht, hst])))
  · exact congrArg Host.Outcome.next ((if_neg (by simp [hd])).trans (if_neg (by simp [hst])))
  · refine congrArg Host.Outcome.next ((if_neg (by simp [hd])).trans ?_)
    simp only [ht]
  · exact congrArg Host.Outcome.next ((if_neg (by simp [hd])).trans (if_pos ht))
  · exact congrArg Host.Outcome.next ((if_neg (by simp [hd])).trans ((if_neg (by simp [ht])).trans (if_pos ht)))
  · exact congrArg Host.Outcome.next (if_pos (by simp [hd, hf, hs]))
  · refine congrArg Host.Outcome.next ((if_neg (Nat.not_le.mpr hp)).trans ?_)
    simp only [ht]
    rfl
  · change execAdmissionLost p s = _
    simp only [execAdmissionLost, hw]
  · have awake : s.wakeDeep = s := s.wakeDeep_awake hdeep
    refine congrArg Host.Outcome.next ((if_neg (by simp [h8])).trans ?_)
    rw [awake]
    rfl

/-- Settles O6: each request that passes its check, and each that does not. -/
theorem mailboxRequestsComplete : Obligations.MailboxRequestsComplete := by
  refine ⟨fun s seq k code st hs hk => ?_, fun s seq k code st hs hk => ?_, fun s seq t hs ht => ?_, fun s seq kind unit hs hu hk => ?_,
    fun s seq p c f hs hc ho hp => ?_, fun s seq off hs ho h4 hal => ?_, fun s seq off hs h4 => ?_, fun s seq r hs hr => ?_,
    fun s seq power r hs hr => ?_, fun s seq kind unit hs hu => ⟨?_, ?_⟩, fun s op seq ok => s.answerMail_counts op seq ok⟩
  · exact ⟨_, if_neg (Nat.not_le.mpr hk), (mailbox_served hs _).trans (by rw [State.mailPower, if_neg (Nat.not_le.mpr hk)]; rfl)⟩
  · exact (mailbox_served hs _).trans (by rw [State.mailPower, if_pos hk]; rfl)
  · refine (mailbox_served hs _).trans ?_
    have act : s.mailUnit .fence 0 t 0 = some (s.fenceUnit 0 t 4) := if_neg (Nat.not_le.mpr ht)
    rw [act]
    rfl
  · refine (mailbox_served hs _).trans ?_
    have refused : s.mailUnit .fence kind unit 0 = none := (if_neg (Nat.not_le.mpr hu)).trans (if_neg hk)
    rw [refused]
    rfl
  · refine (mailbox_served hs _).trans ?_
    rw [if_pos (by simp [hc, ho, hp])]
    rfl
  · refine (mailbox_served hs _).trans ?_
    rw [if_pos (by simp [ho, h4, hal])]
    rfl
  · refine (mailbox_served hs _).trans ?_
    rw [if_neg (by simp [h4])]
    rfl
  · refine (mailbox_served hs _).trans ?_
    rw [State.mailRecord, if_neg (Nat.not_lt.mpr hr)]
    rfl
  · refine (mailbox_served hs _).trans ?_
    rw [State.mailRecord, if_pos hr]
    rfl
  · refine (mailbox_served hs _).trans ?_
    rw [if_neg (by simp [hu])]
    rfl
  · refine (mailbox_served hs _).trans ?_
    rw [if_pos (by simp)]
    rfl
end

/-! SUPPORT. The lines of the monitor: how a command runs, and what it answers (R573 to R579). -/

namespace Sys2Proof.Machine

section
variable {s : State} {relay : Bool} {ws : List (List Byte)} {mine : List (List Byte) → Bool}

/-- The monitor with a session's first line taken out of it. -/
def State.lineTaken (s : State) (relay : Bool) : State := s.drain.onSession relay (fun x => { x with lines := x.lines.tail })

theorem named_ascii (c : String) (ws : List (List Byte)) : named c (ascii c :: ws) = true := beq_self_eq_true _

/-- A command that needs no level runs on the arguments of its line. -/
theorem State.command_observer (hl : s.drain.nextLine relay = some ws) (hm : mine ws = true) (act : List (List Byte) → State → Reply)
    {u t : State} {lines : List (List Byte)} {final : Option Nat} (hu : u = s.lineTaken relay) (ha : act ws.tail u = (t, lines, final)) :
    s.command relay false mine act = t.respond relay lines final := by
  subst hu
  unfold State.lineTaken at ha
  simp only [State.command, hl, hm, ha, Bool.not_true, Bool.false_and, Bool.false_eq_true, if_false]

/-- Taking a line out of a session leaves its level. -/
theorem State.lineTaken_engineer (other : Bool) : ((s.lineTaken relay).session other).engineer = (s.drain.session other).engineer := by
  cases relay <;> cases other <;> rfl

/-- An engineer command on a session with the level: it counts when it ends with ok. -/
theorem State.command_engineer (hl : s.drain.nextLine relay = some ws) (hm : mine ws = true)
    (he : (s.drain.session relay).engineer = true) (act : List (List Byte) → State → Reply) {u t : State} {lines : List (List Byte)}
    (hu : u = s.lineTaken relay) (ha : act ws.tail u = (t, lines, none)) :
    s.command relay true mine act = t.acted.respond relay lines none := by
  subst hu
  have level : ((s.lineTaken relay).session relay).engineer = true := (State.lineTaken_engineer relay).trans he
  unfold State.lineTaken at level ha
  simp only [State.command, hl, hm, level, ha, Bool.not_true, Bool.and_false, Bool.false_eq_true, if_false, Option.isNone_none,
    Bool.and_true, if_true]

/-- An engineer command on a session without the level is answered with E3. -/
theorem State.command_level (hl : s.drain.nextLine relay = some ws) (hm : mine ws = true)
    (he : (s.drain.session relay).engineer = false) (act : List (List Byte) → State → Reply) :
    s.command relay true mine act = (s.lineTaken relay).respond relay [] (some 3) := by
  have level : ((s.lineTaken relay).session relay).engineer = false := (State.lineTaken_engineer relay).trans he
  unfold State.lineTaken at level ⊢
  simp only [State.command, hl, hm, level, Bool.not_true, Bool.not_false, Bool.and_self, Bool.false_eq_true, if_false, if_true]

/-- The words of a session's next line are those of its first line. -/
theorem State.nextLine_words (hl : s.nextLine relay = some ws) : lineWords ((s.session relay).lines.headD []) = ws := by
  unfold State.nextLine at hl
  split at hl
  · cases h : (s.session relay).lines with
    | nil => simp [h] at hl
    | cons l ls => simpa [h] using hl
  · cases hl

/-- A report whose line is its one word is answered with lines. -/
theorem exec_report {c : Instr} {w : String} (hl : s.drain.nextLine relay = some [ascii w]) {act : List (List Byte) → State → Reply}
    (hc : exec c s = .next (s.command relay false (named w) act)) {lines : State → List (List Byte)}
    (ha : ∀ t, act [] t = (t, lines t, none)) :
    ∃ ls, exec c s = .next ((s.lineTaken relay).respond relay ls none) := by
  refine ⟨lines (s.lineTaken relay), ?_⟩
  rw [hc, State.command_observer hl (named_ascii w []) act rfl (ha _)]

/-- A command that recovers a unit starts where the session waits for none, at engineer level: its lines go out and the session waits. -/
theorem State.recovers_start {t : State} {w : List Byte} {c : String} {k : Nat × Nat} {start : Nat × Nat → State → Reply × Bool}
    {done : Nat × Nat → State → Reply} {lines : List (List Byte)} {final : Option Nat} (hw : (s.session relay).await = none)
    (hl : s.drain.nextLine relay = some [ascii c, w]) (he : (s.drain.session relay).engineer = true) (hk : unitNamed w = some k)
    (hs : start k s.drain = ((t, lines, final), true)) :
    s.recovers relay (Machine.named c) start done = (t.say relay (lines.flatMap (fun l => l ++ lineEnd))).awaits relay (some k) := by
  simp only [State.recovers, hw, hl, Option.map_some, List.tail_cons, hk, hs, State.nextLine_words hl, named_ascii, he, Bool.and_self,
    if_true]

end

end Sys2Proof.Machine

section
open Sys2Proof Sys2Proof.Machine

/-- Settles O7: each report answers with the lines that it makes of the state, and takes its line. -/
theorem monitorReportsComplete : Obligations.MonitorReportsComplete := by
  refine ⟨fun s relay c w hc hl => ?_, fun s relay hl => ?_, fun s relay hl => ?_, fun s relay o w off hl ho hw => ?_, fun s relay ws hl hn => ?_⟩
  · simp only [List.mem_cons, Prod.mk.injEq, List.not_mem_nil, or_false] at hc
    obtain ⟨rfl, rfl⟩ | ⟨rfl, rfl⟩ | ⟨rfl, rfl⟩ | ⟨rfl, rfl⟩ | ⟨rfl, rfl⟩ | ⟨rfl, rfl⟩ | ⟨rfl, rfl⟩ | ⟨rfl, rfl⟩ | ⟨rfl, rfl⟩ | ⟨rfl, rfl⟩ |
      ⟨rfl, rfl⟩ := hc
    all_goals exact exec_report hl rfl (fun t => rfl)
  · exact congrArg Host.Outcome.next (State.command_observer hl (named_ascii "log" _) _ rfl rfl)
  · exact congrArg Host.Outcome.next (State.command_observer hl (named_ascii "log" _) _ rfl rfl)
  · subst ho
    have differ : ascii "read" ≠ ascii "write" := by decide
    refine ⟨_, congrArg Host.Outcome.next (State.command_observer hl (by simp [named_ascii, differ]) _ rfl ?_), rfl⟩
    simp [hw, State.lineTaken]
  · exact congrArg Host.Outcome.next (State.command_observer hl (by simp [hn]) _ rfl rfl)

/-- Settles O8: each acting command on a session whose line spells it, and E3 without the level. -/
theorem monitorActionsComplete : Obligations.MonitorActionsComplete := by
  refine ⟨fun s u relay hu hl hshut hopen => ?_, fun s u relay args n k at_ hu hl hlen hgroups hshut hopen hother => ?_,
    fun s u relay hu hl he => ?_, fun s u w hu hl hw => ?_, fun s u relay w k hu he hw => ⟨fun hl hk hk2 hf => ?_, fun hl => ?_⟩,
    fun s u relay d w k v hu he hd => ⟨fun st hl hst hw hv => ?_, fun code hl hw hcode hv => ?_⟩,
    fun s u relay o w off v hu he hl ho hw hv hoff hne => ?_, fun s u relay w k hu haw hl he hw hf hk => ?_,
    fun s u relay w k hu haw hl he hw hf hk => ?_, fun s relay ws c w hc hl he => ?_⟩
  · have closed : ¬u.openChallenge.isSome = true := by simp [hopen]
    exact ⟨_, _, congrArg Host.Outcome.next (State.command_observer hl (by simp [named_ascii]) _ hu
      ((if_neg (ne_true_of_eq_false hshut)).trans (if_neg closed))), rfl⟩
  · have answer {t : State} {final : Option Nat} (ha : (if !Config.serviceSigned (challengeText (relay, n, k, at_)) (groupBytes args) then
        (State.authFailed { u with mon := { u.mon with challenge := none } }, [], some 5) else
        (State.onSession { u with mon := { u.mon with challenge := none } } relay (fun x => { x with engineer := true }), [], none)) =
        ((t, [], final) : Reply)) : exec (.monitorAuthResponse relay) s = .next (t.respond relay [] final) := by
      refine congrArg Host.Outcome.next (State.command_observer hl (by simp [named_ascii, hlen]) _ hu (Eq.trans ?_ ha))
      refine (if_neg (ne_true_of_eq_false hshut)).trans ((if_neg (by simp [hlen, hgroups])).trans ?_)
      have level : (State.session { u with mon := { u.mon with challenge := none } } (!relay)).engineer = false := by
        cases relay <;> exact hother
      simp only [hopen]
      exact (if_neg (by simp)).trans (ite_congr rfl (fun _ => rfl) (fun _ => if_neg (ne_true_of_eq_false level)))
    exact ⟨fun hsig => answer (if_neg (by simp [hsig])), fun hsig => answer (if_pos (by simp [hsig]))⟩
  · exact congrArg Host.Outcome.next (State.command_engineer hl (named_ascii "logout" _) he _ hu rfl)
  · refine ⟨(u.session false).out.length + (u.session false).waiting.length + (finalText none).length + 2,
      congrArg Host.Outcome.next (State.command_observer hl (named_ascii "baud" _) _ hu ?_)⟩
    simp only [List.tail_cons, List.map_cons, List.map_nil, hw]
    rfl
  · refine congrArg Host.Outcome.next (State.command_engineer hl (named_ascii "fence" _) he _ hu ?_)
    have act : u.mailUnit .fence k.1 k.2 0 = some (u.fenceUnit 0 k.2 4) := by
      rw [hk]
      exact if_neg (Nat.not_le.mpr hk2)
    simp only [List.tail_cons, oneUnit, hw, hf, Bool.false_eq_true, if_false, act]
    rfl
  · refine ⟨hexLines (Config.debugState (unitIndex k.1 k.2)).length (Config.debugState (unitIndex k.1 k.2)),
      congrArg Host.Outcome.next (State.command_engineer hl (named_ascii "dump" _) he _ hu ?_)⟩
    simp only [List.tail_cons, oneUnit, hw]
    rfl
  · refine congrArg Host.Outcome.next (State.command_engineer hl (named_ascii "pstate" _) he _ hu ?_)
    have found : ([.run, .hold, .rest, .dark] : List PState).find? (fun x => x.text == w) = some st := by
      subst hw
      cases st with
      | run | hold | rest | dark => decide
      | deep => exact absurd rfl hst
    simp only [List.tail_cons, domAnd, hd, found, hv]
    rfl
  · refine congrArg Host.Outcome.next (State.command_engineer hl (named_ascii "vset" _) he _ hu ?_)
    simp only [List.tail_cons, domAnd, hd, hw, Option.filter_some, hcode, decide_true, if_true, hv]
    rfl
  · let t : State := { u.writeBar0 0 off v with mon := { (u.writeBar0 0 off v).mon with last := some (relay, off) } }
    refine ⟨t, spaced [regText off, regText (t.readBar0 0 off)],
      congrArg Host.Outcome.next (State.command_engineer hl (by simp [named_ascii]) he _ hu ?_), rfl⟩
    simp only [List.tail_cons, ho, hw, Option.filter_some, hv, decide_true, if_true, hoff, Bool.not_true, Bool.false_eq_true, if_false, hne]
    rfl
  · subst hu
    have act : s.drain.mailUnit .reset k.1 k.2 0 = some (s.drain.requestReset k.1 k.2 4 [] false false) :=
      (if_neg (Nat.not_le.mpr hk)).trans (if_neg (ne_true_of_eq_false hf))
    let t := (s.drain.requestReset k.1 k.2 4 [] false false).answerMail 2 (s.drain.sec.requests + s.drain.sec.refused) true
    refine congrArg Host.Outcome.next
      ((State.recovers_start (t := t) (lines := [unitSays k "reset"]) (final := none) haw hl he hw ?_).trans ?_)
    · simp only [hf, Bool.false_eq_true, if_false, act]
      rfl
    · simp only [List.flatMap_cons, List.flatMap_nil, List.append_nil]
      rfl
  · subst hu
    refine congrArg Host.Outcome.next (State.recovers_start (lines := []) (final := none) haw hl he hw ?_)
    simp only [hf, Bool.not_true, Bool.false_eq_true, if_false, hk]
    rfl
  · simp only [List.mem_cons, Prod.mk.injEq, List.not_mem_nil, or_false] at hc
    obtain ⟨rfl, rfl⟩ | ⟨rfl, rfl⟩ | ⟨rfl, rfl⟩ | ⟨rfl, rfl⟩ | ⟨rfl, rfl⟩ := hc
    all_goals exact congrArg Host.Outcome.next (State.command_level hl (named_ascii _ _) he _)
end

/-! SUPPORT. The monitor's line and its timers (R570, R571, R573, R574, R578, R579). -/

namespace Sys2Proof.Machine

section
variable {s : State}

/-- The service session echoes what it accepts; its input line stays. -/
theorem State.say_service_mon (bs : List Byte) : (s.say false bs).mon.service.line = s.mon.service.line ∧
    (s.say false bs).mon.lastByte = s.mon.lastByte := ⟨rfl, rfl⟩

/-- A printable byte joins a line that has room. -/
theorem State.typed_print {b : Byte} (hlo : 0x20 ≤ b.toNat) (hhi : b.toNat ≤ 0x7E)
    (hroom : s.mon.service.line.length < 256) : (s.typed false b).mon.service.line = s.mon.service.line ++ [b] ∧
    (s.typed false b).mon.lastByte = s.mon.lastByte := by
  have other (n : Byte) (h : n.toNat < 0x20 ∨ 0x7E < n.toNat) : b ≠ n := by
    rintro rfl
    omega
  have first : ¬(decide (b = 0x0A) && (s.session false).afterCr) = true := by
    rw [Bool.and_eq_true, decide_eq_true_eq]
    exact fun h => other 0x0A (by decide) h.1
  have ends : ¬(decide (b = 0x0D) || decide (b = 0x0A)) = true := by
    rw [Bool.or_eq_true, decide_eq_true_eq, decide_eq_true_eq]
    exact not_or.mpr ⟨other 0x0D (by decide), other 0x0A (by decide)⟩
  have erases : ¬(decide (b = 0x08) || decide (b = 0x7F)) = true := by
    rw [Bool.or_eq_true, decide_eq_true_eq, decide_eq_true_eq]
    exact not_or.mpr ⟨other 0x08 (by decide), other 0x7F (by decide)⟩
  have short : ¬s.mon.service.line.length ≥ 256 := Nat.not_le.mpr hroom
  have joins : s.typed false b = State.say (State.onSession (s.onSession false (fun y => { y with afterCr := false })) false
      (fun y => if y.line.length ≥ 256 then { y with tooLong := true } else { y with line := y.line ++ [b] })) false [b] :=
    (if_neg first).trans ((if_neg ends).trans ((if_neg erases).trans (if_pos ⟨hlo, hhi⟩)))
  rw [joins]
  exact ⟨congrArg Session.line (if_neg short), rfl⟩

end

end Sys2Proof.Machine

section
open Sys2Proof Sys2Proof.Machine

/-- Settles O9: a printable byte, a break, and what each lapse leaves. -/
theorem monitorLineComplete : Obligations.MonitorLineComplete := by
  refine ⟨fun s b hup hlo hhi _ hroom => ?_, fun s ms hms => congrArg Host.Outcome.next (if_neg (Nat.not_lt.mpr hms)),
    fun s hb ha => congrArg Host.Outcome.next (if_pos (by simp [hb, ha])),
    fun s relay he ha => congrArg Host.Outcome.next (if_pos (by simp [he, ha])),
    fun s h => congrArg Host.Outcome.next (if_pos (by simp [h])), fun s u hu ha => ?_, fun s relay w hw ha => ?_⟩
  · let t : State := { s.drain with mon := { s.drain.mon with lastByte := s.drain.now } }
    obtain ⟨hline, hlast⟩ := State.typed_print (s := t) hlo hhi hroom
    exact ⟨_, congrArg Host.Outcome.next (if_pos hup), hline, hlast⟩
  · have ends : execAuthLockoutEnd s = .next (if s.now ≥ u then
        { s with mon := { s.mon with lockUntil := none, fails := [] } } else s) := by
      simp only [execAuthLockoutEnd, hu]
    exact ends.trans (congrArg Host.Outcome.next (if_pos ha))
  · have stalls : execMonitorOutputStall relay s = .next (if s.drain.now ≥ w + 30000000000 then
        s.drain.onSession relay (fun x =>
          { x with waiting := lineEnd ++ errText 8 ++ lineEnd ++ prompt, waitSince := none, await := none }) else s) := by
      simp only [execMonitorOutputStall, hw]
    exact stalls.trans (congrArg Host.Outcome.next (if_pos ha))
end

/-! SUPPORT. What the ends of commands, fences and self-tests keep of the pair, the link pair, the seal, engineer mode and training. -/

namespace Sys2Proof.Machine

/-- A state keeps from another the seal, engineer mode, the link pair, the trained ports, and the pair but for its own line, which is
not asserted anew. -/
def State.Kept (u s : State) : Prop :=
  s.sec.sealed = u.sec.sealed ∧ s.mon.engineerEn = u.mon.engineerEn ∧ s.links.pairEn = u.links.pairEn ∧
    s.links.pairPort = u.links.pairPort ∧ s.boot.trained = u.boot.trained ∧
    ({ s.pair with own := false } : Pair) = { u.pair with own := false } ∧ (u.pair.own = false → s.pair.own = false)

theorem State.Kept.refl (s : State) : s.Kept s := ⟨rfl, rfl, rfl, rfl, rfl, rfl, id⟩

/-- What is kept, of a state written out. -/
theorem State.kept_mk (u : State) (now fresh racing boot power thermal fabric mem host sec health links field video mon pair parts hostMem
    pending) : u.Kept ⟨now, fresh, racing, boot, power, thermal, fabric, mem, host, sec, health, links, field, video, mon, pair, parts,
      hostMem, pending⟩ ↔ (sec.sealed = u.sec.sealed ∧ mon.engineerEn = u.mon.engineerEn ∧ links.pairEn = u.links.pairEn ∧
    links.pairPort = u.links.pairPort ∧ boot.trained = u.boot.trained ∧
    ({ pair with own := false } : Pair) = { u.pair with own := false } ∧ (u.pair.own = false → pair.own = false)) := Iff.rfl

theorem State.Kept.fields {u s : State} (h : u.Kept s) : s.sec.sealed = u.sec.sealed ∧ s.mon.engineerEn = u.mon.engineerEn ∧
    s.links.pairEn = u.links.pairEn ∧ s.links.pairPort = u.links.pairPort ∧ s.boot.trained = u.boot.trained ∧
    ({ s.pair with own := false } : Pair) = { u.pair with own := false } ∧ (u.pair.own = false → s.pair.own = false) := h

theorem okSat.kept {ε : Type} {u t : State} {x : Except ε State} (h : okSat (State.Kept u) x) (he : x = .ok t) : u.Kept t := h _ he

theorem State.ite_kept {c : Prop} [Decidable c] {u a b : State} (ha : u.Kept a) (hb : u.Kept b) : u.Kept (if c then a else b) := by
  split <;> assumption

theorem State.foldl_kept {α : Type} (f : State → α → State) (l : List α) {u s : State} (h : u.Kept s)
    (hf : ∀ t x, u.Kept t → u.Kept (f t x)) : u.Kept (l.foldl f s) := by
  induction l generalizing s with
  | nil => exact h
  | cons x l ih => exact ih (hf s x h)

theorem State.foldl_kept_fst {α β : Type} (f : State × β → α → State × β) (l : List α) {u : State} {a : State × β}
    (h : u.Kept a.1) (hf : ∀ b x, u.Kept b.1 → u.Kept (f b x).1) : u.Kept (l.foldl f a).1 := by
  induction l generalizing a with
  | nil => exact h
  | cons x l ih => exact ih (hf a x h)

section
variable {u s : State} (hs : u.Kept s)
include hs

/-! ### What a command that ends early leaves undefined -/

theorem State.spoil_kept (p : Nat) (src : Option Nat) (va len : Nat) : u.Kept (s.spoil p src va len) := by
  unfold State.spoil
  repeat' (with_reducible first
    | assumption | apply State.Kept.fields | (simp only [State.kept_mk])
    | (split <;> try dsimp only))

theorem State.spoilTokens_kept (k : Kv) (ts : List (Nat × Nat)) : u.Kept (s.spoilTokens k ts) := by
  unfold State.spoilTokens
  repeat' (with_reducible first
    | assumption | apply State.spoil_kept | apply State.foldl_kept | (intro _; intros; try dsimp only))

theorem State.writePieces_kept (p : Nat) (ps : List (Nat × Nat)) (bs : List Byte) : okSat (State.Kept u)
    (s.writePieces p ps bs) := by
  unfold State.writePieces
  repeat' (with_reducible first
    | assumption | apply okSat.ok | apply okSat.error | apply State.Kept.fields | (simp only [State.kept_mk])
    | (split <;> try dsimp only))

theorem State.tryWriteVa_kept (p va : Nat) (bs : List Byte) : u.Kept (s.tryWriteVa p va bs) := by
  unfold State.tryWriteVa
  repeat' (with_reducible first
    | assumption | refine okSat.kept (State.writePieces_kept ?_ _ _ _) (by assumption) | (split <;> try dsimp only))

theorem State.setPg_kept (k : Kv) (n off len v : Nat) : u.Kept (s.setPg k n off len v) := by
  unfold State.setPg
  repeat' (with_reducible first | assumption | apply State.tryWriteVa_kept)

theorem State.onPart_kept (p : Nat) (f : Part → Part) : u.Kept (s.onPart p f) := hs

theorem State.onHost_kept (p : Nat) (f : PartHost → PartHost) : u.Kept (s.onHost p f) := hs

theorem State.onEvt_kept (p : Nat) (f : EvtRing → EvtRing) : u.Kept (s.onEvt p f) := hs

theorem State.raiseAt_kept (p code subject time : Nat) (data : List Byte) :
    u.Kept (s.raiseAt p code subject time data) := hs

theorem State.raise_kept (p code : Nat) (data : List Byte) : u.Kept (s.raise p code data) := hs

theorem State.copyVa_kept (p src dst len : Nat) : u.Kept (s.copyVa p src dst len) := by
  unfold State.copyVa
  dsimp only
  split <;> exact hs

theorem State.movePage_kept (k : Kv) (n i : Nat) : u.Kept (s.movePage k n i).1 := by
  unfold State.movePage
  repeat' (with_reducible first
    | assumption | apply State.raise_kept | apply State.setPg_kept | apply State.copyVa_kept | (split <;> try dsimp only))

theorem State.unpin_kept (k : Kv) (n : Nat) : u.Kept (s.unpin k n) := by
  unfold State.unpin
  dsimp only
  repeat' (with_reducible first | assumption | apply State.setPg_kept | apply State.movePage_kept | (split <;> try dsimp only))

theorem State.postCounters_kept (k : Kv) : u.Kept (s.postCounters k) := by
  unfold State.postCounters
  repeat' (with_reducible first | assumption | apply State.tryWriteVa_kept | apply State.spoil_kept)

theorem State.moveReq_kept (k : Kv) (n i : Nat) : u.Kept (s.moveReq k n i).1 := by
  unfold State.moveReq
  repeat' (with_reducible first | assumption | apply State.setPg_kept | apply State.movePage_kept | (split <;> try dsimp only))

theorem State.moveAll_kept (k : Kv) (i : Nat) (pages : List Nat) : u.Kept (s.moveAll k i pages).1 := by
  unfold State.moveAll
  repeat' (with_reducible first
    | assumption | apply State.moveReq_kept | apply State.foldl_kept_fst | (intro _; intros; try dsimp only))

theorem State.setSqf_kept (k : Kv) (q off len v : Nat) : u.Kept (s.setSqf k q off len v) := by
  unfold State.setSqf
  repeat' (with_reducible first | assumption | apply State.tryWriteVa_kept)

theorem State.setSeq_kept (k : Kv) (q st : Nat) (run lost : Bool) : u.Kept (s.setSeq k q st run lost) := by
  unfold State.setSeq
  repeat' (with_reducible first | assumption | apply State.setSqf_kept)

theorem State.settleHandle_kept (k : Kv) (before : State) (t q : Nat) :
    u.Kept (s.settleHandle k before t q) := by
  unfold State.settleHandle
  dsimp only
  repeat' (with_reducible first
    | assumption | apply State.moveAll_kept | apply State.setSqf_kept | apply State.setSeq_kept | (split <;> try dsimp only))

theorem State.settle_kept (k : Kv) (before : State) (t : Nat) :
    u.Kept (s.settle k before t) := by
  unfold State.settle
  repeat' (with_reducible first
    | assumption | apply State.postCounters_kept | apply State.settleHandle_kept | apply State.foldl_kept
    | (intro _; intros; try dsimp only))

theorem State.kvAbandon_kept (p num : Nat) : u.Kept (s.kvAbandon p num) := by
  unfold State.kvAbandon
  repeat' (with_reducible first
    | assumption | apply State.spoilTokens_kept | apply State.unpin_kept | apply State.settle_kept | apply State.foldl_kept
    | (intro _; intros; try dsimp only) | (split <;> try dsimp only))

theorem State.hostWrite_kept (addr : Nat) (bs : List Byte) : u.Kept (s.hostWrite addr bs) := by
  unfold State.hostWrite
  split <;> exact hs

theorem State.spoilHost_kept (l : List (Nat × Nat)) : u.Kept (s.spoilHost l) := by
  unfold State.spoilHost
  repeat' (with_reducible first
    | assumption | apply State.hostWrite_kept | apply State.foldl_kept | apply State.Kept.fields | (simp only [State.kept_mk])
    | (intro _; intros; try dsimp only))

theorem State.spoilAll_kept (p : Nat) (src : Option Nat) (l : List (Nat × Nat)) :
    u.Kept (s.spoilAll p src l) := by
  unfold State.spoilAll
  repeat' (with_reducible first
    | assumption | apply State.spoil_kept | apply State.foldl_kept | (intro _; intros; try dsimp only))

theorem State.spoilOut_kept (p : Nat) (d : Desc) : u.Kept (s.spoilOut p d) := by
  unfold State.spoilOut
  repeat' (with_reducible first | assumption | apply State.spoilHost_kept | apply State.spoilAll_kept)

theorem State.onLp_kept (n : Nat) (f : LinkPort → LinkPort) : u.Kept (s.onLp n f) := hs

theorem State.linkSend_kept (n vc : Nat) (msg : List Byte) : u.Kept (s.linkSend n vc msg) := hs

theorem State.sendAbort_kept (p : Nat) (d : Desc) : u.Kept (s.sendAbort p d) := by
  unfold State.sendAbort
  repeat' (with_reducible first
    | assumption | apply State.linkSend_kept | apply State.foldl_kept | (intro _; intros; try dsimp only)
    | (split <;> try dsimp only))

theorem State.dropMedia_kept (p num : Nat) (keep : Bool) : u.Kept (s.dropMedia p num keep) := hs

theorem State.crcUnbind_kept (c : CrcCtx) : u.Kept (s.crcUnbind c) := hs

/-! ### The end of a command and of a work item -/

theorem State.forget_kept (p num st : Nat) : u.Kept (s.forget p num st) := hs

/-! ### Tiles, fences and the health log -/

theorem State.onTile_kept (t : Nat) (f : Tile → Tile) : u.Kept (s.onTile t f) := hs

theorem State.onUnit_kept (kind unit : Nat) (f : Unit → Unit) : u.Kept (s.onUnit kind unit f) := hs

theorem State.progress_kept (kind unit : Nat) : u.Kept (s.progress kind unit) := hs

theorem State.settleTile_kept (t : Nat) : u.Kept (s.settleTile t) := by
  obtain ⟨f, n, h⟩ := s.settleTile_eq t
  rw [h]
  exact hs

theorem State.chargeItem_kept (t : Nat) : u.Kept (s.chargeItem t) := by
  unfold State.chargeItem
  dsimp only
  repeat' (with_reducible first
    | assumption | apply State.settleTile_kept | apply State.onPart_kept | apply State.onTile_kept | (split <;> try dsimp only))

theorem State.raisePf_kept (p code : Nat) (data : List Byte) : u.Kept (s.raisePf p code data) := hs

theorem State.raiseBoth_kept (p code : Nat) (data : List Byte) : u.Kept (s.raiseBoth p code data) := by
  unfold State.raiseBoth
  repeat' (with_reducible first | assumption | apply State.raise_kept | apply State.raisePf_kept | (split <;> try dsimp only))

theorem State.noteShrunk_kept (p i : Nat) : u.Kept (s.noteShrunk p i) := by
  unfold State.noteShrunk
  repeat' (with_reducible first | assumption | apply State.onPart_kept | apply State.raiseBoth_kept | (split <;> try dsimp only))

theorem State.raiseTile_kept (t code : Nat) (data : List Byte) : u.Kept (s.raiseTile t code data) := by
  unfold State.raiseTile
  repeat' (with_reducible first | assumption | apply State.raiseBoth_kept | apply State.raise_kept | (split <;> try dsimp only))

theorem State.rescore_kept : u.Kept s.rescore := hs

theorem State.alert_kept (bit : Nat) : u.Kept (s.alert bit) := hs

theorem State.healthLow_kept : u.Kept s.healthLow := hs

theorem State.checkExpel_kept : u.Kept s.checkExpel := by
  unfold State.checkExpel
  repeat' (with_reducible first
    | assumption | apply State.healthLow_kept | apply State.Kept.fields | (simp only [State.kept_mk])
    | (split <;> try dsimp only))

theorem State.reviewHealth_kept (forced : Bool) : u.Kept (s.reviewHealth forced) := by
  unfold State.reviewHealth
  repeat' (with_reducible first
    | assumption | apply State.rescore_kept | apply State.checkExpel_kept | apply State.healthLow_kept
    | (split <;> try dsimp only))

theorem State.setModule_kept (st : ModSt) : u.Kept (s.setModule st) := by
  obtain ⟨hsealed, hen, hpe, hpp, htr, hpair, hown⟩ := hs
  unfold State.setModule
  split
  · exact ⟨hsealed, hen, hpe, hpp, htr, hpair, hown⟩
  · exact ⟨hsealed, hen, hpe, hpp, htr, hpair, fun h => Bool.and_eq_false_imp.mpr fun h' => by simp [hown h] at h'⟩

theorem State.reviewDown_kept : u.Kept s.reviewDown := by
  unfold State.reviewDown
  repeat' (with_reducible first | assumption | apply State.setModule_kept | (split <;> try dsimp only))

theorem State.tick_kept : u.Kept s.tick := hs

theorem State.appendHealth_kept (r : HealthRec) : u.Kept (s.appendHealth r) := hs

theorem State.logHealth_kept (kind unitKind unit part detail : Nat) :
    u.Kept (s.logHealth kind unitKind unit part detail) := hs

theorem State.logOpen_kept (kind unitKind unit part : Nat) :
    u.Kept (s.logOpen kind unitKind unit part) := hs

theorem State.fenceTile_kept (t reason : Nat) : u.Kept (s.fenceTile t reason) := by
  unfold State.fenceTile
  repeat' (with_reducible first
    | assumption | apply State.chargeItem_kept | apply State.onTile_kept | apply State.onUnit_kept | apply State.noteShrunk_kept
    | apply State.raiseTile_kept | apply State.reviewHealth_kept | apply State.reviewDown_kept | apply State.logOpen_kept
    | (split <;> try dsimp only))

theorem State.settleFence_kept (t : Nat) : u.Kept (s.settleFence t) := by
  unfold State.settleFence
  repeat' (with_reducible first | assumption | apply State.fenceTile_kept | (split <;> try dsimp only))

theorem State.leftItems_kept (t : Nat) (items : List (Nat × Nat)) : u.Kept (s.leftItems t items) := by
  unfold State.leftItems
  dsimp only
  repeat' (with_reducible first
    | assumption | apply State.onTile_kept | apply State.progress_kept | apply State.settleFence_kept
    | (split <;> try dsimp only))

theorem State.dropItem_kept (p num t : Nat) : u.Kept (s.dropItem p num t) := by
  unfold State.dropItem
  repeat' (with_reducible first
    | assumption | apply State.leftItems_kept | apply State.chargeItem_kept | apply State.onTile_kept
    | (split <;> try dsimp only))

theorem State.dropItems_kept (p num : Nat) : u.Kept (s.dropItems p num) := by
  unfold State.dropItems
  repeat' (with_reducible first
    | assumption | apply State.dropItem_kept | apply State.foldl_kept | (intro _; intros; try dsimp only))

theorem State.onAct_kept (p n : Nat) (f : ActSlot → ActSlot) : u.Kept (s.onAct p n f) := hs

theorem State.endActDescs_kept (p n st : Nat) : u.Kept (s.endActDescs p n st) := by
  unfold State.endActDescs
  repeat' (with_reducible first
    | assumption | apply State.kvAbandon_kept | apply State.spoilOut_kept | apply State.sendAbort_kept | apply State.forget_kept
    | apply State.dropItems_kept | apply State.onAct_kept | apply State.foldl_kept | (intro _; intros; try dsimp only)
    | (split <;> try dsimp only))

/-! ### Completion records -/

theorem State.portEvent_kept (n code : Nat) (data : List Byte) : u.Kept (s.portEvent n code data) := by
  unfold State.portEvent
  dsimp only
  repeat' (with_reducible first | assumption | apply State.raiseBoth_kept | apply State.raise_kept | (split <;> try dsimp only))

theorem State.onSq_kept (p q : Nat) (f : Sq → Sq) : u.Kept (s.onSq p q f) := hs

theorem State.noteQuiet_kept (p : Nat) : u.Kept (s.noteQuiet p) := hs

theorem State.onCq_kept (p c : Nat) (f : Cq → Cq) : u.Kept (s.onCq p c f) := hs

theorem State.hostWriteAs_kept (p addr : Nat) (bs : List Byte) : u.Kept (s.hostWriteAs p addr bs) := by
  unfold State.hostWriteAs
  repeat' (with_reducible first | assumption | apply State.hostWrite_kept | (split <;> try dsimp only))

theorem State.onSec_kept (p : Nat) (f : PartSec → PartSec) : u.Kept (s.onSec p f) := hs

theorem State.putUnit_kept (p kind num unit : Nat) (clear : Option Nat) (addr sealAt : Nat) (bs
    : List Byte) : u.Kept (s.putUnit p kind num unit clear addr sealAt bs) := by
  unfold State.putUnit
  repeat' (with_reducible first | assumption | apply State.onSec_kept | apply State.hostWriteAs_kept | (split <;> try dsimp only))

theorem State.writeRecord_kept (p : Nat) (d : Desc) (st cflags result beats : Nat) :
    u.Kept (s.writeRecord p d st cflags result beats) := by
  unfold State.writeRecord
  dsimp only
  repeat' (with_reducible first
    | assumption | apply State.hostWriteAs_kept | apply State.putUnit_kept | apply State.onCq_kept | (split <;> try dsimp only))

theorem State.recordOut_kept (p : Nat) (r : LateRec) : u.Kept (s.recordOut p r) := by
  unfold State.recordOut
  repeat' (with_reducible first | assumption | apply State.onCq_kept | apply State.writeRecord_kept)

theorem State.doorbell_kept (p : Nat) : u.Kept (s.doorbell p) := hs

theorem State.postPresence_kept (p : Nat) : u.Kept (s.postPresence p) := by
  unfold State.postPresence
  repeat' (with_reducible first | assumption | apply State.hostWriteAs_kept | (split <;> try dsimp only))

theorem State.endDoze_kept (p : Nat) : u.Kept (s.endDoze p) := by
  unfold State.endDoze
  repeat' (with_reducible first
    | assumption | apply State.onHost_kept | apply State.doorbell_kept | apply State.postPresence_kept
    | (split <;> try dsimp only))

theorem State.closeBatch_kept (p : Nat) : u.Kept (s.closeBatch p) := by
  unfold State.closeBatch
  repeat' (with_reducible first | assumption | apply State.doorbell_kept | apply State.endDoze_kept | (split <;> try dsimp only))

theorem State.inBatchOf_kept (p c : Nat) : u.Kept (s.inBatchOf p c) := by
  unfold State.inBatchOf
  repeat' (with_reducible first | assumption | apply State.closeBatch_kept | apply State.onHost_kept | (split <;> try dsimp only))

theorem State.completeRing_kept (p : Nat) (d : Desc) (o : Done) (beats : Nat) :
    u.Kept (s.completeRing p d o beats) := by
  unfold State.completeRing
  dsimp only
  repeat' (with_reducible first
    | assumption | apply State.forget_kept | apply State.onSq_kept | apply State.onHost_kept | apply State.noteQuiet_kept
    | apply State.recordOut_kept | apply State.inBatchOf_kept | (split <;> try dsimp only))

theorem State.batched_kept (p : Nat) (f : State → State) (hf : ∀ v0, u.Kept v0 → u.Kept (f v0)) :
    u.Kept (s.batched p f) := by
  unfold State.batched
  repeat' (with_reducible first
    | assumption | apply hf | apply State.onHost_kept | apply State.closeBatch_kept | apply State.foldl_kept
    | (intro _; intros; try dsimp only) | (split <;> try dsimp only))

theorem State.freeAct_kept (p n cycles : Nat) : u.Kept (s.freeAct p n cycles) := by
  unfold State.freeAct
  repeat' (with_reducible first
    | assumption | apply State.onAct_kept | apply State.batched_kept | apply State.completeRing_kept | apply State.foldl_kept
    | (intro _; intros; try dsimp only) | (split <;> try dsimp only))

theorem State.actCheck_kept (p n : Nat) : u.Kept (s.actCheck p n) := by
  unfold State.actCheck
  dsimp only
  repeat' (with_reducible first
    | assumption | apply State.spoilHost_kept | apply State.spoilAll_kept | apply State.batched_kept | apply State.freeAct_kept
    | apply State.completeRing_kept | apply State.noteQuiet_kept | (intro _; intros; try dsimp only)
    | (split <;> try dsimp only))

theorem State.complete_kept (p : Nat) (d : Desc) (o : Done) : u.Kept (s.complete p d o) := by
  unfold State.complete
  repeat' (with_reducible first
    | assumption | apply State.dropItems_kept | apply State.sendAbort_kept | apply State.completeRing_kept
    | apply State.forget_kept | apply State.onAct_kept | apply State.actCheck_kept | (split <;> try dsimp only))

theorem State.endCollective_kept (p : Nat) (d : Desc) : u.Kept (s.endCollective p d) := by
  unfold State.endCollective
  repeat' (with_reducible first | assumption | apply State.raise_kept | apply State.complete_kept | apply State.spoilAll_kept)

theorem State.endOnPort_kept (n : Nat) : u.Kept (s.endOnPort n) := by
  unfold State.endOnPort
  repeat' (with_reducible first
    | assumption | apply State.endCollective_kept | apply State.foldl_kept | (intro _; intros; try dsimp only))

/-! ### Ports, fences and recoveries -/

theorem State.linkOff_kept (n : Nat) : u.Kept (s.linkOff n) := by
  unfold State.linkOff
  repeat' (with_reducible first
    | assumption | apply State.onLp_kept | apply State.portEvent_kept | apply State.endOnPort_kept | (split <;> try dsimp only))

theorem State.portLost_kept (i : Nat) : u.Kept (s.portLost i) := by
  unfold State.portLost
  repeat' (with_reducible first
    | assumption | apply State.onPart_kept | apply State.raise_kept | apply State.foldl_kept | apply State.Kept.fields
    | (simp only [State.kept_mk])
    | (intro _; intros; try dsimp only) | (split <;> try dsimp only))

theorem State.fenceHub_kept (kind unit reason : Nat) : u.Kept (s.fenceHub kind unit reason) := by
  unfold State.fenceHub
  repeat' (with_reducible first
    | assumption | apply State.onUnit_kept | apply State.onLp_kept | apply State.linkOff_kept | apply State.portLost_kept
    | apply State.raise_kept | apply State.reviewHealth_kept | apply State.reviewDown_kept | apply State.logOpen_kept
    | apply State.Kept.fields | (simp only [State.kept_mk]) | (split <;> try dsimp only))

theorem State.endEarly_kept (p num : Nat) (o : Done) : u.Kept (s.endEarly p num o) := by
  unfold State.endEarly
  repeat' (with_reducible first
    | assumption | apply State.complete_kept | apply State.kvAbandon_kept | apply State.spoilOut_kept
    | (split <;> try dsimp only))

theorem State.endEach_kept (p : Nat) (ds : List Desc) (o : Done) : u.Kept (s.endEach p ds o) := by
  unfold State.endEach
  repeat' (with_reducible first
    | assumption | apply State.batched_kept | apply State.endEarly_kept | apply State.foldl_kept
    | (intro _; intros; try dsimp only))

theorem State.endFenced_kept (t : Nat) : u.Kept (s.endFenced t) := by
  unfold State.endFenced
  repeat' (with_reducible first | assumption | apply State.endEach_kept | (split <;> try dsimp only))

theorem State.fenceUnit_kept (kind unit reason : Nat) : u.Kept (s.fenceUnit kind unit reason) := by
  unfold State.fenceUnit
  repeat' (with_reducible first
    | assumption | apply State.fenceHub_kept | apply State.onUnit_kept | apply State.settleFence_kept | apply State.onTile_kept
    | apply State.endFenced_kept | (split <;> try dsimp only))

/-! ### Self-test -/

theorem State.roundPassed_kept (kind unit : Nat) : u.Kept (s.roundPassed kind unit) := hs

theorem State.zeroTile_kept (t : Nat) : u.Kept (s.zeroTile t) := hs

theorem State.portBack_kept (i : Nat) : u.Kept (s.portBack i) := by
  unfold State.portBack
  repeat' (with_reducible first
    | assumption | apply State.Kept.fields | (simp only [State.kept_mk])
    | (split <;> try dsimp only))

theorem State.hold_kept (code : Nat) (data : List Byte) : u.Kept (s.hold code data) := by
  unfold State.hold
  repeat' (with_reducible first
    | assumption | apply State.onEvt_kept | apply State.Kept.fields | (simp only [State.kept_mk])
    | (split <;> try dsimp only))

theorem State.liftFence_kept (kind unit : Nat) : u.Kept (s.liftFence kind unit) := by
  unfold State.liftFence
  repeat' (with_reducible first
    | assumption | apply State.onUnit_kept | apply State.onTile_kept | apply State.zeroTile_kept | apply State.portBack_kept
    | apply State.hold_kept | (split <;> try dsimp only))

theorem State.passTile_kept (t : Nat) (pass : Bool) : u.Kept (s.passTile t pass) := by
  unfold State.passTile
  repeat' (with_reducible first
    | assumption | apply State.roundPassed_kept | apply State.liftFence_kept | apply State.fenceUnit_kept
    | (split <;> try dsimp only))

theorem State.requestReset_kept (kind unit source : Nat) (hang : List Byte) (cascade testing : Bool) :
    u.Kept (s.requestReset kind unit source hang cascade testing) := by
  unfold State.requestReset
  repeat' (with_reducible first
    | assumption | apply State.onUnit_kept | apply State.onTile_kept | apply State.chargeItem_kept | (split <;> try dsimp only))

theorem State.roundFailed_kept (kind unit test mask : Nat) :
    u.Kept (s.roundFailed kind unit test mask) := by
  unfold State.roundFailed
  repeat' (with_reducible first
    | assumption | apply State.onUnit_kept | apply State.raiseTile_kept | apply State.raise_kept | apply State.fenceUnit_kept
    | apply State.requestReset_kept | (split <;> try dsimp only))

theorem State.passSlice_kept (i : Nat) (pass : Bool) : u.Kept (s.passSlice i pass) := by
  unfold State.passSlice
  repeat' (with_reducible first
    | assumption | apply State.roundPassed_kept | apply State.liftFence_kept | apply State.roundFailed_kept
    | (split <;> try dsimp only))

/-! ### The pair -/

theorem State.pairEvent_kept (code : Nat) (data : List Byte) : u.Kept (s.pairEvent code data) := by
  unfold State.pairEvent
  repeat' (with_reducible first | assumption | apply State.raiseBoth_kept)

theorem State.onCyc_kept (p n : Nat) (f : Cyclic → Cyclic) : u.Kept (s.onCyc p n f) := hs

theorem State.idlePaired_kept : u.Kept s.idlePaired := by
  unfold State.idlePaired
  repeat' (with_reducible first
    | assumption | apply State.onCyc_kept | apply State.endActDescs_kept | apply State.foldl_kept
    | (intro _; intros; try dsimp only))

end

end Sys2Proof.Machine

/-! SUPPORT. Register writes and the seal (R13, R453). -/

namespace Sys2Proof.Machine

section
variable {u s : State} (hs : u.Kept s)
include hs

/-! ### Register writes -/

theorem State.wakeDeep_kept : u.Kept s.wakeDeep := by
  rw [s.wakeDeep_eq]
  exact hs

theorem State.writePtmCtrl_kept (v : Nat) : u.Kept (s.writePtmCtrl v) := by
  unfold State.writePtmCtrl
  repeat' (with_reducible first
    | assumption | apply State.Kept.fields | (simp only [State.kept_mk]) | (split <;> try dsimp only))

theorem State.fieldLink_kept (n : Nat) (up : Bool) (fec : Nat) : u.Kept (s.fieldLink n up fec) := by
  unfold State.fieldLink
  repeat' (with_reducible first
    | assumption | apply State.raise_kept | apply State.foldl_kept | apply State.Kept.fields | (simp only [State.kept_mk])
    | (intro _; intros; try dsimp only) | (split <;> try dsimp only))

theorem State.writeFldCfg_kept (n v : Nat) : u.Kept (s.writeFldCfg n v) := by
  unfold State.writeFldCfg
  repeat' (with_reducible first
    | assumption | apply State.fieldLink_kept | apply State.Kept.fields | (simp only [State.kept_mk])
    | (split <;> try dsimp only))

theorem State.onPtp_kept (f : Field → Field) : u.Kept (s.onPtp f) := by
  unfold State.onPtp
  repeat' (with_reducible first
    | assumption | apply State.raise_kept | apply State.Kept.fields | (simp only [State.kept_mk])
    | (split <;> try dsimp only))

theorem State.writePtpCtrl_kept (v : Nat) : u.Kept (s.writePtpCtrl v) := by
  unfold State.writePtpCtrl
  repeat' (with_reducible first | assumption | apply State.onPtp_kept | (split <;> try dsimp only))

theorem State.writeCarousel_kept (v : Nat) : u.Kept (s.writeCarousel v) := by
  unfold State.writeCarousel
  repeat' (with_reducible first
    | assumption | apply State.Kept.fields | (simp only [State.kept_mk]) | (split <;> try dsimp only))

theorem State.setHealth_kept (ok : Bool) (f : Health → Health) : u.Kept (s.setHealth ok f) := by
  unfold State.setHealth
  repeat' (with_reducible first
    | assumption | apply State.Kept.fields | (simp only [State.kept_mk]) | (split <;> try dsimp only))

theorem State.writeHltReset_kept (v : Nat) : u.Kept (s.writeHltReset v) := by
  unfold State.writeHltReset
  dsimp only
  repeat' (with_reducible first | assumption | apply State.requestReset_kept | (split <;> try dsimp only))

theorem State.writeExpel_kept (v : Nat) : u.Kept (s.writeExpel v) := by
  unfold State.writeExpel
  repeat' (with_reducible first
    | assumption | apply State.checkExpel_kept | apply State.Kept.fields | (simp only [State.kept_mk])
    | (split <;> try dsimp only))

theorem State.writeHlt_kept (off v : Nat) : u.Kept (s.writeHlt off v) := by
  unfold State.writeHlt
  repeat' (with_reducible first
    | assumption | apply State.setHealth_kept | apply State.writeHltReset_kept | apply State.writeExpel_kept
    | (split <;> try dsimp only))

theorem State.writeTile_kept (off v : Nat) : u.Kept (s.writeTile off v) := by
  unfold State.writeTile
  repeat' (with_reducible first | assumption | apply State.onTile_kept | (split <;> try dsimp only))

theorem State.onRate_kept (page : Option Nat) (f : RateCtl → RateCtl) : u.Kept (s.onRate page f) := by
  unfold State.onRate
  repeat' (with_reducible first
    | assumption | apply State.onPart_kept | apply State.Kept.fields | (simp only [State.kept_mk])
    | (split <;> try dsimp only))

theorem State.writeRateBase_kept (page : Option Nat) (hi : Bool) (v : Nat) :
    u.Kept (s.writeRateBase page hi v) := by
  unfold State.writeRateBase
  repeat' (with_reducible first | assumption | apply State.onRate_kept)

theorem State.writeRateCtrl_kept (page : Option Nat) (v : Nat) : u.Kept (s.writeRateCtrl page v) := by
  unfold State.writeRateCtrl
  dsimp only
  repeat' (with_reducible first | assumption | apply State.onRate_kept | (split <;> try dsimp only))

theorem State.writeFab_kept (off v : Nat) : u.Kept (s.writeFab off v) := by
  unfold State.writeFab
  repeat' (with_reducible first
    | assumption | apply State.writeRateBase_kept | apply State.writeRateCtrl_kept | apply State.Kept.fields
    | (simp only [State.kept_mk]) | (split <;> try dsimp only))

theorem State.resolveLevels_kept : u.Kept s.resolveLevels := by
  rw [s.resolveLevels_eq]
  exact hs

theorem State.setWatts_kept (v : Nat) (f : Power → Nat → Power) : u.Kept (s.setWatts v f) := by
  unfold State.setWatts
  repeat' (with_reducible first
    | assumption | apply State.resolveLevels_kept | apply State.Kept.fields | (simp only [State.kept_mk])
    | (split <;> try dsimp only))

theorem State.writePwr_kept (off v : Nat) : u.Kept (s.writePwr off v) := by
  unfold State.writePwr
  repeat' (with_reducible first
    | assumption | apply State.setWatts_kept | apply State.Kept.fields | (simp only [State.kept_mk])
    | (split <;> try dsimp only))

theorem State.setThermal_kept (ok : Bool) (f : Thermal → Thermal) : u.Kept (s.setThermal ok f) := by
  unfold State.setThermal
  repeat' (with_reducible first
    | assumption | apply State.Kept.fields | (simp only [State.kept_mk]) | (split <;> try dsimp only))

theorem State.onSpot_kept (i : Nat) (f : HotSpot → HotSpot) : u.Kept (s.onSpot i f) := by
  unfold State.onSpot
  repeat' (with_reducible first
    | assumption | apply State.Kept.fields | (simp only [State.kept_mk]) | (split <;> try dsimp only))

theorem State.checkBudget_kept (t : Nat) : u.Kept (s.checkBudget t) := by
  unfold State.checkBudget
  dsimp only
  repeat' (with_reducible first | assumption | apply State.onSpot_kept | apply State.raise_kept | (split <;> try dsimp only))

theorem State.rearmThermal_kept : u.Kept s.rearmThermal := hs

theorem State.writeThmEvents_kept (v : Nat) : u.Kept (s.writeThmEvents v) := by
  unfold State.writeThmEvents
  repeat' (with_reducible first
    | assumption | apply State.rearmThermal_kept | apply State.Kept.fields | (simp only [State.kept_mk])
    | (split <;> try dsimp only))

theorem State.writeThm_kept (off v : Nat) : u.Kept (s.writeThm off v) := by
  unfold State.writeThm
  repeat' (with_reducible first
    | assumption | apply State.setThermal_kept | apply State.checkBudget_kept | apply State.writeThmEvents_kept
    | apply State.foldl_kept | (intro _; intros; try dsimp only) | (split <;> try dsimp only))

theorem State.writeMem_kept (off v : Nat) : u.Kept (s.writeMem off v) := by
  unfold State.writeMem
  split
  · split <;> exact hs
  split
  · split <;> exact hs
  · exact hs

theorem State.sendHello_kept (n : Nat) : u.Kept (s.sendHello n) := hs

theorem State.trainLink_kept (n : Nat) : u.Kept (s.trainLink n) := hs

theorem State.tryTrain_kept (n : Nat) : u.Kept (s.tryTrain n) := by
  unfold State.tryTrain
  repeat' (with_reducible first | assumption | apply State.trainLink_kept | (split <;> try dsimp only))

theorem State.writePortCfg_kept (n v : Nat) : u.Kept (s.writePortCfg n v) := by
  unfold State.writePortCfg
  repeat' (with_reducible first
    | assumption | apply State.onLp_kept | apply State.tryTrain_kept | apply State.linkOff_kept | (split <;> try dsimp only))

theorem State.checkPair_kept (n : Nat) : u.Kept (s.checkPair n) := by
  unfold State.checkPair
  repeat' (with_reducible first
    | assumption | apply State.portEvent_kept | apply State.raiseBoth_kept | (split <;> try dsimp only))

theorem State.onDom_kept (k : Nat) (f : Domain → Domain) : u.Kept (s.onDom k f) := hs

theorem State.writeFixed_kept (p v : Nat) (virt : Bool) : u.Kept (s.writeFixed p v virt) := by
  unfold State.writeFixed
  repeat' (with_reducible first
    | assumption | apply State.onPart_kept | apply State.onDom_kept | apply State.foldl_kept | (intro _; intros; try dsimp only)
    | (split <;> try dsimp only))

theorem State.nudge_kept (p : Nat) : u.Kept (s.nudge p) := by
  unfold State.nudge
  repeat' (with_reducible first
    | assumption | apply State.doorbell_kept | apply State.onHost_kept | apply State.endDoze_kept | (split <;> try dsimp only))

theorem State.writeDbBase_kept (p : Nat) (hi : Bool) (v : Nat) : u.Kept (s.writeDbBase p hi v) := by
  unfold State.writeDbBase
  repeat' (with_reducible first
    | assumption | apply State.onHost_kept | apply State.hostWriteAs_kept | apply State.postPresence_kept
    | (split <;> try dsimp only))

theorem State.disableEvt_kept (p : Nat) : u.Kept (s.disableEvt p) := hs

theorem State.enableEvt_kept (p : Nat) : u.Kept (s.enableEvt p) := by
  unfold State.enableEvt
  dsimp only
  repeat' (with_reducible first
    | assumption | apply State.postPresence_kept | apply State.onEvt_kept | (split <;> try dsimp only))

theorem State.writeEvtCfg_kept (p v : Nat) : u.Kept (s.writeEvtCfg p v) := by
  unfold State.writeEvtCfg
  repeat' (with_reducible first
    | assumption | apply State.onEvt_kept | apply State.disableEvt_kept | apply State.enableEvt_kept | (split <;> try dsimp only))

theorem State.writeRing_kept (p off v : Nat) : u.Kept (s.writeRing p off v) := by
  unfold State.writeRing
  repeat' (with_reducible first
    | exact hs
    | exact State.nudge_kept hs _
    | exact State.writeDbBase_kept hs _ _ _
    | exact State.onHost_kept hs _ _
    | exact State.onEvt_kept hs _ _
    | exact State.writeEvtCfg_kept hs _ _
    | apply State.ite_kept)

theorem State.dropXlat_kept (p : Nat) : u.Kept (s.dropXlat p) := hs

theorem State.writePtRootLo_kept (p v : Nat) : u.Kept (s.writePtRootLo p v) := by
  unfold State.writePtRootLo
  repeat' (with_reducible first | assumption | apply State.dropXlat_kept | apply State.onPart_kept | (split <;> try dsimp only))

theorem State.writePtRootHi_kept (p v : Nat) : u.Kept (s.writePtRootHi p v) := by
  unfold State.writePtRootHi
  repeat' (with_reducible first | assumption | apply State.onPart_kept | (split <;> try dsimp only))

theorem State.startInval_kept (p : Nat) : u.Kept (s.startInval p) := hs

theorem State.writePartMem_kept (p off v : Nat) : u.Kept (s.writePartMem p off v) := by
  unfold State.writePartMem
  repeat' (with_reducible first
    | assumption | apply State.writeRateBase_kept | apply State.writeRateCtrl_kept | apply State.writePtRootLo_kept
    | apply State.writePtRootHi_kept | apply State.startInval_kept | apply State.onPart_kept | (split <;> try dsimp only))

theorem State.setDump_kept (p : Nat) (ok : Bool) (f : PartHlt → PartHlt) : u.Kept (s.setDump p ok f) := by
  unfold State.setDump
  repeat' (with_reducible first | assumption | apply State.onPart_kept | (split <;> try dsimp only))

theorem State.writePartHlt_kept (p off v : Nat) : u.Kept (s.writePartHlt p off v) := by
  unfold State.writePartHlt
  repeat' (with_reducible first | assumption | apply State.setDump_kept | apply State.onPart_kept | (split <;> try dsimp only))

theorem State.disableSq_kept (p q : Nat) : u.Kept (s.disableSq p q) := hs

theorem State.enableSq_kept (p q : Nat) : u.Kept (s.enableSq p q) := by
  unfold State.enableSq
  dsimp only
  repeat' (with_reducible first | assumption | apply State.hostWriteAs_kept | apply State.onSq_kept | (split <;> try dsimp only))

theorem State.pauseSq_kept (p q : Nat) (on : Bool) : u.Kept (s.pauseSq p q on) := hs

theorem State.writeSqCfg_kept (p q v : Nat) : u.Kept (s.writeSqCfg p q v) := by
  unfold State.writeSqCfg
  repeat' (with_reducible first
    | assumption | apply State.onSq_kept | apply State.disableSq_kept | apply State.enableSq_kept | apply State.pauseSq_kept
    | (split <;> try dsimp only))

theorem State.writeSq_kept (p q o v : Nat) : u.Kept (s.writeSq p q o v) := by
  unfold State.writeSq
  repeat' (with_reducible first | assumption | apply State.onSq_kept | apply State.writeSqCfg_kept | (split <;> try dsimp only))

theorem State.disableCq_kept (p c : Nat) : u.Kept (s.disableCq p c) := by
  unfold State.disableCq
  repeat' (with_reducible first | assumption | apply State.onCq_kept | (split <;> try dsimp only))

theorem State.enableCq_kept (p c : Nat) : u.Kept (s.enableCq p c) := by
  unfold State.enableCq
  dsimp only
  repeat' (with_reducible first | assumption | apply State.onCq_kept | (split <;> try dsimp only))

theorem State.writeCqCfg_kept (p c v : Nat) : u.Kept (s.writeCqCfg p c v) := by
  unfold State.writeCqCfg
  repeat' (with_reducible first
    | assumption | apply State.onCq_kept | apply State.disableCq_kept | apply State.enableCq_kept | (split <;> try dsimp only))

theorem State.writeCq_kept (p c o v : Nat) : u.Kept (s.writeCq p c o v) := by
  unfold State.writeCq
  repeat' (with_reducible first | assumption | apply State.onCq_kept | apply State.writeCqCfg_kept | (split <;> try dsimp only))

theorem State.message_kept (p v : Nat) : u.Kept (s.message p v) := by
  unfold State.message
  repeat' (with_reducible first | assumption | apply State.hostWriteAs_kept | apply State.onHost_kept)

theorem State.unmask_kept (p v : Nat) : u.Kept (s.unmask p v) := by
  unfold State.unmask
  dsimp only
  repeat' (with_reducible first | assumption | apply State.onHost_kept | apply State.message_kept | (split <;> try dsimp only))

theorem State.writeMsix_kept (p i o v : Nat) : u.Kept (s.writeMsix p i o v) := by
  unfold State.writeMsix
  repeat' (with_reducible first | assumption | apply State.onHost_kept | apply State.unmask_kept)

/-! ### Pages -/

theorem State.writePage_kept (p off v : Nat) (virt : Bool) : u.Kept (s.writePage p off v virt) := by
  unfold State.writePage
  repeat' (with_reducible first
    | assumption | apply State.writeFixed_kept | apply State.writeRing_kept | apply State.writePartMem_kept
    | apply State.writePartHlt_kept | apply State.writeSq_kept | apply State.writeCq_kept | apply State.writeMsix_kept
    | (split <;> try dsimp only))

end

/-! ### What the seal locks -/

/-- A sealed state shows what another shows of the configuration that the seal locks. -/
def State.Locked (u s : State) : Prop :=
  s.sec.sealed = true ∧ s.mon.engineerEn = u.mon.engineerEn ∧ s.pair.enable = u.pair.enable ∧ s.pair.warm = u.pair.warm ∧
    s.pair.part = u.pair.part ∧ s.links.pairEn = u.links.pairEn ∧ s.links.pairPort = u.links.pairPort

/-- What keeps the fields keeps the lock on them. -/
theorem State.Locked.of_kept {u s t : State} (h : u.Locked s) (k : s.Kept t) : u.Locked t := by
  obtain ⟨hsealed, hen, henable, hwarm, hpart, hpe, hpp⟩ := h
  obtain ⟨ksealed, ken, kpe, kpp, -, kpair, -⟩ := k
  exact ⟨ksealed.trans hsealed, ken.trans hen, (congrArg Pair.enable kpair).trans henable, (congrArg Pair.warm kpair).trans hwarm,
    (congrArg Pair.part kpair).trans hpart, kpe.trans hpe, kpp.trans hpp⟩

theorem State.ite_locked {c : Prop} [Decidable c] {u a b : State} (ha : u.Locked a) (hb : u.Locked b) : u.Locked (if c then a else b) := by
  split <;> assumption

section
variable {u s : State} (h : u.Locked s)
include h

theorem State.writeMonCfg_locked (v : Nat) : u.Locked (s.writeMonCfg v) := by
  obtain ⟨hsealed, hen, hrest⟩ := h
  exact ⟨hsealed, (if_pos hsealed).trans hen, hrest⟩

theorem State.writeSec_locked (off v : Nat) : u.Locked (s.writeSec off v) :=
  State.ite_locked (State.ite_locked ⟨rfl, h.2⟩ h) (State.ite_locked (State.ite_locked h h) h)

theorem State.writePair_locked (v : Nat) : u.Locked (s.writePair v) := by
  have shut : s.writePair v = s := if_pos (by rw [h.1]; rfl)
  rwa [shut]

theorem State.writePairCfg_locked (v : Nat) : u.Locked (s.writePairCfg v) := by
  have shut : s.writePairCfg v = s := if_pos h.1
  rwa [shut]

theorem State.rearmPair_locked : u.Locked s.rearmPair := State.ite_locked h h

theorem State.standDown_locked (why : Nat) : u.Locked (s.standDown why) := by
  refine State.ite_locked (State.Locked.of_kept (s := { s with
    pair := { s.pair with role := .standby, own := false, notBefore := s.now + 20000000 } }) h ?_) h
  exact State.pairEvent_kept (.refl _) _ _

theorem State.handOver_locked : u.Locked s.handOver :=
  State.ite_locked ((State.standDown_locked h 1).of_kept (State.idlePaired_kept (.refl _))) h

theorem State.writePairCtrl_locked (v : Nat) : u.Locked (s.writePairCtrl v) := by
  have rearmed : u.Locked (if bitOf v 31 then s.rearmPair else s) := State.ite_locked (State.rearmPair_locked h) h
  exact State.ite_locked (State.handOver_locked rearmed) rearmed

theorem State.writeLnk_locked (off v : Nat) : u.Locked (s.writeLnk off v) := by
  unfold State.writeLnk
  split
  · exact h.of_kept (State.writePortCfg_kept (.refl _) _ _)
  · exact h
  · exact State.ite_locked (State.writePair_locked h v)
      (State.ite_locked (State.writePairCfg_locked h v) (State.ite_locked (State.writePairCtrl_locked h v) h))

theorem State.writeGlobal_locked (off v : Nat) : u.Locked (s.writeGlobal off v) := by
  unfold State.writeGlobal
  split
  · exact State.ite_locked (h.of_kept (State.writePtmCtrl_kept (.refl _) _)) h
  · exact State.ite_locked (State.writeMonCfg_locked h v) h
  · exact State.ite_locked (h.of_kept (State.writeFldCfg_kept (.refl _) _ _)) (State.ite_locked
      (h.of_kept (State.writeFldCfg_kept (.refl _) _ _)) (State.ite_locked (h.of_kept (State.writePtpCtrl_kept (.refl _) _)) h))
  · exact State.ite_locked (h.of_kept (State.writeCarousel_kept (.refl _) _)) h
  · exact State.writeSec_locked h off v
  · exact h.of_kept (State.writeHlt_kept (.refl _) _ _)
  · exact h.of_kept (State.writeTile_kept (.refl _) _ _)
  · exact h.of_kept (State.writeFab_kept (.refl _) _ _)
  · exact h.of_kept (State.writePwr_kept (.refl _) _ _)
  · exact h.of_kept (State.writeThm_kept (.refl _) _ _)
  · exact h.of_kept (State.writeMem_kept (.refl _) _ _)
  · exact State.writeLnk_locked h off v
  · exact State.writeLnk_locked h off v
  · exact h

/-- No write of any function changes what the seal locks. -/
theorem State.writeBar0_locked (fn off v : Nat) : u.Locked (s.writeBar0 fn off v) := by
  have awake : u.Locked s.wakeDeep := h.of_kept (State.wakeDeep_kept (.refl _))
  have page (p o : Nat) (virt : Bool) : u.Locked (s.wakeDeep.writePage p o v virt) :=
    awake.of_kept (State.writePage_kept (.refl _) _ _ _ _)
  refine State.ite_locked h (State.ite_locked (State.ite_locked (State.writeGlobal_locked awake off v) ?_)
    (State.ite_locked (page fn off true) awake))
  split
  · exact State.ite_locked awake (page _ _ false)
  · exact awake

end

end Sys2Proof.Machine

section
open Sys2Proof Sys2Proof.Machine

/-- Settles O44: every register write keeps the locked fields of a sealed state. -/
theorem sealLocksConfiguration : Obligations.SealLocksConfiguration := by
  intro s t fn off v hsealed hstep
  cases hstep
  exact State.writeBar0_locked (u := s) ⟨hsealed, rfl, rfl, rfl, rfl, rfl, rfl⟩ fn off v.toNat
end

/-! SUPPORT. The pair (R535 to R541, R544). -/

namespace Sys2Proof.Machine

section
variable {s t : State}

/-- The acts of a partition that takes a claim change partitions alone. -/
theorem State.claimActs_eq (l : List Nat) (s : State) :
    ∃ ps, l.foldl (fun (t : State) n => t.onCyc t.pair.part n Cyclic.claimed) s = { s with parts := ps } := by
  induction l generalizing s with
  | nil => exact ⟨_, rfl⟩
  | cons n l ih =>
    obtain ⟨ps, h⟩ := ih (s.onCyc s.pair.part n Cyclic.claimed)
    exact ⟨ps, h⟩

/-- An event of the pair changes partitions alone. -/
theorem State.pairEvent_eq (code : Nat) (data : List Byte) : ∃ ps, s.pairEvent code data = { s with parts := ps } := by
  unfold State.pairEvent State.raiseBoth
  split <;> exact ⟨_, rfl⟩

/-- Where the state of a paired act is taken from: the warm copy, or the newer save slot that passes the checks of its load (R541). -/
def State.loadSource (s : State) (p : Nat) (c : Cyclic) (a b : HostRead) : Option (Nat × Nat × List Byte) :=
  if s.pair.warm && c.warm.isSome then
    some (1, c.warm.getD 0, (c.entries 4).flatMap (fun r => s.peekVa p (r.va0 + r.len) r.len))
  else (newerSave (saveOk (regionLen c.regions [4]) a) (saveOk (regionLen c.regions [4]) b)).map (fun x => (0, x.1, x.2))

/-- A paired act with its state loaded from a source, or starting anew. -/
def State.laid (s : State) (p n : Nat) (c : Cyclic) (src : Option (Nat × Nat × List Byte)) : State :=
  let s := match src with
    | some x => s.layState p c.lanes false (c.entries 4) x.2.2
    | none => s
  let s := s.onCyc p n (fun x => { x with loading := false, miss := false, stateFrom := src.map (fun y => y.2.1), next := x.firstAfter s.now })
  match src with
  | some x => s.actEvent p n 0x76 x.1 x.2.1
  | none => s.actEvent p n 0x76 2 (2 ^ 64 - 1)

/-- Outside warm mode, or without a copy, the save slots are the source. -/
theorem State.loadSource_save {p : Nat} {c : Cyclic} (h : s.pair.warm = false ∨ c.warm = none) (a b : HostRead) : s.loadSource p c a b =
    (newerSave (saveOk (regionLen c.regions [4]) a) (saveOk (regionLen c.regions [4]) b)).map (fun x => (0, x.1, x.2)) :=
  if_neg (by rcases h with h | h <;> simp [h])

/-- The load of a paired act's state that is due, where the three host reads succeed and no image is published. -/
theorem exec_stateLoaded {n past : Nat} {c : Cyclic} {a b img : HostRead} (hc : (s.act s.pair.part n).cyc = some c)
    (hl : c.loading = true) (hp : c.paired = true) (hrole : s.pair.role = .active) (hup : s.host.up = true)
    (hread : ∀ r ∈ [a, b, img], readFails r = false) (himg : imageOf img = none)
    (hpast : past = if s.now < c.publishUs * 1000 ∨ c.periodUs = 0 then 0 else (s.now - c.publishUs * 1000) / (c.periodUs * 1000))
    (ht : t = s.publishHeld s.pair.part n (Nat.max (c.pubCycle + 1) past)) :
    exec (.stateLoaded n a b img) s = .next (t.laid s.pair.part n c (t.loadSource s.pair.part c a b)) := by
  have gives (r : HostRead) : s.hostGives r = r := if_pos hup
  have reads : [a, b, img].foldl (fun (t : State) r => if readFails r then t.countRdErr s.pair.part else t) s = s := by
    simp [hread a, hread b, hread img]
  have due : ¬(!c.loading || !c.paired || s.pair.role != .active) = true := by simp [hl, hp, hrole]
  have now : (if (decide (s.now < c.publishUs * 1000) || decide (c.periodUs = 0)) = true then 0 else
      (s.now - c.publishUs * 1000) / (c.periodUs * 1000)) = past := by
    rw [hpast]
    simp only [Bool.or_eq_true, decide_eq_true_eq]
  subst ht
  change execStateLoaded n a b img s = _
  simp only [execStateLoaded, gives, hc, due, reads, himg, now]
  rfl

end

end Sys2Proof.Machine

section
open Sys2Proof Sys2Proof.Machine

/-- Settles O51: each command of the pair from the state in which it is due, and the gate. -/
theorem pairCommandsComplete : Obligations.PairCommandsComplete := by
  refine ⟨fun s w v h8 hw => ⟨fun hsealed => ?_, fun hsealed h31 h30 hoff => ?_⟩, fun s hr hn => ?_,
    fun s hrole hat => ⟨fun hp => ?_, fun hp => ?_⟩, fun s hrole => congrArg Host.Outcome.next (if_neg hrole), fun s hrole => ?_,
    fun s w h8 hw => ⟨fun hrole => ?_, fun hrole => ?_⟩, fun s w h8 hw hrole => ?_,
    fun s t n past c a b img hc hl hp hrole hup hread himg hpast ht hwarm => ⟨fun hnone => ?_, fun k st u hsome hu => ?_⟩,
    fun a b => rfl, fun s t n c m hwarm hrole hn hc hp hlen ht => ?_, fun s p n k c held img hc hp hgate => ?_⟩
  · refine congrArg Host.Outcome.next ((if_pos h8).trans ?_)
    rw [← hw]
    exact if_pos (by rw [hw]; simpa using hsealed)
  · refine congrArg Host.Outcome.next ((if_pos h8).trans ?_)
    rw [← hw]
    have unsealed : w.sec.sealed = false := by rw [hw]; simpa using hsealed
    have off : w.pair.enable = false := by rw [hw]; simpa using hoff
    simp [State.writePairCfg, unsealed, off, bitOf, h31, h30]
  · exact congrArg Host.Outcome.next (if_pos (by simp [hr, hn]))
  · exact congrArg Host.Outcome.next ((if_neg (by simp [hrole, hat])).trans (if_pos hp))
  · let u : State := { s with pair := { s.pair with role := .active, takeovers := satTo 16 (s.pair.takeovers + 1) } }
    obtain ⟨ps, hacts⟩ := State.claimActs_eq u.pairedSlots u
    have run : ∃ data, exec .claimCheck s =
        .next ((u.pairedSlots.foldl (fun (t : State) n => t.onCyc t.pair.part n Cyclic.claimed) u).pairEvent 0x73 data) :=
      ⟨_, congrArg Host.Outcome.next ((if_neg (by simp [hrole, hat])).trans (if_neg (ne_true_of_eq_false hp)))⟩
    obtain ⟨data, run⟩ := run
    obtain ⟨qs, hevent⟩ := (u.pairedSlots.foldl (fun (t : State) n => t.onCyc t.pair.part n Cyclic.claimed) u).pairEvent_eq 0x73 data
    refine ⟨_, run, ?_⟩
    rw [hevent, hacts]
    exact ⟨rfl, rfl, rfl, rfl⟩
  · let u : State := { s with pair := { s.pair with
      partner := true, partnerSeen := true, role := .standby, own := false, collisions := satTo 16 (s.pair.collisions + 1) } }
    obtain ⟨ps, h1⟩ := u.idlePaired.pairEvent_eq 0x75 (toLe 1 2)
    obtain ⟨qs, h2⟩ := (u.idlePaired.pairEvent 0x75 (toLe 1 2)).pairEvent_eq 0x74 (toLe 1 2)
    obtain ⟨-, -, -, -, -, kept, own⟩ := State.idlePaired_kept (State.Kept.refl u)
    refine ⟨(u.idlePaired.pairEvent 0x75 (toLe 1 2)).pairEvent 0x74 (toLe 1 2), congrArg Host.Outcome.next (if_pos hrole), ?_⟩
    rw [h2, h1]
    exact ⟨congrArg Pair.role kept, own rfl, congrArg Pair.collisions kept, congrArg Pair.partner kept⟩
  · refine congrArg Host.Outcome.next ((if_pos h8).trans ?_)
    rw [← hw]
    exact if_pos (by rw [hw]; simpa using hrole)
  · refine congrArg Host.Outcome.next ((if_pos h8).trans ?_)
    rw [← hw]
    exact if_neg (by rw [hw]; simpa using hrole)
  · refine congrArg Host.Outcome.next ((if_pos h8).trans ?_)
    rw [← hw]
    exact if_pos (by rw [hw]; simpa using hrole)
  · rw [exec_stateLoaded hc hl hp hrole hup hread himg hpast ht, State.loadSource_save hwarm, hnone]
    rfl
  · subst hu
    rw [exec_stateLoaded hc hl hp hrole hup hread himg hpast ht, State.loadSource_save hwarm, hsome]
    rfl
  · subst hn ht
    have takes : ¬(!s.pair.warm || s.pair.role == .active) = true := by simp [hwarm, hrole]
    have whole : ¬(!c.paired || (true && decide (m.length < 32))) = true := by simp [hp, hlen]
    refine congrArg Host.Outcome.next ((if_neg takes).trans ?_)
    simp only [if_true, hc, whole]
    rfl
  · have shut : (c.paired && !s.pair.gate) = true := by
      unfold Pair.gate
      rcases hgate with h | h <;> simp [hp, h]
    simp only [State.publish, hc, shut, if_true]
end

/-! SUPPORT. Start-up (R487 to R491, R495). -/

namespace Sys2Proof.Machine

section
variable {s t u : State}

/-- A change of the module's state: of the start-up block it sets the state, the attempts, SAFE's cause, what the banks reached and the
alert causes. -/
theorem State.setModule_frame (st : ModSt) : ∃ a c f k own ps, s.setModule st = { s with
    boot := { s.boot with st := st, attempts := a, safeCause := c, fw := f, causes := k }
    pair := { s.pair with own := own }
    parts := ps } := by
  unfold State.setModule
  split
  · next h =>
    subst h
    exact ⟨_, _, _, _, _, _, rfl⟩
  · exact ⟨_, _, _, _, _, _, rfl⟩

/-- A fall-back is reported, or held until the host port is there. -/
theorem State.hold_frame (code : Nat) (data : List Byte) :
    ∃ held ps, s.hold code data = { s with boot := { s.boot with held := held }, parts := ps } := by
  unfold State.hold
  split <;> exact ⟨_, _, rfl⟩

/-- Training of a link port is of the links alone. -/
theorem State.tryTrain_frame (n : Nat) : ∃ l, s.tryTrain n = { s with links := l } := by
  unfold State.tryTrain
  split <;> exact ⟨_, rfl⟩

theorem State.foldl_tryTrain_frame (l : List Nat) (s : State) :
    ∃ k, l.foldl (fun (t : State) n => t.tryTrain n) s = { s with links := k } := by
  induction l generalizing s with
  | nil => exact ⟨_, rfl⟩
  | cons n l ih =>
    obtain ⟨k, h⟩ := s.tryTrain_frame n
    obtain ⟨m, hm⟩ := ih (s.tryTrain n)
    rw [List.foldl_cons, hm, h]
    exact ⟨m, rfl⟩

/-- The banner is output of the monitor. -/
theorem State.banner_keeps : s.banner.sec = s.sec ∧ s.banner.thermal = s.thermal := by
  unfold State.banner
  split <;> exact ⟨rfl, rfl⟩

/-- How far start-up is, as a review of health leaves it. -/
def State.SameStep (s t : State) : Prop :=
  t.boot.st = s.boot.st ∧ t.boot.served = s.boot.served ∧ t.boot.stepEight = s.boot.stepEight

theorem State.SameStep.refl (s : State) : s.SameStep s := ⟨rfl, rfl, rfl⟩

theorem State.SameStep.trans (h : s.SameStep t) (k : t.SameStep u) : s.SameStep u := by
  obtain ⟨h1, h2, h3⟩ := h
  obtain ⟨k1, k2, k3⟩ := k
  exact ⟨k1.trans h1, k2.trans h2, k3.trans h3⟩

theorem State.SameStep.healthLow (s : State) : s.SameStep s.healthLow := ⟨rfl, rfl, rfl⟩

theorem State.SameStep.checkExpel (s : State) : s.SameStep s.checkExpel := by
  have found : s.SameStep (match s.expelWhy with
      | some c =>
        if s.health.expelled then { s with health := { s.health with expelCause := c } }
        else ({ s with health := { s.health with expelled := true, expelCause := c } } : State).healthLow
      | none => s) := by
    split
    · split
      · exact ⟨rfl, rfl, rfl⟩
      · exact ⟨rfl, rfl, rfl⟩
    · exact refl s
  unfold State.checkExpel
  split
  case h_5 => exact refl s
  all_goals exact found

theorem State.SameStep.reviewHealth (s : State) (forced : Bool) : s.SameStep (s.reviewHealth forced) := by
  have scored : s.SameStep s.rescore := ⟨rfl, rfl, rfl⟩
  unfold State.reviewHealth
  dsimp only
  split
  · exact (scored.trans (.healthLow _)).trans (.checkExpel _)
  · exact scored.trans (.checkExpel _)

/-- The end of start-up in READY or DEGRADED. -/
theorem State.startupEnds_ready {st : ModSt} (h : st ≠ .safe) (cause : Nat) : (s.startupEnds st cause).boot.st = st ∧
    (s.startupEnds st cause).boot.served = true ∧ (s.startupEnds st cause).boot.stepEight = true := by
  unfold State.startupEnds
  rw [if_neg h]
  generalize s.writeBack = w
  obtain ⟨a, c, f, k, own, ps, hset⟩ := State.setModule_frame (s := { w with boot := { w.boot with
    served := true, stepEight := true, readyMs := satTo 16 ((w.now - w.boot.busPowerAt) / 10000000) } }) st
  have same := State.SameStep.reviewHealth (State.setModule { w with boot := { w.boot with
    served := true, stepEight := true, readyMs := satTo 16 ((w.now - w.boot.busPowerAt) / 10000000) } } st) false
  obtain ⟨hst, hserved, hstep⟩ := same
  exact ⟨hst.trans (by rw [hset]), hserved.trans (by rw [hset]), hstep.trans (by rw [hset])⟩

/-- A module whose guard ROM is ready, and whose active bank is good, boots it. -/
theorem State.bootGuard_active (hg : (s.fwTarget 0).good (s.fwTarget 0).active = true) (ha : s.boot.attempts < 3) :
    s.bootGuard = State.layer { s with
      boot := { s.boot with attempts := s.boot.attempts + 1, guardAt := some s.now, guardFallback := false } } :=
  if_pos (by simp [hg, ha])

/-- The input switch closes once precharge is done, and the module is in GUARD_BOOT. -/
def State.precharged (s : State) (dv nodeDv : Nat) : State :=
  if s.boot.st = .precharge && s.power.prechg && dv ≤ nodeDv + 200 && nodeDv ≤ dv + 200 then
    ({ s with power := { s.power with switchOn := true, rails := updAt s.power.rails 0 (fun _ => .good) } }).setModule .guardBoot
  else s

/-- The guard boots where its ROM is ready, with no reset announced. -/
theorem exec_guardBoot {dv nodeDv : Nat} (h : s.boot.resetAt = none) (hr : (s.precharged dv nodeDv).romReady = true) :
    exec (.guardBoot dv nodeDv) s = .next (s.precharged dv nodeDv).bootGuard := by
  have course : execGuardBoot dv nodeDv s = .next (if (s.precharged dv nodeDv).romReady then (s.precharged dv nodeDv).bootGuard
      else s.precharged dv nodeDv) := by
    simp only [execGuardBoot, h]
    rfl
  exact course.trans (congrArg Host.Outcome.next (if_pos hr))

end

end Sys2Proof.Machine

section
open Sys2Proof Sys2Proof.Machine

/-- Settles O3: each step of start-up from the state in which it is due. -/
theorem startUpStepsComplete : Obligations.StartUpStepsComplete := by
  refine ⟨fun s dv nodeDv hr hg ha => ?_, fun s dv nodeDv hst hpre hdv hnode hat hsvc hres hrails hg ha => ?_, fun s hst hat hrails => ?_,
    fun s hst hg => ?_, fun s hst hg hf ho => ?_, fun s ports bulk hst hd => ?_, fun s tiles slices hst hports hfail => ?_,
    fun s t₀ hst hat ht => ?_, fun s hup hres => ⟨?_, ?_⟩, fun s us hus hlow hchain hup hres => ?_,
    fun s => rfl, fun s hs ht => ⟨?_, ?_, ?_⟩,
    fun s hs h8 hst => ?_⟩
  · have ready := hr
    simp only [State.romReady, Bool.and_eq_true, beq_iff_eq, Option.isNone_iff_eq_none] at ready
    obtain ⟨⟨⟨⟨hst, -⟩, -⟩, hres⟩, -⟩ := ready
    have stays : s.precharged dv nodeDv = s := if_neg (by simp [hst])
    rw [exec_guardBoot hres (by rwa [stays]), stays, State.bootGuard_active hg ha]
  · let w : State := { s with power := { s.power with switchOn := true, rails := updAt s.power.rails 0 (fun _ => .good) } }
    obtain ⟨own, b, ps, hset, hb, -, -⟩ := w.setModule_guardBoot
    have enters : s.precharged dv nodeDv = { w with boot := b, pair := { w.pair with own := own }, parts := ps } :=
      (if_pos (by simp [hst, hpre, hdv, hnode])).trans hset
    have drop : (updAt s.power.rails 0 (fun _ => RailSt.good)).drop 1 = s.power.rails.drop 1 := by
      cases s.power.rails <;> rfl
    have ready : (s.precharged dv nodeDv).romReady = true := by
      rw [enters, hb]
      simp only [State.romReady, w, hat, hsvc, hres, drop, hrails]
      rfl
    have active : ((s.precharged dv nodeDv).fwTarget 0).good ((s.precharged dv nodeDv).fwTarget 0).active = true := by
      rw [enters, hb]
      exact hg
    have attempts : (s.precharged dv nodeDv).boot.attempts < 3 := by
      rw [enters, hb]
      exact ha
    refine ⟨_, exec_guardBoot hres ready, ?_⟩
    rw [State.bootGuard_active active attempts, enters, hb]
    exact ⟨rfl, rfl, rfl, rfl, rfl, rfl⟩
  · obtain ⟨a, c, f, k, own, ps, hset⟩ := State.setModule_frame (s := { s with
      fabric := { s.fabric with locked := 0x3FFFFFF }, sec := { s.sec with heartbeatAt := s.now }, boot := { s.boot with guardUp := true } })
      .stewardBoot
    refine ⟨_, congrArg Host.Outcome.next ((if_pos (by simp [hst, hat, hrails])).trans hset), rfl, rfl, rfl, rfl, rfl, rfl, rfl⟩
  · let w : State := { s with
      sec := { s.sec with steward := true, heartbeatAt := s.now }
      power := { s.power with doms := s.power.doms.map (fun d => { d with wantSt := .run, wantCode := 0x48 }) }
      boot := { s.boot with served := true } }
    obtain ⟨l, htrain⟩ := State.foldl_tryTrain_frame (List.range 8) (w.setModule .train).resolveLevels
    obtain ⟨a, c, f, k, own, ps, hset⟩ := w.setModule_frame .train
    refine ⟨_, congrArg Host.Outcome.next ((if_pos (by simp [hst, hg])).trans htrain), ?_, ?_, ?_, rfl⟩
    · change (w.setModule .train).resolveLevels.boot.st = _
      rw [State.resolveLevels_boot, hset]
    · change (w.setModule .train).resolveLevels.boot.served = _
      rw [State.resolveLevels_boot, hset]
    · change (w.setModule .train).resolveLevels.sec = _
      rw [State.resolveLevels_sec, hset]
  · obtain ⟨held, ps, hheld⟩ := State.hold_frame (s := { s.onFw 1 FwTarget.switched with
      boot := { (s.onFw 1 FwTarget.switched).boot with stewardFallback := true }
      sec := { (s.onFw 1 FwTarget.switched).sec with heartbeatAt := s.now } }) 0x85 (toLe 1 1 ++
        toLe 1 (b2n (({ s.onFw 1 FwTarget.switched with
          boot := { (s.onFw 1 FwTarget.switched).boot with stewardFallback := true }
          sec := { (s.onFw 1 FwTarget.switched).sec with heartbeatAt := s.now } } : State).fwTarget 1).activeB))
    refine ⟨_, congrArg Host.Outcome.next ((if_neg (by simp [hst, hg])).trans ((if_pos (by simp [hf, ho])).trans hheld)), hst, rfl, rfl, rfl⟩
  · let w : State := { s with boot := { s.boot with trained := ports % 65536 + bulk % 256 * 65536 } }
    let m := ((List.range 24).filter (fun i => !(ports % 65536 + bulk % 256 * 65536).testBit i)).foldl
      (fun (t : State) i => t.portLost i) w
    have kept : w.Kept m := State.foldl_kept _ _ (.refl w) fun t i h => State.portLost_kept h i
    obtain ⟨-, -, -, -, htrained, -, -⟩ := kept
    obtain ⟨a, c, f, k, own, ps, hset⟩ := m.setModule_frame .selftest
    exact ⟨_, congrArg Host.Outcome.next ((if_neg (by simp [hst, hd])).trans hset), rfl, htrained⟩
  · let w := (List.range 24).foldl (fun (t : State) i => t.passSlice i (!slices.contains i))
      ((List.range 64).foldl (fun (t : State) i => t.passTile i (!tiles.contains i)) s)
    have kept : s.Kept w := State.foldl_kept _ _ (State.foldl_kept _ _ (.refl s) fun t i h => State.passTile_kept h _ _)
      fun t i h => State.passSlice_kept h _ _
    obtain ⟨-, -, -, -, htrained, -, -⟩ := kept
    have passes : ¬(decide (((List.range 16).filter (fun i => w.boot.trained.testBit i)).length < 8) ||
        decide (((List.range 64).filter tiles.contains).length > 32)) = true := by
      rw [htrained]
      simp only [Bool.or_eq_true, decide_eq_true_eq]
      omega
    have ends : ∃ st : ModSt, (st = .ready ∨ st = .degraded) ∧ exec (.selftestPassDone tiles slices) s =
        .next (w.startupEnds st 0).resolveLevels := by
      refine ⟨if ((List.range 64).filter tiles.contains).length > 0 || w.hurt then .degraded else .ready, ?_, ?_⟩
      · split
        · exact .inr rfl
        · exact .inl rfl
      · exact congrArg Host.Outcome.next ((if_neg (by simp [hst])).trans (congrArg State.resolveLevels (if_neg passes)))
    obtain ⟨st, hready, run⟩ := ends
    have live : st ≠ .safe := by
      rintro rfl
      simp at hready
    obtain ⟨hboot, hserved, hstep⟩ := w.startupEnds_ready live 0
    refine ⟨_, run, ?_⟩
    rw [State.resolveLevels_boot, hstep, hserved, hboot]
    exact ⟨rfl, rfl, hready⟩
  · have due : execGuardWatchdog s = .next (if decide (s.boot.st = .guardBoot) && decide (s.now ≥ t₀ + 150000000) then s.moduleReset else s) := by
      simp only [execGuardWatchdog, hat]
    exact due.trans (congrArg Host.Outcome.next (if_pos (by simp [hst, ht])))
  · exact congrArg Host.Outcome.next ((if_neg (by simp [hup])).trans ((if_pos rfl).trans (State.announceReset_none hres)))
  · exact congrArg Host.Outcome.next ((if_neg (by simp [hup])).trans (if_neg (by simp)))
  · refine congrArg Host.Outcome.next ((if_neg (by simp [hus, hlow])).trans ((if_pos hchain).trans ((if_pos hup).trans ?_)))
    refine (State.announceReset_none (s := { s with boot := { s.boot with svcLow := true } }) hres).trans ?_
    rw [State.raiseLive_boot]
  · exact congrArg Host.Outcome.next (if_pos (by simp [hs, ht]))
  · rw [State.restartSteward, if_pos hs]
    rfl
  · rw [State.restartSteward, if_pos hs]
    rfl
  · have due : ¬(s.sec.steward || !(s.boot.served || s.boot.stepEight) || (s.boot.st == .safe && s.boot.safeCause == 1) ||
        s.boot.st == .off) = true := by simp [hs, h8, hst]
    obtain ⟨hsec, hthermal⟩ := State.banner_keeps (s := { s.drain with
      sec := { s.sec with steward := true, heartbeatAt := s.now }, thermal := { s.thermal with keepSuspended := s.thermal.emergency } })
    exact ⟨_, congrArg Host.Outcome.next (if_neg due), hsec, hthermal⟩
end
